-- ==== Sys2Proof/Word.lean ====
section
/-!
DEFINITION. The word widths of the part and the 32-lane vectors of a wave (R6, R16, R17).
-/

namespace Sys2Proof

/-- A byte of memory or scratchpad. -/
abbrev Byte := BitVec 8

/-- One 32-bit lane value of a vector register (R74). -/
abbrev Word := BitVec 32

/-- A group-wide register or a system register (R74, R76). -/
abbrev Dword := BitVec 64

/-- One bit per logical lane: bit l stands for lane l (R74). -/
abbrev Mask := BitVec 32

/-- An instruction address: segment number in [31:24], byte offset in [23:0] (R97). -/
abbrev IAddr := BitVec 32

/-- One value per logical lane of a wave (R17). -/
abbrev Lanes := Vector Word 32

/-- The 96 bits of an instruction slot, bit 0 the least significant bit of the first word (R39). -/
abbrev Slot := BitVec 96

/-- The logical lanes in ascending order (R10). -/
def laneList : List Nat :=
  [0, 1, 2, 3, 4, 5, 6, 7, 8, 9, 10, 11, 12, 13, 14, 15,
   16, 17, 18, 19, 20, 21, 22, 23, 24, 25, 26, 27, 28, 29, 30, 31]

/-- The vector whose lane l is `f l`. -/
def Lanes.of (f : Nat → Word) : Lanes :=
  ⟨(laneList.map f).toArray, by simp [laneList]⟩

/-- Lane `l` of a vector; a number that is no lane reads 0. -/
def Lanes.at (x : Lanes) (l : Nat) : Word := x.toArray.toList.getD l 0

/-- The vector that holds `x` in every lane. -/
def Lanes.splat (x : Word) : Lanes := Lanes.of fun _ => x

end Sys2Proof
end

