-- ==== Sys2Proof/Syntax.lean ====
section
/-!
DEFINITION. The part's steps: one constructor of `Instr` per row of the table of operations and events.
An instruction carries the fields of its format as R43 to R48 lay them out, reserved bits included, so that the
96 bits of a slot and the instruction determine each other; an event carries what names the place it acts on.
-/

namespace Sys2Proof

/-- The fields at [55:40] of every format (R40). -/
structure Common where
  rsv : BitVec 2
  pin : Bool
  yld : Bool
  stall : BitVec 4
  gn : Bool
  gp : BitVec 7
deriving DecidableEq, Repr

/-- The V (register) format (R43). -/
structure VF where
  com : Common
  d : BitVec 10
  a : BitVec 10
  b : BitVec 10
  c : BitVec 10
  ty : BitVec 4
  round : BitVec 3
  sat : Bool
  neg : BitVec 3
  abs : BitVec 2
  sub : BitVec 8
  rsv : BitVec 9
deriving DecidableEq, Repr

/-- The I (immediate) format (R44). -/
structure IF where
  com : Common
  d : BitVec 10
  a : BitVec 10
  sub : BitVec 10
  imm : BitVec 32
  ty : BitVec 4
  flags : BitVec 4
deriving DecidableEq, Repr

/-- The M (memory) format (R45). -/
structure MF where
  com : Common
  d : BitVec 10
  a : BitVec 10
  b : BitVec 10
  offset : BitVec 24
  size : BitVec 4
  scope : BitVec 3
  stream : BitVec 3
  order : BitVec 2
  cache : BitVec 4
deriving DecidableEq, Repr

/-- The B (branch) format (R46). -/
structure BF where
  com : Common
  target : BitVec 30
  reconv : BitVec 32
  sub : BitVec 8
deriving DecidableEq, Repr

/-- The X (matrix stream) format (R47). -/
structure XF where
  com : Common
  tile : BitVec 7
  bufA : BitVec 4
  bufB : BitVec 4
  bufO : BitVec 4
  asrc : BitVec 2
  bsrc : BitVec 2
  ga : BitVec 5
  rsvLow : BitVec 2
  gb : BitVec 5
  gs : BitVec 5
  fmt : BitVec 4
  va : BitVec 10
  vb : BitVec 10
  wv : BitVec 5
  rsvHigh : Bool
deriving DecidableEq, Repr

/-- The S (system) format (R48). -/
structure SF where
  com : Common
  d : BitVec 10
  a : BitVec 10
  sub : BitVec 10
  sysreg : BitVec 16
  rsv : BitVec 24
deriving DecidableEq, Repr

/-- The operations the opcode map names, each whatever its form (R55 to R60). -/
inductive Op where
  | iadd | isub | imul | imulh | imulw | imad | ilea | imin | imax | iabs | ineg | isad | idiv | irem | icmp
  | andBits | orBits | xorBits | notBits | bfn3 | shl | shr | rotl | fshl | bfx | bfi | popc | clz | brev | prmb | mov | sel
  | fadd | fsub | fmul | fma | fmin | fmax | fmed3 | fcmp | fdiv | frcp | fsqrt | frsq | fexp2 | flog2 | fsin | fcos | fclass | fcps | fscl | frnd
  | cvt | pack | unpk | qnt | dqnt | fdot2 | idot4 | ldot
  | shfl | swz | vote | ballot | matchLanes | elect | flane | redi | redf | scani | scanf | scanp | cmpct | expnd
  | rdlane | wrlane | bcst | plop | pcnt | p2r | movrp | shpq | shpx | shpc | fmtq | fmts | near | actq | deadq | poisq
  | ld | st | ldc | stc | ldg | pref
  | cbnd | cadd | cset | cperm | cseal | cunsl | cget | ctest | cmov
  | lds | sts | ldfe | stfe | feset | feq | atoms | cass | binit
  | arrive | wait | trywait | bar
  | atom | red | cas | fence | spawn | gbar
  | mfence | nbar | nbwait | zread | zwrite | badv | bqry
  | rng | rngf | rngadv | rngld | rngst | rngq
  | bra | brx | call | callx | ret | exit | recon | loop | endl | breakLoop
  | jseg | segld | segdrop | segq | nop | yield | live
  | mma | mmas | zld | zst | zclr | bwait | bfree | nbsig | nbsw | sloop | sendl | send | snop
  | invk | chstat | chwait | chcan | cbseal | cbchk
  | trap | bkpt | movw | emret | tret | srd | swr | zemu
deriving DecidableEq, Repr

/-- A group-wide ALU code (R57): the operation of a vector code, in register or immediate form. -/
inductive GwForm where
  | reg (op : Op) (f : VF)
  | imm (op : Op) (f : IF)
deriving DecidableEq, Repr

/-- The engines that stop on a partition halt line (R360, R361). -/
inductive EngineId where
  | waveCore (core : Nat)
  | matrix (core : Nat)
  | copy (group : Nat)
  | save (group : Nat)
  | distributor (die : Nat)
deriving DecidableEq, Repr

/-- Where an uncorrectable error arises (R181, R221, R248, R286, R362, R365). -/
inductive ErrorPlace where
  | vector (core slot reg lane : Nat)
  | predicate (core slot reg : Nat)
  | group (core slot reg : Nat)
  | groupPredicate (core slot reg : Nat)
  /-- a program counter, a mask or tags; a stack; the generator; the system registers -/
  | control (core slot : Nat)
  | stack (core slot : Nat)
  | generator (core slot : Nat)
  | systemRegister (core slot : Nat)
  /-- logic of a die that serves every partition (R33) -/
  | shared (die : Nat)
  | scratchWord (core bslot word : Nat)
  | scratchBit (core bslot word : Nat)
  | tile (core bslot tile : Nat)
  | sequencer (core bslot : Nat)
  | memory (unit : Nat)
  /-- a copy of a lane's computation that differs from the others, met by the next instruction; lane 32 stands for the
  scalar unit (R176, R177) -/
  | upset (core copy lane : Nat)
deriving DecidableEq, Repr

/-- A flit on a Loess port (R333): its header, its payload, and its trailer with the CRC it carries and the reserved bits 255:155. -/
structure Flit where
  seq : BitVec 16
  ack : BitVec 16
  ddev : Byte
  sdev : Byte
  col : Byte
  ord : Byte
  kind : Byte
  rtag : BitVec 40
  payload : List Byte
  ctag : BitVec 13
  cot : BitVec 78
  crc : BitVec 64
  reserved : BitVec 101
deriving DecidableEq, Repr

/-- The steps of the part: its instructions and its events. -/
inductive Instr where
  /-- IADD (R131): Adds A and B per active lane, wrapping or saturating to the type. -/
  | iadd (f : VF)
  /-- IADD_IMM (R56): Immediate form of IADD, with B replaced by the uniform immediate. -/
  | iaddImm (f : IF)
  /-- ISUB (R131): Subtracts B from A per active lane. -/
  | isub (f : VF)
  /-- ISUB_IMM (R56): Immediate form of ISUB. -/
  | isubImm (f : IF)
  /-- IMUL (R131): Multiplies A by B per lane and keeps the low bits or saturates. -/
  | imul (f : VF)
  /-- IMUL_IMM (R56): Immediate form of IMUL. -/
  | imulImm (f : IF)
  /-- IMULH (R131): Writes the high half of the product of A and B. -/
  | imulh (f : VF)
  /-- IMULH_IMM (R56): Immediate form of IMULH. -/
  | imulhImm (f : IF)
  /-- IMULW (R131): Writes the full 64-bit product of two 32-bit values to a register pair. -/
  | imulw (f : VF)
  /-- IMAD (R131): Computes a times b plus c per lane, exactly, then wraps or saturates. -/
  | imad (f : VF)
  /-- ILEA (R131): Computes a shifted left by SUB, plus b. -/
  | ilea (f : VF)
  /-- ILEA_IMM (R56): Immediate form of ILEA. -/
  | ileaImm (f : IF)
  /-- IMIN (R131): Writes the integer minimum of A and B. -/
  | imin (f : VF)
  /-- IMIN_IMM (R56): Immediate form of IMIN. -/
  | iminImm (f : IF)
  /-- IMAX (R131): Writes the integer maximum of A and B. -/
  | imax (f : VF)
  /-- IMAX_IMM (R56): Immediate form of IMAX. -/
  | imaxImm (f : IF)
  /-- IABS (R131): Writes the absolute value of a signed integer. -/
  | iabs (f : VF)
  /-- INEG (R131): Writes the negation of a signed integer. -/
  | ineg (f : VF)
  /-- ISAD (R131): Writes |a − b| + c. -/
  | isad (f : VF)
  /-- IDIV (R132): Divides with truncation toward zero, with defined results for division by zero and overflow. -/
  | idiv (f : VF)
  /-- IDIV_IMM (R56): Immediate form of IDIV. -/
  | idivImm (f : IF)
  /-- IREM (R132): Writes the remainder, which takes the sign of the dividend. -/
  | irem (f : VF)
  /-- IREM_IMM (R56): Immediate form of IREM. -/
  | iremImm (f : IF)
  /-- ICMP (R133): Compares integers per lane and writes a predicate. -/
  | icmp (f : VF)
  /-- ICMP_IMM (R56): Immediate form of ICMP. -/
  | icmpImm (f : IF)
  /-- AND (R135): Bitwise AND of A and B. -/
  | andBits (f : VF)
  /-- AND_IMM (R56): Immediate form of AND. -/
  | andImm (f : IF)
  /-- OR (R135): Bitwise OR of A and B. -/
  | orBits (f : VF)
  /-- OR_IMM (R56): Immediate form of OR. -/
  | orImm (f : IF)
  /-- XOR (R135): Bitwise exclusive-OR of A and B. -/
  | xorBits (f : VF)
  /-- XOR_IMM (R56): Immediate form of XOR. -/
  | xorImm (f : IF)
  /-- NOT (R135): Bitwise complement of A. -/
  | notBits (f : VF)
  /-- BFN3 (R135): Applies a three-input bit function, given by its table, in every bit position. -/
  | bfn3 (f : VF)
  /-- SHL (R135): Shifts left by a count. -/
  | shl (f : VF)
  /-- SHL_IMM (R56): Immediate form of SHL. -/
  | shlImm (f : IF)
  /-- SHR (R135): Shifts right, arithmetically for .i types and logically otherwise. -/
  | shr (f : VF)
  /-- SHR_IMM (R56): Immediate form of SHR. -/
  | shrImm (f : IF)
  /-- ROTL (R135): Rotates left by a count. -/
  | rotl (f : VF)
  /-- ROTL_IMM (R56): Immediate form of ROTL. -/
  | rotlImm (f : IF)
  /-- FSHL (R135): Funnel-shifts A:B left and keeps the high word. -/
  | fshl (f : VF)
  /-- BFX (R136): Extracts a bit field, sign- or zero-extended. -/
  | bfx (f : VF)
  /-- BFI (R136): Inserts a bit field of A into C. -/
  | bfi (f : VF)
  /-- POPC (R135): Counts the set bits. -/
  | popc (f : VF)
  /-- CLZ (R135): Counts the leading zero bits. -/
  | clz (f : VF)
  /-- BREV (R135): Reverses the bit order. -/
  | brev (f : VF)
  /-- PRMB (R136): Permutes bytes of A and C under a selector, optionally replicating sign. -/
  | prmb (f : VF)
  /-- PRMB_IMM (R136): Immediate form of PRMB, in which y4–y7 read zero. -/
  | prmbImm (f : IF)
  /-- MOV (R92): Copies a vector register with its shape, as Raw, clearing tags. -/
  | mov (f : VF)
  /-- MOV_IMM (R92): Writes a uniform immediate to a vector register. -/
  | movImm (f : IF)
  /-- MOV_GROUP_WIDE (R92): Copies one group-wide register to another. -/
  | movGroupWide (f : VF)
  /-- MOV_GROUP_WIDE_IMM (R92): Writes an extended immediate to a group-wide register. -/
  | movGroupWideImm (f : IF)
  /-- SEL (R93): Selects A or B per lane under a predicate. -/
  | sel (f : VF)
  /-- SEL_GROUP_WIDE (R93): Selects between group-wide registers under a q predicate. -/
  | selGroupWide (f : VF)
  /-- GROUP_WIDE_ALU (R57): Performs, once per wave on g and q registers, a vector operation that has a group-wide meaning. -/
  | groupWideAlu (f : GwForm)
  /-- FADD (R138): Adds floating values and rounds once. -/
  | fadd (f : VF)
  /-- FADD_IMM (R56): Immediate form of FADD. -/
  | faddImm (f : IF)
  /-- FSUB (R138): Subtracts floating values and rounds once. -/
  | fsub (f : VF)
  /-- FSUB_IMM (R56): Immediate form of FSUB. -/
  | fsubImm (f : IF)
  /-- FMUL (R138): Multiplies floating values and rounds once. -/
  | fmul (f : VF)
  /-- FMUL_IMM (R56): Immediate form of FMUL. -/
  | fmulImm (f : IF)
  /-- FMA (R138): Fused multiply-add with a single rounding. -/
  | fma (f : VF)
  /-- FMIN (R140): Floating minimum, with −0 below +0 and NaN ignored. -/
  | fmin (f : VF)
  /-- FMIN_IMM (R56): Immediate form of FMIN. -/
  | fminImm (f : IF)
  /-- FMAX (R140): Floating maximum, with NaN ignored. -/
  | fmax (f : VF)
  /-- FMAX_IMM (R56): Immediate form of FMAX. -/
  | fmaxImm (f : IF)
  /-- FMED3 (R140): Median of three floating values. -/
  | fmed3 (f : VF)
  /-- FCMP (R142): Floating comparison, ordered or unordered, writing a predicate. -/
  | fcmp (f : VF)
  /-- FCMP_IMM (R56): Immediate form of FCMP. -/
  | fcmpImm (f : IF)
  /-- FDIV (R138): Correctly rounded floating division. -/
  | fdiv (f : VF)
  /-- FRCP (R138): Correctly rounded reciprocal. -/
  | frcp (f : VF)
  /-- FSQRT (R138): Correctly rounded square root. -/
  | fsqrt (f : VF)
  /-- FRSQ (R138): Correctly rounded reciprocal square root. -/
  | frsq (f : VF)
  /-- FEXP2 (R139): Correctly rounded 2^a. -/
  | fexp2 (f : VF)
  /-- FLOG2 (R139): Correctly rounded log2 a. -/
  | flog2 (f : VF)
  /-- FSIN (R139): Correctly rounded sin(πa). -/
  | fsin (f : VF)
  /-- FCOS (R139): Correctly rounded cos(πa). -/
  | fcos (f : VF)
  /-- FCLASS (R143): Writes a class mask for each floating element. -/
  | fclass (f : VF)
  /-- FCPS (R141): Gives A the sign of B. -/
  | fcps (f : VF)
  /-- FCPS_IMM (R56): Immediate form of FCPS. -/
  | fcpsImm (f : IF)
  /-- FSCL (R141): Scales by 2^n and rounds. -/
  | fscl (f : VF)
  /-- FSCL_IMM (R56): Immediate form of FSCL. -/
  | fsclImm (f : IF)
  /-- FRND (R141): Rounds to an integral value in the mode. -/
  | frnd (f : VF)
  /-- CVT (R145): Converts one value, or one packed element, between types. -/
  | cvt (f : VF)
  /-- CVT_GROUP_WIDE (R145): Converts a group-wide value between scalar types. -/
  | cvtGroupWide (f : VF)
  /-- PACK (R146): Converts a group of registers into one packed register. -/
  | pack (f : VF)
  /-- UNPK (R146): Expands a packed register into a group of registers. -/
  | unpk (f : VF)
  /-- QNT (R147): Quantises FP32 values under an affine pair into packed codes. -/
  | qnt (f : VF)
  /-- DQNT (R147): Restores FP32 values from packed codes under an affine pair. -/
  | dqnt (f : VF)
  /-- FDOT2 (R148): Two-element half-precision dot product plus an FP32 accumulator, rounded once. -/
  | fdot2 (f : VF)
  /-- IDOT4 (R148): Exact packed-integer dot product plus an accumulator. -/
  | idot4 (f : VF)
  /-- LDOT (R148): Exact L6 dot product of terms plus an accumulator. -/
  | ldot (f : VF)
  /-- SHFL (R152): Moves values between lanes by index, up, down or butterfly. -/
  | shfl (f : VF)
  /-- SHFL_IMM (R152): Immediate form of SHFL. -/
  | shflImm (f : IF)
  /-- SWZ (R152): Permutes lanes within groups of four by a pattern. -/
  | swz (f : VF)
  /-- VOTE (R155): Writes the ALL, ANY or UNI vote of a predicate over the active lanes. -/
  | vote (f : VF)
  /-- BALLOT (R155): Writes the mask of active lanes whose predicate is set. -/
  | ballot (f : VF)
  /-- MATCH (R155): Writes, per lane, the mask of active lanes holding an equal value. -/
  | matchLanes (f : VF)
  /-- ELECT (R155): Sets the predicate in the lowest active lane only. -/
  | elect (f : VF)
  /-- FLANE (R155): Writes the lowest or highest active lane whose predicate is set. -/
  | flane (f : VF)
  /-- REDI (R157): Exact integer reduction over the active lanes. -/
  | redi (f : VF)
  /-- REDF (R158): Floating reduction over a fixed binary tree of lanes. -/
  | redf (f : VF)
  /-- SCANI (R157): Exact inclusive or exclusive integer scan. -/
  | scani (f : VF)
  /-- SCANF (R159): Sequential floating scan in ascending lane order. -/
  | scanf (f : VF)
  /-- SCANP (R159): Counts the set predicates up to each lane. -/
  | scanp (f : VF)
  /-- CMPCT (R160): Gathers the selected values into the lowest active lanes. -/
  | cmpct (f : VF)
  /-- EXPND (R160): Scatters compacted values back to the selected lanes. -/
  | expnd (f : VF)
  /-- RDLANE (R162): Reads one lane of a vector register into a group-wide register. -/
  | rdlane (f : VF)
  /-- RDLANE_IMM (R162): Immediate-lane form of RDLANE. -/
  | rdlaneImm (f : IF)
  /-- WRLANE (R162): Writes a group-wide value into one lane. -/
  | wrlane (f : VF)
  /-- WRLANE_IMM (R162): Immediate-lane form of WRLANE. -/
  | wrlaneImm (f : IF)
  /-- BCST (R162): Broadcasts a group-wide value to every active lane. -/
  | bcst (f : VF)
  /-- PLOP (R164): Applies a three-input function to predicates. -/
  | plop (f : VF)
  /-- PLOP_GROUP_WIDE (R164): Applies a three-input function to q predicates. -/
  | plopGroupWide (f : VF)
  /-- PCNT (R164): Counts the active lanes whose predicate is set. -/
  | pcnt (f : VF)
  /-- P2R (R164): Packs 32 predicates into register bits. -/
  | p2r (f : VF)
  /-- MOVRP (R164): Moves register bits into 32 predicates. -/
  | movrp (f : VF)
  /-- SHPQ (R166): Writes the shape code of a register. -/
  | shpq (f : VF)
  /-- SHPX (R166): Expands a U or A register to G. -/
  | shpx (f : VF)
  /-- SHPC (R166): Retags a G register as U or A where its lanes allow. -/
  | shpc (f : VF)
  /-- FMTQ (R166): Writes the format code of a register. -/
  | fmtq (f : VF)
  /-- FMTS (R166): Sets the format tag of a register. -/
  | fmts (f : VF)
  /-- NEAR (R88): Selects the registers to be kept near-resident. -/
  | near (f : VF)
  /-- ACTQ (R166): Writes the instruction's active mask. -/
  | actq (f : VF)
  /-- DEADQ (R166): Writes the dead mask. -/
  | deadq (f : VF)
  /-- POISQ (R166): Writes, and optionally clears, the poison sticky bit. -/
  | poisq (f : VF)
  /-- LD (R210): Loads memory through a checked capability into registers. -/
  | ld (f : MF)
  /-- ST (R211): Stores registers through a checked capability into a store stream. -/
  | st (f : MF)
  /-- LDC (R212): Loads a capability with its tag. -/
  | ldc (f : MF)
  /-- STC (R212): Stores a capability with its tag. -/
  | stc (f : MF)
  /-- LDG (R213): Loads one value into group-wide registers, once per wave. -/
  | ldg (f : MF)
  /-- PREF (R214): Prefetches lines, never faulting. -/
  | pref (f : MF)
  /-- CBND (R201): Narrows a capability's bounds. -/
  | cbnd (f : VF)
  /-- CADD (R202): Moves a capability's cursor by an offset. -/
  | cadd (f : VF)
  /-- CSET (R202): Sets a capability's cursor or offset. -/
  | cset (f : VF)
  /-- CPERM (R203): Removes permissions from a capability. -/
  | cperm (f : VF)
  /-- CSEAL (R204): Seals a capability under a sealer. -/
  | cseal (f : VF)
  /-- CUNSL (R204): Unseals a capability under a sealer. -/
  | cunsl (f : VF)
  /-- CGET (R205): Reads one field of a capability. -/
  | cget (f : VF)
  /-- CTEST (R206): Tests a tag, a subset relation or equality of capabilities. -/
  | ctest (f : VF)
  /-- CMOV (R207): Copies capabilities, with their tags, between quads and pairs. -/
  | cmov (f : VF)
  /-- LDS (R250): Loads from scratchpad by rank and offset. -/
  | lds (f : MF)
  /-- STS (R251): Stores to scratchpad through a store stream. -/
  | sts (f : MF)
  /-- LDFE (R253): Waits until a word is full, reads it, and empties it unless .KEEP is given. -/
  | ldfe (f : MF)
  /-- STFE (R253): Waits until a word is empty, writes it and fills it. -/
  | stfe (f : MF)
  /-- FESET (R253): Sets a word's full/empty bit. -/
  | feset (f : MF)
  /-- FEQ (R253): Reads a word's full/empty bit. -/
  | feq (f : MF)
  /-- ATOMS (R273): Scratchpad atomic operation. -/
  | atoms (f : MF)
  /-- CASS (R273): Scratchpad compare-and-swap. -/
  | cass (f : MF)
  /-- BINIT (R258): Initialises or removes a barrier object, advancing its phase. -/
  | binit (f : MF)
  /-- ARRIVE (R260): Enters an arrival at a barrier object into store stream 0. -/
  | arrive (f : VF)
  /-- ARRIVE_APPLIED_AT_HOME (R260): An arrival reaches its object, is rechecked, updates it, may complete the phase, and writes the token. -/
  | arriveAppliedAtHome (core idx : Nat)
  /-- WAIT (R261): Waits until the barrier phase differs from the token. -/
  | wait (f : VF)
  /-- TRYWAIT (R261): Tests the barrier phase once and yields when it is not complete. -/
  | trywait (f : VF)
  /-- BAR (R267): Arrives at the implicit block or cluster barrier and waits. -/
  | bar (f : VF)
  /-- IMPLICIT_BARRIER_COMPLETE (R267): The last participant's arrival or retirement completes an implicit barrier phase and releases its waiters. -/
  | implicitBarrierComplete (core bslot : Nat) (cluster : Bool)
  /-- ATOM (R270): Global atomic operation returning old values. -/
  | atom (f : MF)
  /-- RED (R270): Global atomic reduction entered in a store stream. -/
  | red (f : MF)
  /-- CAS (R270): Global compare-and-swap. -/
  | cas (f : MF)
  /-- FENCE (R234): Orders the wave's accesses as acquire, release or both. -/
  | fence (f : MF)
  /-- SPAWN (R396): Enqueues a child grid from a launch record and writes a status. -/
  | spawn (f : MF)
  /-- GBAR (R403): Arrives at the grid barrier of a persistent grid and waits. -/
  | gbar (f : VF)
  /-- GRID_BARRIER_GENERATION (R403): The last arrival or retirement advances the grid barrier generation and releases the waiting waves. -/
  | gridBarrierGeneration (grid : Nat)
  /-- MFENCE (R291): Waits until the wave's register writes and scratchpad stores are ready for the sequencer. -/
  | mfence (f : VF)
  /-- NBAR (R311): Adds to a numbered barrier count. -/
  | nbar (f : VF)
  /-- NBWAIT (R312): Waits until a numbered barrier count reaches a target. -/
  | nbwait (f : VF)
  /-- ZREAD (R313): Reads accumulator tile rows into registers. -/
  | zread (f : VF)
  /-- ZWRITE (R313): Writes registers into accumulator tile rows. -/
  | zwrite (f : VF)
  /-- BADV (R311): Advances a buffer pointer, waiting for room or for data. -/
  | badv (f : VF)
  /-- BQRY (R312): Writes a buffer's TAIL and HEAD. -/
  | bqry (f : VF)
  /-- RNG (R173): Draws Chervil words per lane and advances the counter by 32. -/
  | rng (f : VF)
  /-- RNGF (R173): Draws uniform floating values in [0, 1). -/
  | rngf (f : VF)
  /-- RNGADV (R173): Adds a 128-bit value to the counter. -/
  | rngadv (f : VF)
  /-- RNGLD (R173): Loads the key and the counter. -/
  | rngld (f : VF)
  /-- RNGST (R173): Stores the counter or the key to a g pair. -/
  | rngst (f : VF)
  /-- RNGQ (R173): Draws at per-lane counter offsets without advancing the counter. -/
  | rngq (f : VF)
  /-- BRA (R107): Relative branch that may split the path. -/
  | bra (f : BF)
  /-- BRX (R108): Per-lane indirect jump. -/
  | brx (f : VF)
  /-- CALL (R109): Relative call that pushes a call entry. -/
  | call (f : BF)
  /-- CALLX (R108): Per-lane indirect call. -/
  | callx (f : VF)
  /-- RET (R109): Returns the active lanes from the nearest call. -/
  | ret (f : BF)
  /-- EXIT (R109): Ends the active lanes. -/
  | exit (f : BF)
  /-- RECON (R110): Sets a reconvergence point for the current path. -/
  | recon (f : BF)
  /-- LOOP (R113): Starts a hardware loop or skips a body whose count is zero. -/
  | loop (f : BF)
  /-- ENDL (R113): Decrements the loop count and either repeats or leaves the loop. -/
  | endl (f : BF)
  /-- BREAK (R113): Leaves the innermost hardware loop. -/
  | breakLoop (f : BF)
  /-- JSEG (R101): Fenced transfer to another segment. -/
  | jseg (f : IF)
  /-- SEGLD (R101): Starts loading a code segment and writes a status. -/
  | segld (f : IF)
  /-- SEGMENT_LOAD_COMPLETE (R100): A segment load finishes, and waves waiting in fenced transfers proceed. -/
  | segmentLoadComplete (core code seg : Nat)
  /-- SEGDROP (R101): Marks a segment drop-pending. -/
  | segdrop (f : IF)
  /-- SEGMENT_DROP_FREE (R101): A drop-pending segment's slots are freed once no wave has a PC in it. -/
  | segmentDropFree (core code seg : Nat)
  /-- SEGQ (R101): Reports a segment's state and the free slots. -/
  | segq (f : IF)
  /-- NOP (R111): Has no effect. -/
  | nop (f : VF)
  /-- YIELD (R111): Gives up the issue slot and restarts the stall gap. -/
  | yield (f : VF)
  /-- LIVE (R367): Records the wave at a liveness point when pre-emption is signalled. -/
  | live (f : IF)
  /-- MMA (R301): Fires a tile matrix multiply-accumulate. -/
  | mma (f : XF)
  /-- MMAS (R303): Fires a block-scaled multiply-accumulate into an FP32 tile. -/
  | mmas (f : XF)
  /-- ZLD (R305): Loads a whole tile from scratchpad or a buffer. -/
  | zld (f : XF)
  /-- ZST (R305): Stores a whole tile to scratchpad or an OUT buffer. -/
  | zst (f : XF)
  /-- ZCLR (R305): Clears a tile and sets its tag. -/
  | zclr (f : XF)
  /-- TILE_OPERATION_RESULT_POINT (R285): A fired tile operation reaches its result point, writes its results and frees the tile. -/
  | tileOperationResultPoint (core bslot : Nat)
  /-- BWAIT (R307): Holds the stream until a buffer holds or frees enough slots. -/
  | bwait (f : XF)
  /-- BFREE (R306): Enters a deferred advance of TAIL into the deferral queue. -/
  | bfree (f : XF)
  /-- BFREE_APPLIED (R306): The head BFREE entry advances TAIL once its condition holds. -/
  | bfreeApplied (core bslot : Nat)
  /-- NBSIG (R306): Enters a deferred numbered-barrier addition into the deferral queue. -/
  | nbsig (f : XF)
  /-- NBSIG_APPLIED (R306): The head NBSIG entry adds to the barrier count after read or result points. -/
  | nbsigApplied (core bslot : Nat)
  /-- NBSW (R307): Holds the stream until a numbered barrier count reaches its mark plus a step. -/
  | nbsw (f : XF)
  /-- SLOOP (R308): Starts a sequencer loop. -/
  | sloop (f : XF)
  /-- SENDL (R308): Ends an iteration of a sequencer loop. -/
  | sendl (f : XF)
  /-- SEND (R308): Ends the sequencer stream. -/
  | send (f : XF)
  /-- SNOP (R308): Sequencer no-operation. -/
  | snop (f : XF)
  /-- INVK (R322): Validates a sealed command block and starts a channel on it. -/
  | invk (f : VF)
  /-- CHSTAT (R323): Reports a command's status without waiting. -/
  | chstat (f : VF)
  /-- CHWAIT (R323): Waits until a command is no longer running. -/
  | chwait (f : VF)
  /-- CHCAN (R328): Cancels a running command and reports its final state. -/
  | chcan (f : VF)
  /-- CBSEAL (R324): Seals a command-block capability. -/
  | cbseal (f : VF)
  /-- CBCHK (R324): Validates a command block without running it. -/
  | cbchk (f : VF)
  /-- TRAP (R350): Raises the software trap. -/
  | trap (f : IF)
  /-- BKPT (R350): Raises the breakpoint trap, or a debugger halt when armed. -/
  | bkpt (f : IF)
  /-- MOVW (R351): Moves values between a handler bank and a wave's state, through a window or by number. -/
  | movw (f : VF)
  /-- EMRET (R352): Ends a handler and resumes after the trapped instruction, or halts with .FAIL. -/
  | emret (f : VF)
  /-- TRET (R352): Ends a handler and repeats the trapped instruction. -/
  | tret (f : VF)
  /-- SRD (R350): Reads a system register into a g register. -/
  | srd (f : SF)
  /-- SWR (R350): Writes a system register from a g register. -/
  | swr (f : SF)
  /-- ZEMU_MARK (R353): Copies a tile to the emulation area and marks it emulated. -/
  | zemuMark (f : VF)
  /-- ZEMU_REL (R353): Copies a tile back from the emulation area and marks it idle. -/
  | zemuRel (f : VF)
  /-- ZEMU_QRY (R353): Reports a tile's state and tag. -/
  | zemuQry (f : VF)
  /-- ASYNCHRONOUS_TRAP_DELIVERY (R341): A held asynchronous trap is delivered at the wave's next instruction boundary in wave mode. -/
  | asynchronousTrapDelivery (core slot : Nat)
  /-- REGISTER_REFILL (R84): A read of a spilled register stalls the wave until it is refilled. -/
  | registerRefill (core slot reg : Nat)
  /-- MISS_REJECTION_RETRY (R222): A rejected memory instruction retries after 16 cycles, or joins the reservation queue. -/
  | missRejectionRetry (core slot : Nat)
  /-- RESERVATION_QUEUE_ISSUE (R222): The head of the reservation queue issues once it holds all its miss entries. -/
  | reservationQueueIssue (core : Nat)
  /-- L1_LINE_FILL (R217): A missed line returns, has the core's pending stores applied, and is installed. -/
  | l1LineFill (core line : Nat)
  /-- L1_LINE_AGE_INVALIDATION (R217): An L1 line is invalidated 65,536 cycles after its fill at the latest. -/
  | l1LineAgeInvalidation (core line : Nat)
  /-- STORE_LEAVES_BUFFER (R223): A store-buffer entry leaves into the core write queue and is performed at block scope. -/
  | storeLeavesBuffer (core slot idx : Nat)
  /-- STORE_WRITTEN_AT_HOME (R229): A store is written at its home and performed at cluster and device scope. -/
  | storeWrittenAtHome (core idx : Nat)
  /-- STORE_ACKNOWLEDGED (R224): A store's acknowledgement lowers its stream's unacknowledged-store counter. -/
  | storeAcknowledged (idx : Nat)
  /-- ATOMIC_CHAIN_APPLIED (R270): An aggregated atomic chain is applied indivisibly at the location's home. -/
  | atomicChainApplied (core idx : Nat)
  /-- HOT_WORD_WRITEBACK (R337): A hot-word cache line is written back at eviction or on a Kaolin change. -/
  | hotWordWriteback (line : Nat)
  /-- BLOCK_RETIREMENT (R395): A block whose waves have all retired retires, lowering the spawn-tree counter. -/
  | blockRetirement (core bslot : Nat)
  /-- LATCH_CHANGE (R23): The distributor clears a drained core and latches a new colour. -/
  | latchChange (core colour : Nat)
  /-- BLOCK_PLACEMENT (R398): A waiting block is placed on a core that passes every placement condition. -/
  | blockPlacement (grid : Nat)
  /-- GRID_EXPANSION (R28): The distributors expand a grid after the seed, raising the counter. -/
  | gridExpansion (launch : Nat)
  /-- PERSISTENT_GRID_PLACEMENT (R401): A persistent grid is placed whole in one step. -/
  | persistentGridPlacement (grid : Nat)
  /-- WAVE_BECOMES_URGENT (R405): A wave passed over 64 times becomes urgent for issue. -/
  | waveBecomesUrgent (core slot : Nat)
  /-- TIME_SLICE_EXPIRY (R407): A region's time slice ends, and the distributor pre-empts, places alongside, or restarts the slice. -/
  | timeSliceExpiry (region : Nat)
  /-- PRE_EMPTION_SIGNAL (R364): Pre-emption is signalled to a partition's cores, and waves are recorded as they become ready. -/
  | preEmptionSignal (region : Nat)
  /-- PRE_EMPTION_WINDOW_END (R371): When the window ends, every wave not yet recorded is recorded whole at its next boundary. -/
  | preEmptionWindowEnd (core region : Nat)
  /-- CONTEXT_SAVE (R372): The save engine writes a region's blocks into a context image. -/
  | contextSave (region : Nat)
  /-- SAVE_COMPLETE (R380): A completed save receives its DIGEST and STATE 2. -/
  | saveComplete (region : Nat)
  /-- CONTEXT_RESTORE (R381): An image is restored onto a partition, or refused with a reason. -/
  | contextRestore (region : Nat)
  /-- HALTED_SAVE (R385): A halted partition is saved whole with HALTED set. -/
  | haltedSave (region : Nat)
  /-- HALTED_PARTITION_DISCARD (R385): A halted partition's blocks are dropped and its cores drained. -/
  | haltedPartitionDiscard (region : Nat)
  /-- SEALED_SAVE (R386): A hypervisor eviction writes a sealed image, nesting any guest save or restore in progress. -/
  | sealedSave (region : Nat)
  /-- HELD_CHANNEL_WRITE (R383): A channel write aimed at a saved block is held by the save engine until restore. -/
  | heldChannelWrite (group chan : Nat)
  /-- HALT_LINE_ARRIVAL (R360): The halt line reaches an engine, which stops within its skid bound and writes a stop record. -/
  | haltLineArrival (region : Nat) (engine : EngineId)
  /-- CHANNEL_HALT_STOP (R330): A copy engine stops a halted partition's channels within 4 µs, failing them with code 14. -/
  | channelHaltStop (group chan : Nat)
  /-- DEBUGGER_HALT (R358): DBGREQ halt stops the selected waves at their next boundary. -/
  | debuggerHalt (func region : Nat)
  /-- DEBUGGER_RESUME (R358): DBGREQ resume lets halted waves issue again. -/
  | debuggerResume (func region : Nat)
  /-- DEBUGGER_ARM (R475): DBGREQ arm sets sr.dbg for the region's waves. -/
  | debuggerArm (func region : Nat)
  /-- DEBUGGER_DISARM (R475): DBGREQ disarm clears sr.dbg for the region's waves. -/
  | debuggerDisarm (func region : Nat)
  /-- DBGDATA_WRITE (R475): Writes the selected state of a halted wave. -/
  | dbgdataWrite (func : Nat) (value : Dword)
  /-- CHANNEL_UNIT_TRANSFER (R325): A channel writes its next unit of up to 256 bytes and advances DONE. -/
  | channelUnitTransfer (group chan : Nat)
  /-- COMMAND_COMPLETION_WRITE (R329): A finished command makes the completion write that CKIND names. -/
  | commandCompletionWrite (group chan : Nat)
  /-- COLLECTIVE_CANCELLATION (R328): A cancellation from a group member ends the other members with code 13. -/
  | collectiveCancellation (colour gid : Nat)
  /-- LOESS_IDLE_FLIT (R338): A port sends an idle flit after 0.5 µs with nothing sent. -/
  | loessIdleFlit (port : Nat)
  /-- LINK_TIMEOUT (R338): A link silent for 5 µs is failed, and its requests are resent or fail with code 9. -/
  | linkTimeout (port : Nat)
  /-- SWITCH_TIMEOUT (R338): A request without a response after 50 µs fails with code 10. -/
  | switchTimeout (rtag : Nat)
  /-- GROUP_TIMEOUT (R338): A collective member waiting 500 µs fails with code 11 and aborts the group. -/
  | groupTimeout (group chan : Nat)
  /-- FLIT_CRC_REPLAY (R338): A flit failing its CRC is replayed from ACK + 1. -/
  | flitCrcReplay (port ack : Nat)
  /-- READ (R333): A Loess read request is received and served at the local colour. -/
  | read (port : Nat) (flit : Flit)
  /-- READ_RESPONSE (R333): A Loess read response completes a remote load. -/
  | readResponse (port : Nat) (flit : Flit)
  /-- WRITE (R333): A Loess write request is received and applied. -/
  | write (port : Nat) (flit : Flit)
  /-- WRITE_ACKNOWLEDGEMENT (R333): A Loess write acknowledgement completes a remote store or reports a launch outcome. -/
  | writeAcknowledgement (port : Nat) (flit : Flit)
  /-- ATOMIC (R337): A remote atomic is received and applied in the hot-word cache. -/
  | atomic (port : Nat) (flit : Flit)
  /-- ATOMIC_RESPONSE (R333): A Loess atomic response returns old values. -/
  | atomicResponse (port : Nat) (flit : Flit)
  /-- COLLECTIVE_DATA (R327): Collective data from a member is received. -/
  | collectiveData (port : Nat) (flit : Flit)
  /-- COLLECTIVE_CONTROL (R327): Collective control from a member is received. -/
  | collectiveControl (port : Nat) (flit : Flit)
  /-- FORERUNNER_LAUNCH (R339): A fabric launch packet is appended to a user queue, or refused. -/
  | forerunnerLaunch (port : Nat) (flit : Flit)
  /-- LINK_CONTROL (R333): A Loess link-control flit is received. -/
  | linkControl (port : Nat) (flit : Flit)
  /-- REMOTE_FAULT_ARRIVAL (R335): A failure of a remote access arrives, writes sr.rmtflt and raises a remote fault. -/
  | remoteFaultArrival (rtag code : Nat)
  /-- LAUNCH (R417): Reads a launch record, checks it, and hands a seed to the home distributor, or writes a refusal. -/
  | launch (queue : Nat)
  /-- LAUNCH_RETIREMENT (R417): When a launch's spawn-tree counter reaches 0, its stores drain and the packet retires with its completion write. -/
  | launchRetirement (launch : Nat)
  /-- INDIRECT (R418): Executes the packets of an indirect buffer. -/
  | indirect (queue : Nat)
  /-- PRED (R419): Tests a word and may pass over the next N packets. -/
  | pred (queue : Nat)
  /-- LOOP_PACKET (R420): Executes the next N packets K times. -/
  | loopPacket (queue : Nat)
  /-- WAITMEM (R421): Waits until a memory word meets a condition, polling at most every 1 µs. -/
  | waitmem (queue : Nat)
  /-- WAITMEM_TIMEOUT (R421): A WAITMEM whose TIMEOUT passes stops the queue with error 7. -/
  | waitmemTimeout (queue : Nat)
  /-- WRITE_PACKET (R422): Stores a value in the arena. -/
  | writePacket (queue : Nat)
  /-- SIGNAL (R422): Raises an MSI-X vector of the queue's function. -/
  | signal (queue : Nat)
  /-- FETCHFENCE (R426): Waits for the queue's writes, then discards the fetched packets that follow. -/
  | fetchfence (queue : Nat)
  /-- DRAIN (R422): Ends when every earlier LAUNCH of the queue has retired. -/
  | drain (queue : Nat)
  /-- REGION_SET (R423): Makes a region the queue's current region. -/
  | regionSet (queue : Nat)
  /-- REGION_SAVE (R423): Saves a region's resident blocks as an ordinary image. -/
  | regionSave (queue : Nat)
  /-- REGION_RESTORE (R423): Restores a region from its image. -/
  | regionRestore (queue : Nat)
  /-- REGION_PRIO (R423): Sets a region's effective priority. -/
  | regionPrio (queue : Nat)
  /-- NOP_PACKET (R422): A packet with no effect. -/
  | nopPacket (queue : Nat)
  /-- DOORBELL (R431): A doorbell write makes a queue ready, or is dropped and counted. -/
  | doorbell (func : Nat) (value : Dword)
  /-- QUEUE_MAP (R427): The HQS maps a ready queue onto a free slot, unmapping victims where needed. -/
  | queueMap (queue : Nat)
  /-- QUEUE_IDLE (R427): A mapped queue with no packet executed for 64 µs becomes idle. -/
  | queueIdle (queue : Nat)
  /-- QMAP_MAP (R433): A host-assisted QMAP write maps a queue to a slot. -/
  | qmapMap (value : Dword)
  /-- QMAP_UNMAP (R433): A host-assisted QMAP write unmaps a queue at its next packet boundary. -/
  | qmapUnmap (value : Dword)
  /-- CPMODE_WRITE (R433): Switches functions between hardware and host-assisted mode at the next packet boundaries. -/
  | cpmodeWrite (value : Dword)
  /-- FUNCTION_LEVEL_RESET (R434): Invalidates a function's queues and halts and discards partitions that only it names. -/
  | functionLevelReset (func : Nat)
  /-- HEARTBEAT (R435): The active complex sends a heartbeat every 100 µs. -/
  | heartbeat
  /-- FIRMWARE_TAKEOVER (R438): After 10 missed heartbeats the standby takes over and resumes every queue. -/
  | firmwareTakeover
  /-- LIVE_UPDATE (R437): UPDREQ bit 0 stages a new image in the standby and exchanges the roles. -/
  | liveUpdate
  /-- ROLLBACK_RAISE (R452): UPDREQ bit 1 raises the rollback counter to the version in force. -/
  | rollbackRaise
  /-- CREATE (R445): Creates a colour with a fresh generation and fresh keys. -/
  | create
  /-- DESTROY (R445): Erases a colour's keys. -/
  | destroy
  /-- ASSIGN (R445): Scrubs free granules and makes them owned by a colour. -/
  | assign
  /-- REVOKE (R445): Revokes granules and records the sweeper pass. -/
  | revoke
  /-- RELEASE (R445): Scrubs revoked granules and frees them after the required pass. -/
  | release
  /-- ATTR (R445): Changes the home attribute of owned granules. -/
  | attr
  /-- QUAR (R445): Revokes and quarantines granules. -/
  | quar
  /-- UNQUAR (R445): Releases quarantined granules after the required pass. -/
  | unquar
  /-- MINT (R450): Writes one tagged capability minted by the security core. -/
  | mint
  /-- TABLE (R451): Writes an entry of the tenant, queue-descriptor or launch-queue table. -/
  | table
  /-- ATTEST (R454): Writes a signed attestation report. -/
  | attest
  /-- AUDIT_REEXECUTION (R462): A retired selected block's re-execution is queued and placed on another core. -/
  | auditReexecution (region : Nat)
  /-- AUDIT_COMPARISON (R463): Sorrel compares the primary's and the re-execution's digests, passing or starting a tie-break. -/
  | auditComparison (audit : Nat)
  /-- AUDIT_TIE_BREAK (R463): The third execution's digest settles the audit and moves the suspicion scores. -/
  | auditTieBreak (audit : Nat)
  /-- CSCORE_CLR (R466): Writing CLR ends a core's quarantine and zeroes its score. -/
  | cscoreClr (core : Nat) (value : Dword)
  /-- SWREQ (R466): Starts or requests a sweeper pass. -/
  | swreq
  /-- SWEEPER_PASS_START (R467): A sweeper pass starts at its start point, fixing its revoked set. -/
  | sweeperPassStart
  /-- SWEEPER_PASS_COMPLETE (R468): A pass's memory, register and engine steps have ended, and it is recorded. -/
  | sweeperPassComplete
  /-- POWER_WINDOW (R479): The current arbiter sets new die grants every 10 µs. -/
  | powerWindow
  /-- PAGE_REQUEST_RESPONSE (R474): A PRI response retries or fails a host-window access. -/
  | pageRequestResponse (tag : Nat) (ok : Bool)
  /-- PAGE_REQUEST_TIMEOUT (R474): A page request without response for 100 ms fails the access. -/
  | pageRequestTimeout (tag : Nat)
  /-- DEVNO_WRITE (R475): Sets the fabric device number, ignored while any latch is set. -/
  | devnoWrite (func : Nat) (value : Dword)
  /-- DEVICE_REGISTER_WRITE (R475): A write to a device register that has no behaviour of its own. -/
  | deviceRegisterWrite (func off : Nat) (value : Dword)
  /-- POWER_ON_RESET (R480): Runs the start-up stages, self-test included, losing all state but the fuses. -/
  | powerOnReset
  /-- WARM_RESET (R480): PERST# runs the start-up stages as power-on does. -/
  | warmReset
  /-- FREEZE (R481): FREEZE_N low stops every clock and holds all state for read-out. -/
  | freeze
  /-- HOST_APERTURE_ACCESS (R449): A host read or write through a function's BAR2 aperture reaches HBM, or is dropped or answered with all ones and counted. -/
  | hostApertureAccess (func off : Nat) (data : Option (List Byte)) (len : Nat)
  /-- POWER_LOSS (R4): Removing power loses all state of the part. -/
  | powerLoss
  /-- ACTIVE_COMPLEX_FAILURE (R15): The active firmware complex fails and stops sending heartbeats. -/
  | activeComplexFailure
  /-- DIE_TO_DIE_LINK_FAILURE (R13): A compute die's link to an I/O die fails, and its traffic takes the other link. -/
  | dieToDieLinkFailure (die io : Nat)
  /-- IDLE_FLIT_RECEIPT (R338): A port receives an idle flit, which keeps the link from being named failed and carries ACK. -/
  | idleFlitReceipt (port ack : Nat)
  /-- FLIT_DISCARD (R333): A received flit with a reserved TYPE or a non-zero reserved field is discarded and counted. -/
  | flitDiscard (port : Nat) (flit : Flit)
  /-- UNCORRECTABLE_ERROR (R362): An uncorrectable error arises in a register, scratchpad word, tile or memory line. -/
  | uncorrectableError (place : ErrorPlace)
  /-- FREEZE_RELEASE (R481): FREEZE_N is raised again and nothing resumes. -/
  | freezeRelease
deriving DecidableEq, Repr

end Sys2Proof
end

