-- ==== Sys2Proof/Machine/OpTable.lean ====
section
/-!
DEFINITION. The static table of the instruction set: opcode numbers (R54 to R60), the operands each instruction
names (R51 to R53 and the encoding tables of the chapters), and the fates of encodings that are not instructions
(R42, R49, R50, R61 to R66).
-/

namespace Sys2Proof

/-! ### Type codes (R49) -/

/-- The type codes of R49 by name. -/
def tB32 : Nat := 0
def tI32 : Nat := 1
def tW32 : Nat := 2
def tF32 : Nat := 3
def tF16 : Nat := 4
def tBf16 : Nat := 5
def tE4m3 : Nat := 6
def tE5m2 : Nat := 7
def tI8 : Nat := 8
def tI4 : Nat := 9
def tL6 : Nat := 10
def tF64 : Nat := 11
def tI64 : Nat := 12
def tW64 : Nat := 13
def tW8 : Nat := 14
def tB64 : Nat := 15

/-- The types that take an even-odd register pair (R52, R119). -/
def wide (ty : Nat) : Bool := ty == tF64 || ty == tI64 || ty == tW64 || ty == tB64

/-- The number of registers a value of type `ty` takes. -/
def tyRegs (ty : Nat) : Nat := if wide ty then 2 else 1

/-- The types CVT and PACK call packed (R144). -/
def packed (ty : Nat) : Bool :=
  ty == tF16 || ty == tBf16 || ty == tE4m3 || ty == tE5m2 || ty == tI8 || ty == tI4 || ty == tL6

/-- The elements of a packed register (R120). -/
def elements (ty : Nat) : Nat :=
  if ty == tF16 || ty == tBf16 then 2
  else if ty == tI4 then 8
  else if ty == tE4m3 || ty == tE5m2 || ty == tI8 || ty == tW8 || ty == tL6 then 4
  else 1

/-- The types CVT accepts (R144). -/
def cvtType (ty : Nat) : Bool :=
  packed ty || ty == tI32 || ty == tW32 || ty == tI64 || ty == tW64 || ty == tF32 || ty == tF64

/-- The source classes of R125: integer types. -/
def intClass (ty : Nat) : Bool :=
  ty == tI32 || ty == tW32 || ty == tI64 || ty == tW64 || ty == tI8 || ty == tI4

/-! ### Opcode numbers (R55 to R60) -/

/-- The code of an operation's first form: the register form of a vector code, or its only form. -/
def Op.code : Op → Nat
  | .iadd => 0x000 | .isub => 0x001 | .imul => 0x002 | .imulh => 0x003 | .imulw => 0x004 | .imad => 0x005
  | .ilea => 0x006 | .imin => 0x007 | .imax => 0x008 | .iabs => 0x009 | .ineg => 0x00A | .isad => 0x00B
  | .idiv => 0x00C | .irem => 0x00D | .icmp => 0x00E
  | .andBits => 0x010 | .orBits => 0x011 | .xorBits => 0x012 | .notBits => 0x013 | .bfn3 => 0x014 | .shl => 0x015
  | .shr => 0x016 | .rotl => 0x017 | .fshl => 0x018 | .bfx => 0x019 | .bfi => 0x01A | .popc => 0x01B
  | .clz => 0x01C | .brev => 0x01D | .prmb => 0x01E | .mov => 0x01F | .sel => 0x020
  | .fadd => 0x030 | .fsub => 0x031 | .fmul => 0x032 | .fma => 0x033 | .fmin => 0x034 | .fmax => 0x035
  | .fmed3 => 0x036 | .fcmp => 0x037 | .fdiv => 0x038 | .frcp => 0x039 | .fsqrt => 0x03A | .frsq => 0x03B
  | .fexp2 => 0x03C | .flog2 => 0x03D | .fsin => 0x03E | .fcos => 0x03F | .fclass => 0x040 | .fcps => 0x041
  | .fscl => 0x042 | .frnd => 0x043
  | .cvt => 0x044 | .pack => 0x045 | .unpk => 0x046 | .qnt => 0x047 | .dqnt => 0x048 | .fdot2 => 0x049
  | .idot4 => 0x04A | .ldot => 0x04B
  | .shfl => 0x050 | .swz => 0x051 | .vote => 0x052 | .ballot => 0x053 | .matchLanes => 0x054 | .elect => 0x055
  | .flane => 0x056 | .redi => 0x057 | .redf => 0x058 | .scani => 0x059 | .scanf => 0x05A | .scanp => 0x05B
  | .cmpct => 0x05C | .expnd => 0x05D
  | .rdlane => 0x05E | .wrlane => 0x05F | .bcst => 0x060 | .plop => 0x061 | .pcnt => 0x062 | .p2r => 0x063
  | .movrp => 0x064 | .shpq => 0x065 | .shpx => 0x066 | .shpc => 0x067 | .fmtq => 0x068 | .fmts => 0x069
  | .near => 0x06A | .actq => 0x06B | .deadq => 0x06C | .poisq => 0x06D
  | .ld => 0x200 | .st => 0x201 | .ldc => 0x202 | .stc => 0x203 | .ldg => 0x204 | .pref => 0x205
  | .cbnd => 0x206 | .cadd => 0x207 | .cset => 0x208 | .cperm => 0x209 | .cseal => 0x20A | .cunsl => 0x20B
  | .cget => 0x20C | .ctest => 0x20D | .cmov => 0x20E
  | .lds => 0x210 | .sts => 0x211 | .ldfe => 0x212 | .stfe => 0x213 | .feset => 0x214 | .feq => 0x215
  | .atoms => 0x216 | .cass => 0x217 | .binit => 0x218
  | .arrive => 0x219 | .wait => 0x21A | .trywait => 0x21B | .bar => 0x21C
  | .atom => 0x21D | .red => 0x21E | .cas => 0x21F | .fence => 0x220 | .spawn => 0x230 | .gbar => 0x231
  | .mfence => 0x240 | .nbar => 0x241 | .nbwait => 0x242 | .zread => 0x243 | .zwrite => 0x244 | .badv => 0x245
  | .bqry => 0x246
  | .rng => 0x250 | .rngf => 0x251 | .rngadv => 0x252 | .rngld => 0x253 | .rngst => 0x254 | .rngq => 0x255
  | .bra => 0x300 | .brx => 0x301 | .call => 0x302 | .callx => 0x303 | .ret => 0x304 | .exit => 0x305
  | .recon => 0x306 | .loop => 0x307 | .endl => 0x308 | .breakLoop => 0x309
  | .jseg => 0x30A | .segld => 0x30B | .segdrop => 0x30C | .segq => 0x30D | .nop => 0x30E | .yield => 0x30F
  | .live => 0x310
  | .mma => 0x340 | .mmas => 0x341 | .zld => 0x342 | .zst => 0x343 | .zclr => 0x344 | .bwait => 0x345
  | .bfree => 0x346 | .nbsig => 0x347 | .nbsw => 0x348 | .sloop => 0x349 | .sendl => 0x34A | .send => 0x34B
  | .snop => 0x34C
  | .invk => 0x380 | .chstat => 0x381 | .chwait => 0x382 | .chcan => 0x383 | .cbseal => 0x384 | .cbchk => 0x385
  | .trap => 0x3A0 | .bkpt => 0x3A1 | .movw => 0x3A2 | .emret => 0x3A3 | .tret => 0x3A4 | .srd => 0x3A5
  | .swr => 0x3A6 | .zemu => 0x3A7

/-- The operations with an immediate form (R55, R56). -/
def Op.hasImm : Op → Bool
  | .iadd | .isub | .imul | .imulh | .ilea | .imin | .imax | .idiv | .irem | .icmp
  | .andBits | .orBits | .xorBits | .shl | .shr | .rotl | .prmb | .mov
  | .fadd | .fsub | .fmul | .fmin | .fmax | .fcmp | .fcps | .fscl
  | .shfl | .rdlane | .wrlane => true
  | _ => false

/-- The operations with a group-wide meaning (R55, R57). -/
def Op.hasGroup : Op → Bool
  | .iadd | .isub | .imul | .imulh | .imulw | .imad | .ilea | .imin | .imax | .iabs | .ineg | .idiv | .irem | .icmp
  | .andBits | .orBits | .xorBits | .notBits | .bfn3 | .shl | .shr | .rotl | .fshl | .bfx | .bfi | .popc | .clz
  | .brev | .prmb | .mov | .sel
  | .fadd | .fsub | .fmul | .fma | .fmin | .fmax | .fmed3 | .fcmp | .fdiv | .frcp | .fsqrt | .frsq | .fexp2
  | .flog2 | .fsin | .fcos | .fclass | .fcps | .fscl | .frnd
  | .cvt | .plop => true
  | _ => false

/-- The group-wide operations that GROUP_WIDE_ALU stands for: those that have no row of their own. -/
def Op.inGroupAlu (op : Op) : Bool :=
  op.hasGroup && !(op == .mov || op == .sel || op == .cvt || op == .plop)

/-! ### One view of an instruction's fields -/

/-- The fields of a V-format instruction, or of an immediate ALU form with operand B replaced by its immediate
(R43, R44, R56). -/
structure VArgs where
  op : Op
  gw : Bool
  imm : Option (BitVec 32)
  com : Common
  d : Nat
  a : Nat
  b : Nat
  c : Nat
  ty : Nat
  round : Nat
  sat : Bool
  neg : Nat
  abs : Nat
  sub : Nat
  /-- the reserved bits of the format, and SUB[9:8] of an immediate form -/
  rsv : Nat
deriving DecidableEq, Repr

def VF.args (op : Op) (gw : Bool) (f : VF) : VArgs :=
  { op, gw, imm := none, com := f.com, d := f.d.toNat, a := f.a.toNat, b := f.b.toNat, c := f.c.toNat,
    ty := f.ty.toNat, round := f.round.toNat, sat := f.sat, neg := f.neg.toNat, abs := f.abs.toNat,
    sub := f.sub.toNat, rsv := f.rsv.toNat }

def IF.args (op : Op) (gw : Bool) (f : IF) : VArgs :=
  { op, gw, imm := some f.imm, com := f.com, d := f.d.toNat, a := f.a.toNat, b := 0, c := 0,
    ty := f.ty.toNat, round := f.flags.toNat % 8, sat := f.flags.getLsbD 3, neg := 0, abs := 0,
    sub := f.sub.toNat % 256, rsv := f.sub.toNat / 256 }

/-- An instruction as its format gives it. -/
inductive View where
  | alu (x : VArgs)
  | imm (op : Op) (f : IF)
  | mem (op : Op) (f : MF)
  | branch (op : Op) (f : BF)
  | matrix (op : Op) (f : XF)
  | system (op : Op) (f : SF)
  | event
deriving DecidableEq, Repr

/-! ### Operands -/

/-- The fields of sr.tcause.FIELD (R345). -/
inductive Field where
  | d | a | b | c | gp | sysreg | va | vb | ga | gb | gs | wv | tile | sub
deriving DecidableEq, Repr

/-- The number of a field in sr.tcause.FIELD (R345). -/
def Field.num : Field → Nat
  | .d => 0 | .a => 1 | .b => 2 | .c => 3 | .gp => 4 | .sysreg => 5 | .va => 6 | .vb => 7 | .ga => 8 | .gb => 9
  | .gs => 10 | .wv => 11 | .tile => 12 | .sub => 13

/-- What a register-number field names. -/
inductive Kind where
  /-- `n` consecutive vector registers from a multiple of `n` (R52, R146) -/
  | vec (n : Nat)
  /-- an emulation register of the handler's own, or 1023 for none (R351) -/
  | own
  /-- `n` consecutive vector registers from a multiple of `align`, which must all exist (R309) -/
  | run (n align : Nat)
  /-- any vector number of R51, whose tags alone are read (R165) -/
  | tags
  /-- a register of the main file by number, not read (R88) -/
  | base
  /-- a predicate, or 1023 (R53) -/
  | pred
  /-- a group of 32 predicates from base 0, 32 or 64 (R163) -/
  | preds
  /-- a group-wide register -/
  | grp
  /-- an even-odd pair of group-wide registers (R52) -/
  | pair
  /-- a group-wide predicate -/
  | qpred
  /-- a literal in a register field (R309) -/
  | literal (lo hi : Nat)
deriving DecidableEq, Repr

inductive Role where
  | src | dst | both
deriving DecidableEq, Repr

/-- One operand of an instruction: the field that names it, what it names and how it is used; `chk` is the type
whose formats a vector source must have (R83), if it is read as a type. -/
structure Operand where
  field : Field
  kind : Kind
  num : Nat
  role : Role
  chk : Option Nat
deriving DecidableEq, Repr

namespace VArgs

def od (x : VArgs) (k : Kind) : Operand := ⟨.d, k, x.d, .dst, none⟩
def oa (x : VArgs) (k : Kind) (chk : Option Nat := none) : Operand := ⟨.a, k, x.a, .src, chk⟩
def oc (x : VArgs) (k : Kind) (chk : Option Nat := none) : Operand := ⟨.c, k, x.c, .src, chk⟩
/-- Operand B, absent where an immediate replaces it (R56). -/
def ob (x : VArgs) (k : Kind) (chk : Option Nat := none) : List Operand :=
  if x.imm.isSome then [] else [⟨.b, k, x.b, .src, chk⟩]

/-- The source type of a CVT (R49). -/
def cvtSrc (x : VArgs) : Nat := x.sub % 16

/-- The operand an UNPK, QNT, DQNT or PACK group holds: F32, or I32 for the integer types (R146). -/
def groupTy (ty : Nat) : Nat := if ty == tI8 || ty == tI4 then tI32 else tF32

end VArgs

/-- Operands of a vector form as the chapters' tables list them (R91, R93, R130, R134, R137, R144, R147, R148,
R151, R154, R156, R161, R163, R165, R172, R199, R259, R309, R320, R350). -/
def VArgs.vectorOperands (x : VArgs) : List Operand :=
  let w := Kind.vec (tyRegs x.ty)
  let t := some x.ty
  match x.op with
  | .iadd | .isub | .imul | .imulh | .ilea | .imin | .imax | .idiv | .irem => [x.od w, x.oa w t] ++ x.ob w t
  | .imulw => [x.od (.vec 2), x.oa (.vec 1) t] ++ x.ob (.vec 1) t
  | .imad | .isad => [x.od w, x.oa w t] ++ x.ob w t ++ [x.oc w t]
  | .iabs | .ineg => [x.od w, x.oa w t]
  | .icmp => [x.od .pred, x.oa w t] ++ x.ob w t
  | .andBits | .orBits | .xorBits => [x.od w, x.oa w t] ++ x.ob w t
  | .notBits | .brev => [x.od w, x.oa w t]
  | .bfn3 => [x.od w, x.oa w t] ++ x.ob w t ++ [x.oc w t]
  | .shl | .shr | .rotl => [x.od w, x.oa w t] ++ x.ob (.vec 1)
  | .fshl => [x.od w, x.oa w t] ++ x.ob w t ++ [x.oc (.vec 1)]
  | .bfx => [x.od w, x.oa w t] ++ x.ob (.vec 1)
  | .bfi => [x.od w, x.oa w t] ++ x.ob (.vec 1) ++ [x.oc w t]
  | .popc | .clz => [x.od (.vec 1), x.oa w t]
  | .prmb => [x.od w, x.oa w t] ++ x.ob (.vec 1) ++ (if x.imm.isSome then [] else [x.oc w t])
  | .mov => [x.od w] ++ x.ob w
  | .sel => [x.od w, x.oa w, ⟨.b, w, x.b, .src, none⟩, x.oc .pred]
  | .fadd | .fsub | .fmul | .fmin | .fmax | .fdiv | .fcps => [x.od w, x.oa w t] ++ x.ob w t
  | .fma | .fmed3 => [x.od w, x.oa w t] ++ x.ob w t ++ [x.oc w t]
  | .fcmp => [x.od .pred, x.oa w t] ++ x.ob w t
  | .frcp | .fsqrt | .frsq | .fexp2 | .flog2 | .fsin | .fcos | .frnd => [x.od w, x.oa w t]
  | .fclass => [x.od (.vec 1), x.oa w t]
  | .fscl => [x.od w, x.oa w t] ++ x.ob (.vec 1)
  | .cvt =>
    [if packed x.ty then ⟨.d, w, x.d, .both, none⟩ else x.od w,
     x.oa (.vec (tyRegs x.cvtSrc)) (some x.cvtSrc)]
  | .pack => [x.od (.vec 1), x.oa (.vec (elements x.ty)) (some (VArgs.groupTy x.ty))]
  | .unpk => [x.od (.vec (elements x.ty)), x.oa (.vec 1) t]
  | .qnt => [x.od (.vec 1), x.oa (.vec (elements x.ty)) (some tF32)] ++ x.ob (.vec 1)
  | .dqnt => [x.od (.vec (elements x.ty)), x.oa (.vec 1) t] ++ x.ob (.vec 1)
  | .fdot2 => [x.od (.vec 1), x.oa (.vec 1) t] ++ x.ob (.vec 1) t ++ [x.oc (.vec 1) (some tF32)]
  | .idot4 =>
    [x.od (.vec 1), x.oa (.vec 1) t] ++ x.ob (.vec 1) t ++ [x.oc (.vec 1) (some (if x.ty == tW8 then tW32 else tI32))]
  | .ldot => [x.od (.vec 1), x.oa (.vec 1) t] ++ x.ob (.vec 1) t ++ [x.oc (.vec 1) (some tI32)]
  | .shfl => [x.od w, x.oa w] ++ x.ob (.vec 1)
  | .swz => [x.od w, x.oa w]
  | .vote => [x.od .pred, x.oa .pred]
  | .ballot | .flane | .pcnt => [x.od (.vec 1), x.oa .pred]
  | .matchLanes => [x.od (.vec 1), x.oa w]
  | .elect => [x.od .pred]
  | .redi | .redf | .scani | .scanf => [x.od w, x.oa w t]
  | .scanp => [x.od (.vec 1), x.oa .pred]
  | .cmpct | .expnd => [x.od w, x.oa w, x.oc .pred]
  | .rdlane => [x.od .grp, x.oa w] ++ x.ob (.vec 1)
  | .wrlane => [x.od w, x.oa .grp] ++ x.ob (.vec 1)
  | .bcst => [x.od w, x.oa .grp]
  | .plop => [x.od .pred, x.oa .pred, ⟨.b, .pred, x.b, .src, none⟩, x.oc .pred]
  | .p2r => [x.od (.vec 1), x.oa .preds]
  | .movrp => [x.od .preds, x.oa (.vec 1)]
  | .shpq | .fmtq => [x.od (.vec 1), x.oa .tags]
  | .shpx | .shpc => [⟨.d, w, x.d, .both, none⟩]
  | .fmts => [⟨.d, .vec 1, x.d, .both, none⟩]
  | .near => [x.oa .base] ++ x.ob .grp
  | .actq | .deadq | .poisq => [x.od (.vec 1)]
  | .cbnd | .cadd | .cset => [x.od (.vec 4), x.oa (.vec 4)] ++ x.ob w t
  | .cperm => [x.od (.vec 4), x.oa (.vec 4)] ++ x.ob (.vec 1)
  | .cseal | .cunsl => [x.od (.vec 4), x.oa (.vec 4)] ++ x.ob (.vec 4)
  | .cget => [x.od (.vec (if x.sub % 16 < 4 then 2 else 1)), x.oa (.vec 4)]
  | .ctest => [x.od .pred, x.oa (.vec 4)] ++ (if x.sub % 4 == 0 then [] else x.ob (.vec 4))
  | .cmov =>
    match x.sub % 4 with
    | 0 => [x.od (.vec 4), x.oa (.vec 4)]
    | 1 => [x.od .pair, x.oa (.vec 4)] ++ x.ob (.vec 1)
    | 2 => [x.od (.vec 4), x.oa .pair]
    | _ => [x.od .pair, x.oa .pair]
  | .arrive => [x.od (.vec 1), x.oa (.vec 1)] ++ x.ob (.vec 1)
  | .wait => [x.oa (.vec 1)] ++ x.ob (.vec 1) ++ [x.oc (.vec 1)]
  | .trywait => [x.od .pred, x.oa (.vec 1)] ++ x.ob (.vec 1) ++ [x.oc (.vec 1)]
  | .nbar | .nbwait | .badv => [x.oa (.vec 1)]
  | .zread =>
    [x.od (if x.ty == tF64 then .run (2 * x.c) 2 else .run x.c 1), x.oa (.vec 1), x.oc (.literal 1 32)]
  | .zwrite =>
    [x.oa (.vec 1), ⟨.b, if x.ty == tF64 then .run (2 * x.c) 2 else .run x.c 1, x.b, .src, t⟩, x.oc (.literal 1 32)]
  | .bqry => [x.od (.vec 2)]
  | .rng => [x.od (.vec (2 ^ (x.sub % 4)))]
  | .rngf => [x.od w]
  | .rngadv => [x.oa .pair]
  | .rngld => [x.oa .pair] ++ x.ob .pair
  | .rngst => [x.od .pair]
  | .rngq => [x.od (.vec 1)] ++ x.ob (.vec 1)
  | .brx | .callx => [x.oa (.vec 1)]
  | .invk | .cbchk => [x.od .grp, x.oa (.vec 4)]
  | .chstat | .chwait | .chcan => [x.od .grp, x.oa .grp]
  | .cbseal => [x.od (.vec 4), x.oa (.vec 4)]
  | .zemu => [x.od (.vec 1), x.oa (.vec 1)]
  | _ => []

/-- In the group-wide class registers are g registers, without pairs, and predicates are q (R53, R129). -/
def Kind.toGroup : Kind → Kind
  | .pred => .qpred
  | _ => .grp

/-- MOVW's operands by its SUB (R351): `.RW`, `.WW`, `.RN`, `.WN`. Window numbers, the selection and the offset are
checked by its meaning. -/
def VArgs.movwOperands (x : VArgs) : List Operand :=
  let n := if x.sub.testBit 4 then 4 else tyRegs x.ty
  match x.sub % 4 with
  | 0 => [x.od (.vec n), ⟨.a, .literal 672 675, x.a, .src, none⟩]
  | 1 => [⟨.d, .literal 672 675, x.d, .dst, none⟩, x.oa (.vec n)]
  | 2 => [x.od (.vec n), ⟨.a, .literal 0 1023, x.a, .src, none⟩, ⟨.b, .own, x.b, .src, none⟩, x.oc .own]
  | _ => [⟨.d, .literal 0 1023, x.d, .dst, none⟩, x.oa (.vec n), ⟨.b, .own, x.b, .src, none⟩, x.oc .own]

/-- The operands of a V-format or immediate ALU instruction. -/
def VArgs.operands (x : VArgs) : List Operand :=
  if x.op == .movw then x.movwOperands
  else if x.gw then x.vectorOperands.map fun o => { o with kind := o.kind.toGroup, chk := none }
  else x.vectorOperands

/-! ### What each V-format form accepts -/

/-- How a form uses ROUND (R50): never in any form; here; or in other forms only. -/
inductive RoundUse where
  | never | used | otherForms
deriving DecidableEq, Repr

/-- How a form uses SAT (R42, R123, R125): it may be set; set it takes cause 4; set it takes cause 1. -/
inductive SatUse where
  | used | reserved | undefined
deriving DecidableEq, Repr

def intTypes : List Nat := [tI32, tW32, tB32, tI64, tW64, tB64]
def signedOrNot : List Nat := [tI32, tW32, tI64, tW64]
def bitTypes : List Nat := [tB32, tB64]
def floatTypes : List Nat := [tF32, tF64, tF16, tBf16]
def packTypes : List Nat := [tF16, tBf16, tE4m3, tE5m2, tI8, tI4, tL6]
def quantTypes : List Nat := [tI8, tI4, tE4m3, tE5m2, tL6]

/-- The types a V-format form accepts; `none` where TYPE is not used (R42). -/
def VArgs.types (x : VArgs) : Option (List Nat) :=
  match x.op with
  | .iadd | .isub | .imul | .imad | .ilea | .icmp | .redi | .scani | .shl | .shr => some intTypes
  | .imulh | .imin | .imax | .idiv | .irem => some signedOrNot
  | .imulw | .isad | .bfx => some [tI32, tW32]
  | .iabs | .ineg => some [tI32, tI64]
  | .andBits | .orBits | .xorBits | .notBits | .bfn3 | .rotl | .popc | .clz | .brev | .mov | .sel
  | .shfl | .swz | .matchLanes | .cmpct | .expnd | .rdlane | .wrlane | .bcst | .shpx | .shpc | .movw => some bitTypes
  | .fshl | .bfi | .prmb | .rng | .rngq | .brx | .callx => some [tB32]
  | .fadd | .fsub | .fmul | .fma | .fmin | .fmax | .fmed3 | .fdiv | .frcp | .fsqrt | .frsq | .fclass | .fcps
  | .fscl | .frnd => some (if x.gw then [tF32, tF64] else floatTypes)
  | .fcmp | .redf | .scanf | .rngf => some [tF32, tF64]
  | .fexp2 | .flog2 | .fsin | .fcos => some (if x.gw then [tF32] else [tF32, tF16, tBf16])
  | .cvt =>
    some ((List.range 16).filter fun t => cvtType t && !(x.gw && packed t))
  | .pack | .unpk => some packTypes
  | .qnt | .dqnt => some quantTypes
  | .fdot2 => some [tF16, tBf16]
  | .idot4 => some [tI8, tW8, tI4]
  | .ldot => some [tL6]
  | .cbnd => some [tW32, tW64]
  | .cadd => some [tI32, tI64]
  | .cset => some (if x.sub % 2 == 0 then [tW64] else [tW32, tW64])
  | .cget => some (if x.sub < 4 then [tW64] else [tW32])
  | .zread => some [tB32, tF64]
  | .zwrite => some [tB32, tI32, tF32, tF64]
  | _ => none

/-- Whether SUB holds a defined value; `none` where SUB is not used (R42). -/
def VArgs.subOk (x : VArgs) : Option Bool :=
  match x.op with
  | .ilea => some (x.sub < (if wide x.ty then 64 else 32))
  | .icmp => some (x.sub ≤ 5)
  | .fcmp => some (x.sub ≤ 13)
  | .bfn3 | .plop | .swz => some true
  | .cvt =>
    let s := x.cvtSrc
    let k := x.sub / 16
    some (cvtType s && s != x.ty && !(packed s && packed x.ty) && !(x.gw && packed s)
      && (if packed s then k < elements s else if packed x.ty then k < elements x.ty else k == 0))
  | .shfl => some (x.sub % 8 < 4 && x.sub / 8 ≤ 5)
  | .vote => some (x.sub ≤ 2)
  | .flane | .poisq | .cbnd | .cset | .rngst | .emret | .bar => some (x.sub ≤ 1)
  | .redi => some (x.sub ≤ 5)
  | .redf => some (x.sub ≤ 2)
  | .scani => some (x.sub % 8 ≤ 5 && x.sub < 16)
  | .scanf => some (x.sub % 8 ≤ 2 && x.sub < 16)
  | .scanp => some (x.sub == 0 || x.sub == 8)
  | .fmts => some (x.sub ≤ 12)
  | .cget => some (x.sub ≤ 9)
  | .ctest | .rng | .zemu => some (x.sub ≤ 2)
  | .cmov | .arrive | .rngq => some (x.sub ≤ 3)
  | .nbar | .nbwait | .badv | .bqry => some (x.sub ≤ 15)
  | .zread | .zwrite => some (x.sub ≤ 127)
  | .movw =>
    let form := x.sub % 4
    let file := x.sub / 4 % 4
    let cap := x.sub.testBit 4
    some (x.sub < 32 && (2 ≤ form || file == 0) && (!cap || (x.ty == tB32 && file == 0))
      && !(x.ty == tB64 && (file == 1 || file == 3)))
  | .brx | .callx | .nop | .yield => some true
  | _ => none

/-- How the form at hand uses ROUND (R50, R117, R123, R125, R137, R147, R148, R156). -/
def VArgs.roundUse (x : VArgs) : RoundUse :=
  match x.op with
  | .fadd | .fsub | .fmul | .fma | .fdiv | .frcp | .fsqrt | .frsq | .fexp2 | .flog2 | .fsin | .fcos | .fscl | .frnd
  | .dqnt | .fdot2 => .used
  | .redf | .scanf => if x.sub % 4 == 0 then .used else .otherForms
  | .cvt =>
    if x.ty == tL6 then .otherForms
    else if intClass x.ty && intClass x.cvtSrc then .otherForms else .used
  | .pack => if x.ty == tL6 || x.ty == tI8 || x.ty == tI4 then .otherForms else .used
  | .qnt => if x.ty == tL6 then .otherForms else .used
  | _ => .never

/-- How the form at hand uses SAT (R127, R130, R137, R123, R125, R144, R147, R148, R156). Where R130's table gives SAT to other
types of the instruction only, the model takes cause 4, as R125 and R156 name it for theirs (DEDUCED, entry 22 of the log). -/
def VArgs.satUse (x : VArgs) : SatUse :=
  let signed := x.ty == tI32 || x.ty == tW32 || x.ty == tI64 || x.ty == tW64
  match x.op with
  | .iadd | .isub | .imul | .imad => if signed then .used else .reserved
  | .iabs | .ineg => .used
  | .idiv => if x.ty == tI32 || x.ty == tI64 then .used else .reserved
  | .fadd | .fsub | .fmul | .fma | .fdot2 | .idot4 | .ldot | .dqnt => .used
  | .redi | .scani => if signed && x.sub % 8 == 0 then .used else .reserved
  | .cvt =>
    if x.ty == tL6 then .undefined
    else if intClass x.ty && !intClass x.cvtSrc then .reserved else .used
  | .pack => if x.ty == tL6 then .undefined else .used
  | .qnt =>
    if x.ty == tL6 then .undefined
    else if x.ty == tI8 || x.ty == tI4 then .reserved else .used
  | _ => .reserved

/-- The NEG bits and the ABS bits a form accepts, bit 0 for A, 1 for B, 2 for C (R126, R137, R156). An immediate
form has neither (R56). -/
def VArgs.negAbs (x : VArgs) : Nat × Nat :=
  match x.op with
  | .fadd | .fsub | .fmul | .fmin | .fmax | .fcmp | .fdiv => (3, 3)
  | .fma | .fmed3 => (7, 3)
  | .frcp | .fsqrt | .frsq | .fexp2 | .flog2 | .fsin | .fcos | .fscl | .frnd | .redf | .scanf => (1, 1)
  | _ => (0, 0)

/-- The control class, whose SUB holds the guard-file bit (R41). -/
def Op.control (op : Op) : Bool := 0x300 ≤ op.code && op.code < 0x340

/-! ### Memory sizes (R45) -/

/-- Bytes per lane of a SIZE code (R45). -/
def sizeBytes (sz : Nat) : Nat :=
  match sz with
  | 0 => 1 | 1 => 2 | 3 => 8 | 4 => 16 | 14 => 3 | 15 => 8 | _ => 4

/-- Registers per lane of a SIZE code (R45). -/
def sizeRegs (sz : Nat) : Nat :=
  match sz with
  | 3 => 2 | 15 => 2 | 4 => 4 | _ => 1

/-- The type whose formats a store of SIZE accepts; the b-sizes are untyped (R211). -/
def sizeChk (sz : Nat) : Option Nat :=
  match sz with
  | 5 => some tI32 | 6 => some tW32 | 7 => some tF32 | 8 => some tF16 | 9 => some tBf16 | 10 => some tE4m3
  | 11 => some tE5m2 | 12 => some tI8 | 13 => some tI4 | 14 => some tL6 | 15 => some tF64 | _ => none

/-- The operation and size pairs of an atomic (R268). -/
def atomicPair (code sz : Nat) : Bool :=
  if code < 3 then sz == 2 || sz == 5 || sz == 6 || sz == 3
  else if code < 7 then sz == 2 || sz == 3
  else if code == 7 then sz == 7 || sz == 15
  else false

/-- The operands of an M-format instruction (R208, R249, R269, R234, R396). -/
def memOperands (op : Op) (f : MF) : List Operand :=
  let sz := f.size.toNat
  let d : Kind → Role → Option Nat → Operand := fun k r c => ⟨.d, k, f.d.toNat, r, c⟩
  let a : Kind → Operand := fun k => ⟨.a, k, f.a.toNat, .src, none⟩
  let b : List Operand := [⟨.b, .vec 1, f.b.toNat, .src, none⟩]
  match op with
  | .ld => d (.vec (sizeRegs sz)) .dst none :: a (.vec 4) :: b
  | .st => d (.vec (sizeRegs sz)) .src (sizeChk sz) :: a (.vec 4) :: b
  | .ldc => d (.vec 4) .dst none :: a (.vec 4) :: b
  | .stc => d (.vec 4) .src none :: a (.vec 4) :: b
  | .ldg => d (if sz == 3 || sz == 4 || sz == 15 then .pair else .grp) .dst none :: a (.vec 4) :: b
  | .pref => a (.vec 4) :: b
  | .lds => d (.vec (sizeRegs sz)) .dst none :: a (.vec 1) :: b
  | .sts => d (.vec (sizeRegs sz)) .src (sizeChk sz) :: a (.vec 1) :: b
  | .ldfe | .feq => d (.vec 1) .dst none :: a (.vec 1) :: b
  | .stfe => d (.vec 1) .src (sizeChk sz) :: a (.vec 1) :: b
  | .feset => a (.vec 1) :: b
  | .atoms => d (.vec (sizeRegs sz)) .both (sizeChk sz) :: a (.vec 1) :: b
  | .cass => d (.vec (2 * sizeRegs sz)) .both none :: a (.vec 1) :: b
  | .binit => d (.vec 1) .src none :: a (.vec 1) :: b
  | .atom => d (.vec (sizeRegs sz)) .both (sizeChk sz) :: a (.vec 4) :: b
  | .red => d (.vec (sizeRegs sz)) .src (sizeChk sz) :: a (.vec 4) :: b
  | .cas => d (.vec (2 * sizeRegs sz)) .both none :: a (.vec 4) :: b
  | .spawn => [d (.vec 1) .dst none, a (.vec 4)]
  | _ => []

/-- The SIZE, ORDER, SCOPE, STREAM and CACHE values an M-format instruction defines (cause 1 otherwise). -/
def memDefined (op : Op) (f : MF) : Bool :=
  let sz := f.size.toNat
  let ord := f.order.toNat
  let scopeOk := f.scope.toNat < 5
  let cacheOk := f.cache.toNat % 4 != 3 && f.cache.toNat / 4 != 3
  match op with
  | .ld => ord ≤ 1 && scopeOk && cacheOk
  | .st => ord % 2 == 0 && scopeOk && cacheOk
  | .ldc => sz == 4 && ord ≤ 1 && scopeOk && cacheOk
  | .stc => sz == 4 && ord % 2 == 0 && scopeOk && cacheOk
  | .ldg => (sz == 2 || sz == 3 || sz == 4 || sz == 5 || sz == 6 || sz == 7 || sz == 15) && ord ≤ 1 && scopeOk && cacheOk
  | .pref => sz == 0 && ord == 0 && scopeOk && cacheOk
  | .lds => ord ≤ 1 && scopeOk
  | .sts => ord % 2 == 0 && scopeOk
  | .ldfe | .stfe => (sz == 2 || sz == 5 || sz == 6 || sz == 7) && ord == 0 && scopeOk
  | .feset | .feq => sz == 2 && ord == 0 && scopeOk
  | .atoms => atomicPair f.stream.toNat sz && scopeOk
  | .cass => (sz == 2 || sz == 3) && scopeOk
  | .binit => sz == 2 && ord == 0 && (f.scope.toNat == 1 || f.scope.toNat == 2)
  | .atom => atomicPair f.cache.toNat sz && scopeOk
  | .red => atomicPair f.cache.toNat sz && ord % 2 == 0 && scopeOk
  | .cas => (sz == 2 || sz == 3) && scopeOk
  | .fence => ord != 0 && scopeOk
  | _ => true

/-- Non-zero bits an M-format instruction does not use (cause 4). -/
def memReserved (op : Op) (f : MF) : Bool :=
  let scopeSet := f.order == 0 && f.scope != 0
  match op with
  | .ld | .ldc | .ldg => scopeSet || f.stream != 0
  | .st | .stc => scopeSet
  | .pref => f.scope != 0 || f.stream != 0 || f.d != 0
  | .lds => scopeSet || f.stream != 0 || f.cache != 0
  | .sts => scopeSet || f.cache != 0
  | .ldfe => f.scope != 0 || f.stream.toNat / 2 != 0 || f.cache != 0
  | .stfe => f.scope != 0 || f.stream != 0 || f.cache != 0
  | .feset => f.scope != 0 || f.stream.toNat / 2 != 0 || f.cache != 0 || f.d != 0
  | .feq => f.scope != 0 || f.stream != 0 || f.cache != 0
  | .atoms => scopeSet || f.cache != 0
  | .cass => scopeSet || f.stream != 0 || f.cache != 0
  | .binit => f.stream != 0 || f.cache != 0
  | .atom => scopeSet || f.stream != 0
  | .red => scopeSet
  | .cas => scopeSet || f.stream != 0 || f.cache != 0
  | .fence =>
    f.offset.toNat / 256 != 0 || (f.order == 1 && f.offset != 0) || f.size != 0 || f.stream != 0 || f.cache != 0
      || f.d != 0 || f.a != 0 || f.b != 0
  | .spawn =>
    f.b.toNat != 1023 || f.size != 0 || f.order != 0 || f.scope != 0 || f.stream != 0 || f.cache != 0
  | _ => false

/-! ### The matrix stream (R297, R298) -/

/-- The FMT codes a tile operation accepts; `none` where FMT is not used. -/
def matTypes (op : Op) : Option (List Nat) :=
  match op with
  | .mma => some [tF64, tF32, tF16, tBf16, tE4m3, tE5m2, tI8, tI4, tL6]
  | .mmas => some [tE4m3, tE5m2, tI8, tI4, tL6]
  | .zld | .zst | .zclr => some [tB32, tI32, tF32, tF64]
  | _ => none

/-- SOFF, bits [28:10] of a SLOOP: BUFO, BUFB, BUFA and TILE side by side (R297). -/
def XF.soff (f : XF) : BitVec 19 := f.bufO ++ f.bufB ++ f.bufA ++ f.tile

/-- CNT, bits [89:70] of a SLOOP (R297). -/
def XF.cnt (f : XF) : BitVec 20 := f.vb ++ f.va

/-- Which fields of R47 a sequencer instruction uses, in the order TILE, BUFA, BUFB, BUFO, ASRC, BSRC, GA, GB, GS,
VA, VB, WV (R297). -/
structure XUse where
  tile : Bool := false
  bufA : Bool := false
  bufB : Bool := false
  bufO : Bool := false
  asrc : Bool := false
  bsrc : Bool := false
  ga : Bool := false
  gb : Bool := false
  gs : Bool := false
  va : Bool := false
  vb : Bool := false
  wv : Bool := false
deriving DecidableEq, Repr

/-- The fields used by the form at hand (R297). -/
def matUse (op : Op) (f : XF) : XUse :=
  let sa := f.asrc.toNat
  let sb := f.bsrc.toNat
  match op with
  | .mma | .mmas =>
    { tile := true, asrc := true, bsrc := true, wv := true, ga := sa != 1, gb := sb != 1, va := sa == 1, vb := sb == 1,
      bufA := sa == 2, bufB := sb == 2, gs := op == .mmas }
  | .zld => { tile := true, asrc := true, ga := true, bufA := sa == 2, wv := true }
  | .zst => { tile := true, asrc := true, ga := true, bufO := sa == 2, wv := true }
  | .zclr => { tile := true }
  | .bwait | .bfree => { bufA := true, va := true }
  | .nbsig => { bufO := true, asrc := true, va := true }
  | .nbsw => { bufO := true, va := true }
  | .sloop =>
    { tile := true, bufA := true, bufB := true, bufO := true, asrc := true,
      va := sa == 0, vb := sa == 0, ga := sa == 1, wv := sa == 1 }
  | _ => {}

/-- The undefined values of a sequencer instruction (cause 1): a code that a field it uses does not define (R42, R62, R298). -/
def matDefined (op : Op) (f : XF) : Bool :=
  let u := matUse op f
  (match matTypes op with | some l => l.contains f.fmt.toNat | none => true) &&
  (!u.asrc || f.asrc.toNat ≤ 2) && (!u.bsrc || f.bsrc.toNat ≤ 2) &&
  match op with
  | .zld | .zst => f.asrc == 0 || f.asrc.toNat == 2
  | .nbsig | .sloop => f.asrc.toNat ≤ 1
  | _ => true

/-- Non-zero bits a sequencer instruction does not use (cause 4). GN, YLD, PIN and STALL must be 0 (R47, R297). -/
def matReserved (op : Op) (f : XF) : Bool :=
  let u := matUse op f
  f.rsvLow != 0 || f.rsvHigh || f.com.gn || f.com.yld || f.com.pin || f.com.stall != 0
    || (!u.tile && f.tile != 0) || (!u.bufA && f.bufA != 0) || (!u.bufB && f.bufB != 0) || (!u.bufO && f.bufO != 0)
    || (!u.asrc && f.asrc != 0) || (!u.bsrc && f.bsrc != 0) || (!u.ga && f.ga != 0) || (!u.gb && f.gb != 0)
    || (!u.gs && f.gs != 0) || (!u.va && f.va != 0) || (!u.vb && f.vb != 0) || (!u.wv && f.wv != 0)
    || ((matTypes op).isNone && f.fmt != 0)
    || ((op == .bwait || op == .bfree) && f.va.toNat / 256 != 0)

/-- The first bad operand of a sequencer instruction (R47, R298). -/
def matBad (op : Op) (f : XF) : List Field :=
  let u := matUse op f
  let counted := op == .bwait || op == .bfree || op == .nbsig || op == .nbsw
  let named := op == .mma || op == .mmas
  (if f.com.gp.toNat != 127 then [.gp] else [])
    ++ (if (counted && f.va == 0) || (named && u.va && (f.va.toNat % 4 != 0 || 640 ≤ f.va.toNat)) then [.va] else [])
    ++ (if named && u.vb && (f.vb.toNat % 4 != 0 || 640 ≤ f.vb.toNat) then [.vb] else [])

/-! ### System register numbers (R48, R76, R170, R198, R225, R247, R288, R336, R345, R408) -/

/-- Whether SYSREG names a register, and whether SWR may write it. -/
inductive SysAccess where
  | none | ro | rw
deriving DecidableEq, Repr

def sysAccess (unit index : Nat) : SysAccess :=
  match unit with
  | 0 => if index == 1 then .rw else if index < 0xC then .ro else .none
  | 1 =>
    if index < 3 then .rw else if index == 3 then .ro
    else if 0x10 ≤ index && index < 0x13 then .ro
    else if 0x20 ≤ index && index < 0x23 then .rw
    else if 0x23 ≤ index && index < 0x26 then .ro
    else .none
  | 2 =>
    if index < 0x10 then .rw else if index < 0x32 then .ro else if index < 0x34 then .rw else .none
  | 3 =>
    if index == 1 then .rw
    else if index == 7 then .none
    else if index < 0x12 then .ro else .none
  | 4 => if index == 0 then .ro else if index < 4 then .rw else .none
  | 5 => if index < 6 then .ro else .none
  | 6 => if index < 4 then .rw else .none
  | _ => .none

/-! ### Register numbers (R51 to R53) -/

/-- Where an instruction executes: a wave stream, a handler stream or a sequencer stream (R61). -/
inductive Stream where
  | wave | handler | sequencer
deriving DecidableEq, Repr

/-- Whether a vector number names registers of the stream's own file: v0-v639, or e0-e31 in handler mode (R51). -/
def vecNamed (h : Bool) (n k : Nat) : Bool :=
  if h then 640 ≤ n && n + k ≤ 672 else n + k ≤ 640

/-- Whether a field names what its kind and role ask for (R51 to R53, R146, R343). -/
def Operand.ok (h : Bool) (o : Operand) : Bool :=
  let n := o.num
  match o.kind with
  | .vec k =>
    if n == 1023 then true else if 1016 ≤ n then o.role == .src && k == 1
    else n % k == 0 && vecNamed h n k
  | .run k al =>
    if n == 1023 then true else if 1016 ≤ n then o.role == .src && k == 1 else n % al == 0 && vecNamed h n k
  | .own => n == 1023 || vecNamed h n 1
  | .tags => 1016 ≤ n || vecNamed h n 1
  | .base => !h && n < 640
  | .pred => n == 1023 || n < (if h then 8 else 96)
  | .preds => if h then n == 0 else n == 0 || n == 32 || n == 64
  | .grp => n < (if h then 16 else 64)
  | .pair => n % 2 == 0 && n < (if h then 16 else 64)
  | .qpred => n < (if h then 4 else 16)
  | .literal lo hi => lo ≤ n && n ≤ hi

/-- The guard's file and limits (R41, R343): `q` says whether GP names a group-wide predicate. -/
def gpOk (h q : Bool) (gp : Nat) : Bool :=
  gp == 127 || gp < (if q then (if h then 4 else 16) else (if h then 8 else 96))

/-! ### The causes, in R63's order -/

/-- What an encoding's fate depends on besides the encoding (R63). -/
structure FateCtx where
  stream : Stream
  gradeB : Bool
  mask : BitVec 16
  /-- which of several bad operands is named: R345 leaves it open -/
  pick : Nat
deriving DecidableEq, Repr

/-- Whether an instruction takes its guard on q (R41, R101, R106). -/
def View.guardOnQ : View → Bool
  | .alu x => if x.op.control then x.sub.testBit 7 else x.gw
  | .imm op f => op.control && f.sub.getLsbD 9
  | .branch _ f => f.sub.getLsbD 7
  | _ => false

/-- The guard, common to every format. -/
def View.com : View → Option Common
  | .alu x => some x.com
  | .imm _ f => some f.com
  | .mem _ f => some f.com
  | .branch _ f => some f.com
  | .matrix _ f => some f.com
  | .system _ f => some f.com
  | .event => none

/-- Control instructions whose guard must be q or always (R101, R106, R367). -/
def Op.uniformGuard : Op → Bool
  | .recon | .loop | .endl | .breakLoop | .jseg | .segld | .segdrop | .segq | .live => true
  | _ => false

/-- Cause 1, undefined (R62). -/
def View.undefined : View → Bool
  | .alu x =>
    (x.gw && !x.op.hasGroup) || (x.imm.isSome && !x.op.hasImm)
      || (match x.types with | some l => !l.contains x.ty | none => false)
      || x.subOk == some false
      || (x.imm.isSome && x.rsv != 0 && x.subOk.isSome)
      || (match x.roundUse with
          | .never => false
          | .used => x.round == 4 || x.round == 5 || x.round == 6
          | .otherForms => x.round != 0)
      || (x.satUse == .undefined && x.sat)
  | .imm _ _ => false
  | .mem op f => !memDefined op f
  | .branch op f => op == .loop && f.sub.getLsbD 6
  | .matrix op f => !matDefined op f
  | .system _ _ => false
  | .event => false

/-- Cause 6, wrong stream (R61). -/
def View.wrongStream (v : View) (s : Stream) : Bool :=
  match v with
  | .matrix _ _ => s != .sequencer
  | .alu x =>
    s == .sequencer || (s == .wave && (x.op == .movw || x.op == .emret || x.op == .tret || x.op == .zemu))
  | .event => false
  | _ => s == .sequencer

/-- Cause 2, disabled by grade (R65). -/
def View.gradeOff (v : View) (gradeB : Bool) : Bool :=
  gradeB && match v with
  | .alu x => x.op == .ldot
  | .matrix op f => (op == .mma || op == .mmas) && (f.fmt.toNat == tI4 || f.fmt.toNat == tL6)
  | _ => false

/-- The feature bits an instruction's TYPE or FMT needs (R66). -/
def typeFeature (ty : Nat) : List Nat :=
  if ty == tF64 then [0] else if ty == tE4m3 || ty == tE5m2 then [1] else if ty == tI4 || ty == tL6 then [2] else []

/-- The features an instruction uses (R66). Bits 0 to 2 go by the TYPE of every V-format instruction that uses TYPE, RNGF, ZREAD and
ZWRITE among them, and by the FMT of every tile operation, ZLD, ZST and ZCLR among them (DEDUCED, entry 66 of the log). -/
def View.features : View → List Nat
  | .alu x =>
    (if x.types.isSome then typeFeature x.ty else [])
      ++ (if x.op == .cvt then typeFeature x.cvtSrc else [])
      ++ (if x.op == .ldot then [2] else [])
      ++ (if 0x380 ≤ x.op.code && x.op.code ≤ 0x385 then [4] else [])
      ++ (if x.op == .gbar then [6] else [])
      ++ (if 0x250 ≤ x.op.code && x.op.code ≤ 0x255 then [7] else [])
  | .mem op _ => if op == .spawn then [5] else []
  | .matrix op f =>
    (if op == .mma || op == .mmas || op == .zld || op == .zst || op == .zclr then typeFeature f.fmt.toNat else [])
      ++ (if op == .mmas then [3] else [])
  | _ => []

/-- Cause 3, masked (R66). -/
def View.masked (v : View) (mask : BitVec 16) : Bool := v.features.any fun k => !mask.getLsbD k

/-- Cause 4, reserved field non-zero (R7, R41, R42). -/
def View.reserved (v : View) : Bool :=
  (match v.com with
   | some c => c.rsv != 0 || (c.gn && c.gp.toNat == 127)
   | none => false) ||
  match v with
  | .alu x =>
    let used : Field → Bool := fun fl => x.operands.any fun o => o.field == fl
    let (ng, ab) := x.negAbs
    x.rsv != 0
      || (!used .d && x.d != 0) || (!used .a && x.a != 0)
      || (!used .b && x.b != (if x.op == .movw then 1023 else 0))
      || (!used .c && x.c != 0)
      || (x.types.isNone && x.ty != 0)
      || (x.subOk.isNone && (if x.op.control then x.sub % 128 else x.sub) != 0)
      || (x.op.control && x.sub % 128 != 0)
      || (x.roundUse == .never && x.round != 0)
      || (x.satUse == .reserved && x.sat)
      || (x.neg &&& ng) != x.neg || (x.abs &&& ab) != x.abs
  | .imm op f =>
    f.ty != 0 || f.flags != 0 || f.a != 0
      || (if op.control then f.sub.toNat % 512 else f.sub.toNat) != 0
      || match op with
         | .jseg => f.d != 0
         | .segld | .segq => f.imm.toNat / 256 != 0
         | .segdrop => f.d != 0 || f.imm.toNat / 256 != 0
         | _ => f.d != 0 || f.imm.toNat / 65536 != 0
  | .mem op f => memReserved op f
  | .branch op f =>
    (op != .loop && f.sub.toNat % 128 != 0)
      || (op != .bra && f.reconv != 0)
      || (!(op == .bra || op == .call || op == .recon || op == .loop) && f.target != 0)
  | .matrix op f => matReserved op f
  | .system op f => f.rsv != 0 || f.sub != 0 || (if op == .srd then f.a != 0 else f.d != 0)
  | .event => false

/-- The operands whose numbers R51 to R53 limit. -/
def View.operands : View → List Operand
  | .alu x => x.operands
  | .imm op f =>
    match op with
    | .segld | .segq => [⟨.d, .grp, f.d.toNat, .dst, none⟩]
    | _ => []
  | .mem op f => memOperands op f
  | .branch op f => if op == .loop then [⟨.sub, .grp, f.sub.toNat % 64, .src, none⟩] else []
  | .matrix _ _ => []
  | .system op f => if op == .srd then [⟨.d, .grp, f.d.toNat, .dst, none⟩] else [⟨.a, .grp, f.a.toNat, .src, none⟩]
  | .event => []

/-- The fields of a system instruction that SYSREG's number or access makes bad (R48, R345). -/
def systemBad (v : View) (s : Stream) : List Field :=
  match v with
  | .system op f =>
    let unit := f.sysreg.toNat / 4096
    match sysAccess unit (f.sysreg.toNat % 4096) with
    | .none => [.sysreg]
    | .ro => if op == .swr then [.sysreg] else []
    | .rw => if op == .swr && unit == 3 && s == .wave then [.sysreg] else []
  | _ => []

/-- Whether an encoding's guard is a bad operand (R40, R41, R101, R106, R367). -/
def View.guardBad (v : View) (h : Bool) : Bool :=
  match v.com with
  | some c =>
    !gpOk h v.guardOnQ c.gp.toNat || (match v with
      | .imm op _ => op.uniformGuard && !v.guardOnQ && c.gp.toNat != 127
      | .branch op _ => op.uniformGuard && !v.guardOnQ && c.gp.toNat != 127
      | _ => false)
  | none => false

/-- Cause 5, bad operand: the offending fields (R40, R41, R47 to R53). -/
def View.badOperands (v : View) (s : Stream) : List Field :=
  let h := s == .handler
  match v with
  | .event => []
  | .matrix op f => matBad op f
  | _ =>
    ((v.operands.filter fun o => !o.ok h).map (·.field)) ++ (if v.guardBad h then [.gp] else []) ++ systemBad v s

/-- The first cause an encoding takes, in R63's order, with an offending field of cause 5 (which of several is left open);
`none` where it is an instruction of the stream. Cause 7 is found at execution. -/
def View.fate (v : View) (c : FateCtx) : Option (Nat × Nat) :=
  if v.undefined then some (1, 0)
  else if v.wrongStream c.stream then some (6, 0)
  else if v.gradeOff c.gradeB then some (2, 0)
  else if v.masked c.mask then some (3, 0)
  else if v.reserved then some (4, 0)
  else match v.badOperands c.stream with
    | [] => none
    | fl :: fls => some (5, ((fl :: fls).getD (c.pick % (fls.length + 1)) fl).num)

end Sys2Proof
end

