-- ==== Sys2Proof/Config.lean ====
section
/-!
DEFINITION. What the manual leaves open and no step of the part computes: the free values.
Each is an opaque constant applied to the model's own counter (`State.tick`) or to the operands it depends on,
so that nothing can be proved of which value it is. The log entries name each one.
-/

namespace Sys2Proof.Config

/-- Which of the steps that could come next does come next (R94, R226): entry 2 of the log. -/
opaque choice : Nat → Nat

/-- By how many ticks of 1/90 ns die `d` advances over the step numbered `n` (R5, R94): entry 3 of the log. -/
opaque elapsed : Nat → Nat → Nat

/-- The undefined value of one lane, numbered by the step, the register and the lane (R8, R9): entry 4 of the log. -/
opaque freeWord : Nat → Nat → Nat → Word

/-- The undefined value of a group-wide register (R8, R9): entry 4 of the log. -/
opaque freeDword : Nat → Nat → Dword

/-- The undefined value of one bit (R8, R9): entry 4 of the log. -/
opaque freeBit : Nat → Nat → Bool

/-- The undefined value of a byte (R8, R9): entry 4 of the log. -/
opaque freeByte : Nat → Nat → Byte

/-- A random number the security core or Sorrel draws (R443, R460): entry 5 of the log. -/
opaque drawn : Nat → Dword

/-- The keyed digest of a context image: its value is not defined (R380). Entry 6 of the log. -/
opaque imageDigest : List (Nat × Byte) → Nat → Nat → BitVec 256

/-- The Ed448, SHAKE256 and serial-number bytes of an attestation report (R453, R454): entry 7 of the log. -/
opaque attestByte : Nat → Nat → Byte

/-- Whether a staged firmware image passes verification, and its version (R452): entry 8 of the log. -/
opaque imageSigned : Nat → Bool

/-- The version a staged firmware image carries (R452): entry 8 of the log. -/
opaque imageVersion : Nat → Nat

/-- Whether the standby can read the state table's version under a staged image (R437): entry 8 of the log. -/
opaque imageImports : Nat → Bool

/-- The power demand of die `d` in the window numbered `n`, in watts (R479): entry 9 of the log. -/
opaque demand : Nat → Nat → Nat

/-- Whether a page of the host window has no translation until a page request is granted it (R474): entry 10 of the log. -/
opaque hostAbsent : Nat → Bool

end Sys2Proof.Config
end

