-- ==== Sys2Proof/Machine/Bits.lean ====
section
/-!
DEFINITION. Bit fields, sign extension and byte order (R6): bit 0 is the least significant and bytes lie
little-endian, wherever the part defines an order.
-/

namespace Sys2Proof

/-- Bits `lo` to `lo + n - 1` of a number. -/
def field (x lo n : Nat) : Nat := x / 2 ^ lo % 2 ^ n

/-- The number `x` of `n` bits as a two's-complement integer. -/
def sext (n x : Nat) : Int := if x % 2 ^ n < 2 ^ (n - 1) then (x % 2 ^ n : Nat) else (x % 2 ^ n : Nat) - (2 ^ n : Nat)

/-- An integer kept modulo 2^n. -/
def wrapNat (n : Nat) (x : Int) : Nat := (x % (2 ^ n : Nat)).toNat

/-- The value of a list of bytes, the first the least significant (R6). -/
def ofBytes : List Byte → Nat
  | [] => 0
  | b :: bs => b.toNat + 256 * ofBytes bs

/-- The `n` low bytes of a number, the least significant first (R6). -/
def toBytes : Nat → Nat → List Byte
  | 0, _ => []
  | n + 1, x => BitVec.ofNat 8 x :: toBytes n (x / 256)

/-- The number of set bits among the `n` low ones. -/
def popcount : Nat → Nat → Nat
  | 0, _ => 0
  | n + 1, x => x % 2 + popcount n (x / 2)

/-- The number of bits `x` takes: 0 for 0. -/
def bitLen (x : Nat) : Nat := if x = 0 then 0 else Nat.log2 x + 1

/-- The `n` low bits in reverse order. -/
def reverseBits : Nat → Nat → Nat
  | 0, _ => 0
  | n + 1, x => x % 2 * 2 ^ n + reverseBits n (x / 2)

/-- The lanes a mask holds, ascending (R10). -/
def Mask.lanes (m : Mask) : List Nat := laneList.filter fun l => m.getLsbD l

/-- The mask of the lanes for which `f` holds. -/
def Mask.of (f : Nat → Bool) : Mask :=
  laneList.foldl (fun m l => if f l then m ||| (1#32 <<< l) else m) 0

/-- The full mask. -/
def Mask.all : Mask := BitVec.allOnes 32

/-- The mask of one lane. -/
def Mask.one (l : Nat) : Mask := 1#32 <<< l

/-- The number of lanes in a mask. -/
def Mask.count (m : Mask) : Nat := m.lanes.length

/-- The lowest lane of a mask. -/
def Mask.lowest (m : Mask) : Option Nat := m.lanes.head?

/-- The low and the high word of a 64-bit value, as an even-odd pair holds it (R52). -/
def lowWord (x : Dword) : Word := x.setWidth 32
def highWord (x : Dword) : Word := (x >>> 32).setWidth 32
def pairOf (lo hi : Word) : Dword := hi ++ lo

/-- The vector whose lanes are `f` of the lanes of a mask and those of `old` elsewhere. -/
def Lanes.merge (m : Mask) (new old : Lanes) : Lanes :=
  Lanes.of fun l => if m.getLsbD l then new.at l else old.at l

end Sys2Proof
end

