-- ==== Sys2Proof/Machine/KMap.lean ====
section
/-!
DEFINITION. Maps and sets of the state as sorted lists: plain data, one list for one map.
-/

namespace Sys2Proof

/-- A map from numbers, held as a list of pairs with rising keys. -/
abbrev KMap (α : Type) := List (Nat × α)

/-- The entry at key `k`, if the map has one. -/
def kget {α : Type} : KMap α → Nat → Option α
  | [], _ => none
  | (k', v) :: m, k => if k' = k then some v else kget m k

/-- The entry at key `k`, or `d`. -/
def kgetD {α : Type} (m : KMap α) (k : Nat) (d : α) : α := (kget m k).getD d

/-- The map with `v` at key `k`. -/
def kset {α : Type} : KMap α → Nat → α → KMap α
  | [], k, v => [(k, v)]
  | (k', v') :: m, k, v =>
    if k < k' then (k, v) :: (k', v') :: m
    else if k' = k then (k, v) :: m
    else (k', v') :: kset m k v

/-- The map without key `k`. -/
def kdel {α : Type} : KMap α → Nat → KMap α
  | [], _ => []
  | (k', v') :: m, k => if k' = k then kdel m k else (k', v') :: kdel m k

/-- The map with `v` at key `k`, where an absent key stands for `d`: no entry ever equals `d`. -/
def kput {α : Type} [DecidableEq α] (m : KMap α) (k : Nat) (v d : α) : KMap α :=
  if v = d then kdel m k else kset m k v

/-- The map with its entry at key `k` changed by `f`; no change where the map has no such entry. -/
def kmod {α : Type} (m : KMap α) (k : Nat) (f : α → α) : KMap α :=
  match kget m k with
  | some v => kset m k (f v)
  | none => m

/-- The keys of a map, rising. -/
def kkeys {α : Type} (m : KMap α) : List Nat := m.map (·.1)

/-- The values of a map, in rising order of key. -/
def kvals {α : Type} (m : KMap α) : List α := m.map (·.2)

/-- The smallest number from 0 up that is no key of the map. -/
def kfresh {α : Type} (m : KMap α) : Nat := m.foldl (fun n e => max n (e.1 + 1)) 0

/-- Keys that rise strictly from above `lo`. -/
def kwfFrom {α : Type} : Nat → KMap α → Bool
  | _, [] => true
  | lo, (k, _) :: m => lo ≤ k && kwfFrom (k + 1) m

/-- The canonical form: strictly rising keys. -/
def kwf {α : Type} (m : KMap α) : Bool := kwfFrom 0 m

/-- A set of numbers, held as a rising list. -/
abbrev NSet := List Nat

/-- The set with `k`. -/
def nins : NSet → Nat → NSet
  | [], k => [k]
  | x :: m, k => if k < x then k :: x :: m else if x = k then x :: m else x :: nins m k

/-- The set without `k`. -/
def ndel : NSet → Nat → NSet
  | [], _ => []
  | x :: m, k => if x = k then ndel m k else x :: ndel m k

/-- Strictly rising numbers from `lo`. -/
def nwfFrom : Nat → NSet → Bool
  | _, [] => true
  | lo, k :: m => lo ≤ k && nwfFrom (k + 1) m

/-- The list with its element number `i` changed by `f`. -/
def lmod {α : Type} : List α → Nat → (α → α) → List α
  | [], _, _ => []
  | x :: m, 0, f => f x :: m
  | x :: m, i + 1, f => x :: lmod m i f

/-- The list without its element number `i`. -/
def ldel {α : Type} : List α → Nat → List α
  | [], _ => []
  | _ :: m, 0 => m
  | x :: m, i + 1 => x :: ldel m i

/-- The numbers from `lo`, `n` of them. -/
def rangeFrom (lo n : Nat) : List Nat := (List.range n).map (lo + ·)

end Sys2Proof
end

