-- ==== Sys2Proof/Machine/State.lean ====
section
/-!
DEFINITION. The state of the part as plain data: the wave cores, load-store units, scratchpads and matrix engines.
-/

namespace Sys2Proof.Machine

/-! ### A wave (R74) -/

/-- The shapes of a vector register with the value each holds (R77). -/
inductive VVal where
  /-- shape 1, uniform: the same value in every lane -/
  | u (x : Word)
  /-- shape 2, affine: lane l holds base + l * stride -/
  | a (base stride : Word)
  /-- shape 0, general: one value per lane -/
  | g (x : Lanes)
deriving DecidableEq, Repr

/-- A vector register: its shape and value, and its format tag (R77, R79). -/
structure VReg where
  val : VVal
  fmt : Nat
deriving DecidableEq, Repr

/-- The kinds of a control stack entry (R103). -/
inductive EntryKind where
  | join | path | call
deriving DecidableEq, Repr

/-- A control stack entry (R103). -/
structure StackEntry where
  kind : EntryKind
  pc : IAddr
  mask : Mask
  rpc : Option IAddr
deriving DecidableEq, Repr

/-- A hardware loop stack entry (R113). -/
structure LoopEntry where
  count : Dword
  start : IAddr
  stop : IAddr
  cdepth : Nat
deriving DecidableEq, Repr

/-- What a wave holds once in wave mode and once at each nesting level: path, stacks and register files
(R74, R103, R343). Registers absent from a map hold their value at placement: U, 0, Raw; false; 0. The e registers of
a level stand under their numbers 640 to 671. Stacks hold their top first. -/
structure Bank where
  pc : IAddr
  mask : Mask
  rpc : Option IAddr
  ctl : List StackEntry
  loops : List LoopEntry
  v : KMap VReg
  /-- capability tags by quad number: bit l is lane l's tag; all ones or zero while the first register is U (R82) -/
  vtags : KMap Mask
  p : KMap Mask
  g : KMap Dword
  /-- the pairs whose capability tag is set, by even register number -/
  gtags : NSet
  /-- the group-wide predicates that are true -/
  q : NSet
deriving DecidableEq, Repr

/-- A full/empty instruction in progress: the lanes it has completed (R255, R341), its active lanes, and the scope it orders at
(R252). -/
structure FeProgress where
  done : Mask
  act : Mask
  scope : Nat
deriving DecidableEq, Repr

/-- What an instruction left not complete keeps while a handler runs: its address, and the lanes, barrier arrival or
grid barrier arrival it has already made (R341). -/
structure Resume where
  pc : IAddr
  fe : Option FeProgress
  bar : Option (Bool × Nat)
  gbar : Option Nat
deriving DecidableEq, Repr

/-- The registers of unit 3 that exist once per level (R345). -/
structure TrapRegs where
  tcause : Dword
  tpc : Dword
  tinst0 : Dword
  tinst1 : Dword
  tmask : Dword
  tinfo : Dword
  tfemask : Dword
  owd : List Dword
  owx : List Dword
  resume : Option Resume
  /-- the wave's place in its store order when the level was entered -/
  since : Nat
deriving DecidableEq, Repr

/-- One chain of an atomic at one location: its size, code (8 for compare-and-swap), and for each lane ascending the
operand and, for a compare-and-swap, the new value (R268, R270). -/
structure Chain where
  size : Nat
  float : Bool
  signed : Bool
  code : Nat
  lanes : List (Nat × Nat × Nat)
deriving DecidableEq, Repr

/-- Where a store is applied (R228): memory of this part by address within the device, another fabric device, or the
scratchpad of the block at a rank of the issuing block's cluster. -/
inductive Home where
  | mem (addr : Nat)
  /-- another device, with the protection class of the capability used, the lowest lane stored and its address (R335) -/
  | remote (dev addr cls lane va : Nat)
  | spad (rank off : Nat)
deriving DecidableEq, Repr

/-- What a store does at its home. -/
inductive Effect where
  /-- bytes with the tag of each tag unit written whole, or none (R211, R212, R251) -/
  | bytes (data : List Byte) (tag : Bool)
  /-- one chain of a RED (R270) -/
  | chain (c : Chain)
  /-- a barrier object initialised (R258) -/
  | binit (scope : Nat) (masks : List Word)
  /-- an arrival, with its token register and the lanes to receive it (R260), and the nesting level and the place in the wave's order
  at which it was issued (R264) -/
  | arrive (drop : Bool) (wave rank : Nat) (dest : Nat) (act : Mask) (level serial : Nat)
deriving DecidableEq, Repr

/-- One piece of a store at one home. -/
structure Part where
  home : Home
  eff : Effect
deriving DecidableEq, Repr

/-- One lane of a store-buffer entry as an image records it (R377): its address word, without the class, the class of its
capability, and its data. -/
structure StoreLane where
  lane : Nat
  addr : Nat
  cls : Nat
  data : Nat
deriving DecidableEq, Repr

/-- What an image records of a store-buffer entry besides its stream and place (R377): kind, SIZE, RED operation, SCOPE,
ORDER, active mask, the tags or the token register, and the lanes. -/
structure StoreInfo where
  kind : Nat
  size : Nat
  op : Nat
  scope : Nat
  order : Nat
  act : Mask
  aux : Nat
  lanes : List StoreLane
deriving DecidableEq, Repr

/-- What a release or a FENCE makes its later stores wait for (R230): the wave's stores before a place in its order, in the streams
of a mask, performed at a scope. -/
structure Gate where
  scope : Nat
  mask : Nat
  before : Nat
deriving DecidableEq, Repr

/-- A FENCE's hold on the wave's later stores, and the path mask it ran under (R230, R236). -/
structure Fence where
  gate : Gate
  path : Mask
deriving DecidableEq, Repr

/-- A store-buffer entry (R223): its place in the wave's program order, its stream, its pieces and what it waits for. -/
structure StoreEntry where
  serial : Nat
  /-- its place in program order as an image counts it (R377) -/
  place : Nat
  stream : Nat
  colour : Nat
  /-- the instruction's address and the kind it is reported as (R198, R335) -/
  pc : IAddr
  kind : Nat
  parts : List Part
  info : StoreInfo
  gates : List Gate
deriving DecidableEq, Repr

/-- A piece of a store that has left its store buffer and is not yet written at its home (R216, R229). -/
structure QPart where
  uid : Nat
  serial : Nat
  stream : Nat
  colour : Nat
  /-- the issuing block, for pieces bound for scratchpad -/
  bslot : Nat
  pc : IAddr
  kind : Nat
  /-- the lowest lane with a byte in the piece -/
  lane : Nat
  part : Part
deriving DecidableEq, Repr

/-- A store whose last piece has been performed and whose acknowledgement is on its way (R224, R237). -/
structure Ack where
  uid : Nat
  stream : Nat
  serial : Nat
deriving DecidableEq, Repr

/-- What a waiting instruction waits for (R84, R100, R222, R223, R253, R261, R267, R323, R341). -/
inductive WaitKind where
  | none
  /-- a spilled register's refill -/
  | refill (reg : Nat)
  /-- a rejected instruction's retry: its rejections so far, when the last was, and the miss entries it needs; with 8 it
  stands in the reservation queue -/
  | miss (rejections since need : Nat)
  /-- a rejected instruction that may try again -/
  | retry (rejections : Nat)
  /-- the reservation queue has granted the instruction its miss entries -/
  | granted
  /-- a fenced transfer, waiting for a segment load -/
  | segment (seg : Nat)
  /-- room in the store buffer or in a store stream -/
  | buffer
  /-- earlier accesses of the wave, before a release, an atomic or a full/empty operation -/
  | order
  /-- an outstanding variable-latency result -/
  | scoreboard
  /-- a full/empty word -/
  | fullEmpty
  | barrier | implicitBarrier | gridBarrier | numbered | fence | mfence | room | command
  /-- a host-window translation (R474) or a remote access (R333) -/
  | outside (tag : Nat)
  /-- nothing more: the wave has raised its partition's halt line (R360) -/
  | halted
deriving DecidableEq, Repr

/-- A fixed-latency result not yet due (R95): register file 0 v, 1 p, 2 g, 3 q as sr.tinfo numbers them. -/
structure Producer where
  addr : IAddr
  file : Nat
  num : Nat
  latency : Nat
  gap : Nat
deriving DecidableEq, Repr

/-- An asynchronous trap held for a wave (R341). -/
structure HeldTrap where
  code : Nat
  sub : Nat
  fieldNum : Nat
  seq : Bool
  info : Dword
  inst : Slot
deriving DecidableEq, Repr

/-- An uncorrectable error standing in a register of a wave (R181, R362). File as in `Producer`; file 4 is control state, by
number: 0 the program counter, masks and tags, 1 the stacks, 2 the generator, 3 the system registers. -/
structure RegError where
  level : Nat
  file : Nat
  num : Nat
  lane : Nat
deriving DecidableEq, Repr

/-- A wave in a slot of a core (R74). -/
structure Wave where
  /-- the model's name for the wave, which no move changes -/
  uid : Nat
  bslot : Nat
  wblk : Nat
  base : Bank
  /-- the banks of the nesting levels the wave is in, the current one first (R343) -/
  handlers : List Bank
  level1 : TrapRegs
  level2 : TrapRegs
  dead : Mask
  exited : Mask
  pois : Bool
  nearBase : Nat
  nearMap : Dword
  roundMode : Nat
  spills : Word
  /-- main-file registers whose chunk stands in the backing area (R84) -/
  spilled : NSet
  /-- what the wave has written since its last MFENCE, and before it but with no NBAR or BADV since (R291): file 0 or 2 and a register's
  number, or 8 and a cluster rank and the first offset; and how many -/
  unfenced : List (Nat × Nat × Nat)
  unsent : List (Nat × Nat × Nat)
  /-- the control stack entries 65 up as they were last written to the backing area, in order of depth (R85, R104) -/
  deep : List StackEntry
  /-- the model's step number at which the wave last issued, for the choice of a victim (R84) -/
  lastIssue : Nat
  /-- the store buffer, oldest first (R223) -/
  sb : List StoreEntry
  nextSerial : Nat
  /-- the place of the latest store-stream entry since the placement (R377) -/
  placed : Nat
  /-- the FENCEs whose stores are still to be performed (R230) -/
  fences : List Fence
  /-- the unacknowledged-store counters of streams 0 to 7 (R224) -/
  unack : List Nat
  missrej : Word
  aggmrg : Word
  capflt : Dword
  capfpc : Dword
  capfva : Dword
  spflt : Dword
  spfpc : Dword
  spfoff : Dword
  rmtflt : Dword
  rmtfpc : Dword
  rmtfva : Dword
  rngK : BitVec 128
  rngC : BitVec 128
  producers : List Producer
  /-- the registers the current instruction reads or writes too early, with checking off (R95) -/
  early : List (Nat × Nat)
  waiting : WaitKind
  fe : Option FeProgress
  /-- an implicit barrier this wave has arrived at and waits for: whether the cluster's, and the phase (R267) -/
  barWait : Option (Bool × Nat)
  /-- the grid barrier generation at which this wave's arrival was applied (R403) -/
  gbarWait : Option Nat
  held : List HeldTrap
  errors : List RegError
  /-- the line of the previous instruction of each stream: wave mode, level 1, level 2 (R36) -/
  lines : List (Option Nat)
  urgent : Bool
  /-- the cycles in which it has been passed over (R405), and the model's step number at which it became urgent -/
  passed : Nat
  urgentAt : Nat
  /-- a debugger halt in force (R358), and the BKPT immediate that raised it -/
  dbgHalt : Bool
  /-- recorded at a liveness point or by the window's end, not issuing (R364) -/
  recorded : Bool
  /-- recorded at a liveness entry, by its index; else whole (R364, R367) -/
  liveEntry : Option Nat
  /-- a breakpoint or debugger halt held while the context is sealed (R388) -/
  bkpend : Bool
  /-- when it was placed or restored, among all waves (R405) -/
  age : Nat
deriving DecidableEq, Repr

/-! ### Tiles, buffers and the sequencer (R274 to R290, R306) -/

/-- An accumulator tile: its words by number, zero where unlisted, its tag and whether it is emulated (R274 to R276).
Whether it is in flight is read off the sequencer's operations. -/
structure Tile where
  words : KMap Word
  tag : Nat
  emulated : Bool
deriving DecidableEq, Repr

/-- A circular buffer: its configuration register and its pointers (R287, R289). -/
structure Buf where
  cfg : Dword
  head : Nat
  tail : Nat
deriving DecidableEq, Repr

/-- What an operation in flight does at its result point (R301 to R305); for ZST the first row's offset, the pitch, the
rotation and the buffer it fills. -/
inductive FlightOp where
  | mma (fmt : Nat)
  | mmas (fmt : Nat)
  | zld (fmt : Nat)
  | zst (fmt start pitch rot : Nat) (buf : Option Nat)
  | zclr (fmt : Nat)
deriving DecidableEq, Repr

/-- Where an operand or a scale table lies (R280 to R282, R302): in registers of a wave of the block, `start` being the
first, or in scratchpad. -/
structure MatSource where
  wave : Option Nat
  start : Nat
  pitch : Nat
  rot : Nat
  rows : Nat
  words : Nat
deriving DecidableEq, Repr

/-- An operation in flight (R284, R285): its sequence number, tile, points in time on its die, and the buffers it names.
`data` holds what it has read: each source's rows as numbers, or for ZST the tile's. `tainted` marks operands that were
written before the read point, or not made ready (R291, R292). -/
structure Flight where
  seq : Nat
  tile : Nat
  op : FlightOp
  srcs : List MatSource
  data : List (List Nat)
  tainted : Bool
  /-- the wave it names, and that wave's group-wide registers that hold its descriptors (R281, R302) -/
  wv : Nat
  grps : List Nat
  readAt : Nat
  resultAt : Nat
  array : Bool
  bufs : List Nat
deriving DecidableEq, Repr

/-- An entry of the deferral queue (R306): the last operation fired before it, 0 if none. -/
inductive Deferred where
  | bfree (buf n after : Nat)
  | nbsig (bar n after : Nat) (result : Bool)
deriving DecidableEq, Repr

/-- A sequencer loop (R308). -/
structure SeqLoop where
  count : Nat
  start : IAddr
  t : Nat
deriving DecidableEq, Repr

/-- A block's sequencer (R283, R284, R306). `status` is sr.mstat.STATE. -/
structure Sequencer where
  pc : IAddr
  loops : List SeqLoop
  next : Nat
  /-- the last operation fired, 0 for none (R306) -/
  last : Nat
  status : Nat
  flights : List Flight
  queue : List Deferred
  marks : List Word
  line : Option Nat
  /-- the trap it stopped for is yet to be delivered -/
  trap : Option HeldTrap
  error : Bool
deriving DecidableEq, Repr

/-- What a lane waiting at a full/empty word is to do (R253, R254). -/
inductive FeOp where
  | load (keep : Bool) (reg : Nat) (fmt : Nat)
  | store (value : Word)
  /-- a channel's completion write, by its number over all core groups (R329) -/
  | channel (chan : Nat) (value : Word)
deriving DecidableEq, Repr

/-- A waiting lane at the home of its word, in the order applied (R254). -/
structure FeWaiter where
  word : Nat
  uid : Nat
  lane : Nat
  op : FeOp
deriving DecidableEq, Repr

/-- A capability with its tag. -/
structure Cap where
  bits : BitVec 128
  tag : Bool
deriving DecidableEq, Repr

/-- The effective fields of a region that its blocks run under (R389, R390). -/
structure Env where
  region : Nat
  /-- the top-level region, which names the partition (R19) -/
  top : Nat
  /-- the cores of the partition, ascending (R19) -/
  partition : List Nat
  colour : Nat
  checked : Bool
  stallCheck : Bool
  localCap : Bool
  codeOffset : Bool
  audit : Nat
  feat : BitVec 16
  domain : Nat
  trapEntry : Option IAddr
  emuEntry : Option IAddr
  backing : Cap
  emuArea : Cap
  sbDepth : Nat
deriving DecidableEq, Repr

/-- A block resident on a core (R17, R242, R283). -/
structure Block where
  grid : Nat
  index : Nat
  rank : Nat
  cluster : Nat
  waves : Nat
  code : Nat
  entry : IAddr
  env : Env
  spBase : Nat
  spSize : Nat
  spad : KMap Byte
  full : NSet
  badWords : NSet
  badBits : NSet
  fe : List FeWaiter
  /-- offsets of the registered barrier objects, in the order registered (R257) -/
  registry : List Nat
  /-- the implicit block barrier: its phase and the waves that have arrived (R267) -/
  barPhase : Nat
  barDone : NSet
  /-- the waves of the block that have retired -/
  gone : NSet
  nTiles : Nat
  tiles : KMap Tile
  badTiles : NSet
  bufs : List Buf
  nbc : List Word
  zbflt : Dword
  mflt : Dword
  seqr : Sequencer
  retired : Bool
  /-- the digest so far, where the block is selected for audit or is an audit execution (R461) -/
  digest : Option Nat
  /-- excluded from audit, or its digest voided (R459, R462) -/
  excluded : Bool
  /-- the audit an execution belongs to (R462) -/
  audit : Option Nat
  /-- the addresses of its outputs that an audited execution has written (R458) -/
  wrote : NSet
deriving DecidableEq, Repr

/-! ### A core -/

/-- A segment of the instruction store (R97): its code object and number, its slots, and its bytes as loaded. -/
structure Segment where
  code : Nat
  num : Nat
  size : Nat
  slots : List Nat
  loading : Bool
  dropPending : Bool
  bytes : KMap Byte
  /-- the stores that must be visible at device scope before a load in progress reads the image: those of a wave before a
  serial number (R101) -/
  after : Nat × Nat
  /-- its image in memory has been changed since it was loaded (R99) -/
  changed : Bool
deriving DecidableEq, Repr

/-- A line of the L1: its bytes, its tags by 16-byte unit, its poisoned 64-byte halves, when it was filled
(R216, R217). -/
structure L1Line where
  bytes : List Byte
  tags : List Bool
  poison : List Bool
  filled : Nat
  pinned : Bool
deriving DecidableEq, Repr

/-- A miss entry (R222): its line, and whether an invalidation has come since the request left (R217). -/
structure Miss where
  line : Nat
  stale : Bool
deriving DecidableEq, Repr

/-- A core (R13, R16, R22, R216). -/
structure Core where
  latch : Nat
  clean : Bool
  waves : KMap Wave
  blocks : KMap Block
  segs : List Segment
  /-- the core write queue, oldest first -/
  queue : List QPart
  l1 : KMap L1Line
  misses : List Miss
  /-- the reservation queue: wave slots (R222) -/
  reserve : List Nat
  parref : Word
  /-- the votes lost of late: physical lane, or 64 + scalar copy, and when in ticks (R178) -/
  votes : List (Nat × Nat)
  /-- the block slots that last fired on the array and on the tile port (R285) -/
  lastArray : Nat
  lastPort : Nat
  /-- what the datapath is to compute wrongly, to be met by the next instruction that computes it (R175 to R177, R179): a
  copy and a logical lane, 32 standing for the scalar unit -/
  upsets : List (Nat × Nat)
deriving DecidableEq, Repr

/-! ### Memory and the Kaolin map -/

/-- A Kaolin entry (R441): STATE 0 free, 1 owned, 2 pending, 3 quarantined; HOME 0 normal, 1 LLC, 2 L1 of PINCG,
3 uncached. -/
structure Granule where
  state : Nat
  owner : Nat
  cls : Nat
  home : Nat
  pincg : Nat
  revoked : Bool
  revpass : Nat
  version : Nat
deriving DecidableEq, Repr

/-- The blocks of a cluster by rank, with the core and slot of each, and its implicit barrier (R242, R267). -/
structure Cluster where
  members : List (Nat × Nat)
  phase : Nat
  /-- the waves that have arrived, as (rank, wave) -/
  arrived : List (Nat × Nat)
  gone : List (Nat × Nat)
deriving DecidableEq, Repr

/-! ### The Loess fabric (R331 to R339) and the host link (R474) -/

/-- A Loess port: what it has sent, latest first; the flits not yet acknowledged, which its replay buffer holds, and those that
wait for room there (R338); its sequence numbers; when it last
sent and received; the devices its link reaches. -/
structure Port where
  sent : List Flit
  window : List Flit
  queued : List Flit
  seq : Nat
  ack : Nat
  lastTx : Nat
  lastRx : Nat
  failed : Bool
  reach : NSet
  discarded : Nat
deriving DecidableEq, Repr

/-- Who made a remote request. -/
inductive Owner where
  /-- a lane of a wave's load or atomic, at its level and instruction (R335) -/
  | lane (uid level : Nat) (pc : IAddr) (lane kind va : Nat)
  /-- a piece of a wave's store -/
  | store (uid stream serial : Nat) (pc : IAddr) (lane kind va : Nat)
  /-- a channel's read, or its write, of a unit at an offset (R325) -/
  | channel (group chan inv off : Nat) (write : Bool)
deriving DecidableEq, Repr

/-- What a remote request came to: a failure code of R335 or 0, the bytes read, the tag of a capability, and the poisoned units,
bit i for the i-th 64-byte unit that the access touches. -/
structure Answer where
  code : Nat
  data : List Byte
  tag : Bool
  units : Nat
deriving DecidableEq, Repr

/-- Whether some byte of an answer came poisoned. -/
def Answer.poison (a : Answer) : Bool := a.units != 0

/-- The answer of a request that failed. -/
def Answer.failed (code : Nat) : Answer := { code, data := [], tag := false, units := 0 }

/-- A request that has left for another device (R333, R338). -/
structure Remote where
  owner : Owner
  dev : Nat
  port : Nat
  flits : List Flit
  sentAt : Nat
  answer : Option Answer
deriving DecidableEq, Repr

/-- A page request of the host window (R474): the page, the wave, the store it stands for if it is one, when it was
sent, and its response. -/
structure PageReq where
  page : Nat
  uid : Nat
  store : Option Nat
  sentAt : Nat
  answer : Option Bool
deriving DecidableEq, Repr

/-- A channel of a copy and collective engine (R315, R316, R322): the command it last accepted, as its block read at the
invocation, and where that command stands. `status` is STATE of R323, 0 before the first command. -/
structure Channel where
  inv : Nat
  status : Nat
  code : Nat
  done : Nat
  pois : Bool
  image : List Byte
  /-- the tags of SRC, DST, CMPL and GRP in the block -/
  tags : List Bool
  colour : Nat
  /-- the invoking block, as grid and index, and the top-level region it ran in -/
  grid : Nat
  index : Nat
  context : Nat
  /-- the slot HEAD named when a DKIND 2 command started -/
  slot : Option Nat
  /-- the contexts that have invoked it, by invocation number (R323) -/
  owners : KMap Nat
  /-- how much of its own contribution a collective's member has sent -/
  sent : Nat
  /-- the contributions of a collective's members: 192 bytes under 2^40 times the rank plus the offset over 192 -/
  parts : KMap (List Byte)
  /-- since when the command waits for another member, in ticks of its die -/
  since : Nat
  /-- its full/empty completion stands in a word's queue, and has been written -/
  queued : Bool
  written : Bool
  /-- the unit on its way to another device: its bytes -/
  unit : Option (List Byte)
deriving DecidableEq, Repr

/-! ### Regions, launches and grids (R389 to R403) -/

/-- Budgets (R389). -/
structure Budget where
  cores : Nat
  waves : Nat
  tiles : Nat
  units : Nat
  chunks : Nat
deriving DecidableEq, Repr

/-- A region as the distributor last read its RCB (R389 to R391), and where its time slice, pre-emption and image
stand (R364, R407). -/
structure Region where
  env : Env
  parent : Option Nat
  depth : Nat
  /-- the address of its RCB, and the capability that named it last -/
  rcb : Cap
  budget : Budget
  /-- the SCHED priority of R390, and whether this RCB gives it -/
  prio : Nat
  ownPrio : Bool
  /-- a REGION PRIO setting (R391) -/
  prioSet : Option Nat
  slice : Nat
  window : Nat
  savea : Cap
  /-- when the slice started, on the home die -/
  sliceAt : Option Nat
  /-- the cores that a pre-emption signal has reached, with when (R364) -/
  signal : KMap Nat
  /-- why it is pre-empted: 1 the distributor, 2 a queue, 3 a sealed save, 4 a halted save -/
  why : Nat
  /-- the queue whose REGION packet waits for the save engine, and its answer: 0 success, else a reason -/
  client : Option Nat
  answer : Option Nat
  /-- the address of the image that holds its blocks -/
  image : Option Nat
  /-- the distributor is to restore it, and has given up (R407) -/
  restore : Bool
  refused : Bool
deriving DecidableEq, Repr

/-- A kernel descriptor (R392). -/
structure Kernel where
  entry : IAddr
  mstream : Option Nat
  waves : Nat
  cluster : Nat
  persistent : Bool
  scratch : Nat
  tiles : Nat
  args : Nat
  audd : Nat
deriving DecidableEq, Repr

/-- How a grid is audited (R458, R460): the seed, k, and the output and shadow capabilities with their slots. -/
structure AuditPlan where
  seed : Nat
  k : Nat
  outs : List (Nat × Cap)
  shadow : Nat × Cap
  /-- the input capabilities, and what the part's memory held in their ranges at acceptance (R458) -/
  ins : List Cap
  kept : List Host.Cell
deriving DecidableEq, Repr

/-- A grid with blocks that exist or are to be placed (R395 to R401): its launch, its place in the order of acceptance,
and for a persistent grid its barrier (R403). -/
structure Grid where
  launch : Nat
  region : Nat
  order : Nat
  code : Nat
  kidx : Nat
  kernel : Kernel
  count : Nat
  next : Nat
  args : Cap
  /-- the counter holds every block of the grid (R28, R395) -/
  expanded : Bool
  /-- a persistent grid that has been tried and waits (R401) -/
  waits : Bool
  gen : Nat
  /-- waves as 32 times block number plus index -/
  arrived : NSet
  gone : NSet
  plan : Option AuditPlan
deriving DecidableEq, Repr

/-- A launch (R28, R395, R417): the queue and index it came from, its spawn-tree counter, its home distributor, its
completion, and the waves it has had. -/
structure Launch where
  queue : Nat
  index : Nat
  counter : Nat
  home : Nat
  region : Nat
  cpl : Option Nat
  cval : Nat
  intr : Bool
  uids : NSet
  /-- the regions that its grids have been accepted into (R391) -/
  regions : NSet
  /-- its program has broken an obligation of R458, and its audit outcomes are undefined -/
  unruly : Bool
deriving DecidableEq, Repr

/-! ### Context images (R372 to R388) -/

/-- A block of an image, with its waves that have a record, the liveness entries of those recorded at a LIVE, by wave
index (R368), and the 128-byte units of scratchpad and the tiles that it keeps (R370, R374). -/
structure SavedBlock where
  block : Block
  waves : List Wave
  lives : KMap Nat
  keptUnits : NSet
  keptTiles : NSet
deriving DecidableEq, Repr

/-- A channel's write held for a saved block (R383): a unit's bytes and the offsets of those that are poisoned, or its
completion. -/
structure HeldWrite where
  inv : Nat
  bytes : List Byte
  bad : NSet
  completion : Bool
deriving DecidableEq, Repr

/-- What the save engine holds of an image it has written: the region, its blocks, and the clusters they belong to; the
writes it holds for saved blocks, by channel (R383); and a nested operation (R387). -/
structure Image where
  region : Nat
  colour : Nat
  cap : Cap
  /-- IMGVER, and TIME once the save has completed -/
  version : Nat
  time : Nat
  /-- DISCARD -/
  discard : Nat
  /-- the number of cores of the partition at the save -/
  cores : Nat
  halted : Bool
  isSealed : Bool
  /-- STATE: 1 saving, 2 valid, 3 restoring, 0 restored -/
  state : Nat
  blocks : List SavedBlock
  clusters : KMap Cluster
  held : KMap HeldWrite
  /-- the region of a guest's operation that the eviction cut short, and whether it was a restore -/
  nested : Option (Nat × Bool)
  /-- while it is restored: the clusters done, and the queue that asked, if one did (R381) -/
  placed : NSet
  asker : Option Nat
deriving DecidableEq, Repr

/-! ### Queues and complexes (R409 to R438) -/

/-- A level of execution within an indirect buffer: the buffer's offset from ARENA's cursor, its count and the packet
that comes next; a LOOP in progress in it: where its body starts, its length and the repetitions left
(R418, R420); and INTR of the INDIRECT that called it (R415). -/
structure Frame where
  off : Nat
  count : Nat
  pos : Nat
  loop : Option (Nat × Nat × Nat)
  intr : Bool
deriving DecidableEq, Repr

/-- A place in a queue's execution order. -/
structure Cursor where
  index : Nat
  frames : List Frame
deriving DecidableEq, Repr

/-- A user queue: its descriptor (R409), its entry of the queue state table (R436) and its slot. -/
structure Queue where
  colour : Nat
  func : Nat
  vec : Nat
  prio : Nat
  size : Nat
  error : Bool
  valid : Bool
  rcb : Cap
  ring : Cap
  idx : Cap
  arena : Cap
  /-- the RCB capability of the latest REGION SET (R417) -/
  regionSet : Option Cap
  cursor : Cursor
  served : Nat
  slot : Option Nat
  /-- what a waiting packet waits for: 0 nothing, 1 WAITMEM, 2 DRAIN, 3 REGION -/
  waits : Nat
  /-- the ticks it has waited, and since when it waits now -/
  waited : Nat
  since : Nat
  /-- fetched packets in execution order (R425) -/
  fetched : List (Cursor × List Byte)
  doorbell : Bool
  /-- when it was mapped and last executed a packet -/
  mappedAt : Nat
  lastAt : Nat
  /-- a host-assisted unmapping waits for the packet's end (R433) -/
  leaving : Bool
  /-- ring packets that a PRED still passes over (R419) -/
  skip : Nat
  /-- its record of KIND 4 has been written since it became ready (R433) -/
  announced : Bool
  /-- its producers have reserved past the ring, and its packets are undefined (R414) -/
  broken : Bool
deriving DecidableEq, Repr

/-- The RCB capability of a queue's current region: the latest REGION SET's, or the descriptor's (R417). -/
def Queue.region (q : Queue) : Cap := q.regionSet.getD q.rcb

/-- The firmware complexes (R15, R435 to R438, R452): `activeB` marks complex B; the beat is counted on the standby's
die. -/
structure Firmware where
  activeB : Bool
  alive : Bool
  standby : Bool
  updating : Bool
  version : Nat
  /-- the version of the standby's image -/
  other : Nat
  lastBeat : Nat
  beats : Nat
  updReq : Bool
  rollReq : Bool
  /-- the service counter (R427) -/
  service : Nat
deriving DecidableEq, Repr

/-- An entry of the launch-queue table (R339, R451). -/
structure LaunchQueue where
  queue : Nat
  valid : Bool
deriving DecidableEq, Repr

/-! ### Audit and sweeper (R457 to R469) -/

/-- An audit of a block (R462, R463): the cores of its executions and their digests, `none` for one that was voided; the
stage is 0 before the re-execution, 1 while it runs, 2 when it has ended, 3 before the third, 4 while it runs, 5 when it
has ended. -/
structure Audit where
  grid : Nat
  index : Nat
  core0 : Nat
  digest0 : Nat
  core1 : Nat
  digest1 : Option Nat
  core2 : Nat
  digest2 : Option Nat
  stage : Nat
deriving DecidableEq, Repr

/-- Sorrel (R457 to R466). -/
structure Sorrel where
  scores : KMap Nat
  quar : NSet
  seed : Nat
  inelig : Nat
  excl : Nat
  skip : Nat
  unres : Nat
  audits : KMap Audit
deriving DecidableEq, Repr

/-- The sweeper (R467, R468): the pass in progress or the last one, its revoked set while it runs, the channels that ran
at its start, and what is due. -/
structure Sweeper where
  pass : Nat
  running : Bool
  revoked : NSet
  chans : NSet
  due : Bool
  asked : Bool
  endedAt : Nat
deriving DecidableEq, Repr

/-! ### Host registers (R444, R475) and power (R479) -/

/-- Device registers that hold a value, and what they count. -/
structure HostRegs where
  apbase : KMap Nat
  /-- host accesses dropped or answered with all ones (R449) -/
  denied : Nat
  dbgsel : KMap Dword
  /-- the regions for which a debugger is armed (R345) -/
  armed : NSet
  dbdrop : KMap Nat
  updaddr : Nat
  props : List Dword
  presult : Dword
  /-- a submitted proposal that has not been answered -/
  submitted : Bool
  /-- STARTUP: stage and FAIL -/
  stage : Nat
  fail : Nat
  /-- the die-to-die links that have failed, as 2 times compute die plus I/O die -/
  deadLinks : NSet
  /-- PWRGRANT0 to 7, the grants in force and the number of the power window -/
  grants : List Nat
  inForce : List Nat
  window : Nat
  powerAt : Nat
  /-- the bytes the last host access read (R449) -/
  lastRead : List Byte
deriving DecidableEq, Repr

/-- What the security core holds for a colour that exists, colour 0 among them (R443). -/
structure Colour where
  gen : Dword
  conf : Bool
  funcs : BitVec 64
deriving DecidableEq, Repr

/-- What a halting fault is recorded with (R361). -/
structure HaltCause where
  code : Nat
  sub : Nat
  slot : Nat
  pc : IAddr
  perms : Nat
deriving DecidableEq, Repr

/-- A raised halt line (R360, R361): the engine that raised it, the cause, and the engines it has reached. -/
structure Halt where
  engine : EngineId
  code : Nat
  sub : Nat
  slot : Nat
  pc : IAddr
  perms : Nat
  stopped : List EngineId
  /-- a further cause of an engine that has not stopped yet (R361) -/
  more : List (EngineId × HaltCause)
  /-- the matrix engines that the line has reached while operations were in flight, with how many (R360) -/
  reached : KMap Nat
deriving DecidableEq, Repr

/-- What the part does by itself, apart from the streams: one of its events comes next. Each stands for the instruction of the same
name. -/
inductive OwnEvent where
  | arriveAppliedAtHome (core idx : Nat)
  | implicitBarrierComplete (core bslot : Nat) (cluster : Bool)
  | gridBarrierGeneration (grid : Nat)
  | segmentLoadComplete (core code seg : Nat)
  | segmentDropFree (core code seg : Nat)
  | tileOperationResultPoint (core bslot : Nat)
  | bfreeApplied (core bslot : Nat)
  | nbsigApplied (core bslot : Nat)
  | asynchronousTrapDelivery (core slot : Nat)
  | registerRefill (core slot reg : Nat)
  | missRejectionRetry (core slot : Nat)
  | reservationQueueIssue (core : Nat)
  | l1LineFill (core line : Nat)
  | l1LineAgeInvalidation (core line : Nat)
  | storeLeavesBuffer (core slot idx : Nat)
  | storeWrittenAtHome (core idx : Nat)
  | storeAcknowledged (idx : Nat)
  | atomicChainApplied (core idx : Nat)
  | hotWordWriteback (line : Nat)
  | blockRetirement (core bslot : Nat)
  | latchChange (core colour : Nat)
  | blockPlacement (grid : Nat)
  | gridExpansion (launch : Nat)
  | persistentGridPlacement (grid : Nat)
  | waveBecomesUrgent (core slot : Nat)
  | timeSliceExpiry (region : Nat)
  | preEmptionSignal (region : Nat)
  | preEmptionWindowEnd (core region : Nat)
  | contextSave (region : Nat)
  | saveComplete (region : Nat)
  | contextRestore (region : Nat)
  | heldChannelWrite (group chan : Nat)
  | haltLineArrival (region : Nat) (engine : EngineId)
  | channelHaltStop (group chan : Nat)
  | channelUnitTransfer (group chan : Nat)
  | commandCompletionWrite (group chan : Nat)
  | loessIdleFlit (port : Nat)
  | linkTimeout (port : Nat)
  | switchTimeout (rtag : Nat)
  | groupTimeout (group chan : Nat)
  | remoteFaultArrival (rtag code : Nat)
  | launch (queue : Nat)
  | launchRetirement (launch : Nat)
  | indirect (queue : Nat)
  | pred (queue : Nat)
  | loopPacket (queue : Nat)
  | waitmem (queue : Nat)
  | waitmemTimeout (queue : Nat)
  | writePacket (queue : Nat)
  | signal (queue : Nat)
  | fetchfence (queue : Nat)
  | drain (queue : Nat)
  | regionSet (queue : Nat)
  | regionSave (queue : Nat)
  | regionRestore (queue : Nat)
  | regionPrio (queue : Nat)
  | nopPacket (queue : Nat)
  | queueMap (queue : Nat)
  | queueIdle (queue : Nat)
  | heartbeat
  | firmwareTakeover
  | liveUpdate
  | rollbackRaise
  | create
  | destroy
  | assign
  | revoke
  | release
  | attr
  | quar
  | unquar
  | mint
  | table
  | attest
  | auditReexecution (region : Nat)
  | auditComparison (audit : Nat)
  | auditTieBreak (audit : Nat)
  | sweeperPassStart
  | sweeperPassComplete
  | powerWindow
  | pageRequestTimeout (tag : Nat)
deriving DecidableEq, Repr

/-- The engine whose step comes next, an event of the part, or the next event from outside. -/
inductive Turn where
  | wave (core slot : Nat)
  | seqr (core bslot : Nat)
  | own (e : OwnEvent)
  | input
  | idle
deriving DecidableEq, Repr

/-- The grade of an ordering code (R1): /A has every core group; /B has two fused off, of which the second stands `gap + 1` places after
the first, going round. -/
inductive Grade where
  | a
  | b (first : Fin 24) (gap : Fin 23)
deriving DecidableEq, Repr

/-- What distinguishes one part from another (R1, R12). -/
structure Product where
  grade : Grade
  serial : Nat
  /-- GH7-M rather than GH7-P -/
  formM : Bool
  stepping : Nat
  /-- the units whose self-test fails, by bit of R470 -/
  badUnits : NSet
  /-- the images found at boot pass verification: the security core's, complex A's, complex B's (R452) -/
  goodImages : List Bool
  /-- the versions of those images, and the fused rollback counters: the security core's, the complexes' (R452) -/
  versions : List Nat
  rollback : List Nat
deriving DecidableEq, Repr

/-- The fault ring's registers (R475, R476). -/
structure Ring where
  base : Nat
  size : Nat
  head : Nat
  tail : Nat
  thresh : Nat
  dropped : Nat
deriving DecidableEq, Repr

/-- The state of the part. -/
structure State where
  /-- the model's count of steps, to which the free values are applied -/
  tick : Nat
  /-- the counters of dies 0 to 9, in ticks of 1/90 ns since the die's reset: a core cycle is 25 ticks and a fabric
  cycle 36 (R5, R14) -/
  time : List Nat
  turn : Turn
  inputs : List Instr
  product : Product
  devid : Nat
  cores : KMap Core
  mem : List Host.Cell
  tags : NSet
  poison : NSet
  kaolin : KMap Granule
  clusters : KMap Cluster
  acks : List Ack
  halts : KMap Halt
  nextUid : Nat
  ring : Ring
  /-- the MSI-X vectors sent, as (function, vector), latest first (R477) -/
  msix : List (Nat × Nat)
  /-- the host-assisted functions (R433) -/
  cpmode : Nat
  colours : KMap Colour
  /-- the channels by 16 times core group plus channel -/
  channels : KMap Channel
  /-- the channel that each copy and collective engine served last (R315) -/
  served : KMap Nat
  ports : KMap Port
  remote : KMap Remote
  /-- the next request tag of the switch -/
  nextTag : Nat
  /-- payloads of a request whose later flits are still to come, by device and tag -/
  partials : KMap (List Byte)
  /-- collective flits that no member here has asked for yet: 65,536 times the colour plus GID, whether control, and the
  payload, oldest first -/
  groupFlits : List (Nat × Bool × List Byte)
  /-- requests of other devices that wait for a translation of the host window, with the ports they came by (R474) -/
  parked : List (Nat × Flit)
  /-- fabric launch packets refused (R339) -/
  launchRefused : Nat
  /-- the 64-byte lines the hot-word cache holds, the latest used first (R337) -/
  hot : List Nat
  /-- the tenant table, by device and colour (R332) -/
  tenants : KMap Nat
  /-- the pages of the host window that a page request's response has given a translation (R474) -/
  hostPresent : NSet
  pri : KMap PageReq
  regions : KMap Region
  grids : KMap Grid
  launches : KMap Launch
  /-- context images by their address -/
  images : KMap Image
  /-- the regions whose saves and restores the save engines have been asked for, in the order of arrival (R363) -/
  saveOrder : List Nat
  queues : KMap Queue
  firmware : Firmware
  launchQueues : KMap LaunchQueue
  sorrel : Sorrel
  sweeper : Sweeper
  host : HostRegs
  /-- the write counters of class-2 lines, by line number (R449) -/
  lineCount : KMap Nat
  /-- FREEZE_N is low, or was and nothing has resumed (R481) -/
  frozen : Bool
  /-- the part has power (R4) -/
  powered : Bool
  /-- the instruction of this step is an undefined one (R99), whose effects R9 confines -/
  loose : Bool
deriving DecidableEq, Repr

/-! ### Reset -/

/-- A Loess port that has sent and received nothing. -/
def Port.quiet : Port :=
  { sent := [], window := [], queued := [], seq := 1, ack := 0, lastTx := 0, lastRx := 0, failed := false, reach := [], discarded := 0 }

/-- The registers of the host interface after reset (R444, R475, R479). -/
def HostRegs.reset : HostRegs :=
  { apbase := [], denied := 0, dbgsel := [], armed := [], dbdrop := [], updaddr := 0,
    props := [0, 0, 0, 0, 0, 0, 0, 0], presult := 0x100, submitted := false, stage := 4, fail := 0, deadLinks := [],
    grants := [270, 270, 270, 270, 270, 270, 270, 270], inForce := [270, 270, 270, 270, 270, 270, 270, 270],
    window := 0, powerAt := 0, lastRead := [] }

/-- The complexes after reset: A is active and B stands by (R15). -/
def Firmware.reset : Firmware :=
  { activeB := false, alive := true, standby := true, updating := false, version := 1, other := 1, lastBeat := 0,
    beats := 0, updReq := false, rollReq := false, service := 0 }

/-- The machine right after reset (R15, R22, R441, R480): no block resident, every latch 0, nothing in memory. -/
def State.reset : State :=
  { tick := 0, time := [0, 0, 0, 0, 0, 0, 0, 0, 0, 0], turn := .idle, inputs := [],
    product := { grade := .a, serial := 0, formM := false, stepping := 0, badUnits := [],
                 goodImages := [true, true, true], versions := [1, 1, 1], rollback := [0, 0] },
    devid := 0, cores := [], mem := [], tags := [],
    poison := [], kaolin := [], clusters := [], acks := [], halts := [], nextUid := 0,
    ring := { base := 0, size := 0, head := 0, tail := 0, thresh := 0, dropped := 0 }, msix := [],
    cpmode := 0, colours := [(0, { gen := Config.drawn 0, conf := false, funcs := 0 })], channels := [], served := [],
    ports := (List.range 16).map fun p => (p, Port.quiet), remote := [], nextTag := 0, partials := [], groupFlits := [],
    parked := [], launchRefused := 0, hot := [],
    tenants := [], hostPresent := [], pri := [], regions := [], grids := [], launches := [], images := [], saveOrder := [], queues := [],
    firmware := Firmware.reset, launchQueues := [],
    sorrel := { scores := [], quar := [], seed := 0, inelig := 0, excl := 0, skip := 0, unres := 0, audits := [] },
    sweeper := { pass := 0, running := false, revoked := [], chans := [], due := false, asked := false, endedAt := 0 },
    host := HostRegs.reset, lineCount := [], frozen := false, powered := true, loose := false }

/-! ### Outcomes other than a next state -/

/-- Why the machine stops. -/
inductive Fault where
  /-- `exec` was asked to run an instruction in a wave slot or sequencer that holds none: raised by the meanings of
  instructions, never by a step of the part itself. Safe. -/
  | emptySlot
deriving DecidableEq, Repr

/-- Why an instruction has no meaning. -/
inductive Refusal where
  /-- the instruction has no meaning in the model yet: raised by the arms of `exec`. Safe. -/
  | notModelled (mnemonic : String)
  /-- `exec` was asked to run an instruction while no stream has the turn: raised by the meanings of instructions,
  never by a step of the part itself. Safe. -/
  | noStream
deriving DecidableEq, Repr

end Sys2Proof.Machine
end

