-- ==== Sys2Proof/Machine/Ops.lean ====
section
/-!
DEFINITION. The named operations over cores, waves, registers and memory: the write rule of vector registers, tags,
chunks, the byte memory, and the places a wave's values come from.
-/

namespace Sys2Proof.Machine

/-! ### Defaults -/

/-- A vector register at placement (R402). -/
def VReg.zero : VReg := ⟨.u 0, 0⟩

/-- A bank with every register at its placement value and the path at `pc` with `mask` (R342, R402). -/
def Bank.start (pc : IAddr) (mask : Mask) : Bank :=
  { pc, mask, rpc := none, ctl := [], loops := [], v := [], vtags := [], p := [], g := [], gtags := [], q := [] }

def TrapRegs.zero : TrapRegs :=
  { tcause := 0, tpc := 0, tinst0 := 0, tinst1 := 0, tmask := 0, tinfo := 0, tfemask := 0,
    owd := [0, 0, 0, 0], owx := [0, 0, 0, 0], resume := none, since := 0 }

def Cap.null : Cap := ⟨0, false⟩

/-- A core after reset (R22, R23). DESIGN CHOICE: the spec gives the clean bit no reset value, and the model starts with it set (entry 76
of the log). -/
def Core.cleared : Core :=
  { latch := 0, clean := true, waves := [], blocks := [], segs := [], queue := [], l1 := [], misses := [],
    reserve := [], parref := 0, votes := [], lastArray := 7, lastPort := 7, upsets := [] }

/-- A free granule (R441). -/
def Granule.free : Granule :=
  { state := 0, owner := 0, cls := 0, home := 0, pincg := 0, revoked := false, revpass := 0, version := 0 }

/-- A granule's entry as the security core builds the map at power-on: the protected region is owned by colour 0 with class
2, and every other granule is free (R440, R441). -/
def Granule.initial (n : Nat) : Granule :=
  if 0x5E0000 ≤ n && n < 0x600000 then { Granule.free with state := 1, cls := 2 } else Granule.free

def Buf.zero : Buf := ⟨0, 0, 0⟩

def Tile.zero : Tile := { words := [], tag := 0, emulated := false }

/-! ### Places -/

def State.core (s : State) (c : Nat) : Core := kgetD s.cores c Core.cleared

def State.setCore (s : State) (c : Nat) (k : Core) : State := { s with cores := kset s.cores c k }

def State.wave (s : State) (c w : Nat) : Option Wave := kget (s.core c).waves w

def State.setWave (s : State) (c w : Nat) (x : Wave) : State :=
  s.setCore c { s.core c with waves := kset (s.core c).waves w x }

/-- The wave in a slot changed by `f`; no change where the slot is free. -/
def State.modWave (s : State) (c w : Nat) (f : Wave → Wave) : State :=
  match s.wave c w with
  | some x => s.setWave c w (f x)
  | none => s

def State.block (s : State) (c b : Nat) : Option Block := kget (s.core c).blocks b

def State.setBlock (s : State) (c b : Nat) (x : Block) : State :=
  s.setCore c { s.core c with blocks := kset (s.core c).blocks b x }

def State.modBlock (s : State) (c b : Nat) (f : Block → Block) : State :=
  match s.block c b with
  | some x => s.setBlock c b (f x)
  | none => s

/-- The die of a core, its core group, and the die of a core group (R12). -/
def dieOf (c : Nat) : Nat := c / 24
def groupOf (c : Nat) : Nat := c / 8
def groupDie (k : Nat) : Nat := k / 3

/-- The counter of a die in ticks of 1/90 ns (R5). -/
def State.now (s : State) (die : Nat) : Nat := s.time.getD die 0

/-- Whether a part is of grade /B (R1). -/
def Product.gradeB (p : Product) : Bool := match p.grade with | .a => false | .b _ _ => true

/-- The core groups that are fused off: none on a part of grade /A, two on one of grade /B (R1). -/
def Product.fused (p : Product) : NSet :=
  match p.grade with
  | .a => []
  | .b g k => nins [g.val] ((g.val + k.val + 1) % 24)

/-- The core groups that are off: fused, or failed at self-test (R1, R470). -/
def Product.off (p : Product) : NSet :=
  (List.range 24).filter fun g => p.fused.contains g || p.badUnits.contains g || p.badUnits.contains (32 + g)

/-- Ticks in a core cycle, a fabric cycle, a microsecond (R14). -/
def coreCycle : Nat := 25
def fabricCycle : Nat := 36
def microsecond : Nat := 90000

/-- A live wave (R75, R262): a wave with a live lane. -/
def Wave.alive (w : Wave) : Bool := ~~~(w.dead ||| w.exited) != 0

/-- The slot and state of the wave with a given name, wherever it is resident. -/
def State.findUid (s : State) (uid : Nat) : Option (Nat × Nat) :=
  s.cores.findSome? fun (c, k) => (k.waves.find? fun e => e.2.uid == uid).map fun e => (c, e.1)

/-- The wave of index `i` of the block in slot `b` of core `c`, if it is live (R280, R351). -/
def State.waveOf (s : State) (c b i : Nat) : Option (Nat × Wave) :=
  (s.core c).waves.find? fun e => e.2.bslot == b && e.2.wblk == i && e.2.alive

/-- The lowest-numbered live wave of a block (R61). -/
def State.lowestWave (s : State) (c b : Nat) : Option (Nat × Wave) :=
  (s.core c).waves.foldl (fun best e =>
    if e.2.bslot == b && e.2.alive then
      match best with
      | some (_, w) => if e.2.wblk < w.wblk then some e else best
      | none => some e
    else best) none

/-- Whether a core is latched to a colour, by a latch change that was completed (R24). -/
def State.latchedTo (s : State) (c colour : Nat) : Bool := (s.core c).latch == colour && (s.core c).clean

/-- Whether the halt line has stopped a core's wave core (R360). -/
def State.coreStopped (s : State) (c : Nat) : Bool := (kvals s.halts).any fun h => h.stopped.contains (.waveCore c)

/-! ### Lanes and masks -/

/-- The live lanes of a wave (R75). -/
def Wave.live (w : Wave) : Mask := ~~~(w.dead ||| w.exited)

/-- The bank of the level the wave is in (R343). -/
def Wave.bank (w : Wave) : Bank :=
  match w.handlers with
  | [] => w.base
  | b :: _ => b

def Wave.setBank (w : Wave) (b : Bank) : Wave :=
  match w.handlers with
  | [] => { w with base := b }
  | _ :: t => { w with handlers := b :: t }

/-- The nesting level, 0 in wave mode (R342). -/
def Wave.level (w : Wave) : Nat := w.handlers.length

/-- The path mask in force, dead lanes taken out (R75, R112). -/
def Wave.path (w : Wave) : Mask := w.bank.mask &&& w.live

/-! ### Vector register values (R77, R80) -/

/-- The value a shape gives lane `l` (R77). -/
def VVal.lane : VVal → Nat → Word
  | .u x, _ => x
  | .a b st, l => b + BitVec.ofNat 32 l * st
  | .g x, l => x.at l

/-- Every lane's value (R81). -/
def VVal.lanes (x : VVal) : Lanes :=
  match x with
  | .g y => y
  | y => Lanes.of y.lane

/-- An affine value whose stride is 0 is uniform (R78). -/
def VVal.norm : VVal → VVal
  | .a b 0 => .u b
  | x => x

def VVal.isU : VVal → Bool
  | .u _ => true
  | _ => false

def VVal.isG : VVal → Bool
  | .g _ => true
  | _ => false

def VVal.isA : VVal → Bool
  | .a _ _ => true
  | _ => false

/-- The shape code of R77. -/
def VVal.code : VVal → Nat
  | .g _ => 0
  | .u _ => 1
  | .a _ _ => 2

/-- A register of a bank. -/
def Bank.reg (b : Bank) (n : Nat) : VReg := kgetD b.v n VReg.zero

/-- What a vector register number reads as (R51). -/
def Wave.readIn (w : Wave) (b : Bank) (n : Nat) : VReg :=
  if n < 1016 then b.reg n
  else match n with
    | 1016 => ⟨.u 0x3F800000, 0⟩
    | 1017 => ⟨.u 0xBF800000, 0⟩
    | 1018 => ⟨.u 0x3F000000, 0⟩
    | 1019 => ⟨.u 0xFFFFFFFF, 0⟩
    | 1020 => ⟨.u 1, 0⟩
    | 1021 => ⟨.u (BitVec.ofNat 32 w.wblk), 0⟩
    | 1022 => ⟨.a 0 1, 0⟩
    | _ => ⟨.u 0, 0⟩

/-- A predicate register of a bank; 1023 reads false (R53). -/
def Bank.pred (b : Bank) (n : Nat) : Mask := if n = 1023 then 0 else kgetD b.p n 0

/-- A group-wide register of a bank. -/
def Bank.grp (b : Bank) (n : Nat) : Dword := kgetD b.g n 0

/-- A group-wide predicate of a bank. -/
def Bank.qp (b : Bank) (n : Nat) : Bool := b.q.contains n

/-- The 128 bits of an even-odd pair of group-wide registers (R185). -/
def Bank.pair (b : Bank) (n : Nat) : BitVec 128 := b.grp (n + 1) ++ b.grp n

/-- A pair read as a capability with its tag (R185). -/
def Bank.pairCap (b : Bank) (n : Nat) : Cap := ⟨b.pair n, b.gtags.contains n⟩

/-! ### Writes -/

/-- The tags of the quad of register `d`. -/
def Bank.tagsOf (b : Bank) (quad : Nat) : Mask := kgetD b.vtags quad 0

def Bank.setTags (b : Bank) (quad : Nat) (m : Mask) : Bank := { b with vtags := kput b.vtags quad m 0 }

/-- A write to vector register `d` of a value in the lanes of `act`, where `live` are the live lanes of the wave
(R81, R82, R83, R180, R190, R191). A lane that is not written keeps its value while the register is general. 1023
discards. -/
def Bank.write (b : Bank) (act live : Mask) (d : Nat) (x : VVal) (fmt : Nat) : Bank :=
  if d = 1023 then b
  else
    let full := act &&& live = live
    let old := b.reg d
    let quad := d / 4
    let first := b.reg (4 * quad)
    if full then
      let x := match x.norm with
        | .g y => .g (Lanes.merge act y old.val.lanes)
        | y => y
      let b1 := { b with v := kset b.v d ⟨x, fmt⟩ }
      let kept := b.tagsOf quad &&& ~~~act
      let tags :=
        if x.isA then 0
        else if d % 4 = 0 then (if x.isU then 0 else kept)
        else if first.val.isU then 0 else kept
      b1.setTags quad tags
    else
      let merged := Lanes.merge act x.lanes old.val.lanes
      let b0 := if d % 4 ≠ 0 && first.val.isU then
          { b with v := kset b.v (4 * quad) ⟨.g first.val.lanes, first.fmt⟩ } else b
      let b1 := { b0 with v := kset b0.v d ⟨.g merged, if old.fmt = fmt then fmt else 0⟩ }
      b1.setTags quad (b.tagsOf quad &&& ~~~act)

/-- A write of a pair of registers. -/
def Bank.writePair (b : Bank) (act live : Mask) (d : Nat) (lo hi : VVal) (fmtLo fmtHi : Nat) : Bank :=
  if d = 1023 then b else (b.write act live d lo fmtLo).write act live (d + 1) hi fmtHi

/-- A write of a quad that carries tags (R190): one shape for its four registers, format Capability part. -/
def Bank.writeQuad (b : Bank) (act live : Mask) (d : Nat) (x0 x1 x2 x3 : VVal) (tags : Mask) : Bank :=
  if d = 1023 then b
  else
    let b1 := (((b.write act live d x0 13).write act live (d + 1) x1 13).write act live (d + 2) x2 13).write act live
      (d + 3) x3 13
    let t := (b1.tagsOf (d / 4) &&& ~~~act) ||| (tags &&& act)
    b1.setTags (d / 4) (if (b1.reg d).val.isU then (if t &&& act = 0 then 0 else Mask.all) else t)

/-- A write to predicate `d` in the lanes of `act`; 1023 discards (R53). -/
def Bank.writePred (b : Bank) (act : Mask) (d : Nat) (m : Mask) : Bank :=
  if d = 1023 then b else { b with p := kput b.p d ((m &&& act) ||| (b.pred d &&& ~~~act)) 0 }

/-- A write to a group-wide register, which clears its pair's tag (R190). -/
def Bank.writeGrp (b : Bank) (d : Nat) (x : Dword) : Bank :=
  { b with g := kput b.g d x 0, gtags := ndel b.gtags (d / 2 * 2) }

/-- A write of an even-odd pair, without a tag. -/
def Bank.writePair64 (b : Bank) (d : Nat) (x : BitVec 128) : Bank :=
  (b.writeGrp d (x.setWidth 64)).writeGrp (d + 1) ((x >>> 64).setWidth 64)

/-- A write of a capability to an even-odd pair, with its tag (R190). -/
def Bank.writeCap (b : Bank) (d : Nat) (c : Cap) : Bank :=
  let b1 := b.writePair64 d c.bits
  if c.tag then { b1 with gtags := nins b1.gtags d } else b1

/-- A write to a group-wide predicate. -/
def Bank.writeQ (b : Bank) (d : Nat) (x : Bool) : Bank :=
  { b with q := if x then nins b.q d else ndel b.q d }

/-- The registers 0 to 639 of a bank that hold a chunk of the main file (R77, R84). -/
def Bank.chunks (b : Bank) : List Nat := (b.v.filter fun e => e.1 < 640 && e.2.val.isG).map (·.1)

/-- The chunks a wave holds (R84). -/
def Wave.chunks (w : Wave) : List Nat := w.base.chunks.filter fun n => !w.spilled.contains n

/-! ### Bounds of a capability (R182, R186) -/

/-- The cursor, base and top of a capability's bits (R182, R186), exact. -/
def capCursor (b : BitVec 128) : Nat := field b.toNat 0 56

def capBase (b : BitVec 128) : Int :=
  let a := capCursor b
  let e := field b.toNat 84 5
  ((a - a % 2 ^ e : Nat) : Int) - (field b.toNat 89 19 * 2 ^ e : Nat)

def capTop (b : BitVec 128) : Int := capBase b + (field b.toNat 108 19 * 2 ^ field b.toNat 84 5 : Nat)

/-- Whether a value, as a capability, touches the revoked set of the sweeper pass in progress (R468, R469). -/
def State.touchesRevoked (s : State) (b : BitVec 128) : Bool :=
  s.sweeper.running && decide (capBase b < capTop b) && s.sweeper.revoked.any fun g =>
    let lo : Int := (s.devid * 2 ^ 48 + 65536 * g : Nat)
    capBase b < lo + 65536 && lo < capTop b

/-- The tag a write sets during a pass (R469). -/
def State.sweptCap (s : State) (c : Cap) : Cap := ⟨c.bits, c.tag && !s.touchesRevoked c.bits⟩

/-- The tags of one quad in some lanes cleared where their values satisfy `touch`. -/
def Bank.sweepQuad (b : Bank) (touch : BitVec 128 → Bool) (act : Mask) (quad : Nat) : Bank :=
  let t := b.tagsOf quad
  let value (l : Nat) : BitVec 128 :=
    (b.reg (4 * quad + 3)).val.lane l ++ (b.reg (4 * quad + 2)).val.lane l ++ (b.reg (4 * quad + 1)).val.lane l
      ++ (b.reg (4 * quad)).val.lane l
  let hit := Mask.of fun l => t.getLsbD l && act.getLsbD l && touch (value l)
  if hit = 0 then b else b.setTags quad (if (b.reg (4 * quad)).val.isU then 0 else t &&& ~~~hit)

/-- The tag of one pair cleared where its value satisfies `touch`. -/
def Bank.sweepPair (b : Bank) (touch : BitVec 128 → Bool) (pair : Nat) : Bank :=
  if b.gtags.contains (2 * pair) && touch (b.pair (2 * pair)) then { b with gtags := ndel b.gtags (2 * pair) } else b

/-- The tags an instruction has set in a bank, in the registers it names, cleared as R469 asks. -/
def Bank.sweepWrites (b : Bank) (touch : BitVec 128 → Bool) (act : Mask) (regs : List (Nat × Nat)) : Bank :=
  regs.foldl (fun b (f, n) =>
    if f = 0 then b.sweepQuad touch act (n / 4) else if f = 2 then b.sweepPair touch (n / 2) else b) b

/-! ### Memory (R189, R193) -/

/-- A byte of the part's memory; an address that nothing has written reads 0 (entry 1 of the log). -/
def Memory.read (m : List Host.Cell) (a : Nat) : Byte := kgetD m a 0

/-- The memory with a byte written: no entry ever holds 0. -/
def Memory.write (m : List Host.Cell) (a : Nat) (x : Byte) : List Host.Cell := kput m a x 0

/-- The canonical form of memory: strictly rising addresses, and no entry equal to what an unlisted address reads
as. -/
def Memory.wf (m : List Host.Cell) : Bool := kwf m && m.all fun e => e.2 ≠ 0

def State.byte (s : State) (a : Nat) : Byte := Memory.read s.mem a

/-- `n` bytes from address `a`. -/
def State.bytesAt (s : State) (a n : Nat) : List Byte := (rangeFrom a n).map s.byte

/-- The little-endian value of `n` bytes from address `a` (R6). -/
def State.numAt (s : State) (a n : Nat) : Nat := ofBytes (s.bytesAt a n)

/-- Bytes written from address `a`, tags untouched. -/
def Memory.writeAll (m : List Host.Cell) (a : Nat) : List Byte → List Host.Cell
  | [] => m
  | x :: xs => Memory.writeAll (Memory.write m a x) (a + 1) xs

/-- The tag units of the `n` bytes from `a` (R189). -/
def tagUnits (a n : Nat) : List Nat := if n = 0 then [] else rangeFrom (a / 16) ((a + n - 1) / 16 - a / 16 + 1)

/-- The poison after a write of the `n` bytes from `a`: a unit all of whose 64 bytes are written is clean (R221). -/
def clearPoison (p : NSet) (a n : Nat) : NSet := p.filter fun u => !(a ≤ 64 * u && 64 * u + 64 ≤ a + n)

/-- A granule's entry. -/
def State.granuleNo (s : State) (n : Nat) : Granule := kgetD s.kaolin n (Granule.initial n)

def State.granule (s : State) (a : Nat) : Granule := s.granuleNo (a / 65536)

/-- A granule quarantined as QUAR does (R445): REVOKE's effect, then its state. -/
def State.quarantineGranule (s : State) (n : Nat) : State :=
  let g := s.granuleNo n
  let pass := if s.sweeper.running then s.sweeper.pass else s.sweeper.pass + 1
  { s with
    kaolin := kset s.kaolin n
      { g with revoked := true, revpass := if g.revoked then g.revpass else pass, state := 3, version := (g.version + 1) % 2 ^ 32 }
    sweeper := { s.sweeper with due := true } }

/-- The write counters of the class-2 lines that a write of `n` bytes touches, raised; a counter that would pass 2^56 - 1
quarantines its granule (R449). -/
def State.countWrite (s : State) (a n : Nat) : State :=
  if n = 0 || ((s.granule a).cls != 2 && (s.granule (a + n - 1)).cls != 2) then s
  else
    (rangeFrom (a / 64) ((a + n - 1) / 64 - a / 64 + 1)).foldl (fun s line =>
      if (s.granule (64 * line)).cls != 2 then s
      else
        let k := kgetD s.lineCount line 0
        if k = 2 ^ 56 - 1 then s.quarantineGranule (line / 1024)
        else { s with lineCount := kset s.lineCount line (k + 1) }) s

/-- An ordinary write to the part's memory: bytes, the tags of the units it touches cleared (R189, R221). -/
def State.store (s0 : State) (a : Nat) (bs : List Byte) : State :=
  let s := s0.countWrite a bs.length
  { s with
    mem := Memory.writeAll s.mem a bs
    tags := (tagUnits a bs.length).foldl ndel s.tags
    poison := clearPoison s.poison a bs.length }

/-- A 16-byte write that carries a tag (R189), which a sweeper pass may take (R469). -/
def State.storeCap (s : State) (a : Nat) (bs : List Byte) (t : Bool) : State :=
  let s1 := s.store a bs
  if t && !s1.touchesRevoked (BitVec.ofNat 128 (ofBytes bs)) then { s1 with tags := nins s1.tags (a / 16) } else s1

def State.storeNum (s : State) (a n x : Nat) : State := s.store a (toBytes n x)

/-- A capability read from memory with its unit's tag (R185). -/
def State.capAt (s : State) (a : Nat) : Cap := ⟨BitVec.ofNat 128 (s.numAt a 16), s.tags.contains (a / 16)⟩

def State.storeCapV (s : State) (a : Nat) (c : Cap) : State := s.storeCap a (toBytes 16 c.bits.toNat) c.tag

/-- Whether any byte of `n` from `a` is poisoned (R221). -/
def State.poisoned (s : State) (a n : Nat) : Bool :=
  s.poison.any fun u => a < 64 * u + 64 && 64 * u < a + n

/-- A control stack entry as a backing area and an image hold it (R375). -/
def stackBytes (e : StackEntry) : List Byte :=
  toBytes 4 e.pc.toNat ++ toBytes 4 e.mask.toNat ++ toBytes 4 (e.rpc.getD 0).toNat
    ++ toBytes 4 (match e.kind with | .join => 0 | .path => 1 | .call => 2)

/-! ### Exclusion from audit -/

/-- A selected block excluded from audit and counted, or an audit execution whose digest is voided (R459, R462). -/
def State.exclude (s : State) (core bslot : Nat) : State :=
  match s.block core bslot with
  | none => s
  | some b =>
    if b.digest.isNone || b.excluded then s
    else
      let s1 := s.setBlock core bslot { b with excluded := true }
      if b.audit.isSome then s1
      else { s1 with sorrel := { s1.sorrel with excl := min 65535 (s1.sorrel.excl + 1) } }

/-! ### Free values -/

/-- The undefined value of register `n` in every lane at this step (R9). -/
def State.freeLanes (s : State) (n : Nat) : Lanes := Lanes.of fun l => Config.freeWord s.tick n l

/-- An undefined mask of predicate bits at this step (R9). -/
def State.freeMask (s : State) (n : Nat) : Mask := Mask.of fun l => Config.freeBit s.tick (1024 + 32 * n + l)

end Sys2Proof.Machine
end

