-- ==== Sys2Proof/Machine/Operands.lean ====
section
/-!
DEFINITION. The operand forms of an instruction as its meaning reads and writes them: registers, pairs, quads, groups,
immediates, guards and the shape of a result.
-/

namespace Sys2Proof.Machine

/-- Where and how an instruction executes: its wave, its active lanes (R41, R75) and its own bits and address. -/
structure Ctx where
  core : Nat
  slot : Nat
  bslot : Nat
  act : Mask
  live : Mask
  pc : IAddr
  inst : Slot
  handler : Bool
  tick : Nat
deriving DecidableEq, Repr

/-- The active lanes, ascending (R10). -/
def Ctx.lanes (c : Ctx) : List Nat := c.act.lanes

/-- The lowest active lane; 0 where none is active, which no meaning meets. -/
def Ctx.lowest (c : Ctx) : Nat := c.act.lowest.getD 0

/-- Whether a write by these lanes is full (R81). -/
def Ctx.full (c : Ctx) : Bool := c.act &&& c.live = c.live

/-! ### Guards (R41) -/

/-! ### Vector operands -/

/-- Vector register `n` as an instruction reads it: a result not yet due, with checking off, reads as a free value
(R51, R95). -/
def Ctx.readV (c : Ctx) (w : Wave) (n : Nat) : VReg :=
  if w.early.contains (0, n) then
    ⟨.g (Lanes.of fun l => Config.freeWord c.tick n l), (w.readIn w.bank n).fmt⟩
  else w.readIn w.bank n

/-- Lane `l` of vector register `n`. -/
def Ctx.lane (c : Ctx) (w : Wave) (n l : Nat) : Word := (c.readV w n).val.lane l

/-- Lane `l` of a pair; 1023 reads 0 (R51, R52). -/
def Ctx.lane64 (c : Ctx) (w : Wave) (n l : Nat) : Dword :=
  if n = 1023 then 0 else pairOf (c.lane w n l) (c.lane w (n + 1) l)

/-- The registers an operand of `k` registers spans. -/
def regSpan (n k : Nat) : List Nat := if 1016 ≤ n then [n] else rangeFrom n k

/-- Whether every register of an operand is uniform (R80). -/
def Ctx.allU (c : Ctx) (w : Wave) (n k : Nat) : Bool := (regSpan n k).all fun r => (c.readV w r).val.isU

/-- Lane `l` of a quad as 128 bits (R185). -/
def Ctx.quad (c : Ctx) (w : Wave) (n l : Nat) : BitVec 128 :=
  c.lane w (n + 3) l ++ c.lane w (n + 2) l ++ c.lane w (n + 1) l ++ c.lane w n l

/-- Whether a register of a quad has a result not yet due, with checking off (R95): what it holds is undefined. -/
def Wave.quadEarly (w : Wave) (n : Nat) : Bool := w.early.any fun r => r.1 == 0 && n ≤ r.2 && r.2 < n + 4

/-- Lane `l` of a quad as a capability with its tag (R185); an undefined value has none (R9). Number 1023 reads as no quad:
zero and untagged. -/
def Ctx.quadCap (c : Ctx) (w : Wave) (n l : Nat) : Cap :=
  if n = 1023 then Cap.null else ⟨c.quad w n l, (w.bank.tagsOf (n / 4)).getLsbD l && !w.quadEarly n⟩

/-- A predicate as read at a step, by the wave's early registers (R53, R95). -/
def Wave.predAt (w : Wave) (tick n : Nat) : Mask :=
  if w.early.contains (1, n) then Mask.of fun l => Config.freeBit tick (1024 + 32 * n + l) else w.bank.pred n

/-- A predicate as an instruction reads it (R53, R95). -/
def Ctx.readP (c : Ctx) (w : Wave) (n : Nat) : Mask := w.predAt c.tick n

/-- A group-wide register as an instruction reads it. -/
def Ctx.readG (c : Ctx) (w : Wave) (n : Nat) : Dword :=
  if w.early.contains (2, n) then Config.freeDword c.tick n else w.bank.grp n

/-- A group-wide predicate as read at a step, by the wave's early registers. -/
def Wave.qpAt (w : Wave) (tick n : Nat) : Bool :=
  if w.early.contains (3, n) then Config.freeBit tick n else w.bank.qp n

/-- A group-wide predicate as an instruction reads it. -/
def Ctx.readQ (c : Ctx) (w : Wave) (n : Nat) : Bool := w.qpAt c.tick n

/-- The lanes an instruction is active in (R41, R75): by a p guard lane by lane, by a q guard the whole path or none. A guard
predicate not yet due reads as an undefined value (R95). -/
def guardLanes (w : Wave) (onQ : Bool) (com : Common) (tick : Nat) : Mask :=
  let gp := com.gp.toNat
  if gp = 127 then w.path
  else if onQ then (if w.qpAt tick gp = com.gn then 0 else w.path)
  else w.path &&& (if com.gn then ~~~(w.predAt tick gp) else w.predAt tick gp)

/-- A pair of group-wide registers read as a capability; one with a result not yet due has no tag (R9). -/
def Ctx.readCap (c : Ctx) (w : Wave) (n : Nat) : Cap :=
  ⟨c.readG w (n + 1) ++ c.readG w n, w.bank.gtags.contains n && !w.early.contains (2, n) && !w.early.contains (2, n + 1)⟩

/-- The lowest active lane's word of a register, read untyped (R259, R309). -/
def Ctx.low32 (c : Ctx) (w : Wave) (n : Nat) : Nat := (c.lane w n c.lowest).toNat

/-! ### Results -/

/-- The result of an operation without an affine row (R80): uniform when every source is, else one value per lane. -/
def shaped (allU : Bool) (f : Nat → Word) : VVal := if allU then .u (f 0) else .g (Lanes.of f)

/-- The format a typed result takes (R83). -/
def resultFmt (ty : Nat) : Nat :=
  if ty = tI32 then 1 else if ty = tW32 then 2 else if ty = tF32 then 3 else if ty = tF16 then 4
  else if ty = tBf16 then 5 else if ty = tE4m3 then 6 else if ty = tE5m2 then 7 else if ty = tI8 then 8
  else if ty = tI4 then 9 else if ty = tL6 then 10 else if ty = tF64 then 11 else 0

/-- The format of the odd register of a result pair (R83). -/
def resultFmtHi (ty : Nat) : Nat := if ty = tF64 then 12 else 0

/-- The formats a typed source accepts, for the even (or only) register and for the odd one (R83). -/
def fmtOk (ty : Nat) (odd : Bool) (fmt : Nat) : Bool :=
  if ty = tB32 || ty = tB64 then true
  else if fmt = 0 then true
  else if ty = tF64 then fmt == (if odd then 12 else 11)
  else if ty = tI64 || ty = tW64 || ty = tW8 then false
  else fmt == resultFmt ty

/-- The write of a vector result by the active lanes (R81 to R83). -/
def Ctx.write (c : Ctx) (w : Wave) (d : Nat) (x : VVal) (fmt : Nat) : Wave :=
  w.setBank (w.bank.write c.act c.live d x fmt)

/-- The write of a 64-bit result, with the shapes of its two registers (R80). -/
def Ctx.write64 (c : Ctx) (w : Wave) (d : Nat) (allU : Bool) (ty : Nat) (f : Nat → Dword) : Wave :=
  w.setBank (w.bank.writePair c.act c.live d (shaped allU fun l => lowWord (f l)) (shaped allU fun l => highWord (f l))
    (resultFmt ty) (resultFmtHi ty))

/-- The write of predicate bits by the active lanes. -/
def Ctx.writeP (c : Ctx) (w : Wave) (d : Nat) (m : Mask) : Wave := w.setBank (w.bank.writePred c.act d m)

def Ctx.writeG (_ : Ctx) (w : Wave) (d : Nat) (x : Dword) : Wave := w.setBank (w.bank.writeGrp d x)

def Ctx.writeQ (_ : Ctx) (w : Wave) (d : Nat) (x : Bool) : Wave := w.setBank (w.bank.writeQ d x)

/-- The write of a quad with tags (R190). -/
def Ctx.writeQuad (c : Ctx) (w : Wave) (d : Nat) (allU : Bool) (x : Nat → Cap) : Wave :=
  let part (k : Nat) : VVal := shaped allU fun l => ((x l).bits >>> (32 * k)).setWidth 32
  let tags := if allU then (if (x c.lowest).tag then Mask.all else 0) else Mask.of fun l => (x l).tag
  w.setBank (w.bank.writeQuad c.act c.live d (part 0) (part 1) (part 2) (part 3) tags)

/-! ### Immediates (R44) -/

/-- An immediate as a 64-bit operand: sign-extended for .i64, the high word for .f64, zero-extended otherwise (R44). -/
def immWide (ty : Nat) (x : BitVec 32) : Dword :=
  if ty = tI64 then x.signExtend 64 else if ty = tF64 then x ++ (0 : BitVec 32) else x.setWidth 64

/-! ### Which registers an instruction reads and writes (R95) -/

/-- The register file of an operand, as sr.tinfo numbers it: 0 v, 1 p, 2 g, 3 q (R345). -/
def Kind.file : Kind → Option Nat
  | .vec _ | .run _ _ | .own => some 0
  | .tags => some 0
  | .base => none
  | .pred | .preds => some 1
  | .grp | .pair => some 2
  | .qpred => some 3
  | .literal _ _ => none

/-- The registers an operand spans in its file. -/
def Operand.regs (o : Operand) : List (Nat × Nat) :=
  match o.kind with
  | .vec k => if 1016 ≤ o.num then [] else (rangeFrom o.num k).map (0, ·)
  | .own => if 1016 ≤ o.num then [] else [(0, o.num)]
  | .run k _ => if 1016 ≤ o.num then [] else (rangeFrom o.num k).map (0, ·)
  | .tags => if 1016 ≤ o.num then [] else [(0, o.num)]
  | .base | .literal _ _ => []
  | .pred => if o.num = 1023 then [] else [(1, o.num)]
  | .preds => (rangeFrom o.num 32).map (1, ·)
  | .grp => [(2, o.num)]
  | .pair => [(2, o.num), (2, o.num + 1)]
  | .qpred => [(3, o.num)]

/-- The registers read: sources, and destinations that are also sources. -/
def readSet (v : View) : List (Nat × Nat) :=
  (v.operands.filter fun o => o.role != .dst).flatMap Operand.regs

/-- The registers whose values are read: SHPQ and FMTQ read only the tags of A (R166). -/
def valueSet (v : View) : List (Nat × Nat) :=
  (v.operands.filter fun o => o.role != .dst && o.kind != .tags).flatMap Operand.regs

/-- The registers written. -/
def writeSet (v : View) : List (Nat × Nat) :=
  (v.operands.filter fun o => o.role != .src).flatMap Operand.regs

/-- The guard's own register (R95: a guard read counts as a read of its predicate). -/
def guardSet (v : View) : List (Nat × Nat) :=
  match v.com with
  | some c => if c.gp.toNat = 127 then [] else [(if v.guardOnQ then 3 else 1, c.gp.toNat)]
  | none => []

end Sys2Proof.Machine
end

