-- ==== Sys2Proof/Machine/Exc.lean ====
section
/-!
DEFINITION. Taking an exception and returning from one: the fault classes and their routes (R340 to R345), the operand
windows (R346 to R349), the halt line (R360) and the end of a handler (R352).
-/

namespace Sys2Proof.Machine

/-- Why an instruction's effect is not made. -/
inductive Exc where
  /-- an emulation cause of R62, or code 8, with the offending field of cause 5 -/
  | emu (code fieldNum : Nat)
  /-- a local trap of the trap handler (R340) -/
  | trap (code sub : Nat) (info : Dword)
  /-- a capability fault (R196, R198) -/
  | capFault (kind lane check perms colour va : Nat)
  /-- a scratchpad fault (R246) -/
  | spadFault (kind lane check trank : Nat) (off : Int)
  /-- a matrix fault raised by a wave (R286, R311) -/
  | matrixFault (sub : Nat)
  /-- the accumulator is busy: the tile and the oldest operation in flight on it (R277) -/
  | busy (tile seq : Nat)
  /-- a halting fault (R340) -/
  | halt (code sub : Nat)
  /-- the instruction waits and has had no effect -/
  | wait (k : WaitKind)
deriving DecidableEq, Repr

/-! ### Operand windows -/

/-- A window descriptor from its fields (R348). -/
def windowDesc (file width shape fmt role reg wave : Nat) (tag : Bool) (kind buf : Nat) (gwp : Bool) : Dword :=
  BitVec.ofNat 64 (2 ^ 63 + file * 2 ^ 60 + width * 2 ^ 58 + shape * 2 ^ 56 + fmt * 2 ^ 52 + role * 2 ^ 50 + reg * 2 ^ 40
    + wave * 2 ^ 35 + (if tag then 2 ^ 34 else 0) + kind * 2 ^ 32 + buf * 2 ^ 28 + (if gwp then 2 ^ 27 else 0))

def roleCode : Role → Nat
  | .src => 0
  | .dst => 1
  | .both => 2

/-- The operations whose consecutive registers form a group and not a pair or quad (R146, R172). -/
def groupedOp (op : Op) : Bool := op == .pack || op == .unpk || op == .qnt || op == .dqnt || op == .rng

/-- The window of a register operand: its descriptor and its extension (R348, R349). -/
def operandWindow (w : Wave) (op : Op) (o : Operand) : Dword × Dword :=
  let b := w.bank
  let r := w.readIn b o.num
  let desc (width count : Nat) : Dword × Dword :=
    (windowDesc 1 width r.val.code r.fmt (roleCode o.role) o.num w.wblk
      (width == 2 && o.num < 1016 && b.tagsOf (o.num / 4) != 0) 0 0 false, BitVec.ofNat 64 count)
  match o.kind with
  | .vec 1 => desc 0 0
  | .vec k =>
    if groupedOp op then desc 3 k else if k = 2 then desc 1 0 else if k = 4 then desc 2 0 else desc 3 k
  | .run k al => desc 3 (k / al)
  | .tags | .base | .own => desc 0 0
  | .pred => (windowDesc 2 0 0 0 (roleCode o.role) o.num w.wblk false 0 0 false, 0)
  | .preds => (windowDesc 2 3 0 0 (roleCode o.role) o.num w.wblk false 0 0 false, 32)
  | .grp => (windowDesc 3 0 0 0 (roleCode o.role) o.num w.wblk false 0 0 false, 0)
  | .pair => (windowDesc 3 1 0 0 (roleCode o.role) o.num w.wblk (b.gtags.contains o.num) 0 0 false, 0)
  | .qpred => (windowDesc 2 0 0 0 (roleCode o.role) o.num w.wblk false 0 0 true, 0)
  | .literal _ _ => (0, 0)

/-- The window of the operand in a field; not valid where the instruction does not use the field (R347). -/
def fieldWindow (w : Wave) (op : Op) (ops : List Operand) (fl : Field) : Dword × Dword :=
  match ops.find? fun o => o.field == fl with
  | some o => operandWindow w op o
  | none => (0, 0)

def immWindow (w : Wave) (x : Dword) : Dword × Dword := (windowDesc 4 0 0 0 0 0 w.wblk false 0 0 false, x)

/-- Whether an M-format instruction is a scratchpad form (R45). -/
def scratchForm (op : Op) : Bool := 0x210 ≤ op.code && op.code ≤ 0x218

/-- The windows of a wave's instruction (R347). `tile` gives the tile windows of ZREAD and ZWRITE. -/
def windowsOf (w : Wave) (v : View) (tile : Dword × Dword) : List (Dword × Dword) :=
  match v with
  | .alu x =>
    let f := fieldWindow w x.op x.operands
    match x.op with
    | .zread => [f .d, f .a, (0, 0), tile]
    | .zwrite => [(0, 0), f .a, f .b, tile]
    | _ =>
      match x.imm with
      | some i => [f .d, f .a, immWindow w (immWide x.ty i), (0, 0)]
      | none => [f .d, f .a, f .b, f .c]
  | .imm op f =>
    [fieldWindow w op v.operands .d, fieldWindow w op v.operands .a, immWindow w (f.imm.setWidth 64), (0, 0)]
  | .mem op f =>
    let g := fieldWindow w op v.operands
    if scratchForm op then [g .d, g .a, if f.b.toNat = 1023 then (0, 0) else g .b, (0, 0)]
    else
      let r := w.readIn w.bank f.a.toNat
      [g .d,
       (windowDesc 5 2 0 r.fmt 0 f.a.toNat w.wblk (w.bank.tagsOf (f.a.toNat / 4) != 0) 0 0 false,
        BitVec.ofNat 64 (f.offset.toNat + f.b.toNat * 2 ^ 24 + f.size.toNat * 2 ^ 34 + f.stream.toNat * 2 ^ 38)),
       (0, 0), (0, 0)]
  | .system op f =>
    [fieldWindow w op v.operands .d, fieldWindow w op v.operands .a, immWindow w (f.sysreg.setWidth 64), (0, 0)]
  | _ => [(0, 0), (0, 0), (0, 0), (0, 0)]

/-! ### The halt line (R360, R361) -/

/-- Raise the halt line of the partition of top-level region `top`. While it is raised nothing raises it again; a cause
of an engine that has none yet is kept for its stop record (R361). -/
def State.raiseHalt (s : State) (top : Nat) (e : EngineId) (code sub slot : Nat) (pc : IAddr) (perms : Nat) : State :=
  if s.loose then s
  else match kget s.halts top with
  | none =>
    { s with halts := kset s.halts top { engine := e, code, sub, slot, pc, perms, stopped := [], more := [], reached := [] } }
  | some h =>
    if h.engine == e || h.stopped.contains e || h.more.any (fun m => m.1 == e) then s
    else { s with halts := kset s.halts top { h with more := h.more ++ [(e, ⟨code, sub, slot, pc, perms⟩)] } }

/-- A halting fault raised by a wave: its partition's halt line rises and the wave goes no further. An undefined instruction
never raises it (R9): it has no effect then. -/
def State.haltWave (s : State) (c slot code sub : Nat) (perms : Nat := 0) : State :=
  if s.loose then s
  else match s.wave c slot with
  | none => s
  | some w =>
    match s.block c w.bslot with
    | none => s
    | some b =>
      ((s.raiseHalt b.env.top (.waveCore c) code sub slot w.bank.pc perms).setWave c slot
        { w with waiting := .halted }).exclude c w.bslot

/-! ### Entering a handler (R342) -/

/-- What a trap records besides its code. -/
structure TrapInfo where
  code : Nat
  sub : Nat
  fieldNum : Nat
  seq : Bool
  async : Bool
  info : Dword
  inst : Slot
  act : Mask
  tpc : IAddr
  windows : List (Dword × Dword)
  feDone : Mask
deriving DecidableEq, Repr

/-- Whether a code goes to the emulation handler (R340). -/
def isEmu (code : Nat) : Bool := code ≤ 8

/-- sr.tcause (R345). -/
def causeWord (t : TrapInfo) (level : Nat) : Dword :=
  BitVec.ofNat 64 (t.sub * 2 ^ 24 + (if t.seq then 2 ^ 23 else 0) + (if t.async then 2 ^ 22 else 0) + level * 2 ^ 20
    + (if isEmu t.code then 2 ^ 16 else 0) + t.fieldNum * 2 ^ 8 + t.code)

/-- The registers of R345 as an entry records them. -/
def trapRegs (t : TrapInfo) (level : Nat) (dead : Mask) (resume : Option Resume) (since : Nat := 0) : TrapRegs :=
  { tcause := causeWord t level
    tpc := t.tpc.setWidth 64
    tinst0 := t.inst.setWidth 64
    tinst1 := (t.inst >>> 64).setWidth 64
    tmask := dead ++ t.act
    tinfo := t.info
    tfemask := t.feDone.setWidth 64
    owd := t.windows.map (·.1)
    owx := t.windows.map (·.2)
    resume, since }

/-- The bank a level starts with (R342): everything zero but g0:g1, which hold the emulation-area capability. -/
def handlerBank (h : IAddr) (live : Mask) (area : Cap) : Bank :=
  let b := Bank.start h live
  if area.tag then b.writeCap 0 area else b

/-- Enter the handler of a trap that has one, at the next level (R342). Entry restarts the gap of R95. -/
def Wave.enter (w : Wave) (t : TrapInfo) (h : IAddr) (area : Cap) : Wave :=
  let level := w.level + 1
  let kept := if t.async && (w.fe.isSome || w.barWait.isSome || w.gbarWait.isSome)
    then some { pc := t.tpc, fe := w.fe, bar := w.barWait, gbar := w.gbarWait } else none
  let regs := trapRegs t level w.dead kept w.nextSerial
  { w with
    handlers := handlerBank h w.live area :: w.handlers
    level1 := if level = 1 then regs else w.level1
    level2 := if level = 2 then regs else w.level2
    lines := lmod w.lines level fun _ => none
    producers := []
    waiting := .none
    fe := none
    barWait := none
    gbarWait := none
    early := [] }

/-- Whether the partition's halt line reaches a wave's core in the cycle of its fault (R357): a free choice while the line is raised and
the core has not stopped. -/
def State.haltsNow (s : State) (top c slot : Nat) : Bool :=
  (kget s.halts top).isSome && Config.freeBit s.tick (524288 + 32 * c + slot)

/-- Deliver a trap to a wave: the handler its route names, or a halting fault (R340, R342, R344, R64). A fault of the cycle in which the
halt line comes goes into the stop record, and no handler is entered (R357). -/
def State.deliver (s : State) (c slot : Nat) (t : TrapInfo) (perms : Nat := 0) : State :=
  match s.wave c slot with
  | none => s
  | some w =>
    match s.block c w.bslot with
    | none => s
    | some b =>
      if !t.async && s.haltsNow b.env.top c slot then s.haltWave c slot t.code t.sub perms
      else if (t.code = 16 || t.code = 17 || t.code = 18) && !b.env.localCap then s.haltWave c slot t.code t.sub perms
      else if w.level = 2 then s.haltWave c slot 65 t.code perms
      else
        match if isEmu t.code then b.env.emuEntry else b.env.trapEntry with
        | none => s.haltWave c slot 64 t.code perms
        | some h => s.setWave c slot (w.enter t h (s.sweptCap b.env.emuArea))

/-! ### Fault registers (R198, R247, R277, R286) -/

/-- sr.capflt (R198). -/
def capfltWord (kind lane check perms colour : Nat) : Dword :=
  BitVec.ofNat 64 (2 ^ 63 + perms * 2 ^ 32 + colour * 2 ^ 24 + kind * 2 ^ 16 + lane * 2 ^ 8 + check)

/-- sr.spflt (R247); TRANK saturates at 15. -/
def spfltWord (kind lane check trank : Nat) : Dword :=
  BitVec.ofNat 64 (2 ^ 63 + min trank 15 * 2 ^ 24 + kind * 2 ^ 16 + lane * 2 ^ 8 + check)

/-- sr.zbflt (R288). -/
def zbfltWord (tile seq : Nat) : Dword := BitVec.ofNat 64 (2 ^ 63 + tile * 2 ^ 32 + seq)

/-- sr.mflt (R288). -/
def mfltWord (sub : Nat) (addr : IAddr) : Dword := BitVec.ofNat 64 (2 ^ 63 + sub * 2 ^ 32 + addr.toNat)

/-- Raise an exception of the instruction at hand: nothing of its effect is made, and the trap is precise (R341). -/
def State.raise (s : State) (c : Ctx) (v : View) (tile : Dword × Dword) (e : Exc) : State :=
  match s.wave c.core c.slot with
  | none => s
  | some w =>
    let t (code sub fieldNum : Nat) (info : Dword) (windows : List (Dword × Dword)) : TrapInfo :=
      { code, sub, fieldNum, seq := false, async := false, info, inst := c.inst, act := c.act, tpc := c.pc, windows,
        feDone := 0 }
    let none4 : List (Dword × Dword) := [(0, 0), (0, 0), (0, 0), (0, 0)]
    match e with
    | .emu code fl =>
      let ws := if code = 2 || code = 3 || code = 7 || code = 8 then windowsOf w v tile else none4
      s.deliver c.core c.slot (t code 0 fl 0 ws)
    | .trap code sub info => s.deliver c.core c.slot (t code sub 0 info none4)
    | .capFault kind lane check perms colour va =>
      let s1 := s.setWave c.core c.slot
        { w with capflt := capfltWord kind lane check perms colour, capfpc := c.pc.setWidth 64,
                 capfva := BitVec.ofNat 64 (va % 2 ^ 56) }
      s1.deliver c.core c.slot (t 16 0 0 0 none4) perms
    | .spadFault kind lane check trank off =>
      let s1 := s.setWave c.core c.slot
        { w with spflt := spfltWord kind lane check trank, spfpc := c.pc.setWidth 64, spfoff := BitVec.ofInt 64 off }
      s1.deliver c.core c.slot (t 17 0 0 0 none4)
    | .matrixFault sub =>
      let s1 := s.modBlock c.core w.bslot fun b => { b with mflt := mfltWord sub c.pc }
      s1.deliver c.core c.slot (t 20 sub 0 0 none4)
    | .busy z seq =>
      let s1 := s.modBlock c.core w.bslot fun b => { b with zbflt := zbfltWord z seq }
      s1.deliver c.core c.slot (t 19 0 0 0 none4)
    | .halt code sub => s.haltWave c.core c.slot code sub
    | .wait k => s.setWave c.core c.slot { w with waiting := k }

/-! ### Returning from a handler (R352) -/

/-- The registers of the level a wave is in; in wave mode, level 1's (R345). -/
def Wave.levelRegs (w : Wave) : TrapRegs := if w.level = 2 then w.level2 else w.level1

def Wave.setLevelRegs (w : Wave) (r : TrapRegs) : Wave :=
  if w.level = 2 then { w with level2 := r } else { w with level1 := r }

/-- Discard the current level's bank and resume the level below at `x` (R352). The return restarts the gap of R95. An
instruction that was left not complete and is resumed keeps what it has done (R341). -/
def Wave.leave (w : Wave) (x : IAddr) : Wave :=
  match w.handlers with
  | [] => w
  | _ :: rest =>
    let kept := w.levelRegs.resume
    let w0 := w.setLevelRegs { w.levelRegs with resume := none }
    let w1 := { w0 with handlers := rest, producers := [], early := [] }
    let w2 := match kept with
      | some r => if r.pc = x then { w1 with fe := r.fe, barWait := r.bar, gbarWait := r.gbar } else w1
      | none => w1
    w2.setBank { w2.bank with pc := x }

end Sys2Proof.Machine
end

