-- ==== Sys2Proof/Machine/Ring.lean ====
section
/-!
DEFINITION. The fault ring (R476, R477) and the stop and loss records (R361, R456).
-/

namespace Sys2Proof.Machine

/-- A die's counter in fabric cycles with the die's number (R5, R76). -/
def State.dieTime (s : State) (die : Nat) : Nat := die * 2 ^ 60 + s.now die / fabricCycle % 2 ^ 60

/-- Whether a colour is confidential, so that its contexts are protected (R443, R456). -/
def State.confidential (s : State) (colour : Nat) : Bool :=
  match kget s.colours colour with
  | some c => c.conf
  | none => false

/-- The bytes of 64-bit words, the first lowest. -/
def dwordBytes (ws : List Nat) : List Byte := ws.flatMap fun x => toBytes 8 x

/-- Write a record of eight words to the fault ring, or drop it (R476), with its MSI-X (R477). -/
def State.putRecord (s : State) (ws : List Nat) : State :=
  let r := s.ring
  let ready := 4 ≤ r.size && r.size ≤ 16
  if !ready || 2 ^ r.size < r.head + 1 - r.tail then
    { s with ring := { r with dropped := min (r.dropped + 1) (2 ^ 32 - 1) } }
  else
    let s1 := s.store (r.base + 64 * (r.head % 2 ^ r.size)) (dwordBytes ws)
    let before := r.head - r.tail
    let thresh := max r.thresh 1
    let send := !s.cpmode.testBit 1 || (thresh ≤ before + 1 && before < thresh)
    { s1 with
      ring := { r with head := (r.head + 1) % 2 ^ 64 }
      msix := if send then (0, 0) :: s1.msix else s1.msix }

/-- The engine number of a record (R361). -/
def engineCode : EngineId → Nat
  | .waveCore _ => 0
  | .matrix _ => 1
  | .copy _ => 2
  | .save _ => 3
  | .distributor _ => 4

/-- The die an engine stands on. -/
def engineDie : EngineId → Nat
  | .waveCore c | .matrix c => dieOf c
  | .copy g | .save g => groupDie g
  | .distributor d => d

/-- The number of an engine in a record: its core, core group or die. -/
def engineIndex : EngineId → Nat
  | .waveCore c | .matrix c => c
  | .copy g | .save g => g
  | .distributor d => d

/-- HDR of a record (R361). -/
def recordHdr (kind : Nat) (e : EngineId) (colour : Nat) : Nat :=
  kind + engineCode e * 2 ^ 8 + engineDie e * 2 ^ 16 + colour * 2 ^ 24 + engineIndex e * 2 ^ 32

/-- A stop or loss record (R361), cut to what R456 keeps for a protected context. -/
def State.engineRecord (s : State) (kind : Nat) (e : EngineId) (colour region cause skid perms d0 d1 : Nat) : State :=
  let hide := s.confidential colour
  s.putRecord [recordHdr kind e colour, s.dieTime (engineDie e), region, cause, if hide then 0 else skid, perms,
    if hide then 0 else d0, if hide then 0 else d1]

/-- The code offset of a record: zero unless the tenant opts in (R361, R456). -/
def codeWord (b : Block) (pc : IAddr) : Nat := if b.env.codeOffset then pc.toNat * 2 ^ 32 else 0

/-! ### Stop records (R360, R361) -/

/-- An engine's own cause, or none where it only obeys the line. -/
def Halt.causeOf (h : Halt) (e : EngineId) : Option HaltCause :=
  if h.engine == e then some ⟨h.code, h.sub, h.slot, h.pc, h.perms⟩ else (h.more.find? fun m => m.1 == e).map fun m => m.2

/-- The bound of an engine's skid, in its cycles, where R330 or R360 gives one. -/
def skidBound : EngineId → Nat
  | .waveCore _ => 2048
  | .copy _ => 10000
  | _ => 2 ^ 32 - 1

/-- CAUSE of a stop record. -/
def haltCauseWord (r : Region) : Option HaltCause → Nat
  | none => 0
  | some x => x.code + x.sub % 256 * 2 ^ 8 + 2 ^ 16 + x.slot * 2 ^ 24 + if r.env.codeOffset then x.pc.toNat * 2 ^ 32 else 0

/-- An engine's stop record, with how many waves, operations or channels it stopped. How long its skid was is timing, within its
bound. -/
def State.stopRecord (s : State) (h : Halt) (r : Region) (top : Nat) (e : EngineId) (colour count d0 d1 : Nat) : State :=
  let own := h.causeOf e
  let skid := Config.choice s.tick % (skidBound e + 1) + count * 2 ^ 32
  s.engineRecord 1 e colour top (haltCauseWord r own) (if s.confidential r.env.colour then 0 else skid)
    (match own with | some x => x.perms | none => 0) d0 d1

/-! ### Suspicion (R464, R465) -/

/-- A core's score moved by `up` less `down`, saturating; at 1,024 the core is quarantined and a record is written
(R464, R465). -/
def State.moveScore (s : State) (core up down : Nat) : State :=
  let x := min 65535 (kgetD s.sorrel.scores core 0 + up - down)
  let s1 := { s with sorrel := { s.sorrel with scores := kput s.sorrel.scores core x 0 } }
  if 1024 ≤ x && !s.sorrel.quar.contains core then
    { s1 with sorrel := { s1.sorrel with quar := nins s1.sorrel.quar core } }.putRecord
      [5 + 6 * 2 ^ 8 + 9 * 2 ^ 16 + core * 2 ^ 32, s.dieTime 9, 0, 1, 0, 0, 0, 0]
  else s1

/-- A core's vote log: a physical lane or scalar copy outvoted four times within 2^20 core cycles is reported to Sorrel (R178, R464).
DESIGN CHOICE: its entries then leave the log, so that a next report needs four new votes (entry 53 of the log). -/
def State.settleVotes (s : State) (core : Nat) : State :=
  let k := s.core core
  let now := s.now (dieOf core)
  let recent := k.votes.filter fun v => now < v.2 + 2 ^ 20 * coreCycle
  let lots := (recent.map (·.1)).foldl (fun (m : NSet) p =>
    if 4 ≤ (recent.filter fun v => v.1 == p).length then nins m p else m) []
  lots.foldl (fun s _ => s.moveScore core 64 0)
    (s.setCore core { k with votes := recent.filter fun v => !lots.contains v.1 })

/-- Kill lanes of a wave (R362): they join the dead mask, and each leaves a loss record with its source: 0 register,
1 load, 2 scratchpad, 3 vote. -/
def State.killLanes (s : State) (core slot : Nat) (m : Mask) (source : Nat) : State :=
  match s.wave core slot with
  | none => s
  | some w =>
    let s1 := (s.setWave core slot { w with dead := w.dead ||| m }).exclude core w.bslot
    match s.block core w.bslot with
    | none => s1
    | some b =>
      m.lanes.foldl (fun s l =>
        s.engineRecord 2 (.waveCore core) b.env.colour b.env.region (96 + slot * 2 ^ 24 + codeWord b w.bank.pc) 0 0 l
          (l + source * 2 ^ 8)) s1

end Sys2Proof.Machine
end

