-- ==== Sys2Proof/WellFormed.lean ====
section
/-!
DEFINITION. Which instructions are well formed: those with no defect of R62 that a full grade and an open feature mask
leave, in the stream that may execute them (R61, R63).
-/

namespace Sys2Proof

/-- The fate of an instruction in a stream of a /A part with every feature permitted (R63, R65, R66). -/
def View.staticFate (v : View) (s : Stream) : Option (Nat × Nat) :=
  v.fate { stream := s, gradeB := false, mask := BitVec.allOnes 16, pick := 0 }

/-- An instruction without defect in some stream. An event has no encoding. -/
def View.wf (v : View) : Bool :=
  match v with
  | .event => false
  | v => (v.staticFate .wave).isNone || (v.staticFate .handler).isNone || (v.staticFate .sequencer).isNone

end Sys2Proof
end

