-- ==== Sys2Proof/Decode.lean ====
section
/-!
DEFINITION. From the 96 bits of a slot to an instruction, or a rejection by name, and back (R39 to R48, R54 to R60).
-/

namespace Sys2Proof

/-! ### Fields (R40, R43 to R48) -/

/-- The opcode, bits [9:0] of every format (R40). -/
def opOf (w : Slot) : Nat := w.toNat % 1024

/-- The common fields at [55:40] (R40). -/
def Common.parse (w : Slot) : Common :=
  { gp := w.extractLsb' 40 7, gn := w.getLsbD 47, stall := w.extractLsb' 48 4, yld := w.getLsbD 52,
    pin := w.getLsbD 53, rsv := w.extractLsb' 54 2 }

/-- The common fields as 16 bits. -/
def Common.pack (c : Common) : BitVec 16 :=
  c.rsv ++ BitVec.ofBool c.pin ++ BitVec.ofBool c.yld ++ c.stall ++ BitVec.ofBool c.gn ++ c.gp

/-- The V format (R43). -/
def VF.parse (w : Slot) : VF :=
  { com := Common.parse w, d := w.extractLsb' 10 10, a := w.extractLsb' 20 10, b := w.extractLsb' 30 10,
    c := w.extractLsb' 56 10, ty := w.extractLsb' 66 4, round := w.extractLsb' 70 3, sat := w.getLsbD 73,
    neg := w.extractLsb' 74 3, abs := w.extractLsb' 77 2, sub := w.extractLsb' 79 8, rsv := w.extractLsb' 87 9 }

def VF.pack (code : Nat) (f : VF) : Slot :=
  f.rsv ++ f.sub ++ f.abs ++ f.neg ++ BitVec.ofBool f.sat ++ f.round ++ f.ty ++ f.c ++ f.com.pack ++ f.b ++ f.a ++ f.d
    ++ BitVec.ofNat 10 code

/-- The I format (R44). -/
def IF.parse (w : Slot) : IF :=
  { com := Common.parse w, d := w.extractLsb' 10 10, a := w.extractLsb' 20 10, sub := w.extractLsb' 30 10,
    imm := w.extractLsb' 56 32, ty := w.extractLsb' 88 4, flags := w.extractLsb' 92 4 }

def IF.pack (code : Nat) (f : IF) : Slot :=
  f.flags ++ f.ty ++ f.imm ++ f.com.pack ++ f.sub ++ f.a ++ f.d ++ BitVec.ofNat 10 code

/-- The M format (R45). -/
def MF.parse (w : Slot) : MF :=
  { com := Common.parse w, d := w.extractLsb' 10 10, a := w.extractLsb' 20 10, b := w.extractLsb' 30 10,
    offset := w.extractLsb' 56 24, size := w.extractLsb' 80 4, scope := w.extractLsb' 84 3,
    stream := w.extractLsb' 87 3, order := w.extractLsb' 90 2, cache := w.extractLsb' 92 4 }

def MF.pack (code : Nat) (f : MF) : Slot :=
  f.cache ++ f.order ++ f.stream ++ f.scope ++ f.size ++ f.offset ++ f.com.pack ++ f.b ++ f.a ++ f.d
    ++ BitVec.ofNat 10 code

/-- The B format (R46). -/
def BF.parse (w : Slot) : BF :=
  { com := Common.parse w, target := w.extractLsb' 10 30, reconv := w.extractLsb' 56 32, sub := w.extractLsb' 88 8 }

def BF.pack (code : Nat) (f : BF) : Slot := f.sub ++ f.reconv ++ f.com.pack ++ f.target ++ BitVec.ofNat 10 code

/-- The X format (R47). -/
def XF.parse (w : Slot) : XF :=
  { com := Common.parse w, tile := w.extractLsb' 10 7, bufA := w.extractLsb' 17 4, bufB := w.extractLsb' 21 4,
    bufO := w.extractLsb' 25 4, asrc := w.extractLsb' 29 2, bsrc := w.extractLsb' 31 2, ga := w.extractLsb' 33 5,
    rsvLow := w.extractLsb' 38 2, gb := w.extractLsb' 56 5, gs := w.extractLsb' 61 5, fmt := w.extractLsb' 66 4,
    va := w.extractLsb' 70 10, vb := w.extractLsb' 80 10, wv := w.extractLsb' 90 5, rsvHigh := w.getLsbD 95 }

def XF.pack (code : Nat) (f : XF) : Slot :=
  BitVec.ofBool f.rsvHigh ++ f.wv ++ f.vb ++ f.va ++ f.fmt ++ f.gs ++ f.gb ++ f.com.pack ++ f.rsvLow ++ f.ga ++ f.bsrc
    ++ f.asrc ++ f.bufO ++ f.bufB ++ f.bufA ++ f.tile ++ BitVec.ofNat 10 code

/-- The S format (R48). -/
def SF.parse (w : Slot) : SF :=
  { com := Common.parse w, d := w.extractLsb' 10 10, a := w.extractLsb' 20 10, sub := w.extractLsb' 30 10,
    sysreg := w.extractLsb' 56 16, rsv := w.extractLsb' 72 24 }

def SF.pack (code : Nat) (f : SF) : Slot := f.rsv ++ f.sysreg ++ f.com.pack ++ f.sub ++ f.a ++ f.d ++ BitVec.ofNat 10 code

/-! ### The opcode map (R54 to R60) -/

/-- Every operation of the opcode map. -/
def allOps : List Op :=
  [.iadd, .isub, .imul, .imulh, .imulw, .imad, .ilea, .imin, .imax, .iabs, .ineg, .isad, .idiv, .irem, .icmp,
    .andBits, .orBits, .xorBits, .notBits, .bfn3, .shl, .shr, .rotl, .fshl, .bfx, .bfi, .popc, .clz, .brev,
    .prmb, .mov, .sel, .fadd, .fsub, .fmul, .fma, .fmin, .fmax, .fmed3, .fcmp, .fdiv, .frcp, .fsqrt, .frsq,
    .fexp2, .flog2, .fsin, .fcos, .fclass, .fcps, .fscl, .frnd, .cvt, .pack, .unpk, .qnt, .dqnt, .fdot2, .idot4,
    .ldot, .shfl, .swz, .vote, .ballot, .matchLanes, .elect, .flane, .redi, .redf, .scani, .scanf, .scanp,
    .cmpct, .expnd, .rdlane, .wrlane, .bcst, .plop, .pcnt, .p2r, .movrp, .shpq, .shpx, .shpc, .fmtq, .fmts,
    .near, .actq, .deadq, .poisq, .ld, .st, .ldc, .stc, .ldg, .pref, .cbnd, .cadd, .cset, .cperm, .cseal,
    .cunsl, .cget, .ctest, .cmov, .lds, .sts, .ldfe, .stfe, .feset, .feq, .atoms, .cass, .binit, .arrive, .wait,
    .trywait, .bar, .atom, .red, .cas, .fence, .spawn, .gbar, .mfence, .nbar, .nbwait, .zread, .zwrite, .badv,
    .bqry, .rng, .rngf, .rngadv, .rngld, .rngst, .rngq, .bra, .brx, .call, .callx, .ret, .exit, .recon, .loop,
    .endl, .breakLoop, .jseg, .segld, .segdrop, .segq, .nop, .yield, .live, .mma, .mmas, .zld, .zst, .zclr,
    .bwait, .bfree, .nbsig, .nbsw, .sloop, .sendl, .send, .snop, .invk, .chstat, .chwait, .chcan, .cbseal,
    .cbchk, .trap, .bkpt, .movw, .emret, .tret, .srd, .swr, .zemu]

/-- The operation whose first form has the code `n`. -/
def Op.ofCode (n : Nat) : Option Op := allOps.find? fun op => op.code == n

/-- The group-wide code `n` as GROUP_WIDE_ALU: the operation of vector code `n - 0x100` (R57). -/
def parseGroup (n : Nat) (w : Slot) : Option Instr :=
  if n < 0x100 || 0x200 ≤ n then none
  else if n < 0x180 then
    match Op.ofCode (n - 0x100) with
    | some op => if op.inGroupAlu && op.code < 0x80 then some (.groupWideAlu (.reg op (VF.parse w))) else none
    | none => none
  else
    match Op.ofCode (n - 0x180) with
    | some op =>
      if op.inGroupAlu && op.hasImm && op.code < 0x80 then some (.groupWideAlu (.imm op (IF.parse w))) else none
    | none => none

/-- ZEMU's rows share one code: SUB[1:0] tells them apart (R350). SUB 3 and its high bits are undefined values, which
the row of `.QRY` carries to their fate. -/
def parseZemu (w : Slot) : Instr :=
  let f := VF.parse w
  if f.sub == 0 then .zemuMark f else if f.sub == 1 then .zemuRel f else .zemuQry f

/-- The instruction that the opcode `n` selects; `none` where the class maps leave the code unassigned (R54). -/
def parseCode (n : Nat) (w : Slot) : Option Instr :=
  match n with
  | 0x000 => some (.iadd (VF.parse w))
  | 0x001 => some (.isub (VF.parse w))
  | 0x002 => some (.imul (VF.parse w))
  | 0x003 => some (.imulh (VF.parse w))
  | 0x004 => some (.imulw (VF.parse w))
  | 0x005 => some (.imad (VF.parse w))
  | 0x006 => some (.ilea (VF.parse w))
  | 0x007 => some (.imin (VF.parse w))
  | 0x008 => some (.imax (VF.parse w))
  | 0x009 => some (.iabs (VF.parse w))
  | 0x00A => some (.ineg (VF.parse w))
  | 0x00B => some (.isad (VF.parse w))
  | 0x00C => some (.idiv (VF.parse w))
  | 0x00D => some (.irem (VF.parse w))
  | 0x00E => some (.icmp (VF.parse w))
  | 0x010 => some (.andBits (VF.parse w))
  | 0x011 => some (.orBits (VF.parse w))
  | 0x012 => some (.xorBits (VF.parse w))
  | 0x013 => some (.notBits (VF.parse w))
  | 0x014 => some (.bfn3 (VF.parse w))
  | 0x015 => some (.shl (VF.parse w))
  | 0x016 => some (.shr (VF.parse w))
  | 0x017 => some (.rotl (VF.parse w))
  | 0x018 => some (.fshl (VF.parse w))
  | 0x019 => some (.bfx (VF.parse w))
  | 0x01A => some (.bfi (VF.parse w))
  | 0x01B => some (.popc (VF.parse w))
  | 0x01C => some (.clz (VF.parse w))
  | 0x01D => some (.brev (VF.parse w))
  | 0x01E => some (.prmb (VF.parse w))
  | 0x01F => some (.mov (VF.parse w))
  | 0x020 => some (.sel (VF.parse w))
  | 0x030 => some (.fadd (VF.parse w))
  | 0x031 => some (.fsub (VF.parse w))
  | 0x032 => some (.fmul (VF.parse w))
  | 0x033 => some (.fma (VF.parse w))
  | 0x034 => some (.fmin (VF.parse w))
  | 0x035 => some (.fmax (VF.parse w))
  | 0x036 => some (.fmed3 (VF.parse w))
  | 0x037 => some (.fcmp (VF.parse w))
  | 0x038 => some (.fdiv (VF.parse w))
  | 0x039 => some (.frcp (VF.parse w))
  | 0x03A => some (.fsqrt (VF.parse w))
  | 0x03B => some (.frsq (VF.parse w))
  | 0x03C => some (.fexp2 (VF.parse w))
  | 0x03D => some (.flog2 (VF.parse w))
  | 0x03E => some (.fsin (VF.parse w))
  | 0x03F => some (.fcos (VF.parse w))
  | 0x040 => some (.fclass (VF.parse w))
  | 0x041 => some (.fcps (VF.parse w))
  | 0x042 => some (.fscl (VF.parse w))
  | 0x043 => some (.frnd (VF.parse w))
  | 0x044 => some (.cvt (VF.parse w))
  | 0x045 => some (.pack (VF.parse w))
  | 0x046 => some (.unpk (VF.parse w))
  | 0x047 => some (.qnt (VF.parse w))
  | 0x048 => some (.dqnt (VF.parse w))
  | 0x049 => some (.fdot2 (VF.parse w))
  | 0x04A => some (.idot4 (VF.parse w))
  | 0x04B => some (.ldot (VF.parse w))
  | 0x050 => some (.shfl (VF.parse w))
  | 0x051 => some (.swz (VF.parse w))
  | 0x052 => some (.vote (VF.parse w))
  | 0x053 => some (.ballot (VF.parse w))
  | 0x054 => some (.matchLanes (VF.parse w))
  | 0x055 => some (.elect (VF.parse w))
  | 0x056 => some (.flane (VF.parse w))
  | 0x057 => some (.redi (VF.parse w))
  | 0x058 => some (.redf (VF.parse w))
  | 0x059 => some (.scani (VF.parse w))
  | 0x05A => some (.scanf (VF.parse w))
  | 0x05B => some (.scanp (VF.parse w))
  | 0x05C => some (.cmpct (VF.parse w))
  | 0x05D => some (.expnd (VF.parse w))
  | 0x05E => some (.rdlane (VF.parse w))
  | 0x05F => some (.wrlane (VF.parse w))
  | 0x060 => some (.bcst (VF.parse w))
  | 0x061 => some (.plop (VF.parse w))
  | 0x062 => some (.pcnt (VF.parse w))
  | 0x063 => some (.p2r (VF.parse w))
  | 0x064 => some (.movrp (VF.parse w))
  | 0x065 => some (.shpq (VF.parse w))
  | 0x066 => some (.shpx (VF.parse w))
  | 0x067 => some (.shpc (VF.parse w))
  | 0x068 => some (.fmtq (VF.parse w))
  | 0x069 => some (.fmts (VF.parse w))
  | 0x06A => some (.near (VF.parse w))
  | 0x06B => some (.actq (VF.parse w))
  | 0x06C => some (.deadq (VF.parse w))
  | 0x06D => some (.poisq (VF.parse w))
  | 0x080 => some (.iaddImm (IF.parse w))
  | 0x081 => some (.isubImm (IF.parse w))
  | 0x082 => some (.imulImm (IF.parse w))
  | 0x083 => some (.imulhImm (IF.parse w))
  | 0x086 => some (.ileaImm (IF.parse w))
  | 0x087 => some (.iminImm (IF.parse w))
  | 0x088 => some (.imaxImm (IF.parse w))
  | 0x08C => some (.idivImm (IF.parse w))
  | 0x08D => some (.iremImm (IF.parse w))
  | 0x08E => some (.icmpImm (IF.parse w))
  | 0x090 => some (.andImm (IF.parse w))
  | 0x091 => some (.orImm (IF.parse w))
  | 0x092 => some (.xorImm (IF.parse w))
  | 0x095 => some (.shlImm (IF.parse w))
  | 0x096 => some (.shrImm (IF.parse w))
  | 0x097 => some (.rotlImm (IF.parse w))
  | 0x09E => some (.prmbImm (IF.parse w))
  | 0x09F => some (.movImm (IF.parse w))
  | 0x0B0 => some (.faddImm (IF.parse w))
  | 0x0B1 => some (.fsubImm (IF.parse w))
  | 0x0B2 => some (.fmulImm (IF.parse w))
  | 0x0B4 => some (.fminImm (IF.parse w))
  | 0x0B5 => some (.fmaxImm (IF.parse w))
  | 0x0B7 => some (.fcmpImm (IF.parse w))
  | 0x0C1 => some (.fcpsImm (IF.parse w))
  | 0x0C2 => some (.fsclImm (IF.parse w))
  | 0x0D0 => some (.shflImm (IF.parse w))
  | 0x0DE => some (.rdlaneImm (IF.parse w))
  | 0x0DF => some (.wrlaneImm (IF.parse w))
  | 0x11F => some (.movGroupWide (VF.parse w))
  | 0x120 => some (.selGroupWide (VF.parse w))
  | 0x144 => some (.cvtGroupWide (VF.parse w))
  | 0x161 => some (.plopGroupWide (VF.parse w))
  | 0x19F => some (.movGroupWideImm (IF.parse w))
  | 0x200 => some (.ld (MF.parse w))
  | 0x201 => some (.st (MF.parse w))
  | 0x202 => some (.ldc (MF.parse w))
  | 0x203 => some (.stc (MF.parse w))
  | 0x204 => some (.ldg (MF.parse w))
  | 0x205 => some (.pref (MF.parse w))
  | 0x206 => some (.cbnd (VF.parse w))
  | 0x207 => some (.cadd (VF.parse w))
  | 0x208 => some (.cset (VF.parse w))
  | 0x209 => some (.cperm (VF.parse w))
  | 0x20A => some (.cseal (VF.parse w))
  | 0x20B => some (.cunsl (VF.parse w))
  | 0x20C => some (.cget (VF.parse w))
  | 0x20D => some (.ctest (VF.parse w))
  | 0x20E => some (.cmov (VF.parse w))
  | 0x210 => some (.lds (MF.parse w))
  | 0x211 => some (.sts (MF.parse w))
  | 0x212 => some (.ldfe (MF.parse w))
  | 0x213 => some (.stfe (MF.parse w))
  | 0x214 => some (.feset (MF.parse w))
  | 0x215 => some (.feq (MF.parse w))
  | 0x216 => some (.atoms (MF.parse w))
  | 0x217 => some (.cass (MF.parse w))
  | 0x218 => some (.binit (MF.parse w))
  | 0x219 => some (.arrive (VF.parse w))
  | 0x21A => some (.wait (VF.parse w))
  | 0x21B => some (.trywait (VF.parse w))
  | 0x21C => some (.bar (VF.parse w))
  | 0x21D => some (.atom (MF.parse w))
  | 0x21E => some (.red (MF.parse w))
  | 0x21F => some (.cas (MF.parse w))
  | 0x220 => some (.fence (MF.parse w))
  | 0x230 => some (.spawn (MF.parse w))
  | 0x231 => some (.gbar (VF.parse w))
  | 0x240 => some (.mfence (VF.parse w))
  | 0x241 => some (.nbar (VF.parse w))
  | 0x242 => some (.nbwait (VF.parse w))
  | 0x243 => some (.zread (VF.parse w))
  | 0x244 => some (.zwrite (VF.parse w))
  | 0x245 => some (.badv (VF.parse w))
  | 0x246 => some (.bqry (VF.parse w))
  | 0x250 => some (.rng (VF.parse w))
  | 0x251 => some (.rngf (VF.parse w))
  | 0x252 => some (.rngadv (VF.parse w))
  | 0x253 => some (.rngld (VF.parse w))
  | 0x254 => some (.rngst (VF.parse w))
  | 0x255 => some (.rngq (VF.parse w))
  | 0x300 => some (.bra (BF.parse w))
  | 0x301 => some (.brx (VF.parse w))
  | 0x302 => some (.call (BF.parse w))
  | 0x303 => some (.callx (VF.parse w))
  | 0x304 => some (.ret (BF.parse w))
  | 0x305 => some (.exit (BF.parse w))
  | 0x306 => some (.recon (BF.parse w))
  | 0x307 => some (.loop (BF.parse w))
  | 0x308 => some (.endl (BF.parse w))
  | 0x309 => some (.breakLoop (BF.parse w))
  | 0x30A => some (.jseg (IF.parse w))
  | 0x30B => some (.segld (IF.parse w))
  | 0x30C => some (.segdrop (IF.parse w))
  | 0x30D => some (.segq (IF.parse w))
  | 0x30E => some (.nop (VF.parse w))
  | 0x30F => some (.yield (VF.parse w))
  | 0x310 => some (.live (IF.parse w))
  | 0x340 => some (.mma (XF.parse w))
  | 0x341 => some (.mmas (XF.parse w))
  | 0x342 => some (.zld (XF.parse w))
  | 0x343 => some (.zst (XF.parse w))
  | 0x344 => some (.zclr (XF.parse w))
  | 0x345 => some (.bwait (XF.parse w))
  | 0x346 => some (.bfree (XF.parse w))
  | 0x347 => some (.nbsig (XF.parse w))
  | 0x348 => some (.nbsw (XF.parse w))
  | 0x349 => some (.sloop (XF.parse w))
  | 0x34A => some (.sendl (XF.parse w))
  | 0x34B => some (.send (XF.parse w))
  | 0x34C => some (.snop (XF.parse w))
  | 0x380 => some (.invk (VF.parse w))
  | 0x381 => some (.chstat (VF.parse w))
  | 0x382 => some (.chwait (VF.parse w))
  | 0x383 => some (.chcan (VF.parse w))
  | 0x384 => some (.cbseal (VF.parse w))
  | 0x385 => some (.cbchk (VF.parse w))
  | 0x3A0 => some (.trap (IF.parse w))
  | 0x3A1 => some (.bkpt (IF.parse w))
  | 0x3A2 => some (.movw (VF.parse w))
  | 0x3A3 => some (.emret (VF.parse w))
  | 0x3A4 => some (.tret (VF.parse w))
  | 0x3A5 => some (.srd (SF.parse w))
  | 0x3A6 => some (.swr (SF.parse w))
  | 0x3A7 => some (parseZemu w)
  | n => parseGroup n w

/-- The instruction whose opcode the slot holds. -/
def parse (w : Slot) : Option Instr := parseCode (opOf w) w

/-- The instruction's fields as its format gives them. -/
def Instr.view : Instr → View
  | .iadd f => .alu (f.args .iadd false)
  | .iaddImm f => .alu (f.args .iadd false)
  | .isub f => .alu (f.args .isub false)
  | .isubImm f => .alu (f.args .isub false)
  | .imul f => .alu (f.args .imul false)
  | .imulImm f => .alu (f.args .imul false)
  | .imulh f => .alu (f.args .imulh false)
  | .imulhImm f => .alu (f.args .imulh false)
  | .imulw f => .alu (f.args .imulw false)
  | .imad f => .alu (f.args .imad false)
  | .ilea f => .alu (f.args .ilea false)
  | .ileaImm f => .alu (f.args .ilea false)
  | .imin f => .alu (f.args .imin false)
  | .iminImm f => .alu (f.args .imin false)
  | .imax f => .alu (f.args .imax false)
  | .imaxImm f => .alu (f.args .imax false)
  | .iabs f => .alu (f.args .iabs false)
  | .ineg f => .alu (f.args .ineg false)
  | .isad f => .alu (f.args .isad false)
  | .idiv f => .alu (f.args .idiv false)
  | .idivImm f => .alu (f.args .idiv false)
  | .irem f => .alu (f.args .irem false)
  | .iremImm f => .alu (f.args .irem false)
  | .icmp f => .alu (f.args .icmp false)
  | .icmpImm f => .alu (f.args .icmp false)
  | .andBits f => .alu (f.args .andBits false)
  | .andImm f => .alu (f.args .andBits false)
  | .orBits f => .alu (f.args .orBits false)
  | .orImm f => .alu (f.args .orBits false)
  | .xorBits f => .alu (f.args .xorBits false)
  | .xorImm f => .alu (f.args .xorBits false)
  | .notBits f => .alu (f.args .notBits false)
  | .bfn3 f => .alu (f.args .bfn3 false)
  | .shl f => .alu (f.args .shl false)
  | .shlImm f => .alu (f.args .shl false)
  | .shr f => .alu (f.args .shr false)
  | .shrImm f => .alu (f.args .shr false)
  | .rotl f => .alu (f.args .rotl false)
  | .rotlImm f => .alu (f.args .rotl false)
  | .fshl f => .alu (f.args .fshl false)
  | .bfx f => .alu (f.args .bfx false)
  | .bfi f => .alu (f.args .bfi false)
  | .popc f => .alu (f.args .popc false)
  | .clz f => .alu (f.args .clz false)
  | .brev f => .alu (f.args .brev false)
  | .prmb f => .alu (f.args .prmb false)
  | .prmbImm f => .alu (f.args .prmb false)
  | .mov f => .alu (f.args .mov false)
  | .movImm f => .alu (f.args .mov false)
  | .movGroupWide f => .alu (f.args .mov true)
  | .movGroupWideImm f => .alu (f.args .mov true)
  | .sel f => .alu (f.args .sel false)
  | .selGroupWide f => .alu (f.args .sel true)
  | .groupWideAlu (.reg op f) => .alu (f.args op true)
  | .groupWideAlu (.imm op f) => .alu (f.args op true)
  | .fadd f => .alu (f.args .fadd false)
  | .faddImm f => .alu (f.args .fadd false)
  | .fsub f => .alu (f.args .fsub false)
  | .fsubImm f => .alu (f.args .fsub false)
  | .fmul f => .alu (f.args .fmul false)
  | .fmulImm f => .alu (f.args .fmul false)
  | .fma f => .alu (f.args .fma false)
  | .fmin f => .alu (f.args .fmin false)
  | .fminImm f => .alu (f.args .fmin false)
  | .fmax f => .alu (f.args .fmax false)
  | .fmaxImm f => .alu (f.args .fmax false)
  | .fmed3 f => .alu (f.args .fmed3 false)
  | .fcmp f => .alu (f.args .fcmp false)
  | .fcmpImm f => .alu (f.args .fcmp false)
  | .fdiv f => .alu (f.args .fdiv false)
  | .frcp f => .alu (f.args .frcp false)
  | .fsqrt f => .alu (f.args .fsqrt false)
  | .frsq f => .alu (f.args .frsq false)
  | .fexp2 f => .alu (f.args .fexp2 false)
  | .flog2 f => .alu (f.args .flog2 false)
  | .fsin f => .alu (f.args .fsin false)
  | .fcos f => .alu (f.args .fcos false)
  | .fclass f => .alu (f.args .fclass false)
  | .fcps f => .alu (f.args .fcps false)
  | .fcpsImm f => .alu (f.args .fcps false)
  | .fscl f => .alu (f.args .fscl false)
  | .fsclImm f => .alu (f.args .fscl false)
  | .frnd f => .alu (f.args .frnd false)
  | .cvt f => .alu (f.args .cvt false)
  | .cvtGroupWide f => .alu (f.args .cvt true)
  | .pack f => .alu (f.args .pack false)
  | .unpk f => .alu (f.args .unpk false)
  | .qnt f => .alu (f.args .qnt false)
  | .dqnt f => .alu (f.args .dqnt false)
  | .fdot2 f => .alu (f.args .fdot2 false)
  | .idot4 f => .alu (f.args .idot4 false)
  | .ldot f => .alu (f.args .ldot false)
  | .shfl f => .alu (f.args .shfl false)
  | .shflImm f => .alu (f.args .shfl false)
  | .swz f => .alu (f.args .swz false)
  | .vote f => .alu (f.args .vote false)
  | .ballot f => .alu (f.args .ballot false)
  | .matchLanes f => .alu (f.args .matchLanes false)
  | .elect f => .alu (f.args .elect false)
  | .flane f => .alu (f.args .flane false)
  | .redi f => .alu (f.args .redi false)
  | .redf f => .alu (f.args .redf false)
  | .scani f => .alu (f.args .scani false)
  | .scanf f => .alu (f.args .scanf false)
  | .scanp f => .alu (f.args .scanp false)
  | .cmpct f => .alu (f.args .cmpct false)
  | .expnd f => .alu (f.args .expnd false)
  | .rdlane f => .alu (f.args .rdlane false)
  | .rdlaneImm f => .alu (f.args .rdlane false)
  | .wrlane f => .alu (f.args .wrlane false)
  | .wrlaneImm f => .alu (f.args .wrlane false)
  | .bcst f => .alu (f.args .bcst false)
  | .plop f => .alu (f.args .plop false)
  | .plopGroupWide f => .alu (f.args .plop true)
  | .pcnt f => .alu (f.args .pcnt false)
  | .p2r f => .alu (f.args .p2r false)
  | .movrp f => .alu (f.args .movrp false)
  | .shpq f => .alu (f.args .shpq false)
  | .shpx f => .alu (f.args .shpx false)
  | .shpc f => .alu (f.args .shpc false)
  | .fmtq f => .alu (f.args .fmtq false)
  | .fmts f => .alu (f.args .fmts false)
  | .near f => .alu (f.args .near false)
  | .actq f => .alu (f.args .actq false)
  | .deadq f => .alu (f.args .deadq false)
  | .poisq f => .alu (f.args .poisq false)
  | .ld f => .mem .ld f
  | .st f => .mem .st f
  | .ldc f => .mem .ldc f
  | .stc f => .mem .stc f
  | .ldg f => .mem .ldg f
  | .pref f => .mem .pref f
  | .cbnd f => .alu (f.args .cbnd false)
  | .cadd f => .alu (f.args .cadd false)
  | .cset f => .alu (f.args .cset false)
  | .cperm f => .alu (f.args .cperm false)
  | .cseal f => .alu (f.args .cseal false)
  | .cunsl f => .alu (f.args .cunsl false)
  | .cget f => .alu (f.args .cget false)
  | .ctest f => .alu (f.args .ctest false)
  | .cmov f => .alu (f.args .cmov false)
  | .lds f => .mem .lds f
  | .sts f => .mem .sts f
  | .ldfe f => .mem .ldfe f
  | .stfe f => .mem .stfe f
  | .feset f => .mem .feset f
  | .feq f => .mem .feq f
  | .atoms f => .mem .atoms f
  | .cass f => .mem .cass f
  | .binit f => .mem .binit f
  | .arrive f => .alu (f.args .arrive false)
  | .arriveAppliedAtHome _ _ => .event
  | .wait f => .alu (f.args .wait false)
  | .trywait f => .alu (f.args .trywait false)
  | .bar f => .alu (f.args .bar false)
  | .implicitBarrierComplete _ _ _ => .event
  | .atom f => .mem .atom f
  | .red f => .mem .red f
  | .cas f => .mem .cas f
  | .fence f => .mem .fence f
  | .spawn f => .mem .spawn f
  | .gbar f => .alu (f.args .gbar false)
  | .gridBarrierGeneration _ => .event
  | .mfence f => .alu (f.args .mfence false)
  | .nbar f => .alu (f.args .nbar false)
  | .nbwait f => .alu (f.args .nbwait false)
  | .zread f => .alu (f.args .zread false)
  | .zwrite f => .alu (f.args .zwrite false)
  | .badv f => .alu (f.args .badv false)
  | .bqry f => .alu (f.args .bqry false)
  | .rng f => .alu (f.args .rng false)
  | .rngf f => .alu (f.args .rngf false)
  | .rngadv f => .alu (f.args .rngadv false)
  | .rngld f => .alu (f.args .rngld false)
  | .rngst f => .alu (f.args .rngst false)
  | .rngq f => .alu (f.args .rngq false)
  | .bra f => .branch .bra f
  | .brx f => .alu (f.args .brx false)
  | .call f => .branch .call f
  | .callx f => .alu (f.args .callx false)
  | .ret f => .branch .ret f
  | .exit f => .branch .exit f
  | .recon f => .branch .recon f
  | .loop f => .branch .loop f
  | .endl f => .branch .endl f
  | .breakLoop f => .branch .breakLoop f
  | .jseg f => .imm .jseg f
  | .segld f => .imm .segld f
  | .segmentLoadComplete _ _ _ => .event
  | .segdrop f => .imm .segdrop f
  | .segmentDropFree _ _ _ => .event
  | .segq f => .imm .segq f
  | .nop f => .alu (f.args .nop false)
  | .yield f => .alu (f.args .yield false)
  | .live f => .imm .live f
  | .mma f => .matrix .mma f
  | .mmas f => .matrix .mmas f
  | .zld f => .matrix .zld f
  | .zst f => .matrix .zst f
  | .zclr f => .matrix .zclr f
  | .tileOperationResultPoint _ _ => .event
  | .bwait f => .matrix .bwait f
  | .bfree f => .matrix .bfree f
  | .bfreeApplied _ _ => .event
  | .nbsig f => .matrix .nbsig f
  | .nbsigApplied _ _ => .event
  | .nbsw f => .matrix .nbsw f
  | .sloop f => .matrix .sloop f
  | .sendl f => .matrix .sendl f
  | .send f => .matrix .send f
  | .snop f => .matrix .snop f
  | .invk f => .alu (f.args .invk false)
  | .chstat f => .alu (f.args .chstat false)
  | .chwait f => .alu (f.args .chwait false)
  | .chcan f => .alu (f.args .chcan false)
  | .cbseal f => .alu (f.args .cbseal false)
  | .cbchk f => .alu (f.args .cbchk false)
  | .trap f => .imm .trap f
  | .bkpt f => .imm .bkpt f
  | .movw f => .alu (f.args .movw false)
  | .emret f => .alu (f.args .emret false)
  | .tret f => .alu (f.args .tret false)
  | .srd f => .system .srd f
  | .swr f => .system .swr f
  | .zemuMark f => .alu (f.args .zemu false)
  | .zemuRel f => .alu (f.args .zemu false)
  | .zemuQry f => .alu (f.args .zemu false)
  | .asynchronousTrapDelivery _ _ => .event
  | .registerRefill _ _ _ => .event
  | .missRejectionRetry _ _ => .event
  | .reservationQueueIssue _ => .event
  | .l1LineFill _ _ => .event
  | .l1LineAgeInvalidation _ _ => .event
  | .storeLeavesBuffer _ _ _ => .event
  | .storeWrittenAtHome _ _ => .event
  | .storeAcknowledged _ => .event
  | .atomicChainApplied _ _ => .event
  | .hotWordWriteback _ => .event
  | .blockRetirement _ _ => .event
  | .latchChange _ _ => .event
  | .blockPlacement _ => .event
  | .gridExpansion _ => .event
  | .persistentGridPlacement _ => .event
  | .waveBecomesUrgent _ _ => .event
  | .timeSliceExpiry _ => .event
  | .preEmptionSignal _ => .event
  | .preEmptionWindowEnd _ _ => .event
  | .contextSave _ => .event
  | .saveComplete _ => .event
  | .contextRestore _ => .event
  | .haltedSave _ => .event
  | .haltedPartitionDiscard _ => .event
  | .sealedSave _ => .event
  | .heldChannelWrite _ _ => .event
  | .haltLineArrival _ _ => .event
  | .channelHaltStop _ _ => .event
  | .debuggerHalt _ _ => .event
  | .debuggerResume _ _ => .event
  | .debuggerArm _ _ => .event
  | .debuggerDisarm _ _ => .event
  | .dbgdataWrite _ _ => .event
  | .channelUnitTransfer _ _ => .event
  | .commandCompletionWrite _ _ => .event
  | .collectiveCancellation _ _ => .event
  | .loessIdleFlit _ => .event
  | .linkTimeout _ => .event
  | .switchTimeout _ => .event
  | .groupTimeout _ _ => .event
  | .flitCrcReplay _ _ => .event
  | .read _ _ => .event
  | .readResponse _ _ => .event
  | .write _ _ => .event
  | .writeAcknowledgement _ _ => .event
  | .atomic _ _ => .event
  | .atomicResponse _ _ => .event
  | .collectiveData _ _ => .event
  | .collectiveControl _ _ => .event
  | .forerunnerLaunch _ _ => .event
  | .linkControl _ _ => .event
  | .remoteFaultArrival _ _ => .event
  | .launch _ => .event
  | .launchRetirement _ => .event
  | .indirect _ => .event
  | .pred _ => .event
  | .loopPacket _ => .event
  | .waitmem _ => .event
  | .waitmemTimeout _ => .event
  | .writePacket _ => .event
  | .signal _ => .event
  | .fetchfence _ => .event
  | .drain _ => .event
  | .regionSet _ => .event
  | .regionSave _ => .event
  | .regionRestore _ => .event
  | .regionPrio _ => .event
  | .nopPacket _ => .event
  | .doorbell _ _ => .event
  | .queueMap _ => .event
  | .queueIdle _ => .event
  | .qmapMap _ => .event
  | .qmapUnmap _ => .event
  | .cpmodeWrite _ => .event
  | .functionLevelReset _ => .event
  | .heartbeat => .event
  | .firmwareTakeover => .event
  | .liveUpdate => .event
  | .rollbackRaise => .event
  | .create => .event
  | .destroy => .event
  | .assign => .event
  | .revoke => .event
  | .release => .event
  | .attr => .event
  | .quar => .event
  | .unquar => .event
  | .mint => .event
  | .table => .event
  | .attest => .event
  | .auditReexecution _ => .event
  | .auditComparison _ => .event
  | .auditTieBreak _ => .event
  | .cscoreClr _ _ => .event
  | .swreq => .event
  | .sweeperPassStart => .event
  | .sweeperPassComplete => .event
  | .powerWindow => .event
  | .pageRequestResponse _ _ => .event
  | .pageRequestTimeout _ => .event
  | .devnoWrite _ _ => .event
  | .deviceRegisterWrite _ _ _ => .event
  | .powerOnReset => .event
  | .warmReset => .event
  | .freeze => .event
  | .hostApertureAccess _ _ _ _ => .event
  | .powerLoss => .event
  | .activeComplexFailure => .event
  | .dieToDieLinkFailure _ _ => .event
  | .idleFlitReceipt _ _ => .event
  | .flitDiscard _ _ => .event
  | .uncorrectableError _ => .event
  | .freezeRelease => .event

/-- The 96 bits of an instruction's slot, from the formats and the opcode map. An event has no encoding: 0 stands. -/
def encode : Instr → Slot
  | .iadd f => f.pack 0x000
  | .iaddImm f => f.pack 0x080
  | .isub f => f.pack 0x001
  | .isubImm f => f.pack 0x081
  | .imul f => f.pack 0x002
  | .imulImm f => f.pack 0x082
  | .imulh f => f.pack 0x003
  | .imulhImm f => f.pack 0x083
  | .imulw f => f.pack 0x004
  | .imad f => f.pack 0x005
  | .ilea f => f.pack 0x006
  | .ileaImm f => f.pack 0x086
  | .imin f => f.pack 0x007
  | .iminImm f => f.pack 0x087
  | .imax f => f.pack 0x008
  | .imaxImm f => f.pack 0x088
  | .iabs f => f.pack 0x009
  | .ineg f => f.pack 0x00A
  | .isad f => f.pack 0x00B
  | .idiv f => f.pack 0x00C
  | .idivImm f => f.pack 0x08C
  | .irem f => f.pack 0x00D
  | .iremImm f => f.pack 0x08D
  | .icmp f => f.pack 0x00E
  | .icmpImm f => f.pack 0x08E
  | .andBits f => f.pack 0x010
  | .andImm f => f.pack 0x090
  | .orBits f => f.pack 0x011
  | .orImm f => f.pack 0x091
  | .xorBits f => f.pack 0x012
  | .xorImm f => f.pack 0x092
  | .notBits f => f.pack 0x013
  | .bfn3 f => f.pack 0x014
  | .shl f => f.pack 0x015
  | .shlImm f => f.pack 0x095
  | .shr f => f.pack 0x016
  | .shrImm f => f.pack 0x096
  | .rotl f => f.pack 0x017
  | .rotlImm f => f.pack 0x097
  | .fshl f => f.pack 0x018
  | .bfx f => f.pack 0x019
  | .bfi f => f.pack 0x01A
  | .popc f => f.pack 0x01B
  | .clz f => f.pack 0x01C
  | .brev f => f.pack 0x01D
  | .prmb f => f.pack 0x01E
  | .prmbImm f => f.pack 0x09E
  | .mov f => f.pack 0x01F
  | .movImm f => f.pack 0x09F
  | .movGroupWide f => f.pack 0x11F
  | .movGroupWideImm f => f.pack 0x19F
  | .sel f => f.pack 0x020
  | .selGroupWide f => f.pack 0x120
  | .groupWideAlu (.reg op f) => f.pack (0x100 + op.code)
  | .groupWideAlu (.imm op f) => f.pack (0x180 + op.code)
  | .fadd f => f.pack 0x030
  | .faddImm f => f.pack 0x0B0
  | .fsub f => f.pack 0x031
  | .fsubImm f => f.pack 0x0B1
  | .fmul f => f.pack 0x032
  | .fmulImm f => f.pack 0x0B2
  | .fma f => f.pack 0x033
  | .fmin f => f.pack 0x034
  | .fminImm f => f.pack 0x0B4
  | .fmax f => f.pack 0x035
  | .fmaxImm f => f.pack 0x0B5
  | .fmed3 f => f.pack 0x036
  | .fcmp f => f.pack 0x037
  | .fcmpImm f => f.pack 0x0B7
  | .fdiv f => f.pack 0x038
  | .frcp f => f.pack 0x039
  | .fsqrt f => f.pack 0x03A
  | .frsq f => f.pack 0x03B
  | .fexp2 f => f.pack 0x03C
  | .flog2 f => f.pack 0x03D
  | .fsin f => f.pack 0x03E
  | .fcos f => f.pack 0x03F
  | .fclass f => f.pack 0x040
  | .fcps f => f.pack 0x041
  | .fcpsImm f => f.pack 0x0C1
  | .fscl f => f.pack 0x042
  | .fsclImm f => f.pack 0x0C2
  | .frnd f => f.pack 0x043
  | .cvt f => f.pack 0x044
  | .cvtGroupWide f => f.pack 0x144
  | .pack f => f.pack 0x045
  | .unpk f => f.pack 0x046
  | .qnt f => f.pack 0x047
  | .dqnt f => f.pack 0x048
  | .fdot2 f => f.pack 0x049
  | .idot4 f => f.pack 0x04A
  | .ldot f => f.pack 0x04B
  | .shfl f => f.pack 0x050
  | .shflImm f => f.pack 0x0D0
  | .swz f => f.pack 0x051
  | .vote f => f.pack 0x052
  | .ballot f => f.pack 0x053
  | .matchLanes f => f.pack 0x054
  | .elect f => f.pack 0x055
  | .flane f => f.pack 0x056
  | .redi f => f.pack 0x057
  | .redf f => f.pack 0x058
  | .scani f => f.pack 0x059
  | .scanf f => f.pack 0x05A
  | .scanp f => f.pack 0x05B
  | .cmpct f => f.pack 0x05C
  | .expnd f => f.pack 0x05D
  | .rdlane f => f.pack 0x05E
  | .rdlaneImm f => f.pack 0x0DE
  | .wrlane f => f.pack 0x05F
  | .wrlaneImm f => f.pack 0x0DF
  | .bcst f => f.pack 0x060
  | .plop f => f.pack 0x061
  | .plopGroupWide f => f.pack 0x161
  | .pcnt f => f.pack 0x062
  | .p2r f => f.pack 0x063
  | .movrp f => f.pack 0x064
  | .shpq f => f.pack 0x065
  | .shpx f => f.pack 0x066
  | .shpc f => f.pack 0x067
  | .fmtq f => f.pack 0x068
  | .fmts f => f.pack 0x069
  | .near f => f.pack 0x06A
  | .actq f => f.pack 0x06B
  | .deadq f => f.pack 0x06C
  | .poisq f => f.pack 0x06D
  | .ld f => f.pack 0x200
  | .st f => f.pack 0x201
  | .ldc f => f.pack 0x202
  | .stc f => f.pack 0x203
  | .ldg f => f.pack 0x204
  | .pref f => f.pack 0x205
  | .cbnd f => f.pack 0x206
  | .cadd f => f.pack 0x207
  | .cset f => f.pack 0x208
  | .cperm f => f.pack 0x209
  | .cseal f => f.pack 0x20A
  | .cunsl f => f.pack 0x20B
  | .cget f => f.pack 0x20C
  | .ctest f => f.pack 0x20D
  | .cmov f => f.pack 0x20E
  | .lds f => f.pack 0x210
  | .sts f => f.pack 0x211
  | .ldfe f => f.pack 0x212
  | .stfe f => f.pack 0x213
  | .feset f => f.pack 0x214
  | .feq f => f.pack 0x215
  | .atoms f => f.pack 0x216
  | .cass f => f.pack 0x217
  | .binit f => f.pack 0x218
  | .arrive f => f.pack 0x219
  | .arriveAppliedAtHome _ _ => 0
  | .wait f => f.pack 0x21A
  | .trywait f => f.pack 0x21B
  | .bar f => f.pack 0x21C
  | .implicitBarrierComplete _ _ _ => 0
  | .atom f => f.pack 0x21D
  | .red f => f.pack 0x21E
  | .cas f => f.pack 0x21F
  | .fence f => f.pack 0x220
  | .spawn f => f.pack 0x230
  | .gbar f => f.pack 0x231
  | .gridBarrierGeneration _ => 0
  | .mfence f => f.pack 0x240
  | .nbar f => f.pack 0x241
  | .nbwait f => f.pack 0x242
  | .zread f => f.pack 0x243
  | .zwrite f => f.pack 0x244
  | .badv f => f.pack 0x245
  | .bqry f => f.pack 0x246
  | .rng f => f.pack 0x250
  | .rngf f => f.pack 0x251
  | .rngadv f => f.pack 0x252
  | .rngld f => f.pack 0x253
  | .rngst f => f.pack 0x254
  | .rngq f => f.pack 0x255
  | .bra f => f.pack 0x300
  | .brx f => f.pack 0x301
  | .call f => f.pack 0x302
  | .callx f => f.pack 0x303
  | .ret f => f.pack 0x304
  | .exit f => f.pack 0x305
  | .recon f => f.pack 0x306
  | .loop f => f.pack 0x307
  | .endl f => f.pack 0x308
  | .breakLoop f => f.pack 0x309
  | .jseg f => f.pack 0x30A
  | .segld f => f.pack 0x30B
  | .segmentLoadComplete _ _ _ => 0
  | .segdrop f => f.pack 0x30C
  | .segmentDropFree _ _ _ => 0
  | .segq f => f.pack 0x30D
  | .nop f => f.pack 0x30E
  | .yield f => f.pack 0x30F
  | .live f => f.pack 0x310
  | .mma f => f.pack 0x340
  | .mmas f => f.pack 0x341
  | .zld f => f.pack 0x342
  | .zst f => f.pack 0x343
  | .zclr f => f.pack 0x344
  | .tileOperationResultPoint _ _ => 0
  | .bwait f => f.pack 0x345
  | .bfree f => f.pack 0x346
  | .bfreeApplied _ _ => 0
  | .nbsig f => f.pack 0x347
  | .nbsigApplied _ _ => 0
  | .nbsw f => f.pack 0x348
  | .sloop f => f.pack 0x349
  | .sendl f => f.pack 0x34A
  | .send f => f.pack 0x34B
  | .snop f => f.pack 0x34C
  | .invk f => f.pack 0x380
  | .chstat f => f.pack 0x381
  | .chwait f => f.pack 0x382
  | .chcan f => f.pack 0x383
  | .cbseal f => f.pack 0x384
  | .cbchk f => f.pack 0x385
  | .trap f => f.pack 0x3A0
  | .bkpt f => f.pack 0x3A1
  | .movw f => f.pack 0x3A2
  | .emret f => f.pack 0x3A3
  | .tret f => f.pack 0x3A4
  | .srd f => f.pack 0x3A5
  | .swr f => f.pack 0x3A6
  | .zemuMark f => f.pack 0x3A7
  | .zemuRel f => f.pack 0x3A7
  | .zemuQry f => f.pack 0x3A7
  | .asynchronousTrapDelivery _ _ => 0
  | .registerRefill _ _ _ => 0
  | .missRejectionRetry _ _ => 0
  | .reservationQueueIssue _ => 0
  | .l1LineFill _ _ => 0
  | .l1LineAgeInvalidation _ _ => 0
  | .storeLeavesBuffer _ _ _ => 0
  | .storeWrittenAtHome _ _ => 0
  | .storeAcknowledged _ => 0
  | .atomicChainApplied _ _ => 0
  | .hotWordWriteback _ => 0
  | .blockRetirement _ _ => 0
  | .latchChange _ _ => 0
  | .blockPlacement _ => 0
  | .gridExpansion _ => 0
  | .persistentGridPlacement _ => 0
  | .waveBecomesUrgent _ _ => 0
  | .timeSliceExpiry _ => 0
  | .preEmptionSignal _ => 0
  | .preEmptionWindowEnd _ _ => 0
  | .contextSave _ => 0
  | .saveComplete _ => 0
  | .contextRestore _ => 0
  | .haltedSave _ => 0
  | .haltedPartitionDiscard _ => 0
  | .sealedSave _ => 0
  | .heldChannelWrite _ _ => 0
  | .haltLineArrival _ _ => 0
  | .channelHaltStop _ _ => 0
  | .debuggerHalt _ _ => 0
  | .debuggerResume _ _ => 0
  | .debuggerArm _ _ => 0
  | .debuggerDisarm _ _ => 0
  | .dbgdataWrite _ _ => 0
  | .channelUnitTransfer _ _ => 0
  | .commandCompletionWrite _ _ => 0
  | .collectiveCancellation _ _ => 0
  | .loessIdleFlit _ => 0
  | .linkTimeout _ => 0
  | .switchTimeout _ => 0
  | .groupTimeout _ _ => 0
  | .flitCrcReplay _ _ => 0
  | .read _ _ => 0
  | .readResponse _ _ => 0
  | .write _ _ => 0
  | .writeAcknowledgement _ _ => 0
  | .atomic _ _ => 0
  | .atomicResponse _ _ => 0
  | .collectiveData _ _ => 0
  | .collectiveControl _ _ => 0
  | .forerunnerLaunch _ _ => 0
  | .linkControl _ _ => 0
  | .remoteFaultArrival _ _ => 0
  | .launch _ => 0
  | .launchRetirement _ => 0
  | .indirect _ => 0
  | .pred _ => 0
  | .loopPacket _ => 0
  | .waitmem _ => 0
  | .waitmemTimeout _ => 0
  | .writePacket _ => 0
  | .signal _ => 0
  | .fetchfence _ => 0
  | .drain _ => 0
  | .regionSet _ => 0
  | .regionSave _ => 0
  | .regionRestore _ => 0
  | .regionPrio _ => 0
  | .nopPacket _ => 0
  | .doorbell _ _ => 0
  | .queueMap _ => 0
  | .queueIdle _ => 0
  | .qmapMap _ => 0
  | .qmapUnmap _ => 0
  | .cpmodeWrite _ => 0
  | .functionLevelReset _ => 0
  | .heartbeat => 0
  | .firmwareTakeover => 0
  | .liveUpdate => 0
  | .rollbackRaise => 0
  | .create => 0
  | .destroy => 0
  | .assign => 0
  | .revoke => 0
  | .release => 0
  | .attr => 0
  | .quar => 0
  | .unquar => 0
  | .mint => 0
  | .table => 0
  | .attest => 0
  | .auditReexecution _ => 0
  | .auditComparison _ => 0
  | .auditTieBreak _ => 0
  | .cscoreClr _ _ => 0
  | .swreq => 0
  | .sweeperPassStart => 0
  | .sweeperPassComplete => 0
  | .powerWindow => 0
  | .pageRequestResponse _ _ => 0
  | .pageRequestTimeout _ => 0
  | .devnoWrite _ _ => 0
  | .deviceRegisterWrite _ _ _ => 0
  | .powerOnReset => 0
  | .warmReset => 0
  | .freeze => 0
  | .hostApertureAccess _ _ _ _ => 0
  | .powerLoss => 0
  | .activeComplexFailure => 0
  | .dieToDieLinkFailure _ _ => 0
  | .idleFlitReceipt _ _ => 0
  | .flitDiscard _ _ => 0
  | .uncorrectableError _ => 0
  | .freezeRelease => 0

/-- Whether a constructor agrees with what its own code selects: GROUP_WIDE_ALU stands for the codes that have no row
of their own, and ZEMU's rows for one SUB each. -/
def Instr.rowOk : Instr → Bool
  | .groupWideAlu (.reg op _) => op.inGroupAlu
  | .groupWideAlu (.imm op _) => op.inGroupAlu && op.hasImm
  | .zemuMark f => f.sub == 0
  | .zemuRel f => f.sub == 1
  | .zemuQry f => f.sub == 2
  | _ => true

/-- A well-formed instruction: one without defect in some stream. -/
def Instr.wf (i : Instr) : Bool := i.rowOk && i.view.wf

/-- Why a slot's bits are no instruction, by name (R62). -/
inductive Reject where
  /-- the class maps leave the code unassigned (cause 1) -/
  | unassigned
  /-- the cause and the offending field of R62, in the stream that may execute the code -/
  | defect (cause field : Nat)
deriving DecidableEq, Repr

/-- The stream in which an assigned code may execute: the sequencer for the matrix class, else a handler for the codes
that wave streams may not use, else a wave (R61). -/
def View.home (v : View) : Stream :=
  match v with
  | .matrix _ _ => .sequencer
  | .alu x => if x.op == .movw || x.op == .emret || x.op == .tret || x.op == .zemu then .handler else .wave
  | _ => .wave

/-- Decoding: total on any 96 bits, rejecting by name. A register number that only a handler may name is accepted. -/
def decode (w : Slot) : Except Reject Instr :=
  match parse w with
  | none => .error .unassigned
  | some i =>
    if i.view.wf then .ok i
    else match i.view.staticFate i.view.home with
      | some (c, fl) => .error (.defect c fl)
      | none => .error .unassigned

/-- The instruction the decoder reads from `nbits` bits, numbered from bit 0 of the first word, with zeros above. -/
def decodeTableWord (nbits w : Nat) : Option Instr :=
  match decode (BitVec.ofNat 96 (w % 2 ^ nbits)) with
  | .ok i => some i
  | .error _ => none

end Sys2Proof
end

