-- ==== Sys2Proof/Machine/Code.lean ====
section
/-!
DEFINITION. Instruction addresses, lines and segments (R34 to R38, R97 to R103): fetching from the instruction store,
targets, fenced transfers and the pops of the control stack.
-/

namespace Sys2Proof.Machine

/-! ### Addresses (R37, R38, R97) -/

/-- The segment number of an instruction address (R97). -/
def segOf (x : IAddr) : Nat := x.toNat / 2 ^ 24

/-- The byte offset within the segment (R97). -/
def offOf (x : IAddr) : Nat := x.toNat % 2 ^ 24

/-- The line an offset lies on, and the line an address lies on across segments (R34, R36). -/
def lineOf (x : IAddr) : Nat := x.toNat / 64

/-- The slot of a line at a byte offset within it, if one stands there (R37). -/
def slotAt (o : Nat) : Option Nat :=
  if o = 4 then some 0 else if o = 16 then some 1 else if o = 28 then some 2 else if o = 40 then some 3
  else if o = 52 then some 4 else none

/-- The slot index of an instruction address (R38). -/
def slotIndex (x : IAddr) : Int := (offOf x / 64 * 5 + (offOf x % 64 - 4) / 12 : Nat)

/-- The byte offset of a slot index, exact for any integer (R37). -/
def slotOffset (n : Int) : Int := (n.fdiv 5) * 64 + 4 + 12 * (n.fmod 5)

def mkAddr (seg off : Nat) : IAddr := BitVec.ofNat 32 (seg * 2 ^ 24 + off)

/-! ### Segments of the instruction store (R97) -/

def Core.segment (k : Core) (code num : Nat) : Option Segment :=
  k.segs.find? fun g => g.code == code && g.num == num

def Core.modSegment (k : Core) (code num : Nat) (f : Segment → Segment) : Core :=
  { k with segs := k.segs.map fun g => if g.code == code && g.num == num then f g else g }

/-- The slots of the instruction store that hold no segment, lowest first (R97). -/
def Core.freeSlots (k : Core) : List Nat :=
  (List.range 64).filter fun n => !(k.segs.any fun g => g.slots.contains n)

/-- The header of a line of a segment (R34). -/
def Segment.header (g : Segment) (line : Nat) : Nat := ofBytes ((rangeFrom (64 * line) 4).map fun a => kgetD g.bytes a 0)

/-- The VALID bit of a slot (R34). -/
def validBit (header slot : Nat) : Bool := header.testBit (8 + slot)

/-- The 96 bits of a slot of a line (R39). -/
def Segment.slot (g : Segment) (line slot : Nat) : Slot :=
  BitVec.ofNat 96 (ofBytes ((rangeFrom (64 * line + 4 + 12 * slot) 12).map fun a => kgetD g.bytes a 0))

/-- The parity a line's bytes give (R35). -/
def lineParity (bs : List Byte) : Byte :=
  (bs.drop 4).foldl (· ^^^ ·) (bs.getD 0 0 ^^^ (bs.getD 1 0 &&& 0x1F))

/-- The bytes of a line. -/
def Segment.line (g : Segment) (line : Nat) : List Byte := (rangeFrom (64 * line) 64).map fun a => kgetD g.bytes a 0

/-- Whether a line's PARITY matches its bytes (R35). -/
def parityOk (bs : List Byte) : Bool :=
  BitVec.ofNat 8 (ofBytes (bs.take 4) / 2 ^ 13) == lineParity bs

/-- The first valid slot of the `n` lines from `line` (R38). -/
def Segment.validFrom (g : Segment) : Nat → Nat → Option (Nat × Nat)
  | 0, _ => none
  | n + 1, line =>
    let h := g.header line
    match (List.range 5).find? fun sl => validBit h sl with
    | some sl => some (line, sl)
    | none => g.validFrom n (line + 1)

/-- The offset of the next instruction in sequential fetch; the segment's end where none follows (R38). -/
def Segment.nextOff (g : Segment) (off : Nat) : Nat :=
  let line := off / 64
  let h := g.header line
  match (List.range 5).find? fun sl => 64 * line + 4 + 12 * sl > off && validBit h sl with
  | some sl => 64 * line + 4 + 12 * sl
  | none =>
    match g.validFrom (g.size * 128 - (line + 1)) (line + 1) with
    | some (l, sl) => 64 * l + 4 + 12 * sl
    | none => g.size * 8192 + 4

/-- The next address in sequential fetch (R38). Where the segment is gone, the following slot. -/
def Core.nextValid (k : Core) (code : Nat) (pc : IAddr) : IAddr :=
  match k.segment code (segOf pc) with
  | some g => mkAddr (segOf pc) (g.nextOff (offOf pc))
  | none => mkAddr (segOf pc) (slotOffset (slotIndex pc + 1)).toNat

/-- The entry of a segment in its code object's segment table, whose offset stands at byte 32 of the header: its SIZE,
0 where the segment does not exist, and the address of its image (R98, R392). A code object is named by its address. -/
def State.segEntry (s : State) (code num : Nat) : Nat × Nat :=
  let at_ := code + s.numAt (code + 32) 8 + 16 * num
  let size := s.numAt (at_ + 8) 1 % 16
  (if size ≤ 8 then size else 0, code + s.numAt at_ 8)

/-- Whether a resident segment's image has stood in memory as it was loaded since then (R99). -/
def State.imageKept (s : State) (code : Nat) (g : Segment) : Bool :=
  let a := (s.segEntry code g.num).2
  !g.changed && ((s.mem.filter fun e => a ≤ e.1 && e.1 < a + 8192 * g.size).map fun e => (e.1 - a, e.2)) == g.bytes

/-- The bits fetched from a slot of a segment: undefined once the segment's image has been changed (R99). -/
def State.fetched (s : State) (code : Nat) (g : Segment) (bits : Slot) : Slot :=
  if s.imageKept code g then bits
  else Config.freeWord s.tick 1024 0 ++ Config.freeWord s.tick 1024 1 ++ Config.freeWord s.tick 1024 2

/-- A line of a segment fetched: where its parity fails it is fetched again once from the segment's image, and counted; the
answer says whether its parity then holds (R35). -/
def State.fetchLine (s : State) (core code : Nat) (g : Segment) (line : Nat) : Bool × State :=
  if parityOk (g.line line) then (true, s)
  else
    let bs := s.bytesAt ((s.segEntry code g.num).2 + 64 * line) 64
    let k := s.core core
    let k1 := { k with parref := k.parref + 1 }
    let put (g : Segment) : Segment :=
      { g with bytes := (bs.zip (rangeFrom (64 * line) 64)).foldl (fun m (x, a) => kput m a x 0) g.bytes }
    if parityOk bs then (true, s.setCore core (k1.modSegment code g.num put)) else (false, s.setCore core k1)

/-- Segments whose image no longer stands as it was loaded: what is fetched from them is undefined until they are loaded
again (R99). -/
def State.noteImages (s : State) : State :=
  s.cores.foldl (fun s (c, k) =>
    if k.segs.all fun g => g.loading || g.changed || s.imageKept g.code g then s
    else s.setCore c { s.core c with segs := k.segs.map fun g =>
      { g with changed := g.changed || (!g.loading && !s.imageKept g.code g) } }) s

/-! ### Transfers (R37, R98, R100) -/

/-- What a transfer to an address meets. -/
inductive Xfer where
  | go
  | misaligned
  | absent
  | loading
deriving DecidableEq, Repr

/-- A transfer to an address, its place within the line first, then its segment, then its slot (R37, R98, R100). -/
def Core.xfer (k : Core) (code : Nat) (x : IAddr) : Xfer :=
  match slotAt (offOf x % 64) with
  | none => .misaligned
  | some sl =>
    match k.segment code (segOf x) with
    | none => .absent
    | some g =>
      if g.loading then .loading
      else if offOf x < g.size * 8192 && validBit (g.header (offOf x / 64)) sl then .go
      else .misaligned

/-- A relative target: its address, or the signed value that the trap records (R37, R38). -/
def Core.relative (k : Core) (code : Nat) (pc : IAddr) (delta : Int) : Except Dword IAddr :=
  let n := slotIndex pc + delta
  let off := slotOffset n
  let value : Int := (segOf pc : Int) * 2 ^ 24 + off
  let size := match k.segment code (segOf pc) with | some g => g.size * 8192 | none => 0
  if n < 0 || 2 ^ 24 ≤ off || (size : Int) ≤ off then .error (BitVec.ofInt 64 value)
  else
    let x := mkAddr (segOf pc) off.toNat
    if k.xfer code x = .go then .ok x else .error (BitVec.ofInt 64 value)

/-- The trap a transfer raises, or the wait, if it does not proceed (R37, R100). -/
def Xfer.exc (t : Xfer) (x : IAddr) : Option Exc :=
  match t with
  | .go => none
  | .misaligned => some (.trap 21 0 (x.setWidth 64))
  | .absent => some (.trap 22 0 (BitVec.ofNat 64 (segOf x)))
  | .loading => some (.wait (.segment (segOf x)))

/-- A fenced transfer cancels a pending drop of its segment (R101). -/
def State.cancelDrop (s : State) (c code seg : Nat) : State :=
  s.setCore c ((s.core c).modSegment code seg fun g => { g with dropPending := false })

/-- A fenced transfer that waits for a segment load cancels a pending drop as one that proceeds does (R100, R101). -/
def State.keepWanted (s : State) (c code : Nat) : Exc → State
  | .wait (.segment n) => s.cancelDrop c code n
  | _ => s

/-! ### The pops of the control stack (R103) -/

/-- What the pops at an address lead to: the bank with the address to fetch from, and the segments entered by the way;
or a transfer that does not proceed. -/
inductive Popped where
  | ok (b : Bank) (popped : Bool) (segs : List Nat)
  | stuck (t : Xfer) (x : IAddr)
deriving DecidableEq, Repr

/-- Pop while the address is the path's reconvergence point or the path is empty (R103). The recursion is over the
stack. -/
def popAt (k : Core) (code : Nat) (live : Mask) (b : Bank) : List StackEntry → IAddr → Mask → Option IAddr → Bool →
    List Nat → Popped
  | [], x, m, r, popped, segs => .ok { b with pc := x, mask := m, rpc := r, ctl := [] } popped segs
  | e :: rest, x, m, r, popped, segs =>
    if some x = r || m = 0 then
      let enter := segOf e.pc ≠ segOf x
      let t := k.xfer code e.pc
      if (enter && (t = .absent || t = .loading)) || (t = .misaligned && e.mask &&& live ≠ 0) then .stuck t e.pc
      else popAt k code live b rest e.pc (e.mask &&& live) e.rpc true (if enter then segOf e.pc :: segs else segs)
    else .ok { b with pc := x, mask := m, rpc := r, ctl := e :: rest } popped segs

/-- R103 for a wave about to fetch at its bank's pc. -/
def Wave.pops (w : Wave) (k : Core) (code : Nat) : Popped :=
  let b := w.bank
  popAt k code w.live b b.ctl b.pc (b.mask &&& w.live) b.rpc false []

/-- A wave whose pops have been made: R103, with the gap restarted (R95) and entered segments kept (R101). -/
def State.settlePath (s : State) (c slot code : Nat) : Except Exc State :=
  match s.wave c slot with
  | none => .ok s
  | some w =>
    match w.pops (s.core c) code with
    | .stuck t x => .error ((t.exc x).getD (.wait .none))
    | .ok b popped segs =>
      let w1 := w.setBank b
      let w2 := if popped then { w1 with producers := [] } else w1
      .ok (segs.foldl (fun s g => s.cancelDrop c code g) (s.setWave c slot w2))

end Sys2Proof.Machine
end

