-- ==== Sys2Proof/Machine/SeqFault.lean ====
section
/-!
DEFINITION. Faults of a sequencer stream: they stop the sequencer and are held for the block's lowest-numbered live wave
(R61, R286, R341), with their windows (R347).
-/

namespace Sys2Proof.Machine

/-- g(n) of the block's wave of a given index, 0 where that wave is not live. -/
def State.blockGrp (s : State) (c b wv n : Nat) : Dword :=
  match s.waveOf c b wv with
  | some (_, w) => w.base.grp n
  | none => 0

/-- The window of a matrix source (R348, R349). -/
def matrixSource (s : State) (c b : Nat) (src g v buf wv role : Nat) : Dword × Dword :=
  if src = 1 then
    let r := match s.waveOf c b wv with | some (_, w) => w.base.reg v | none => VReg.zero
    (windowDesc 7 0 r.val.code r.fmt role v wv false 1 0 false, 0)
  else (windowDesc 7 1 0 0 role (2 * g) wv false (if src = 2 then 2 else 0) (if src = 2 then buf else 0) false,
        s.blockGrp c b wv (2 * g))

/-- The windows of a sequencer instruction, as they stand when its trap is delivered (R347). -/
def matrixWindows (s : State) (c b : Nat) (blk : Block) (op : Op) (f : XF) : List (Dword × Dword) :=
  let wv := f.wv.toNat
  let t := kgetD blk.tiles f.tile.toNat Tile.zero
  let busy := blk.seqr.flights.any fun x => x.tile == f.tile.toNat
  let tile (role : Nat) : Dword × Dword :=
    (windowDesc 6 0 0 t.tag role f.tile.toNat wv false 0 0 false,
     BitVec.ofNat 64 ((if t.emulated then 2 else if busy then 1 else 0) + 16 * t.tag))
  let a (role buf : Nat) := matrixSource s c b f.asrc.toNat f.ga.toNat f.va.toNat buf wv role
  let bb := matrixSource s c b f.bsrc.toNat f.gb.toNat f.vb.toNat f.bufB.toNat wv 0
  match op with
  | .mma => [a 0 f.bufA.toNat, bb, tile 2, (0, 0)]
  | .mmas =>
    [a 0 f.bufA.toNat, bb, tile 2,
     (windowDesc 7 1 0 0 0 (2 * f.gs.toNat) wv false 3 0 false, s.blockGrp c b wv (2 * f.gs.toNat))]
  | .zld => [a 0 f.bufA.toNat, (0, 0), tile 1, (0, 0)]
  | .zst => [a 1 f.bufO.toNat, (0, 0), tile 0, (0, 0)]
  | .zclr => [(0, 0), (0, 0), tile 1, (0, 0)]
  | _ => [(0, 0), (0, 0), (0, 0), (0, 0)]

/-- Stop a block's sequencer on a fault, and hold its trap for the block's lowest-numbered live wave (R61, R286, R341).
A block without a live wave keeps it until one is to take it, or the block retires (R362). -/
def State.seqFault (s : State) (c bslot : Nat) (t : HeldTrap) : State :=
  match s.block c bslot with
  | none => s
  | some b =>
    let b1 := { b with
      seqr := { b.seqr with status := 4, trap := none }
      mflt := if t.code = 20 then mfltWord t.sub b.seqr.pc else b.mflt }
    match s.lowestWave c bslot with
    | some (slot, w) => (s.setBlock c bslot b1).setWave c slot { w with held := w.held ++ [t] }
    | none => s.setBlock c bslot { b1 with seqr := { b1.seqr with trap := some t } }

/-- A trap of the sequencer's current instruction. Its record holds the sequencer's address, but for a misaligned
target, which it holds instead (R37, R345). -/
def seqTrap (b : Block) (code sub fieldNum : Nat) (inst : Slot) (target : Option Dword := none) : HeldTrap :=
  { code, sub, fieldNum, seq := true, info := target.getD (b.seqr.pc.setWidth 64), inst }

/-- Whether the line of the sequencer's instruction has reserved header bits and is entered by it (R36). -/
def seqHeaderBad (s : State) (core : Nat) (b : Block) : Bool :=
  (b.seqr.line != some (lineOf b.seqr.pc)) &&
    match (s.core core).segment b.code (segOf b.seqr.pc) with
    | some g => g.header (offOf b.seqr.pc / 64) / 2 ^ 21 != 0
    | none => false

/-- The fate of an encoding in a sequencer stream (R61, R63, R298), with the line's header (R36). -/
def seqFate (s : State) (core : Nat) (b : Block) (v : View) : Option (Nat × Nat) :=
  let bad := seqHeaderBad s core b
  match v.fate ⟨.sequencer, s.product.gradeB, b.env.feat, Config.choice s.tick⟩ with
  | some (5, fl) => if bad then some (4, 0) else some (5, fl)
  | some r => some r
  | none => if bad then some (4, 0) else none

/-- Note that the sequencer has entered the line of its pc (R36). -/
def State.seqLine (s : State) (core bslot : Nat) : State :=
  s.modBlock core bslot fun b => { b with seqr := { b.seqr with line := some (lineOf b.seqr.pc) } }

/-- An encoding met in a sequencer stream that is no instruction of it. -/
def seqEncoding (v : View) (inst : Slot) (core bslot : Nat) (b : Block) (s : State) : State :=
  match seqFate s core b v with
  | some (cause, fl) => (s.seqFault core bslot (seqTrap b cause 0 fl inst)).seqLine core bslot
  | none => s

end Sys2Proof.Machine
end

