-- ==== Sys2Proof/Machine/Issue.lean ====
section
/-!
DEFINITION. Issuing an instruction of a wave: its fate (R63), guard and active lanes (R41, R75), the stall-count check
(R95, R96), format checks (R83), errors and votes (R176, R181, R362), its effect, and the move to the next instruction
(R38, R103).
-/

namespace Sys2Proof.Machine

/-- What a meaning comes to. -/
inductive Done where
  /-- complete: the wave goes on at the next instruction -/
  | next (s : State)
  /-- complete: the meaning has set the wave's pc -/
  | jumped (s : State)
  /-- not complete: the wave waits, with the effects made so far -/
  | stay (k : WaitKind) (s : State)
  /-- nothing of the effect is made -/
  | fail (e : Exc)
  /-- an exception raised after lanes were lost on the way (R213, R253) -/
  | failIn (e : Exc) (s : State)
deriving DecidableEq, Repr

/-- The meaning of an instruction that has at least one active lane. -/
abbrev Body := Ctx → Wave → State → Done

/-! ### Fixed latencies (R94) -/

/-- The latency of an operation's fixed-latency results; `none` where it is variable (R94). -/
def fixedLatency (v : View) : Option Nat :=
  match v with
  | .alu x =>
    let n := x.op.code
    let variableOp := x.op == .idiv || x.op == .irem || (0x38 ≤ n && n ≤ 0x3F)
    let is32 := x.ty = tI32 || x.ty = tW32 || x.ty = tB32
    if x.gw then (if variableOp then none else some 2)
    else if variableOp then none
    else if x.op == .icmp || x.op == .fcmp then some 4
    else if x.op == .imulh || x.op == .imulw then some 6
    else if n ≤ 0x20 then some (if is32 then 4 else 6)
    else if 0x30 ≤ n && n ≤ 0x43 then some (if x.ty = tF64 then 8 else 5)
    else if 0x44 ≤ n && n ≤ 0x4B then some 6
    else if 0x61 ≤ n && n ≤ 0x69 then some 4
    else if 0x6B ≤ n && n ≤ 0x6D then some 4
    else if 0x206 ≤ n && n ≤ 0x20E then some 4
    else none
  | _ => none

/-- The fixed-latency results an instruction leaves outstanding (R95). -/
def newProducers (v : View) (pc : IAddr) : List Producer :=
  match fixedLatency v with
  | some l => (writeSet v).map fun (f, n) => { addr := pc, file := f, num := n, latency := l, gap := 0 }
  | none => []

/-- Every outstanding result after an instruction with stall count `n` has issued; those with their gap are done. -/
def advanceGap (ps : List Producer) (n : Nat) : List Producer :=
  (ps.map fun p => { p with gap := p.gap + 1 + n }).filter fun p => p.gap < p.latency

/-- The outstanding results an instruction would read or write too early (R95). -/
def tooEarly (ps : List Producer) (regs : List (Nat × Nat)) : List Producer :=
  ps.filter fun p => regs.contains (p.file, p.num)

/-! ### Checks before the effect -/

/-- Whether an instruction checks formats at execution only after its own checks of addresses (R211, R253, R269). -/
def View.checksLater : View → Bool
  | .mem _ _ => true
  | .alu x => x.op == .zwrite
  | _ => false

/-- Whether a source has a format its type does not accept (R83). -/
def formatBad (w : Wave) (v : View) : Bool :=
  v.operands.any fun o =>
    match o.chk with
    | none => false
    | some ty =>
      if 1016 ≤ o.num then false
      else (Operand.regs o).any fun (_, n) => !fmtOk ty (wide ty && n % 2 = 1) (w.bank.reg n).fmt

/-- The registers of the wave's own file whose spilled copies the instruction needs: sources, and destinations of a
partial write (R84). -/
def needsRefill (c : Ctx) (w : Wave) (v : View) : Option Nat :=
  if c.handler then none
  else
    let rs := valueSet v ++ (if c.full then [] else writeSet v)
    (rs.find? fun (f, n) => f = 0 && w.spilled.contains n).map (·.2)

/-- The registers awaiting a deferred arrival token (R264). -/
def pendingTokens (w : Wave) (q : List QPart) : List Nat :=
  let ofPart (p : Part) : List Nat := match p.eff with | .arrive _ _ _ d _ _ _ => if d = 1023 then [] else [d] | _ => []
  w.sb.flatMap (fun e => e.parts.flatMap ofPart) ++ (q.filter fun p => p.uid == w.uid).flatMap fun p => ofPart p.part

/-- Whether an instruction names a register with an outstanding variable-latency result (R94, R264). -/
def scoreboardWait (w : Wave) (q : List QPart) (v : View) : Bool :=
  (pendingTokens w q).any fun d => (readSet v ++ writeSet v).contains (0, d)

/-! ### Uncorrectable errors (R181, R362) and votes (R176 to R178) -/

/-- The code of an instruction's operation, in its first form; `none` for an event. -/
def View.code : View → Option Nat
  | .alu x => some x.op.code
  | .imm op _ | .mem op _ | .branch op _ | .matrix op _ | .system op _ => some op.code
  | .event => none

/-- The lane a shuffle reads for lane `l` (R152). -/
def shuffleFrom (sub n l : Nat) : Nat :=
  let w := 2 ^ (sub / 8 % 8)
  let base := l - l % w
  match sub % 8 with
  | 0 => base + n % w
  | 1 => if n ≤ l - base then l - n else l
  | 2 => if l - base + n < w then l + n else l
  | _ => base + (l % w ^^^ n % w)

/-- A count of the instruction: its immediate, or lane `l` of B. -/
def Ctx.countB (c : Ctx) (w : Wave) (x : VArgs) (l : Nat) : Nat :=
  match x.imm with
  | some i => i.toNat
  | none => (c.lane w x.b l).toNat

/-- The lanes of a source that an instruction reads: those it names through `read_lane`, else its own (R149, R181). -/
def lanesRead (c : Ctx) (w : Wave) (v : View) (o : Operand) : Mask :=
  let from_ (f : Nat → Nat) : Mask := c.lanes.foldl (fun m l => m ||| Mask.one (f l % 32)) 0
  match v with
  | .alu x =>
    if o.field != .a then c.act
    else if x.op == .shfl then from_ fun l => shuffleFrom x.sub (c.countB w x l) l
    else if x.op == .swz then from_ fun l => l - l % 4 + field x.sub (2 * (l % 4)) 2
    else if x.op == .rdlane then from_ fun _ => c.countB w x c.lowest
    else c.act
  | _ => c.act

/-- Whether an instruction consumes a kind of control state (R362): its address, mask and tags always, the stacks where it or
the next fetch uses them, the generator in RNG, RNGF and the instructions that set it, the system registers in SRD and SWR. -/
def consumes (w : Wave) (v : View) (kind : Nat) : Bool :=
  match kind with
  | 0 => true
  | 1 => (match v with | .branch _ _ => true | _ => false) || !w.bank.ctl.isEmpty
  | 2 => match v with
    | .alu x => x.op == .rng || x.op == .rngf
    | .system _ f => 0x100 ≤ f.sysreg.toNat && f.sysreg.toNat < 0x110
    | _ => false
  | _ => match v with | .system _ _ => true | _ => false

/-- The lanes an instruction loses to errors in what it reads, and whether an error halts (R181, R362): code 73 for group-wide
registers and predicates, 74 for control state. -/
def errorEffect (c : Ctx) (w : Wave) (v : View) : Mask × Option Nat :=
  let sources := if c.act = 0 then [] else v.operands.filter fun o => o.role != .dst && o.kind != .tags
  let reads := sources.flatMap Operand.regs ++ guardSet v
  let hit := w.errors.filter fun e =>
    if e.file = 4 then consumes w v e.num else e.level = w.level && reads.contains (e.file, e.num)
  let control := hit.any fun e => e.file = 4
  let scalar := hit.any fun e => e.file = 2 || e.file = 3
  let kills := hit.foldl (fun m e =>
    if e.file = 1 then m ||| c.act
    else if e.file = 0 then
      (if !(w.bank.reg e.num).val.isG then m ||| c.act
       else if (sources.filter fun o => (Operand.regs o).contains (0, e.num)).any fun o => (lanesRead c w v o).getLsbD e.lane
        then m ||| Mask.one e.lane else m)
    else m) (0 : Mask)
  (kills, if control then some 74 else if scalar then some 73 else none)

/-- What is left of an error that stands in a register once the instruction has written it. An expansion copies it to the
lanes that are not written (R81). -/
def RegError.after (e : RegError) (c : Ctx) (w : Wave) (v : View) : List RegError :=
  if e.level ≠ w.level || !(writeSet v).contains (e.file, e.num) then [e]
  else if e.file = 0 then
    (if c.full then []
     else if (w.bank.reg e.num).val.isG then (if c.act.getLsbD e.lane then [] else [e])
     else (~~~c.act).lanes.map fun l => { e with lane := l })
  else if e.file = 1 && !c.full then [e]
  else []

/-- The physical lane of a copy of a logical lane in checked execution (R175, R176). -/
def physicalLane (copy l : Nat) : Nat := if copy = 0 then l else 32 + (l + copy) % 32

/-- Whether copies 0 and 1 of an instruction differ in some active lane, so that it is replayed (R176). -/
def replayed (act : Mask) (ups : List (Nat × Nat)) : Bool := ups.any fun u => u.1 < 2 && u.2 < 32 && act.getLsbD u.2

/-- What the votes of one instruction of a checked wave come to (R176): the lanes for which no two copies agree, and the
physical lanes outvoted. An upset names a copy and a logical lane; copy 2 exists only in a replay. DESIGN CHOICE:
two wrong copies of one lane are taken to differ from each other (entry 53 of the log). -/
def voteEffect (act : Mask) (ups : List (Nat × Nat)) : Mask × List Nat :=
  if !replayed act ups then (0, [])
  else act.lanes.foldl (fun (m, out) l =>
    let bad := (List.range 3).filter fun k => ups.contains (k, l)
    if bad.length = 0 then (m, out)
    else if bad.length = 1 then (m, out ++ bad.map fun k => physicalLane k l)
    else (m ||| Mask.one l, out ++ (List.range 3).map fun k => physicalLane k l)) ((0 : Mask), [])

/-- Whether an instruction is of the memory class and no capability instruction (R45, R175). -/
def View.memoryClass (v : View) : Bool :=
  match View.code v with
  | some n => 0x200 ≤ n && n < 0x300 && !(0x206 ≤ n && n ≤ 0x20E)
  | none => false

/-! ### Chunks (R84, R85) -/

/-- The chunks of bank `b` that the waves of a core hold. -/
def Core.bankUse (k : Core) (b : Nat) : Nat :=
  (kvals k.waves).foldl (fun n w => n + (w.chunks.filter fun r => r % 8 = b).length) 0

/-- The victim of a spill in a bank (R84): of the other waves that hold a chunk there, the one longest without issuing,
the higher slot among equals. -/
def Core.victim (k : Core) (me b : Nat) : Option Nat :=
  (k.waves.foldl (fun (best : Option (Nat × Wave)) e =>
    if e.1 = me || !(e.2.chunks.any fun r => r % 8 = b) then best
    else match best with
      | none => some e
      | some (bs, bw) => if e.2.lastIssue < bw.lastIssue || (e.2.lastIssue = bw.lastIssue && bs < e.1) then some e
        else best) none).map (·.1)

/-- The address of a wave slot's backing area within the part (R85); `none` where an access to it through the backing
capability fails a check of R195, the permissions LOAD and STORE and the core's own core group among them. The position is
that of the core in its partition. -/
def backingAddr (s : State) (b : Block) (pos slot : Nat) : Option Nat :=
  let bits := b.env.backing.bits
  let base := capBase bits
  let group := groupOf (b.env.partition.getD pos 0)
  let off : Int := base + ((pos * 32 + slot) * 98304 : Nat)
  let local_ := (off % 2 ^ 48).toNat
  let ok := b.env.backing.tag && field bits.toNat 64 6 = 0 && field bits.toNat 70 2 = 3 && field bits.toNat 56 8 = b.env.colour
    && 0 ≤ base && off + 98304 ≤ capTop bits
    && (off / 2 ^ 48).toNat = s.devid && local_ < 0x6000000000
    && ((rangeFrom (local_ / 65536) 3).all fun n =>
      65536 * n ≥ local_ + 98304 ||
      (let g := s.granuleNo n
       g.state = 1 && g.owner = b.env.colour && g.cls = field bits.toNat 82 2 && !(g.home = 2 && g.pincg ≠ group)
         && !g.revoked))
  if ok then some local_ else none

/-- The position of a core among its partition's cores, ascending (R85). -/
def corePos (b : Block) (c : Nat) : Nat := (b.env.partition.filter (· < c)).length

/-- The control stack entries 65 up of a wave, in order of depth (R104). -/
def Wave.deepStack (w : Wave) : List StackEntry := w.base.ctl.reverse.drop 64

/-- An address at which some instruction of a code object stands on a core; `n` draws it. -/
def Core.someAddr (k : Core) (code n : Nat) : IAddr :=
  match (k.segs.filter fun g => g.code == code && !g.loading)[n % (max 1 (k.segs.filter fun g => g.code == code && !g.loading).length)]? with
  | none => 0
  | some g =>
    let off := g.nextOff (n / 256 % (g.size * 8192))
    mkAddr g.num (if off < g.size * 8192 then off else g.nextOff 0)

/-- Whether an entry of the backing area still holds what was spilled there (R85). -/
def State.deepKept (s : State) (a i : Nat) (e : StackEntry) : Bool := s.bytesAt (a + 82944 + 16 * i) 16 == stackBytes e

/-- The control stack entries 65 up of a wave moved between its backing area and the core, after an instruction (R85, R104):
those it has pushed or changed are written, and the area must still hold those it has used. One that a write has replaced
there leaves the path undefined, and one in a poisoned unit halts (R362). -/
def State.settleStack (s : State) (c slot : Nat) : State :=
  match s.wave c slot with
  | none => s
  | some w =>
    let want := w.deepStack
    if want = w.deep then s
    else
      match s.block c w.bslot with
      | none => s
      | some b =>
        match backingAddr s b (corePos b c) slot with
        | none => (s.setWave c slot { w with deep := want }).haltWave c slot 68 0
        | some a =>
          let used := (List.range w.deep.length).filter fun i => want[i]? != w.deep[i]?
          if used.any fun i => s.poisoned (a + 82944 + 16 * i) 16 then s.haltWave c slot 74 0
          else
            let lost := used.any fun i => match w.deep[i]? with | some e => !s.deepKept a i e | none => false
            let s1 := (want.zip (List.range want.length)).foldl (fun s (e, i) =>
              if w.deep[i]? == some e then s else s.store (a + 82944 + 16 * i) (stackBytes e)) s
            let base := if lost then
                { w.base with mask := s.freeMask 1025,
                              pc := (s.core c).someAddr b.code (Config.freeDword s.tick 1025).toNat }
              else w.base
            s1.setWave c slot { w with deep := want, base }

/-- Spill a victim's registers of one bank to its backing area (R84, R85). -/
def State.spill (s : State) (c vs bank : Nat) : State :=
  match s.wave c vs with
  | none => s
  | some w =>
    match s.block c w.bslot with
    | none => s
    | some b =>
      let regs := w.chunks.filter fun r => r % 8 = bank
      match backingAddr s b (corePos b c) vs with
      | none => s.haltWave c vs 68 0
      | some a =>
        let s1 := regs.foldl (fun s r =>
          let bs := (w.base.reg r).val.lanes.toList.flatMap fun x => toBytes 4 x.toNat
          let s := s.store (a + 128 * r) bs
          if r % 4 = 0 then s.store (a + 81920 + r) (toBytes 4 (w.base.tagsOf (r / 4)).toNat) else s) s
        s1.setWave c vs { w with spilled := regs.foldl nins w.spilled, spills := w.spills + 1 }

/-- Make room in a bank of a core for what the wave in slot `me` has taken: one victim after another (R84). The number bounds
the victims. -/
def State.makeRoom (s : State) (c me b : Nat) : Nat → State
  | 0 => s
  | n + 1 =>
    if (s.core c).bankUse b ≤ 1024 then s
    else match (s.core c).victim me b with
      | some v => (s.spill c v b).makeRoom c me b n
      | none => s

/-- Make room on a core for what the wave in slot `me` has taken: chunks in every bank (R84), and control stack entries beyond
64 (R104). -/
def State.settleChunks (s : State) (c me : Nat) : State :=
  ((List.range 8).foldl (fun s b => s.makeRoom c me b 32) s).settleStack c me

/-! ### Refills (R84, R85, R469) -/

/-- A spilled register refilled from its backing area. A backing area that has been written in between leaves the value
undefined, and as such without a tag (R9). -/
def State.refill (s : State) (core slot reg : Nat) : State :=
  match s.wave core slot with
  | none => s
  | some w =>
    if !w.spilled.contains reg then s
    else
      match s.block core w.bslot with
      | none => s
      | some b =>
        match backingAddr s b (corePos b core) slot with
        | none => s.haltWave core slot 68 0
        | some a =>
          let read := Lanes.of fun l => BitVec.ofNat 32 (s.numAt (a + 128 * reg + 4 * l) 4)
          let same := read = (w.base.reg reg).val.lanes
          let vals := if same then read else s.freeLanes reg
          let quad := reg / 4
          let kept := if same then w.base.tagsOf quad else 0
          let back := BitVec.ofNat 32 (s.numAt (a + 81920 + 4 * quad) 4)
          let b1 := { w.base with v := kset w.base.v reg ⟨.g vals, (w.base.reg reg).fmt⟩ }
          let b2 := if !same then b1.setTags quad 0 else if reg % 4 = 0 then b1.setTags quad (kept &&& back) else b1
          let b3 := if s.sweeper.running then b2.sweepQuad s.touchesRevoked Mask.all quad else b2
          let s1 := s.setWave core slot { w with base := b3, spilled := ndel w.spilled reg }
          let bad := (List.range 32).foldl (fun (m : Mask) l =>
            if s.poisoned (a + 128 * reg + 4 * l) 4 then m ||| Mask.one l else m) 0
          let s2 := if bad &&& w.live = 0 then s1 else s1.killLanes core slot (bad &&& w.live) 0
          if reg % 4 = 0 && s.poisoned (a + 81920 + reg) 4 then s2.haltWave core slot 74 0 else s2.settleChunks core slot

/-- A register of a wave about to be written after its instruction's issue, by a token or a full/empty word: a spilled copy is
refilled, or dropped where the write replaces it whole (R84). -/
def State.claimReg (s : State) (core slot reg : Nat) (act : Mask) : State :=
  match s.wave core slot with
  | none => s
  | some w =>
    if !w.spilled.contains reg then s
    else if act &&& w.live = w.live then s.setWave core slot { w with spilled := ndel w.spilled reg }
    else s.refill core slot reg

/-- Spilled registers that a write has replaced whole have no copy left to refill (R84): those a full write named. -/
def Wave.dropSpilled (w : Wave) (c : Ctx) (v : View) : Wave :=
  if c.handler || w.spilled.isEmpty || !c.full then w
  else { w with spilled := (writeSet v).foldl (fun m r => if r.1 = 0 then ndel m r.2 else m) w.spilled }

/-! ### The move to the next instruction -/

/-- The stall count of an instruction. -/
def stallOf (v : View) : Nat :=
  match v.com with
  | some c => c.stall.toNat
  | none => 0

/-- The registers an instruction has written, added to those written since the last MFENCE (R291). -/
def Wave.noteWrites (w : Wave) (v : View) : List (Nat × Nat × Nat) :=
  (writeSet v).foldl (fun m r =>
    if (r.1 = 0 || r.1 = 2) && !m.contains (r.1, r.2, 1) then (r.1, r.2, 1) :: m else m) w.unfenced

/-- The wave after an instruction has completed: nothing waits, the instruction's line is its latest (R36), and the
gaps have grown by its stall count (R95). A return from a handler keeps what the resumed instruction has done (R341). -/
def Wave.issued (w : Wave) (c : Ctx) (v : View) (produces : Bool) (before : Nat) : Wave :=
  let stays := w.level = before
  { w with
    waiting := .none
    early := []
    fe := if stays then none else w.fe
    barWait := if stays then none else w.barWait
    gbarWait := if stays then none else w.gbarWait
    passed := 0
    urgent := false
    lastIssue := c.tick
    unfenced := if produces then w.noteWrites v else w.unfenced
    lines := lmod w.lines before fun _ => some (lineOf c.pc)
    producers := advanceGap ((if produces then newProducers v c.pc else []) ++ w.producers) (stallOf v) }

/-- Note that the stream has entered the line of its pc (R36). -/
def State.enterLine (s : State) (core slot : Nat) : State :=
  s.modWave core slot fun w => { w with lines := lmod w.lines w.level fun _ => some (lineOf w.bank.pc) }

/-- Complete an instruction (R38, R103): the pc moves unless the meaning has set it, the pops are made, and a transfer
that does not proceed leaves the whole instruction without effect. -/
def complete (c : Ctx) (v : View) (code : Nat) (jumped produces : Bool) (s0 s1 : State) : State :=
  match s1.wave c.core c.slot with
  | none => s1
  | some w1 =>
    let before := match s0.wave c.core c.slot with | some w => w.level | none => 0
    let w1 := if produces && s1.sweeper.running then
        w1.setBank (w1.bank.sweepWrites s1.touchesRevoked c.act (writeSet v)) else w1
    let w2 := if jumped then w1 else w1.setBank { w1.bank with pc := (s1.core c.core).nextValid code c.pc }
    let s2 := s1.setWave c.core c.slot (w2.issued c v produces before)
    if w2.level ≠ before then s2
    else match s2.settlePath c.core c.slot code with
    | .ok s3 => s3.settleChunks c.core c.slot
    | .error e => ((s0.keepWanted c.core code e).enterLine c.core c.slot).raise c v (0, 0) e

/-- The context of an instruction of a wave. -/
def ctxOf (s : State) (core slot : Nat) (w : Wave) (v : View) (inst : Slot) : Ctx :=
  { core, slot, bslot := w.bslot, act := match v.com with | some c => guardLanes w v.guardOnQ c s.tick | none => 0,
    live := w.live, pc := w.bank.pc, inst, handler := w.level != 0, tick := s.tick }

/-- The free result of a register written twice too early (R95): either result may stand, and as an undefined one it has no
tag (R9). -/
def settleTwice (c : Ctx) (early : List (Nat × Nat)) (v : View) (w0 w1 : Wave) : Wave :=
  (writeSet v).foldl (fun w r =>
    if early.contains r && Config.freeBit c.tick (65536 + r.1 * 1024 + r.2) then
      let b0 := w0.bank
      w.setBank (match r.1 with
        | 0 => { w.bank with v := kset w.bank.v r.2 (b0.reg r.2) }.setTags (r.2 / 4) 0
        | 1 => { w.bank with p := kput w.bank.p r.2 (b0.pred r.2) 0 }
        | 2 => w.bank.writeGrp r.2 (b0.grp r.2)
        | _ => w.bank.writeQ r.2 (b0.qp r.2))
    else w) w1

/-- The header condition of R36 on the instruction's line, the first time the stream enters it. -/
def headerBad (s : State) (core : Nat) (code : Nat) (w : Wave) : Bool :=
  (w.lines.getD w.level none != some (lineOf w.bank.pc)) &&
    match (s.core core).segment code (segOf w.bank.pc) with
    | some g => g.header (offOf w.bank.pc / 64) / 2 ^ 21 != 0
    | none => false

/-- The fate of an instruction of a wave (R63), with the line's header (R36) counted as a reserved field. -/
def waveFate (s : State) (core : Nat) (b : Block) (w : Wave) (v : View) : Option (Nat × Nat) :=
  let f := v.fate ⟨if w.level = 0 then .wave else .handler, s.product.gradeB, b.env.feat, Config.choice s.tick⟩
  let bad := headerBad s core b.code w
  match f with
  | some (5, fl) => if bad then some (4, 0) else some (5, fl)
  | some r => some r
  | none => if bad then some (4, 0) else none

/-- The windows of the tile an instruction names, for the operand windows of code 8 (R347, R349). -/
def tileWindow (b : Block) (w : Wave) (v : View) : Dword × Dword :=
  match v with
  | .alu x =>
    if x.op == .zread || x.op == .zwrite then
      let z := x.sub % 128
      let t := kgetD b.tiles z Tile.zero
      let busy := b.seqr.flights.any fun f => f.tile == z
      (windowDesc 6 0 0 t.tag (if x.op == .zread then 0 else 1) z w.wblk false 0 0 false,
       BitVec.ofNat 64 ((if t.emulated then 2 else if busy then 1 else 0) + 16 * t.tag))
    else (0, 0)
  | _ => (0, 0)

/-- Whether a wait belongs to a waiting instruction, which keeps its wave from being ready (R406). -/
def WaitKind.holds : WaitKind → Bool
  | .fullEmpty | .barrier | .implicitBarrier | .gridBarrier | .numbered | .fence | .mfence | .room | .command => true
  | _ => false

/-- The rest of an issue once the lanes lost to errors and votes are gone: the stall-count check, the format check and
the effect. Where several outstanding results break the gap, the trap names the one produced last (entry 67 of the log). -/
def issueActive (v : View) (body : Body) (always : Bool) (c : Ctx) (b : Block) (w : Wave) (s : State) : State :=
  let regs := if c.act = 0 then guardSet v else guardSet v ++ readSet v ++ writeSet v
  let early := tooEarly w.producers regs
  let stop (s : State) (e : Exc) : State := (s.enterLine c.core c.slot).raise c v (tileWindow b w v) e
  match if b.env.stallCheck then early.head? else none with
  | some p => stop s (.trap 23 0 (BitVec.ofNat 64 (p.addr.toNat + p.num * 2 ^ 32 + p.file * 2 ^ 42)))
  | none =>
    if c.act = 0 && !always then complete c v b.code false false s s
    else if c.act ≠ 0 && !View.checksLater v && formatBad w v then stop s (.emu 7 0)
    else
      let names := early.map fun p => (p.file, p.num)
      let w1 := { w with early := names, errors := w.errors.flatMap fun e => e.after c w v }
      let s1 := if names.isEmpty && w.errors.isEmpty then s else s.setWave c.core c.slot w1
      match body c w1 s1 with
      | .next s2 =>
        let s2 := s2.modWave c.core c.slot fun x => (settleTwice c names v w x).dropSpilled c v
        complete c v b.code false true s s2
      | .jumped s2 => complete c v b.code true true s s2
      | .stay k s2 =>
        (s2.modWave c.core c.slot fun x =>
          { x with waiting := k, early := [], errors := w.errors, passed := if k.holds then 0 else x.passed,
                   urgent := !k.holds && x.urgent }).enterLine c.core c.slot
      | .fail e => stop s e
      | .failIn e s2 => stop s2 e

/-! ### Wrong results of the datapath (R175 to R179) -/

/-- The items of an instruction that are compared lane by lane, and those the scalar unit computes (R175, R177): a vector
result by the shape it takes, a predicate by lane, addresses and store data by lane, the decision of a branch by lane. -/
def comparedItems (v : View) (body : Body) (c : Ctx) (w : Wave) (s : State) : Bool × Bool :=
  match View.code v with
  | none => (false, false)
  | some n =>
    if c.act = 0 || n = 0x30E then (false, false)
    else if 0x300 ≤ n then (n ≤ 0x305, !(n ≤ 0x305))
    else
      let after := match body c w s with
        | .next s1 => (s1.wave c.core c.slot).getD w
        | _ => w
      let ws := writeSet v
      let lanes := View.memoryClass v || ws.any fun r => r.1 = 1 || (r.1 = 0 && (after.bank.reg r.2).val.isG)
      (lanes, ws.any fun r => 2 ≤ r.1 || (r.1 = 0 && !(after.bank.reg r.2).val.isG))

/-- A bank with free values in the lanes of `wrong` of the general registers and the predicates named. -/
def Bank.wrongLanes (b : Bank) (tick : Nat) (wrong : Mask) (regs : List (Nat × Nat)) (all : Bool) : Bank :=
  regs.foldl (fun b r =>
    if r.1 = 0 && (all || (b.reg r.2).val.isG) && r.2 < 1016 then
      { b with v := kset b.v r.2 ⟨.g (Lanes.merge wrong (Lanes.of fun l => Config.freeWord tick (2048 + r.2) l)
                                 (b.reg r.2).val.lanes), (b.reg r.2).fmt⟩ }
    else if r.1 = 1 then
      b.writePred wrong r.2 (Mask.of fun l => Config.freeBit tick (131072 + 32 * r.2 + l))
    else b) b

/-- The effect of a paired wave's instruction whose lanes in `wrong` the datapath computes wrongly (R179): its vector results
have any value there; a memory instruction computes its addresses and store data from any value. -/
def wrongBody (v : View) (body : Body) (wrong : Mask) : Body := fun c w s =>
  if View.memoryClass v then
    let srcs := (v.operands.filter fun o => o.role == .src && o.kind == .vec 1).flatMap Operand.regs
    let kept := srcs.filter fun r => !(writeSet v).contains r
    let back (x : Wave) : Wave :=
      x.setBank { x.bank with v := kept.foldl (fun m r => kset m r.2 (w.bank.reg r.2)) x.bank.v }
    match body c (w.setBank (w.bank.wrongLanes s.tick wrong srcs true)) s with
    | .next s1 => .next (s1.modWave c.core c.slot back)
    | .stay k s1 => .stay k (s1.modWave c.core c.slot back)
    | .failIn e s1 => .failIn e (s1.modWave c.core c.slot back)
    | d => d
  else
    match body c w s with
    | .next s1 =>
      .next (s1.modWave c.core c.slot fun x => x.setBank (x.bank.wrongLanes s.tick wrong (writeSet v) false))
    | d => d

/-- Issue under the marks the datapath has: votes and kills in checked execution, wrong values in paired execution, and the
vote of the scalar unit in both (R175 to R179). The marks an instruction meets are gone after it. -/
def issueVoted (v : View) (inst : Slot) (body : Body) (always : Bool) (core slot : Nat) (b : Block) (w : Wave) (s : State) :
    State :=
  let k := s.core core
  let c := ctxOf s core slot w v inst
  if k.upsets.isEmpty then issueActive v body always c b w s
  else
    let (lanes, scalar) := comparedItems v body c w s
    let ups := k.upsets.filter fun u => u.2 < 32
    let again := b.env.checked && lanes && replayed c.act ups
    let met (u : Nat × Nat) : Bool := u.2 < 32 && lanes && c.act.getLsbD u.2 && (u.1 < (if b.env.checked then 2 else 1) || again)
    let bad := if scalar then (k.upsets.filter fun u => 32 ≤ u.2).map (·.1) else []
    let mismatch := bad.contains 0 || bad.contains 1
    let s0 := s.setCore core { k with upsets := k.upsets.filter fun u => !(met u || (mismatch && 32 ≤ u.2)) }
    if mismatch && ((bad.contains 0 && bad.contains 1) || bad.contains 2) then s0.haltWave core slot 71 0
    else
      let (lost, outvoted) := if b.env.checked && lanes then voteEffect c.act ups else (0, [])
      let out := outvoted ++ (if mismatch then [if bad.contains 0 then 64 else 65] else [])
      let s1 := if out.isEmpty then s0 else
        (s0.setCore core { s0.core core with votes := k.votes ++ out.map fun p => (p, s.now (dieOf core)) }).settleVotes core
      let s2 := if lost &&& c.live = 0 then s1 else s1.killLanes core slot (lost &&& c.live) 3
      let w2 := (s2.wave core slot).getD w
      let wrong := if b.env.checked || !lanes then 0
        else Mask.of fun l => c.act.getLsbD l && ups.contains (0, l)
      issueActive v (if wrong = 0 then body else wrongBody v body wrong) always (ctxOf s2 core slot w2 v inst) b w2 s2

/-- The wave as its guard is read: with checking off, a guard predicate not yet due is undefined (R95). -/
def Wave.guardEarly (w : Wave) (b : Block) (v : View) : Wave :=
  if b.env.stallCheck || w.producers.isEmpty then w
  else { w with early := (tooEarly w.producers (guardSet v)).map fun p => (p.file, p.num) }

/-- Issue an instruction in a wave's slot. `always` marks the instructions that act whatever their guard (R111). -/
def issueWave (v : View) (inst : Slot) (body : Body) (always : Bool) (core slot : Nat) (b : Block) (w0 : Wave)
    (s : State) : State :=
  let w := w0.guardEarly b v
  let c := ctxOf s core slot w v inst
  let s := if b.seqr.status = 1 then s.modBlock core w.bslot fun b => { b with seqr := { b.seqr with status := 2 } }
    else s
  match waveFate s core b w v with
  | some (cause, fl) => (s.enterLine core slot).raise c v (tileWindow b w v) (.emu cause fl)
  | none =>
    if scoreboardWait w (s.core core).queue v then s.raise c v (0, 0) (.wait .scoreboard)
    else match needsRefill c w v with
      | some r => s.raise c v (0, 0) (.wait (.refill r))
      | none =>
        let (kills, stop) := errorEffect c w v
        match stop with
        | some code => s.haltWave core slot code 0
        | none =>
          if kills &&& c.live = 0 then issueVoted v inst body always core slot b w s
          else
            let s1 := s.killLanes core slot (kills &&& c.live) 0
            let w1 := (s1.wave core slot).getD w
            issueVoted v inst body always core slot b (w1.guardEarly b v) s1

/-- Execute an instruction whose stream is a wave's or a handler's, in the stream whose turn it is. In a sequencer stream
it is in the wrong stream (R61). `always` marks the instructions that act whatever their guard (R111). -/
def issue (v : View) (inst : Slot) (body : Body) (always : Bool) (s : State) : Host.Outcome State Fault Refusal :=
  match s.turn with
  | .wave core slot =>
    match s.wave core slot with
    | none => .fault .emptySlot
    | some w =>
      match s.block core w.bslot with
      | none => .fault .emptySlot
      | some b => .next (issueWave v inst body always core slot b w s)
  | .seqr core bslot =>
    match s.block core bslot with
    | none => .fault .emptySlot
    | some b => .next (seqEncoding v inst core bslot b s)
  | _ => .refused .noStream

/-- A meaning that changes nothing but its own wave. -/
abbrev WaveBody := Ctx → Wave → Except Exc Wave

/-- A meaning of a wave alone, as a meaning of the part. -/
def onWave (f : WaveBody) : Body := fun c w s =>
  match f c w with
  | .ok w1 => .next (s.setWave c.core c.slot w1)
  | .error e => .fail e

/-- Execute an instruction that changes nothing but its own wave. -/
def issueLocal (v : View) (inst : Slot) (f : WaveBody) (s : State) : Host.Outcome State Fault Refusal :=
  issue v inst (onWave f) false s

end Sys2Proof.Machine
end

