-- ==== Sys2Proof/Machine/Control.lean ====
section
/-!
DEFINITION. The control instructions (R106 to R114), the segment instructions (R101), and MOV, SEL and NEAR
(R88, R91 to R93).
-/

namespace Sys2Proof.Machine

/-- The code object of the block a context stands in. -/
def Ctx.code (c : Ctx) (s : State) : Nat := match s.block c.core c.bslot with | some b => b.code | none => 0

/-- The entries a control stack holds: 1,024 in wave mode, 16 in a handler (R104, R343). -/
def Ctx.stackLimit (c : Ctx) : Nat := if c.handler then 16 else 1024

/-- The wave at another address, the gap restarted (R95, R106). -/
def Wave.goTo (w : Wave) (x : IAddr) : Wave := { w.setBank { w.bank with pc := x } with producers := [] }

/-- A push onto the control stack (R103). -/
def Bank.push (b : Bank) (k : EntryKind) (pc : IAddr) (m : Mask) (r : Option IAddr) : Bank :=
  { b with ctl := ⟨k, pc, m, r⟩ :: b.ctl }

/-- `transfer(x)` of R106: fenced where the target lies in another segment (R100). `fenced` marks JSEG, which is a fenced
transfer whatever its target. -/
def transfer (c : Ctx) (s : State) (w : Wave) (x : IAddr) (fenced : Bool := false) : Done :=
  let code := c.code s
  match ((s.core c.core).xfer code x).exc x with
  | some (.wait k) => .stay k (s.cancelDrop c.core code (segOf x))
  | some e => .fail e
  | none =>
    let s1 := s.setWave c.core c.slot (w.goTo x)
    .jumped (if fenced || segOf x ≠ segOf c.pc then s1.cancelDrop c.core code (segOf x) else s1)

/-- The trap of a control stack without room (R104). -/
def stackOverflow : Done := .fail (.trap 24 1 0)

/-- BRA (R107). -/
def braBody (f : BF) : Body := fun c w s =>
  let k := s.core c.core
  let code := c.code s
  let b := w.bank
  let stay := w.path &&& ~~~c.act
  match k.relative code c.pc f.target.toInt with
  | .error v => .fail (.trap 21 0 v)
  | .ok t =>
    if stay = 0 then .jumped (s.setWave c.core c.slot (w.goTo t))
    else if f.reconv = 0 then
      if c.stackLimit < b.ctl.length + 1 then stackOverflow
      else .next (s.setWave c.core c.slot (w.setBank { b.push .path t c.act b.rpc with mask := stay }))
    else
      match k.relative code c.pc f.reconv.toInt with
      | .error v => .fail (.trap 21 0 v)
      | .ok j =>
        if c.stackLimit < b.ctl.length + 2 then stackOverflow
        else
          let b1 := (b.push .join j w.path b.rpc).push .path t c.act (some j)
          .next (s.setWave c.core c.slot (w.setBank { b1 with mask := stay, rpc := some j }))

/-- The active lanes grouped by target, ascending (R105, R108). -/
def targetGroups (c : Ctx) (t : Nat → IAddr) : List (IAddr × Mask) :=
  (c.lanes.foldl (fun (m : KMap Mask) l => kset m (t l).toNat (kgetD m (t l).toNat 0 ||| Mask.one l)) []).map
    fun (x, m) => (BitVec.ofNat 32 x, m)

/-- BRX and CALLX (R108). -/
def brxBody (x : VArgs) (call : Bool) : Body := fun c w s =>
  let b := w.bank
  let t := fun l => c.lane w x.a l
  match c.lanes.find? fun l => (slotAt (offOf (t l) % 64)).isNone with
  | some l => .fail (.trap 21 0 ((t l).setWidth 64))
  | none =>
    match targetGroups c t with
    | [] => .next s
    | (t1, m1) :: rest =>
      let stay := w.path &&& ~~~c.act
      let rp := if call then none else b.rpc
      let b1 := if call then b.push .call ((s.core c.core).nextValid (c.code s) c.pc) w.path b.rpc else b
      let b2 := rest.reverse.foldl (fun b (t, m) => b.push .path t m rp) b1
      let split := stay ≠ 0 && !call
      let b3 := if split then b2.push .path t1 m1 rp else b2
      if c.stackLimit < b3.ctl.length then stackOverflow
      else if split then .next (s.setWave c.core c.slot (w.setBank { b3 with mask := stay }))
      else transfer c s (w.setBank { b3 with mask := m1, rpc := rp }) t1

/-- CALL (R109). -/
def callBody (f : BF) : Body := fun c w s =>
  let b := w.bank
  match (s.core c.core).relative (c.code s) c.pc f.target.toInt with
  | .error v => .fail (.trap 21 0 v)
  | .ok t =>
    if c.stackLimit < b.ctl.length + 1 then stackOverflow
    else
      let b1 := b.push .call ((s.core c.core).nextValid (c.code s) c.pc) w.path b.rpc
      .jumped (s.setWave c.core c.slot ((w.setBank { b1 with mask := c.act, rpc := none }).goTo t))

/-- The lanes of `act` leave every entry of a stack. -/
def maskEntries (act : Mask) (l : List StackEntry) : List StackEntry := l.map fun e => { e with mask := e.mask &&& ~~~act }

/-- The end of the lanes of `act` (R109, EXIT). -/
def Wave.exitLanes (w : Wave) (act : Mask) : Wave :=
  let b := w.bank
  let w1 := w.setBank { b with ctl := maskEntries act b.ctl, mask := w.path &&& ~~~act }
  { w1 with exited := w1.exited ||| act }

/-- RET (R109): the entries above the nearest call lose the lanes; without a call the lanes end. -/
def retBody : Body := fun c w s =>
  let b := w.bank
  if b.ctl.any fun e => e.kind == .call then
    let above := b.ctl.takeWhile fun e => e.kind != .call
    let rest := b.ctl.dropWhile fun e => e.kind != .call
    .next (s.setWave c.core c.slot
      (w.setBank { b with ctl := maskEntries c.act above ++ rest, mask := w.path &&& ~~~c.act }))
  else .next (s.setWave c.core c.slot (w.exitLanes c.act))

/-- EXIT (R109). -/
def exitBody : Body := fun c w s => .next (s.setWave c.core c.slot (w.exitLanes c.act))

/-- RECON (R110). -/
def reconBody (f : BF) : Body := fun c w s =>
  let b := w.bank
  match (s.core c.core).relative (c.code s) c.pc f.target.toInt with
  | .error v => .fail (.trap 21 0 v)
  | .ok j =>
    if c.stackLimit < b.ctl.length + 1 then stackOverflow
    else .next (s.setWave c.core c.slot (w.setBank { b.push .join j w.path b.rpc with rpc := some j }))

/-- LOOP (R113). -/
def loopBody (f : BF) : Body := fun c w s =>
  let k := s.core c.core
  let code := c.code s
  let b := w.bank
  match k.relative code c.pc f.target.toInt with
  | .error v => .fail (.trap 21 0 v)
  | .ok e =>
    let n := c.readG w (f.sub.toNat % 64)
    if n = 0 then .jumped (s.setWave c.core c.slot (w.goTo (k.nextValid code e)))
    else if b.loops.length = 8 then .fail (.trap 24 2 0)
    else
      let entry : LoopEntry := { count := n, start := k.nextValid code c.pc, stop := e, cdepth := b.ctl.length }
      .next (s.setWave c.core c.slot (w.setBank { b with loops := entry :: b.loops }))

/-- `transfer(x)` of ENDL and BREAK: fenced where the loop's entry lies in another segment (R100, R106, R114). -/
def loopTransfer (c : Ctx) (s : State) (w : Wave) (x : IAddr) : Done :=
  if segOf x = segOf c.pc then .jumped (s.setWave c.core c.slot (w.goTo x)) else transfer c s w x

/-- ENDL (R113). -/
def endlBody : Body := fun c w s =>
  let b := w.bank
  match b.loops with
  | [] => .fail (.trap 24 3 0)
  | top :: rest =>
    if top.cdepth ≠ b.ctl.length then .fail (.trap 24 4 0)
    else if top.count - 1 ≠ 0 then
      let b1 := { b with loops := { top with count := top.count - 1 } :: rest }
      loopTransfer c s (w.setBank b1) top.start
    else .next (s.setWave c.core c.slot (w.setBank { b with loops := rest }))

/-- BREAK (R113). The next instruction after the loop's ENDL is known once that segment is resident. -/
def breakBody : Body := fun c w s =>
  let b := w.bank
  match b.loops with
  | [] => .fail (.trap 24 3 0)
  | top :: rest =>
    if top.cdepth ≠ b.ctl.length then .fail (.trap 24 4 0)
    else
      let w1 := w.setBank { b with loops := rest }
      match (s.core c.core).segment (c.code s) (segOf top.stop) with
      | some g =>
        if g.loading then transfer c s w1 top.stop else loopTransfer c s w1 ((s.core c.core).nextValid (c.code s) top.stop)
      | none => transfer c s w1 top.stop

/-- YIELD (R111): the gap restarts, whatever the guard; the pass count returns to 0 (R406). -/
def yieldBody : Body := fun c w s =>
  .next (s.setWave c.core c.slot { w with producers := [], passed := 0, urgent := false })

/-- NOP (R111). -/
def nopBody : Body := fun _ _ s => .next s

/-! ### Segments (R101) -/

/-- JSEG: a fenced transfer to IMM32. -/
def jsegBody (f : IF) : Body := fun c w s => transfer c s w f.imm true

/-- The lowest-numbered free slots a segment of `n` units takes, if there are enough (R101). -/
def takeSlots (k : Core) (n : Nat) : Option (List Nat) :=
  let free := k.freeSlots
  if free.length < n then none else some (free.take n)

/-- SEGLD: the status it writes and the core after it (R101). -/
def segldCore (s : State) (c : Ctx) (w : Wave) (num : Nat) : Nat × Core :=
  let k := s.core c.core
  let code := c.code s
  match k.segment code num with
  | some g =>
    (if g.loading then 2 else 1, k.modSegment code num fun g => { g with dropPending := false })
  | none =>
    let (size, _) := s.segEntry code num
    if size = 0 then (4, k)
    else match takeSlots k size with
      | none => (3, k)
      | some slots =>
        let g : Segment := { code, num, size, slots, loading := true, dropPending := false, bytes := [],
                             after := (w.uid, w.nextSerial), changed := false }
        (0, { k with segs := k.segs ++ [g] })

def segldBody (f : IF) : Body := fun c w s =>
  let (st, k) := segldCore s c w (f.imm.toNat % 256)
  .next ((s.setCore c.core k).setWave c.core c.slot (c.writeG w f.d.toNat (BitVec.ofNat 64 st)))

/-- Whether a segment holds a handler entry of a block resident on the core, which no SEGDROP drops (R342). -/
def handlerSegment (k : Core) (code num : Nat) : Bool :=
  (kvals k.blocks).any fun b => b.code == code && !b.retired &&
    (b.env.trapEntry.any (fun x => segOf x == num) || b.env.emuEntry.any fun x => segOf x == num)

/-- SEGDROP (R101). -/
def segdropBody (f : IF) : Body := fun c _ s =>
  let k := s.core c.core
  let code := c.code s
  let num := f.imm.toNat % 256
  if handlerSegment k code num then .next s
  else .next (s.setCore c.core (k.modSegment code num fun g => { g with dropPending := true }))

/-- SEGQ (R101). -/
def segqBody (f : IF) : Body := fun c w s =>
  let k := s.core c.core
  let code := c.code s
  let num := f.imm.toNat % 256
  let state := match k.segment code num with
    | none => 0
    | some g => if g.loading then 1 else if g.dropPending then 3 else 2
  let x := state + k.freeSlots.length * 2 ^ 8 + (s.segEntry code num).1 * 2 ^ 16
  .next (s.setWave c.core c.slot (c.writeG w f.d.toNat (BitVec.ofNat 64 x)))

/-! ### MOV, SEL and NEAR -/

/-- MOV of vector registers: the source's shape, format Raw (R91, R92). -/
def movBody (x : VArgs) : WaveBody := fun c w =>
  .ok (match x.imm with
    | some i =>
      if x.ty = tB64 then c.write64 w x.d true tB64 fun _ => immWide x.ty i
      else c.write w x.d (.u i) 0
    | none =>
      if x.ty = tB64 then
        let hi := if x.b = 1023 then ⟨.u 0, 0⟩ else c.readV w (x.b + 1)
        w.setBank (w.bank.writePair c.act c.live x.d (c.readV w x.b).val hi.val 0 0)
      else c.write w x.d (c.readV w x.b).val 0)

/-- MOV of group-wide registers: .b32 writes the low word zero-extended (R92). -/
def movGroupBody (x : VArgs) : WaveBody := fun c w =>
  let v := match x.imm with
    | some i => immWide x.ty i
    | none => if x.ty = tB64 then c.readG w x.b else (c.readG w x.b).setWidth 32 |>.setWidth 64
  .ok (c.writeG w x.d v)

/-- The value one register of a SEL takes, and its shape (R93). -/
def selVal (c : Ctx) (p : Mask) (a b : VVal) : VVal :=
  if p &&& c.act = c.act then a
  else if p &&& c.act = 0 then b
  else .g (Lanes.of fun l => if p.getLsbD l then a.lane l else b.lane l)

/-- SEL (R93). -/
def selBody (x : VArgs) : WaveBody := fun c w =>
  let p := c.readP w x.c
  let high (n : Nat) : VVal := if n = 1023 then .u 0 else (c.readV w (n + 1)).val
  let lo := selVal c p (c.readV w x.a).val (c.readV w x.b).val
  .ok (if x.ty = tB64 then
      w.setBank (w.bank.writePair c.act c.live x.d lo (selVal c p (high x.a) (high x.b)) 0 0)
    else c.write w x.d lo 0)

/-- SEL of group-wide registers; .b32 selects the low words, zero-extended as MOV writes them (R92, R93). -/
def selGroupBody (x : VArgs) : WaveBody := fun c w =>
  let v := if c.readQ w x.c then c.readG w x.a else c.readG w x.b
  .ok (c.writeG w x.d (if x.ty = tB64 then v else (v.setWidth 32).setWidth 64))

/-- NEAR (R88). -/
def nearBody (x : VArgs) : WaveBody := fun c w => .ok { w with nearBase := x.a, nearMap := c.readG w x.b }

/-! ### The meanings -/

def execBra (f : BF) (s : State) := issue (Instr.bra f).view (encode (.bra f)) (braBody f) false s
def execBrx (f : VF) (s : State) := issue (Instr.brx f).view (encode (.brx f)) (brxBody (f.args .brx false) false) false s
def execCall (f : BF) (s : State) := issue (Instr.call f).view (encode (.call f)) (callBody f) false s
def execCallx (f : VF) (s : State) :=
  issue (Instr.callx f).view (encode (.callx f)) (brxBody (f.args .callx false) true) false s
def execRet (f : BF) (s : State) := issue (Instr.ret f).view (encode (.ret f)) retBody false s
def execExit (f : BF) (s : State) := issue (Instr.exit f).view (encode (.exit f)) exitBody false s
def execRecon (f : BF) (s : State) := issue (Instr.recon f).view (encode (.recon f)) (reconBody f) false s
def execLoop (f : BF) (s : State) := issue (Instr.loop f).view (encode (.loop f)) (loopBody f) false s
def execEndl (f : BF) (s : State) := issue (Instr.endl f).view (encode (.endl f)) endlBody false s
def execBreakLoop (f : BF) (s : State) := issue (Instr.breakLoop f).view (encode (.breakLoop f)) breakBody false s
def execNop (f : VF) (s : State) := issue (Instr.nop f).view (encode (.nop f)) nopBody true s
def execYield (f : VF) (s : State) := issue (Instr.yield f).view (encode (.yield f)) yieldBody true s
def execJseg (f : IF) (s : State) := issue (Instr.jseg f).view (encode (.jseg f)) (jsegBody f) false s
def execSegld (f : IF) (s : State) := issue (Instr.segld f).view (encode (.segld f)) (segldBody f) false s
def execSegdrop (f : IF) (s : State) := issue (Instr.segdrop f).view (encode (.segdrop f)) (segdropBody f) false s
def execSegq (f : IF) (s : State) := issue (Instr.segq f).view (encode (.segq f)) (segqBody f) false s
def execMov (f : VF) (s : State) := issueLocal (Instr.mov f).view (encode (.mov f)) (movBody (f.args .mov false)) s
def execMovImm (f : IF) (s : State) := issueLocal (Instr.movImm f).view (encode (.movImm f)) (movBody (f.args .mov false)) s
def execMovGroupWide (f : VF) (s : State) :=
  issueLocal (Instr.movGroupWide f).view (encode (.movGroupWide f)) (movGroupBody (f.args .mov true)) s
def execMovGroupWideImm (f : IF) (s : State) :=
  issueLocal (Instr.movGroupWideImm f).view (encode (.movGroupWideImm f)) (movGroupBody (f.args .mov true)) s
def execSel (f : VF) (s : State) := issueLocal (Instr.sel f).view (encode (.sel f)) (selBody (f.args .sel false)) s
def execSelGroupWide (f : VF) (s : State) :=
  issueLocal (Instr.selGroupWide f).view (encode (.selGroupWide f)) (selGroupBody (f.args .sel true)) s
def execNear (f : VF) (s : State) := issueLocal (Instr.near f).view (encode (.near f)) (nearBody (f.args .near false)) s

end Sys2Proof.Machine
end

