-- ==== Sys2Proof/Machine/Real.lean ====
section
/-!
DEFINITION. The floating-point formats and their exact arithmetic (R115 to R118, R138 to R141): a value is a NaN, an
infinity or a signed multiple of a power of two, every operation forms its exact result, and one rounding ends it.
-/

namespace Sys2Proof

/-! ### Formats (R115) -/

/-- A binary floating-point format: exponent and fraction bits, and whether it has infinities (E4M3 has none). -/
structure FFmt where
  eb : Nat
  fb : Nat
  inf : Bool
deriving DecidableEq, Repr

def fp64 : FFmt := ⟨11, 52, true⟩
def fp32 : FFmt := ⟨8, 23, true⟩
def fp16 : FFmt := ⟨5, 10, true⟩
def bf16 : FFmt := ⟨8, 7, true⟩
def e4m3 : FFmt := ⟨4, 3, false⟩
def e5m2 : FFmt := ⟨5, 2, true⟩

def FFmt.width (f : FFmt) : Nat := 1 + f.eb + f.fb
def FFmt.bias (f : FFmt) : Nat := 2 ^ (f.eb - 1) - 1
/-- The exponent of the smallest subnormal. -/
def FFmt.qmin (f : FFmt) : Int := 1 - f.bias - f.fb
/-- The bits of +∞ where the format has infinities; the first magnitude that is no finite value. -/
def FFmt.infBits (f : FFmt) : Nat := if f.inf then (2 ^ f.eb - 1) * 2 ^ f.fb else 2 ^ (f.eb + f.fb) - 1
/-- The bits of the largest finite value. -/
def FFmt.maxBits (f : FFmt) : Nat := f.infBits - 1
/-- The canonical NaN (R115, R116). -/
def FFmt.nan (f : FFmt) : Nat := if f.inf then f.infBits + 2 ^ (f.fb - 1) else 2 ^ (f.eb + f.fb) - 1
def FFmt.signBit (f : FFmt) : Nat := 2 ^ (f.eb + f.fb)

/-! ### Values -/

/-- The value of a code: `fin neg m e` is (-1)^neg * m * 2^e. -/
inductive FVal where
  | nan
  | inf (neg : Bool)
  | fin (neg : Bool) (m : Nat) (e : Int)
deriving DecidableEq, Repr

def FVal.zero (neg : Bool) : FVal := .fin neg 0 0

/-- The value of the bits `x` in a format. -/
def FFmt.value (f : FFmt) (x : Nat) : FVal :=
  let mag := x % f.signBit
  let neg := x / f.signBit % 2 = 1
  if f.inf && mag = f.infBits then .inf neg
  else if f.infBits ≤ mag then .nan
  else
    let e := mag / 2 ^ f.fb
    let m := mag % 2 ^ f.fb
    if e = 0 then .fin neg m f.qmin else .fin neg (m + 2 ^ f.fb) (f.qmin + (e - 1 : Nat))

/-- The integer a value is, for an exact conversion from an integer. -/
def FVal.ofInt (x : Int) : FVal := .fin (x < 0) x.natAbs 0

def FVal.isNan : FVal → Bool
  | .nan => true
  | _ => false

def FVal.neg? : FVal → Bool
  | .nan => false
  | .inf s => s
  | .fin s _ _ => s

def FVal.isZero : FVal → Bool
  | .fin _ m _ => m == 0
  | _ => false

def FVal.negate : FVal → FVal
  | .nan => .nan
  | .inf s => .inf !s
  | .fin s m e => .fin (!s) m e

/-- The value scaled by 2^n. -/
def FVal.scale (n : Int) : FVal → FVal
  | .fin s m e => .fin s m (e + n)
  | v => v

/-! ### Rounding (R117) -/

/-- Whether a magnitude between two neighbours goes to the upper one: the remainder `rem` of 2^d, and whether the lower
neighbour is odd. -/
def roundsUp (mode : Nat) (neg : Bool) (rem d : Nat) (odd : Bool) : Bool :=
  match mode with
  | 0 => 2 ^ d < 2 * rem || (2 * rem = 2 ^ d && odd)
  | 1 => false
  | 2 => !neg && rem != 0
  | _ => neg && rem != 0

/-- m * 2^(-d) rounded to an integer in the mode. A number far below 1 is rounded without forming 2^d. -/
def roundShift (mode : Nat) (neg : Bool) (m d : Nat) : Nat :=
  let d := min d (bitLen m + 2)
  let q := m / 2 ^ d
  if roundsUp mode neg (m % 2 ^ d) d (q % 2 = 1) then q + 1 else q

/-- The magnitude bits of m * 2^e rounded to the format's precision with no upper exponent limit. -/
def FFmt.roundMag (f : FFmt) (mode : Nat) (neg : Bool) (m : Nat) (e : Int) : Nat :=
  if m = 0 then 0
  else
    let q := max ((bitLen m : Int) - 1 + e - f.fb) f.qmin
    let mant := if q ≤ e then m * 2 ^ (e - q).toNat else roundShift mode neg m (q - e).toNat
    (q - f.qmin).toNat * 2 ^ f.fb + mant

def FFmt.signed (f : FFmt) (neg : Bool) (mag : Nat) : Nat := (if neg then f.signBit else 0) + mag

/-- `round_to` (R117), with the overflow of IEEE 754-2019. -/
def FFmt.roundTo (f : FFmt) (mode : Nat) (v : FVal) : Nat :=
  match v with
  | .nan => f.nan
  | .inf s => f.signed s f.infBits
  | .fin s m e =>
    let r := f.roundMag mode s m e
    if r ≤ f.maxBits then f.signed s r
    else
      let toInf := match mode with
        | 0 => true
        | 1 => false
        | 2 => !s
        | _ => s
      f.signed s (if toInf then f.infBits else f.maxBits)

/-- The magnitude of a finite value rounded to an integer in a mode. -/
def roundInt (mode : Nat) (neg : Bool) (m : Nat) (e : Int) : Nat :=
  if 0 ≤ e then m * 2 ^ e.toNat else roundShift mode neg m (-e).toNat

/-! ### Exact operations (R138) -/

/-- A sum. An exact zero sum takes the sign IEEE 754-2019 gives it in the mode. -/
def FVal.add (mode : Nat) (x y : FVal) : FVal :=
  match x, y with
  | .nan, _ | _, .nan => .nan
  | .inf s, .inf t => if s = t then .inf s else .nan
  | .inf s, _ => .inf s
  | _, .inf t => .inf t
  | .fin s m e, .fin t n g =>
    if m = 0 && n = 0 then .zero (if s = t then s else mode == 3)
    else if m = 0 then .fin t n g
    else if n = 0 then .fin s m e
    else
      let q := min e g
      let a : Int := (m * 2 ^ (e - q).toNat : Nat)
      let b : Int := (n * 2 ^ (g - q).toNat : Nat)
      let r := (if s then -a else a) + (if t then -b else b)
      if r = 0 then .zero (mode == 3) else .fin (r < 0) r.natAbs q

def FVal.sub (mode : Nat) (x y : FVal) : FVal := x.add mode y.negate

def FVal.mul (x y : FVal) : FVal :=
  match x, y with
  | .nan, _ | _, .nan => .nan
  | .inf s, .inf t => .inf (s != t)
  | .inf s, .fin t m _ => if m = 0 then .nan else .inf (s != t)
  | .fin s m _, .inf t => if m = 0 then .nan else .inf (s != t)
  | .fin s m e, .fin t n g => .fin (s != t) (m * n) (e + g)

/-- A value strictly between m * 2^e and (m + 1) * 2^e, held one bit further: enough bits stand in `m` for every
rounding. -/
def FVal.between (neg : Bool) (m : Nat) (e : Int) : FVal := .fin neg (2 * m + 1) (e - 1)

/-- A quotient: exact, or 140 bits and a sign that more follow. -/
def FVal.div (x y : FVal) : FVal :=
  match x, y with
  | .nan, _ | _, .nan => .nan
  | .inf _, .inf _ => .nan
  | .inf s, .fin t _ _ => .inf (s != t)
  | .fin s _ _, .inf t => .zero (s != t)
  | .fin s m e, .fin t n g =>
    if n = 0 then (if m = 0 then .nan else .inf (s != t))
    else if m = 0 then .zero (s != t)
    else
      let k := 140 + bitLen n
      let q := m * 2 ^ k / n
      if m * 2 ^ k % n = 0 then .fin (s != t) q (e - g - k) else .between (s != t) q (e - g - k)

/-- The integer square root, bit by bit from the top of `k` bits. -/
def isqrtFrom : Nat → Nat → Nat → Nat
  | 0, _, r => r
  | k + 1, n, r => if (r + 2 ^ k) * (r + 2 ^ k) ≤ n then isqrtFrom k n (r + 2 ^ k) else isqrtFrom k n r

def isqrt (n : Nat) : Nat := isqrtFrom (bitLen n / 2 + 1) n 0

/-- A finite positive value as m * 2^(2h). -/
def evenExp (m : Nat) (e : Int) : Nat × Int := if e % 2 = 0 then (m, e / 2) else (2 * m, (e - 1) / 2)

def FVal.sqrt : FVal → FVal
  | .nan => .nan
  | .inf s => if s then .nan else .inf false
  | .fin s m e =>
    if m = 0 then .zero s
    else if s then .nan
    else
      let (m2, h) := evenExp m e
      let n := m2 * 2 ^ 280
      let r := isqrt n
      if r * r = n then .fin false r (h - 140) else .between false r (h - 140)

/-- 1 / sqrt (R138). -/
def FVal.rsqrt : FVal → FVal
  | .nan => .nan
  | .inf s => if s then .nan else .zero false
  | .fin s m e =>
    if m = 0 then .inf s
    else if s then .nan
    else
      let (m2, h) := evenExp m e
      let k := bitLen m2 + 140
      let r := isqrt (2 ^ (2 * k) / m2)
      if r * r * m2 = 2 ^ (2 * k) then .fin false r (-h - k) else .between false r (-h - k)

/-! ### Comparison (R140, R142) -/

/-- The order of two values: `none` where either is a NaN; -0 equals +0. -/
def FVal.cmp (x y : FVal) : Option Ordering :=
  match x, y with
  | .nan, _ | _, .nan => none
  | .inf s, .inf t => some (if s = t then .eq else if s then .lt else .gt)
  | .inf s, _ => some (if s then .lt else .gt)
  | _, .inf t => some (if t then .gt else .lt)
  | .fin s m e, .fin t n g =>
    let q := min e g
    let a : Int := (m * 2 ^ (e - q).toNat : Nat)
    let b : Int := (n * 2 ^ (g - q).toNat : Nat)
    some (compare (if s then -a else a) (if t then -b else b))

/-- Whether `x` comes before `y` with -0 below +0 (R140). -/
def FVal.before (x y : FVal) : Bool :=
  match x.cmp y with
  | some .lt => true
  | some .eq => x.neg? && !y.neg?
  | _ => false

/-! ### Elementary functions (R139)

Each is formed in fixed point with 384 fraction bits, which is more than a hundred bits beyond what any rounding of an
FP32, FP16 or BF16 result turns on; exact results are taken apart first. -/

def fixBits : Nat := 384
def fixOne : Nat := 2 ^ fixBits
/-- π and ln 2 in fixed point. -/
def fixPi : Nat := 0x3243f6a8885a308d313198a2e03707344a4093822299f31d0082efa98ec4e6c89452821e638d01377be5466cf34e90c6c
def fixLn2 : Nat := 0xb17217f7d1cf79abc9e3b39803f2f6af40f343267298b62d8a0d175b8baafa2be7b876206debac98559552fb4afa1b10

/-- The series of e^y from its k-th term on. -/
def expSum : Nat → Nat → Nat → Nat → Nat
  | 0, _, _, _ => 0
  | n + 1, k, term, y => term + expSum n (k + 1) (term * y / (k * fixOne)) y

/-- The series of sin y from a term on: `k` is the exponent of the term. -/
def sinSum : Nat → Nat → Nat → Nat → Int
  | 0, _, _, _ => 0
  | n + 1, k, term, y2 => (term : Int) - sinSum n (k + 2) (term * y2 / ((k + 1) * (k + 2) * fixOne)) y2

/-- The series of artanh z from a term on: `k` is the exponent of the term. -/
def atanhSum : Nat → Nat → Nat → Nat → Nat
  | 0, _, _, _ => 0
  | n + 1, k, term, z2 => term / k + atanhSum n (k + 2) (term * z2 / fixOne) z2

/-- The integer part and the fraction in fixed point of m * 2^e with its sign, rounded down; a fraction beyond the
fixed point keeps a bit. -/
def fixParts (neg : Bool) (m : Nat) (e : Int) : Int × Nat :=
  let x : Int := if 0 ≤ e + fixBits then ((m * 2 ^ (e + fixBits).toNat : Nat) : Int) else (m / 2 ^ (-(e + fixBits)).toNat : Nat)
  let y := if neg then -x else x
  (y / (fixOne : Int), (y % (fixOne : Int)).toNat)

/-- 2^a (R139). -/
def FVal.exp2 : FVal → FVal
  | .nan => .nan
  | .inf s => if s then .zero false else .inf false
  | .fin s m e =>
    if m = 0 then .fin false 1 0
    else if 14 < (bitLen m : Int) + e then .fin false 1 (if s then -100000 else 100000)
    else
      let (n, f) := fixParts s m e
      if f = 0 then .fin false 1 n
      else .between false (expSum 96 1 fixOne (f * fixLn2 / fixOne)) (n - fixBits)

/-- log2 a (R139). -/
def FVal.log2 : FVal → FVal
  | .nan => .nan
  | .inf s => if s then .nan else .inf false
  | .fin s m e =>
    if m = 0 then .inf true
    else if s then .nan
    else
      let b := bitLen m - 1
      let n : Int := b + e
      if m = 2 ^ b then (if n = 0 then .zero false else .fin (n < 0) n.natAbs 0)
      else
        let z := (m - 2 ^ b) * fixOne / (m + 2 ^ b)
        let l := 2 * atanhSum 130 1 z (z * z / fixOne) * fixOne / fixLn2
        let x := n * (fixOne : Int) + l
        .between (x < 0) x.natAbs (-(fixBits : Int))

/-- sin(π t) for a fixed-point t below 1/2. -/
def sinFix (t : Nat) : Nat :=
  let y := t * fixPi / fixOne
  (sinSum 64 1 y (y * y / fixOne)).toNat

/-- sin(π(a + q/2)) of a finite non-zero a, where the sum is the fixed-point number of half-turns `x`: multiples of a
half are exact; `zeroNeg` is the sign of a zero result. -/
def sinTurns (x : Int) (zeroNeg : Bool) : FVal :=
  let one : Int := fixOne
  let r := (x % (2 * one)).toNat
  let neg := fixOne ≤ r
  let t := r % fixOne
  if t = 0 then .zero zeroNeg
  else if 2 * t = fixOne then .fin neg 1 0
  else .between neg (sinFix (if 2 * t < fixOne then t else fixOne - t)) (-(fixBits : Int))

/-- The value in fixed point, whole. -/
def fixWhole (s : Bool) (m : Nat) (e : Int) : Int :=
  let (n, f) := fixParts s m e
  n * fixOne + f

/-- sin(πa) (R139). -/
def FVal.sinpi : FVal → FVal
  | .nan => .nan
  | .inf _ => .nan
  | .fin s m e => if m = 0 then .zero s else if 0 ≤ e then .zero s else sinTurns (fixWhole s m e) s

/-- cos(πa) (R139). -/
def FVal.cospi : FVal → FVal
  | .nan => .nan
  | .inf _ => .nan
  | .fin s m e =>
    if m = 0 || 1 ≤ e then .fin false 1 0 else sinTurns (fixWhole s m e + (fixOne / 2 : Nat)) false

end Sys2Proof
end

