-- ==== Sys2Proof/Machine/Flags.lean ====
section
/-!
DEFINITION. Conditions and status: the comparison codes of ICMP and FCMP (R133, R142), the class mask of FCLASS (R143),
the three-input function table (R134, R163), votes (R155) and the wave status word (R76).
-/

namespace Sys2Proof.Machine

/-- An integer comparison by its code (R133). -/
def intCond (code : Nat) (a b : Int) : Bool :=
  match code with
  | 0 => a == b
  | 1 => a != b
  | 2 => a < b
  | 3 => a ≤ b
  | 4 => b < a
  | _ => b ≤ a

/-- A floating comparison by its code (R142). -/
def floatCond (code : Nat) (a b : FVal) : Bool :=
  match a.cmp b, code with
  | none, 0 | none, 1 | none, 2 | none, 3 | none, 4 | none, 5 | none, 6 => false
  | none, _ => true
  | some _, 6 => true
  | some _, 7 => false
  | some o, 0 | some o, 8 => o == .eq
  | some o, 1 | some o, 9 => o != .eq
  | some o, 2 | some o, 10 => o == .lt
  | some o, 3 | some o, 11 => o != .gt
  | some o, 4 | some o, 12 => o == .gt
  | some o, _ => o != .lt

/-- The class bit of a code of a format (R143). -/
def classMask (f : FFmt) (x : Nat) : Nat :=
  let mag := x % f.signBit
  let neg := x / f.signBit % 2 = 1
  if f.infBits < mag then 2 ^ 8
  else if mag = f.infBits then (if neg then 2 ^ 0 else 2 ^ 7)
  else if mag = 0 then (if neg then 2 ^ 3 else 2 ^ 4)
  else if mag < 2 ^ f.fb then (if neg then 2 ^ 2 else 2 ^ 5)
  else if neg then 2 ^ 1 else 2 ^ 6

/-- The function table `f` at the input bits a, b, c (R134). -/
def table3 (f : Nat) (a b c : Bool) : Bool :=
  f.testBit ((if a then 1 else 0) + (if b then 2 else 0) + (if c then 4 else 0))

/-- The function table applied in each of `w` bit positions (R134, R135). -/
def tableBits (f : Nat) (a b c : Nat) : Nat → Nat
  | 0 => 0
  | w + 1 => tableBits f a b c w + if table3 f (a.testBit w) (b.testBit w) (c.testBit w) then 2 ^ w else 0

/-- The function table applied lane by lane (R164). -/
def tableMask (f : Nat) (a b c : Mask) : Mask := Mask.of fun l => table3 f (a.getLsbD l) (b.getLsbD l) (c.getLsbD l)

/-- A vote of predicate `p` over the lanes of `act` by its code (R155): ALL, ANY or UNI. -/
def voteCond (code : Nat) (p act : Mask) : Bool :=
  match code with
  | 0 => p &&& act == act
  | 1 => p &&& act != 0
  | _ => p &&& act == act || p &&& act == 0

/-- sr.wstat (R76). -/
def wstatWord (s : State) (core slot : Nat) (b : Block) (w : Wave) : Dword :=
  BitVec.ofNat 64 (dieOf core * 2 ^ 48 + core * 2 ^ 40 + w.bslot * 2 ^ 37 + w.wblk * 2 ^ 32 + slot * 2 ^ 27
    + (if b.env.checked then 2 ^ 26 else 0) + (if w.level = 0 then 0 else 2 ^ 25) + w.level * 2 ^ 23
    + (if w.pois then 2 ^ 22 else 0) + (if b.env.stallCheck then 2 ^ 21 else 0) + (s.core core).latch % 256)

end Sys2Proof.Machine
end

