-- ==== Sys2Proof/Machine/IntAlu.lean ====
section
/-!
DEFINITION. The integer and bit instructions of the vector class (R130 to R136), with the affine rows of R80. Each
operation is a function of the operands' bits, which the group-wide class shares.
-/

namespace Sys2Proof.Machine

/-! ### Widths and signedness (R119, R126) -/

def tyBits (ty : Nat) : Nat := if wide ty then 64 else 32

/-- Whether TYPE is signed. -/
def tySigned (ty : Nat) : Bool := ty == tI32 || ty == tI64

/-- `val`: bits read in TYPE's signedness. -/
def tyVal (ty x : Nat) : Int := if tySigned ty then sext (tyBits ty) x else (x % 2 ^ tyBits ty : Nat)

/-- An integer clamped to TYPE's range, as bits (R127). -/
def clampTy (ty : Nat) (t : Int) : Nat :=
  let w := tyBits ty
  let lo : Int := if tySigned ty then -(2 ^ (w - 1) : Nat) else 0
  let hi : Int := if tySigned ty then (2 ^ (w - 1) : Nat) - 1 else (2 ^ w : Nat) - 1
  wrapNat w (max lo (min hi t))

/-- The final write of R131. -/
def finish (ty : Nat) (sat : Bool) (t : Int) : Nat := if sat then clampTy ty t else wrapNat (tyBits ty) t

/-! ### The operations on bits -/

/-- A quotient truncated toward zero and its remainder (R132). -/
def divOf (ty : Nat) (sat rem : Bool) (a b : Nat) : Nat :=
  let w := tyBits ty
  let x := tyVal ty a
  let y := tyVal ty b
  if y = 0 then (if rem then a % 2 ^ w else 2 ^ w - 1)
  else if rem then wrapNat w (x.tmod y)
  else finish ty sat (x.tdiv y)

/-- The extraction of R136: pos and len from the descriptor. -/
def bfxOf (ty a d : Nat) : Nat :=
  let pos := d % 256
  let len := min (field d 8 8) 32
  let x := if tySigned ty then wrapNat 256 (sext 32 a) else a
  let f := x / 2 ^ min pos 224 % 2 ^ len
  if len = 0 then 0 else if tySigned ty then wrapNat 32 (sext len f) else f

/-- The insertion of R136. -/
def bfiOf (a d c : Nat) : Nat :=
  let pos := d % 256
  let len := min (field d 8 8) 32
  if 32 ≤ pos then c
  else
    let m := (2 ^ len - 1) * 2 ^ pos % 2 ^ 32
    (a * 2 ^ pos &&& m) + (c &&& (2 ^ 32 - 1 - m))

/-- One result byte of a PRMB (R136). -/
def prmbByte (a c sel : Nat) : Nat :=
  let k := sel % 8
  let y := if k < 4 then field a (8 * k) 8 else field c (8 * (k - 4)) 8
  if sel % 16 < 8 then y else if 128 ≤ y then 255 else 0

def prmbOf (a b c : Nat) : Nat :=
  prmbByte a c b + 2 ^ 8 * prmbByte a c (b / 16) + 2 ^ 16 * prmbByte a c (b / 256) + 2 ^ 24 * prmbByte a c (b / 4096)

/-- The number of bits of a result: the product of IMULW is 64 bits, a count 32. -/
def intResTy (op : Op) (ty : Nat) : Nat :=
  match op with
  | .imulw => tB64
  | .popc | .clz => tW32
  | _ => ty

/-- The result bits of an integer or bit operation on operand bits `a`, `b`, `c` (R131, R132, R135, R136); `n` is the
count or descriptor of B and `m` that of C, read untyped (R128). -/
def intOf (op : Op) (ty sub : Nat) (sat : Bool) (a b c n m : Nat) : Nat :=
  let w := tyBits ty
  let x := tyVal ty a
  let y := tyVal ty b
  let z := tyVal ty c
  match op with
  | .iadd => finish ty sat (x + y)
  | .isub => finish ty sat (x - y)
  | .imul => finish ty sat (x * y)
  | .imad => finish ty sat (x * y + z)
  | .ilea => finish ty sat (x * (2 ^ (sub % 64) : Nat) + y)
  | .imin => finish ty false (min x y)
  | .imax => finish ty false (max x y)
  | .iabs => finish ty sat x.natAbs
  | .ineg => finish ty sat (-x)
  | .isad => finish ty sat ((x - y).natAbs + z)
  | .imulh => wrapNat w (x * y / (2 ^ w : Nat))
  | .imulw => wrapNat 64 (x * y)
  | .idiv => divOf ty sat false a b
  | .irem => divOf ty sat true a b
  | .andBits => a &&& b
  | .orBits => a ||| b
  | .xorBits => a ^^^ b
  | .notBits => 2 ^ w - 1 - a % 2 ^ w
  | .bfn3 => tableBits sub a b c w
  | .shl => if n < w then a * 2 ^ n % 2 ^ w else 0
  | .shr => if tySigned ty then wrapNat w (x / (2 ^ min n (w - 1) : Nat)) else if n < w then a / 2 ^ n else 0
  | .rotl => a * 2 ^ (n % w) % 2 ^ w ||| a / 2 ^ (w - n % w)
  | .fshl => (a * 2 ^ 32 + b) * 2 ^ (m % 32) / 2 ^ 32 % 2 ^ 32
  | .bfx => bfxOf ty a n
  | .bfi => bfiOf a n c
  | .popc => popcount w a
  | .clz => w - bitLen a
  | .brev => reverseBits w a
  | .prmb => prmbOf a n c
  | _ => 0

/-! ### Vector operands of the ALU class -/

/-- Whether every vector source of an instruction is uniform (R80). -/
def Ctx.uniform (c : Ctx) (w : Wave) (ops : List Operand) : Bool :=
  ops.all fun o =>
    match o.role, o.kind with
    | .dst, _ => true
    | _, .vec k => c.allU w o.num k
    | _, _ => true

/-- Lane `l` of a vector register or pair as TYPE has it. -/
def Ctx.bits (c : Ctx) (w : Wave) (ty n l : Nat) : Nat :=
  if wide ty then (c.lane64 w n l).toNat else (c.lane w n l).toNat

/-- Operand B as TYPE has it: a register or the immediate (R56, R128). -/
def Ctx.bitsB (c : Ctx) (w : Wave) (x : VArgs) (l : Nat) : Nat :=
  match x.imm with
  | some i => if wide x.ty then (immWide x.ty i).toNat else i.toNat
  | none => c.bits w x.ty x.b l

/-- The write of a result of type `ty` (R80, R81, R83). -/
def Ctx.writeTy (c : Ctx) (w : Wave) (d : Nat) (allU : Bool) (ty : Nat) (f : Nat → Nat) : Wave :=
  if wide ty then c.write64 w d allU ty fun l => BitVec.ofNat 64 (f l)
  else c.write w d (shaped allU fun l => BitVec.ofNat 32 (f l)) (resultFmt ty)

/-! ### Affine results (R80) -/

/-- The base and stride of a uniform or affine value. -/
def VVal.line : VVal → Option (Word × Word)
  | .u x => some (x, 0)
  | .a b s => some (b, s)
  | .g _ => none

/-- The IMUL row: an affine value and a uniform one. -/
def mulLine (a b : VVal) : Option (Word × Word) :=
  match a, b with
  | .a p s, .u k | .u k, .a p s => some (p * k, s * k)
  | _, _ => none

/-- The affine result of an operation on 32-bit types without SAT, where an A row applies (R80). -/
def affineOf (x : VArgs) (a b c : VVal) : Option VVal :=
  let pick : Option (Word × Word) :=
    match x.op with
    | .iadd => do let (p, s) ← a.line; let (q, t) ← b.line; return (p + q, s + t)
    | .isub => do let (p, s) ← a.line; let (q, t) ← b.line; return (p - q, s - t)
    | .ineg => do let (p, s) ← a.line; return (-p, -s)
    | .imul => if x.ty = tB32 then none else mulLine a b
    | .imad => do let (p, s) ← mulLine a b; let (q, t) ← c.line; return (p + q, s + t)
    | .shl =>
      match b with
      | .u n => do
        let (p, s) ← a.line
        return if n.toNat < 32 then (p <<< n.toNat, s <<< n.toNat) else (0, 0)
      | _ => none
    | _ => none
  pick.map fun (p, s) => .a p s

/-! ### The meanings -/

/-- A vector integer or bit instruction that writes a vector register. -/
def intBody (x : VArgs) : WaveBody := fun c w =>
  let allU := c.uniform w x.operands
  let b : VVal := match x.imm with | some i => .u i | none => (c.readV w x.b).val
  match if allU || wide x.ty || x.sat then none else affineOf x (c.readV w x.a).val b (c.readV w x.c).val with
  | some v => .ok (c.write w x.d v (resultFmt x.ty))
  | none =>
    .ok (c.writeTy w x.d allU (intResTy x.op x.ty) fun l =>
      intOf x.op x.ty x.sub x.sat (c.bits w x.ty x.a l) (c.bitsB w x l)
        (if x.op == .prmb && x.imm.isSome then 0 else c.bits w x.ty x.c l)
        (c.countB w x l) (c.lane w x.c l).toNat)

/-- ICMP (R133). -/
def icmpBody (x : VArgs) : WaveBody := fun c w =>
  .ok (c.writeP w x.d (Mask.of fun l =>
    intCond x.sub (tyVal x.ty (c.bits w x.ty x.a l)) (tyVal x.ty (c.bitsB w x l))))

def execIadd (f : VF) (s : State) := issueLocal (Instr.iadd f).view (encode (.iadd f)) (intBody (f.args .iadd false)) s
def execIaddImm (f : IF) (s : State) :=
  issueLocal (Instr.iaddImm f).view (encode (.iaddImm f)) (intBody (f.args .iadd false)) s
def execIsub (f : VF) (s : State) := issueLocal (Instr.isub f).view (encode (.isub f)) (intBody (f.args .isub false)) s
def execIsubImm (f : IF) (s : State) :=
  issueLocal (Instr.isubImm f).view (encode (.isubImm f)) (intBody (f.args .isub false)) s
def execImul (f : VF) (s : State) := issueLocal (Instr.imul f).view (encode (.imul f)) (intBody (f.args .imul false)) s
def execImulImm (f : IF) (s : State) :=
  issueLocal (Instr.imulImm f).view (encode (.imulImm f)) (intBody (f.args .imul false)) s
def execImulh (f : VF) (s : State) :=
  issueLocal (Instr.imulh f).view (encode (.imulh f)) (intBody (f.args .imulh false)) s
def execImulhImm (f : IF) (s : State) :=
  issueLocal (Instr.imulhImm f).view (encode (.imulhImm f)) (intBody (f.args .imulh false)) s
def execImulw (f : VF) (s : State) :=
  issueLocal (Instr.imulw f).view (encode (.imulw f)) (intBody (f.args .imulw false)) s
def execImad (f : VF) (s : State) := issueLocal (Instr.imad f).view (encode (.imad f)) (intBody (f.args .imad false)) s
def execIlea (f : VF) (s : State) := issueLocal (Instr.ilea f).view (encode (.ilea f)) (intBody (f.args .ilea false)) s
def execIleaImm (f : IF) (s : State) :=
  issueLocal (Instr.ileaImm f).view (encode (.ileaImm f)) (intBody (f.args .ilea false)) s
def execImin (f : VF) (s : State) := issueLocal (Instr.imin f).view (encode (.imin f)) (intBody (f.args .imin false)) s
def execIminImm (f : IF) (s : State) :=
  issueLocal (Instr.iminImm f).view (encode (.iminImm f)) (intBody (f.args .imin false)) s
def execImax (f : VF) (s : State) := issueLocal (Instr.imax f).view (encode (.imax f)) (intBody (f.args .imax false)) s
def execImaxImm (f : IF) (s : State) :=
  issueLocal (Instr.imaxImm f).view (encode (.imaxImm f)) (intBody (f.args .imax false)) s
def execIabs (f : VF) (s : State) := issueLocal (Instr.iabs f).view (encode (.iabs f)) (intBody (f.args .iabs false)) s
def execIneg (f : VF) (s : State) := issueLocal (Instr.ineg f).view (encode (.ineg f)) (intBody (f.args .ineg false)) s
def execIsad (f : VF) (s : State) := issueLocal (Instr.isad f).view (encode (.isad f)) (intBody (f.args .isad false)) s
def execIdiv (f : VF) (s : State) := issueLocal (Instr.idiv f).view (encode (.idiv f)) (intBody (f.args .idiv false)) s
def execIdivImm (f : IF) (s : State) :=
  issueLocal (Instr.idivImm f).view (encode (.idivImm f)) (intBody (f.args .idiv false)) s
def execIrem (f : VF) (s : State) := issueLocal (Instr.irem f).view (encode (.irem f)) (intBody (f.args .irem false)) s
def execIremImm (f : IF) (s : State) :=
  issueLocal (Instr.iremImm f).view (encode (.iremImm f)) (intBody (f.args .irem false)) s
def execIcmp (f : VF) (s : State) := issueLocal (Instr.icmp f).view (encode (.icmp f)) (icmpBody (f.args .icmp false)) s
def execIcmpImm (f : IF) (s : State) :=
  issueLocal (Instr.icmpImm f).view (encode (.icmpImm f)) (icmpBody (f.args .icmp false)) s
def execAndBits (f : VF) (s : State) :=
  issueLocal (Instr.andBits f).view (encode (.andBits f)) (intBody (f.args .andBits false)) s
def execAndImm (f : IF) (s : State) :=
  issueLocal (Instr.andImm f).view (encode (.andImm f)) (intBody (f.args .andBits false)) s
def execOrBits (f : VF) (s : State) :=
  issueLocal (Instr.orBits f).view (encode (.orBits f)) (intBody (f.args .orBits false)) s
def execOrImm (f : IF) (s : State) :=
  issueLocal (Instr.orImm f).view (encode (.orImm f)) (intBody (f.args .orBits false)) s
def execXorBits (f : VF) (s : State) :=
  issueLocal (Instr.xorBits f).view (encode (.xorBits f)) (intBody (f.args .xorBits false)) s
def execXorImm (f : IF) (s : State) :=
  issueLocal (Instr.xorImm f).view (encode (.xorImm f)) (intBody (f.args .xorBits false)) s
def execNotBits (f : VF) (s : State) :=
  issueLocal (Instr.notBits f).view (encode (.notBits f)) (intBody (f.args .notBits false)) s
def execBfn3 (f : VF) (s : State) := issueLocal (Instr.bfn3 f).view (encode (.bfn3 f)) (intBody (f.args .bfn3 false)) s
def execShl (f : VF) (s : State) := issueLocal (Instr.shl f).view (encode (.shl f)) (intBody (f.args .shl false)) s
def execShlImm (f : IF) (s : State) :=
  issueLocal (Instr.shlImm f).view (encode (.shlImm f)) (intBody (f.args .shl false)) s
def execShr (f : VF) (s : State) := issueLocal (Instr.shr f).view (encode (.shr f)) (intBody (f.args .shr false)) s
def execShrImm (f : IF) (s : State) :=
  issueLocal (Instr.shrImm f).view (encode (.shrImm f)) (intBody (f.args .shr false)) s
def execRotl (f : VF) (s : State) := issueLocal (Instr.rotl f).view (encode (.rotl f)) (intBody (f.args .rotl false)) s
def execRotlImm (f : IF) (s : State) :=
  issueLocal (Instr.rotlImm f).view (encode (.rotlImm f)) (intBody (f.args .rotl false)) s
def execFshl (f : VF) (s : State) := issueLocal (Instr.fshl f).view (encode (.fshl f)) (intBody (f.args .fshl false)) s
def execBfx (f : VF) (s : State) := issueLocal (Instr.bfx f).view (encode (.bfx f)) (intBody (f.args .bfx false)) s
def execBfi (f : VF) (s : State) := issueLocal (Instr.bfi f).view (encode (.bfi f)) (intBody (f.args .bfi false)) s
def execPopc (f : VF) (s : State) := issueLocal (Instr.popc f).view (encode (.popc f)) (intBody (f.args .popc false)) s
def execClz (f : VF) (s : State) := issueLocal (Instr.clz f).view (encode (.clz f)) (intBody (f.args .clz false)) s
def execBrev (f : VF) (s : State) := issueLocal (Instr.brev f).view (encode (.brev f)) (intBody (f.args .brev false)) s
def execPrmb (f : VF) (s : State) := issueLocal (Instr.prmb f).view (encode (.prmb f)) (intBody (f.args .prmb false)) s
def execPrmbImm (f : IF) (s : State) :=
  issueLocal (Instr.prmbImm f).view (encode (.prmbImm f)) (intBody (f.args .prmb false)) s

end Sys2Proof.Machine
end

