-- ==== Sys2Proof/Machine/FloatAlu.lean ====
section
/-!
DEFINITION. The floating-point instructions of the vector class (R126, R127, R137 to R143). Each operation is a function
of the operands' bits, which the group-wide class, REDF and SCANF share.
-/

namespace Sys2Proof.Machine

/-- The format of a floating TYPE or element type (R115). -/
def fmtOf (ty : Nat) : FFmt :=
  if ty = tF64 then fp64 else if ty = tF16 then fp16 else if ty = tBf16 then bf16 else if ty = tE4m3 then e4m3
  else if ty = tE5m2 then e5m2 else fp32

/-- ABS and then NEG on the bits of a source (R126). -/
def modBits (f : FFmt) (neg abs : Bool) (x : Nat) : Nat :=
  let y := if abs then x % f.signBit else x
  if neg then (if y / f.signBit % 2 = 1 then y - f.signBit else y + f.signBit) else y

/-- The mode of an instruction: code 7 reads sr.round.MODE (R117). -/
def modeOf (w : Wave) (round : Nat) : Nat := if round = 7 then w.roundMode else round

/-- SAT of R127 on a rounded result: clamped to [+0, 1.0]. -/
def clampUnit (f : FFmt) (r : Nat) : Nat :=
  let one := f.bias * 2 ^ f.fb
  if f.infBits < r % f.signBit || f.signBit ≤ r then 0 else min r one

/-- FMIN and FMAX of two sources as bits (R140). -/
def minMaxOf (f : FFmt) (max : Bool) (x y : Nat) : Nat :=
  let a := f.value x
  let b := f.value y
  if a.isNan && b.isNan then f.nan
  else if a.isNan then y
  else if b.isNan then x
  else if max then (if a.before b then y else x)
  else if b.before a then y else x

/-- FRND (R141): the integral value in the mode; a zero keeps its sign. -/
def roundIntegral (f : FFmt) (mode : Nat) (v : FVal) : Nat :=
  match v with
  | .fin s m e => f.roundTo 1 (.fin s (roundInt mode s m e) 0)
  | v => f.roundTo 1 v

/-- The result bits of a floating operation on modified source bits (R138 to R141); `n` is FSCL's exponent. -/
def floatOf (op : Op) (f : FFmt) (mode : Nat) (sat : Bool) (x y z : Nat) (n : Int) : Nat :=
  let a := f.value x
  let b := f.value y
  let c := f.value z
  let fin (r : Nat) : Nat := if sat then clampUnit f r else r
  match op with
  | .fadd => fin (f.roundTo mode (a.add mode b))
  | .fsub => fin (f.roundTo mode (a.sub mode b))
  | .fmul => fin (f.roundTo mode (a.mul b))
  | .fma => fin (f.roundTo mode ((a.mul b).add mode c))
  | .fdiv => f.roundTo mode (a.div b)
  | .frcp => f.roundTo mode ((FVal.fin false 1 0).div a)
  | .fsqrt => f.roundTo mode a.sqrt
  | .frsq => f.roundTo mode a.rsqrt
  | .fexp2 => f.roundTo mode a.exp2
  | .flog2 => f.roundTo mode a.log2
  | .fsin => f.roundTo mode a.sinpi
  | .fcos => f.roundTo mode a.cospi
  | .fmin => minMaxOf f false x y
  | .fmax => minMaxOf f true x y
  | .fmed3 => minMaxOf f true (minMaxOf f false x y) (minMaxOf f false (minMaxOf f true x y) z)
  | .fcps => f.signed (f.signBit ≤ y) ((if a.isNan then f.nan else x) % f.signBit)
  | .fscl => f.roundTo mode (a.scale n)
  | .frnd => roundIntegral f mode a
  | _ => 0

/-- One element of a register: element `k` of `w` bits (R120). -/
def elem (x w k : Nat) : Nat := field x (w * k) w

/-- The modified bits of each source element and the operation, element by element (R120, R137). -/
def floatElems (x : VArgs) (mode : Nat) (a b c n : Nat) : Nat :=
  let f := fmtOf x.ty
  let one (a b c : Nat) : Nat :=
    floatOf x.op f mode x.sat (modBits f (x.neg.testBit 0) (x.abs.testBit 0) a)
      (modBits f (x.neg.testBit 1) (x.abs.testBit 1) b) (modBits f (x.neg.testBit 2) false c) (sext 32 n)
  if f.width = 16 then
    one (elem a 16 0) (elem b 16 0) (elem c 16 0) + 2 ^ 16 * one (elem a 16 1) (elem b 16 1) (elem c 16 1)
  else one a b c

/-- FCLASS of a register (R143). -/
def classOf (ty a : Nat) : Nat :=
  let f := fmtOf ty
  if f.width = 16 then classMask f (elem a 16 0) + 2 ^ 16 * classMask f (elem a 16 1) else classMask f a

/-- A vector floating instruction that writes its TYPE. -/
def floatBody (x : VArgs) : WaveBody := fun c w =>
  let mode := modeOf w x.round
  .ok (c.writeTy w x.d (c.uniform w x.operands) x.ty fun l =>
    floatElems x mode (c.bits w x.ty x.a l) (c.bitsB w x l) (c.bits w x.ty x.c l) (c.countB w x l))

/-- FCLASS (R143). -/
def fclassBody (x : VArgs) : WaveBody := fun c w =>
  .ok (c.writeTy w x.d (c.uniform w x.operands) tW32 fun l => classOf x.ty (c.bits w x.ty x.a l))

/-- FCMP on modified source bits (R142). -/
def fcmpOf (x : VArgs) (a b : Nat) : Bool :=
  let f := fmtOf x.ty
  floatCond x.sub (f.value (modBits f (x.neg.testBit 0) (x.abs.testBit 0) a))
    (f.value (modBits f (x.neg.testBit 1) (x.abs.testBit 1) b))

/-- FCMP (R142). -/
def fcmpBody (x : VArgs) : WaveBody := fun c w =>
  .ok (c.writeP w x.d (Mask.of fun l => fcmpOf x (c.bits w x.ty x.a l) (c.bitsB w x l)))

def execFadd (f : VF) (s : State) :=
  issueLocal (Instr.fadd f).view (encode (.fadd f)) (floatBody (f.args .fadd false)) s
def execFaddImm (f : IF) (s : State) :=
  issueLocal (Instr.faddImm f).view (encode (.faddImm f)) (floatBody (f.args .fadd false)) s
def execFsub (f : VF) (s : State) :=
  issueLocal (Instr.fsub f).view (encode (.fsub f)) (floatBody (f.args .fsub false)) s
def execFsubImm (f : IF) (s : State) :=
  issueLocal (Instr.fsubImm f).view (encode (.fsubImm f)) (floatBody (f.args .fsub false)) s
def execFmul (f : VF) (s : State) :=
  issueLocal (Instr.fmul f).view (encode (.fmul f)) (floatBody (f.args .fmul false)) s
def execFmulImm (f : IF) (s : State) :=
  issueLocal (Instr.fmulImm f).view (encode (.fmulImm f)) (floatBody (f.args .fmul false)) s
def execFma (f : VF) (s : State) := issueLocal (Instr.fma f).view (encode (.fma f)) (floatBody (f.args .fma false)) s
def execFmin (f : VF) (s : State) :=
  issueLocal (Instr.fmin f).view (encode (.fmin f)) (floatBody (f.args .fmin false)) s
def execFminImm (f : IF) (s : State) :=
  issueLocal (Instr.fminImm f).view (encode (.fminImm f)) (floatBody (f.args .fmin false)) s
def execFmax (f : VF) (s : State) :=
  issueLocal (Instr.fmax f).view (encode (.fmax f)) (floatBody (f.args .fmax false)) s
def execFmaxImm (f : IF) (s : State) :=
  issueLocal (Instr.fmaxImm f).view (encode (.fmaxImm f)) (floatBody (f.args .fmax false)) s
def execFmed3 (f : VF) (s : State) :=
  issueLocal (Instr.fmed3 f).view (encode (.fmed3 f)) (floatBody (f.args .fmed3 false)) s
def execFcmp (f : VF) (s : State) := issueLocal (Instr.fcmp f).view (encode (.fcmp f)) (fcmpBody (f.args .fcmp false)) s
def execFcmpImm (f : IF) (s : State) :=
  issueLocal (Instr.fcmpImm f).view (encode (.fcmpImm f)) (fcmpBody (f.args .fcmp false)) s
def execFdiv (f : VF) (s : State) :=
  issueLocal (Instr.fdiv f).view (encode (.fdiv f)) (floatBody (f.args .fdiv false)) s
def execFrcp (f : VF) (s : State) :=
  issueLocal (Instr.frcp f).view (encode (.frcp f)) (floatBody (f.args .frcp false)) s
def execFsqrt (f : VF) (s : State) :=
  issueLocal (Instr.fsqrt f).view (encode (.fsqrt f)) (floatBody (f.args .fsqrt false)) s
def execFrsq (f : VF) (s : State) :=
  issueLocal (Instr.frsq f).view (encode (.frsq f)) (floatBody (f.args .frsq false)) s
def execFexp2 (f : VF) (s : State) :=
  issueLocal (Instr.fexp2 f).view (encode (.fexp2 f)) (floatBody (f.args .fexp2 false)) s
def execFlog2 (f : VF) (s : State) :=
  issueLocal (Instr.flog2 f).view (encode (.flog2 f)) (floatBody (f.args .flog2 false)) s
def execFsin (f : VF) (s : State) :=
  issueLocal (Instr.fsin f).view (encode (.fsin f)) (floatBody (f.args .fsin false)) s
def execFcos (f : VF) (s : State) :=
  issueLocal (Instr.fcos f).view (encode (.fcos f)) (floatBody (f.args .fcos false)) s
def execFclass (f : VF) (s : State) :=
  issueLocal (Instr.fclass f).view (encode (.fclass f)) (fclassBody (f.args .fclass false)) s
def execFcps (f : VF) (s : State) :=
  issueLocal (Instr.fcps f).view (encode (.fcps f)) (floatBody (f.args .fcps false)) s
def execFcpsImm (f : IF) (s : State) :=
  issueLocal (Instr.fcpsImm f).view (encode (.fcpsImm f)) (floatBody (f.args .fcps false)) s
def execFscl (f : VF) (s : State) :=
  issueLocal (Instr.fscl f).view (encode (.fscl f)) (floatBody (f.args .fscl false)) s
def execFsclImm (f : IF) (s : State) :=
  issueLocal (Instr.fsclImm f).view (encode (.fsclImm f)) (floatBody (f.args .fscl false)) s
def execFrnd (f : VF) (s : State) :=
  issueLocal (Instr.frnd f).view (encode (.frnd f)) (floatBody (f.args .frnd false)) s

end Sys2Proof.Machine
end

