-- ==== Sys2Proof/Machine/Convert.lean ====
section
/-!
DEFINITION. Conversion, packing, quantisation and dot products (R120 to R125, R144 to R148), with the L6 format.
-/

namespace Sys2Proof.Machine

/-! ### L6 (R121 to R123) -/

/-- The table T of R121. -/
def l6Table (f : Nat) : Nat :=
  match f with
  | 0 => 0x800000
  | 1 => 0x9837F0
  | 2 => 0xB504F3
  | _ => 0xD744FD

/-- The magnitude of code e in units of 2^-27. -/
def l6Mag (e : Nat) : Nat := if e = 0 then 0 else l6Table (e % 4) * 2 ^ (e / 4)

/-- The value of an L6 code (R121). -/
def l6Value (x : Nat) : FVal :=
  let e := x % 32
  if e = 0 then .zero false else .fin (32 ≤ x % 64) (l6Mag e) (-27)

/-- The L6 term of two codes (R122). -/
def l6Term (a b : Nat) : Int :=
  if a % 32 = 0 || b % 32 = 0 then 0
  else
    let x : Int := (a % 32 + b % 32 : Nat) - 32
    let i := x.fdiv 4
    let m := l6Table (x - 4 * i).toNat / 2 ^ (7 - i).toNat
    if (32 ≤ a % 64) != (32 ≤ b % 64) then -(m : Int) else m

/-- Whether twice m * 2^e reaches `n` units of 2^-27, or exceeds it. -/
def l6Reaches (m : Nat) (e : Int) (n : Nat) (orEqual : Bool) : Bool :=
  let k := e + 28
  let a := if 0 ≤ k then m * 2 ^ k.toNat else m
  let b := if 0 ≤ k then n else n * 2 ^ (-k).toNat
  b < a || (orEqual && a == b)

/-- `to_l6` (R123). -/
def toL6 (v : FVal) : Nat :=
  match v with
  | .nan => 0
  | .inf s => (if s then 32 else 0) + 31
  | .fin s m e =>
    let top : Int := (bitLen m : Int) + e
    let code := if 8 < top then 31 else if top < -16 then 0
      else ((rangeFrom 1 31).filter fun k => l6Reaches m e (l6Mag (k - 1) + l6Mag k) (k % 2 = 0)).length
    if code = 0 then 0 else (if s then 32 else 0) + code

/-! ### Elements (R120) -/

/-- Bits of an element of a packed type. -/
def elemBits (ty : Nat) : Nat :=
  if ty = tF16 || ty = tBf16 then 16 else if ty = tI4 then 4 else if ty = tL6 then 6
  else if packed ty || ty = tW8 then 8 else tyBits ty

/-- The width of an integer conversion type. -/
def intBits (ty : Nat) : Nat := if ty = tI8 then 8 else if ty = tI4 then 4 else tyBits ty

def intSigned (ty : Nat) : Bool := tySigned ty || ty == tI8 || ty == tI4

/-- The exact value of bits of a type. -/
def exactVal (ty x : Nat) : FVal :=
  if intClass ty then
    .ofInt (if intSigned ty then sext (intBits ty) x else (x % 2 ^ intBits ty : Nat))
  else if ty = tL6 then l6Value x
  else (fmtOf ty).value x

/-! ### `to_type` (R125) -/

/-- A clamp to an integer type's range, as bits. -/
def clampInt (ty : Nat) (t : Int) : Nat :=
  let w := intBits ty
  let lo : Int := if intSigned ty then -(2 ^ (w - 1) : Nat) else 0
  let hi : Int := if intSigned ty then (2 ^ (w - 1) : Nat) - 1 else (2 ^ w : Nat) - 1
  wrapNat w (max lo (min hi t))

/-- A far integer of a sign, beyond every type's range. -/
def farInt (neg : Bool) : Int := if neg then -(2 ^ 80 : Nat) else (2 ^ 80 : Nat)

/-- A real value rounded to an integer in the mode, far values cut short (R125, R147). -/
def realInt (mode : Nat) (v : FVal) : Int :=
  match v with
  | .nan => 0
  | .inf s => farInt s
  | .fin s m e =>
    if 80 < (bitLen m : Int) + e then farInt s
    else
      let r : Int := roundInt mode s m e
      if s then -r else r

/-- `to_type` for a destination type, mode and SAT; `fromInt` is the source's class. -/
def toType (v : FVal) (ty mode : Nat) (sat fromInt : Bool) : Nat :=
  if intClass ty then
    match v with
    | .nan => 0
    | _ =>
      if fromInt then
        match v with
        | .fin s m _ =>
          let t : Int := if s then -(m : Int) else m
          if sat then clampInt ty t else wrapNat (intBits ty) t
        | _ => 0
      else clampInt ty (realInt mode v)
  else if ty = tL6 then toL6 v
  else
    let f := fmtOf ty
    match v with
    | .nan => f.nan
    | .inf s =>
      if sat then f.signed s f.maxBits else if f.inf then f.signed s f.infBits else f.nan
    | .fin s m e =>
      let r := f.roundMag mode s m e
      if r ≤ f.maxBits then f.signed s r
      else if sat then f.signed s f.maxBits
      else if ty = tE4m3 then f.nan
      else if ty = tE5m2 then f.signed s f.infBits
      else f.roundTo mode v

/-! ### CVT, PACK and UNPK (R144 to R146) -/

/-- The bits with element `k` of width `n` replaced. -/
def putElem (x n k v : Nat) : Nat := x - field x (n * k) n * 2 ^ (n * k) + v * 2 ^ (n * k)

/-- The bits CVT converts to: `a` is the source register's or pair's bits, `d` the destination's old ones (R145); the
unused bits of a packed result are zero (R120). -/
def cvtOf (x : VArgs) (mode a d : Nat) : Nat :=
  let src := x.cvtSrc
  let k := x.sub / 16
  let v := if packed src then exactVal src (field a (elemBits src * k) (elemBits src)) else exactVal src a
  let r := toType v x.ty mode x.sat (intClass src)
  if packed x.ty then putElem (d % 2 ^ (elements x.ty * elemBits x.ty)) (elemBits x.ty) k r else r

/-- CVT (R145). -/
def cvtBody (x : VArgs) : WaveBody := fun c w =>
  let mode := modeOf w x.round
  .ok (c.writeTy w x.d (c.uniform w x.operands) x.ty fun l =>
    cvtOf x mode (c.bits w x.cvtSrc x.a l) (c.lane w x.d l).toNat)

/-- Elements packed side by side from element 0 up. -/
def packElems (n : Nat) : List Nat → Nat
  | [] => 0
  | e :: es => e + 2 ^ n * packElems n es

/-- PACK (R146). -/
def packBody (x : VArgs) : WaveBody := fun c w =>
  let mode := modeOf w x.round
  let src := VArgs.groupTy x.ty
  .ok (c.writeTy w x.d (c.uniform w x.operands) x.ty fun l =>
    packElems (elemBits x.ty) ((List.range (elements x.ty)).map fun k =>
      toType (exactVal src (c.lane w (x.a + k) l).toNat) x.ty mode x.sat (intClass src)))

/-- The writes of a group of registers from `d`; 1023 discards (R146). -/
def writeGroup (c : Ctx) (w : Wave) (d n : Nat) (allU : Bool) (ty : Nat) (f : Nat → Nat → Nat) : Wave :=
  if d = 1023 then w
  else (List.range n).foldl (fun w' k => c.writeTy w' (d + k) allU ty fun l => f k l) w

/-- UNPK (R146). -/
def unpkBody (x : VArgs) : WaveBody := fun c w =>
  let dst := VArgs.groupTy x.ty
  let n := elemBits x.ty
  .ok (writeGroup c w x.d (elements x.ty) (c.uniform w x.operands) dst fun k l =>
    toType (exactVal x.ty (field (c.lane w x.a l).toNat (n * k) n)) dst 0 false (intClass x.ty))

/-! ### QNT and DQNT (R124, R147) -/

/-- The scale and the zero point of an affine pair (R124). -/
def pairScale (p : Nat) : Int := (p % 256 : Nat)
def pairZero (p : Nat) : Int := sext 8 (field p 8 8)

/-- Whether some active lane's zero point is not allowed by the type (R124). -/
def zeroBad (c : Ctx) (w : Wave) (x : VArgs) : Bool :=
  !(x.ty == tI8 || x.ty == tI4) && c.lanes.any fun l => pairZero (c.lane w x.b l).toNat != 0

/-- One code of a QNT (R147). -/
def quantOf (ty mode : Nat) (sat : Bool) (x p : Nat) : Nat :=
  let v := (fp32.value x).scale (127 - pairScale p)
  if ty = tI8 || ty = tI4 then
    (if v.isNan then wrapNat (intBits ty) (pairZero p) else clampInt ty (realInt mode v + pairZero p))
  else toType v ty mode sat false

/-- The value of a code of a block, scaled (R124). -/
def blockVal (ty q : Nat) (s z : Int) : FVal :=
  let v := if intClass ty then .ofInt (sext (intBits ty) q - z) else exactVal ty q
  v.scale (s - 127)

/-- QNT (R147). -/
def qntBody (x : VArgs) : WaveBody := fun c w =>
  if zeroBad c w x then .error (.emu 7 0)
  else
    let mode := modeOf w x.round
    .ok (c.writeTy w x.d (c.uniform w x.operands) x.ty fun l =>
      packElems (elemBits x.ty) ((List.range (elements x.ty)).map fun k =>
        quantOf x.ty mode x.sat (c.lane w (x.a + k) l).toNat (c.lane w x.b l).toNat))

/-- DQNT (R147). -/
def dqntBody (x : VArgs) : WaveBody := fun c w =>
  if zeroBad c w x then .error (.emu 7 0)
  else
    let mode := modeOf w x.round
    let n := elemBits x.ty
    .ok (writeGroup c w x.d (elements x.ty) (c.uniform w x.operands) tF32 fun k l =>
      let p := (c.lane w x.b l).toNat
      toType (blockVal x.ty (field (c.lane w x.a l).toNat (n * k) n) (pairScale p) (pairZero p)) tF32 mode x.sat false)

/-! ### Dot products (R148) -/

/-- FDOT2 (R148): rounded once. -/
def fdot2Of (ty mode : Nat) (sat : Bool) (a b z : Nat) : Nat :=
  let f := fmtOf ty
  let p (k : Nat) : FVal := (f.value (elem a 16 k)).mul (f.value (elem b 16 k))
  let r := fp32.roundTo mode (((p 0).add mode (p 1)).add mode (fp32.value z))
  if sat then clampUnit fp32 r else r

/-- The sum of products of IDOT4 (R148). -/
def idotSum (ty a b : Nat) : Int :=
  let n := elemBits ty
  let v (x : Nat) : Int := if ty = tW8 then (x : Int) else sext n x
  ((List.range (elements ty)).map fun k => v (field a (n * k) n) * v (field b (n * k) n)).sum

/-- The sum of terms of LDOT (R122, R148). -/
def ldotSum (a b : Nat) : Int := ((List.range 4).map fun k => l6Term (elem a 6 k) (elem b 6 k)).sum

def dotTy (ty : Nat) : Nat := if ty = tF16 || ty = tBf16 then tF32 else if ty = tW8 then tW32 else tI32

/-- The three dot products (R148). -/
def dotBody (x : VArgs) : WaveBody := fun c w =>
  let mode := modeOf w x.round
  let t := dotTy x.ty
  .ok (c.writeTy w x.d (c.uniform w x.operands) t fun l =>
    let a := (c.lane w x.a l).toNat
    let b := (c.lane w x.b l).toNat
    let z := (c.lane w x.c l).toNat
    match x.op with
    | .fdot2 => fdot2Of x.ty mode x.sat a b z
    | .idot4 => finish t x.sat (tyVal t z + idotSum x.ty a b)
    | _ => finish t x.sat (tyVal t z + ldotSum a b))

def execCvt (f : VF) (s : State) := issueLocal (Instr.cvt f).view (encode (.cvt f)) (cvtBody (f.args .cvt false)) s
def execPack (f : VF) (s : State) := issueLocal (Instr.pack f).view (encode (.pack f)) (packBody (f.args .pack false)) s
def execUnpk (f : VF) (s : State) := issueLocal (Instr.unpk f).view (encode (.unpk f)) (unpkBody (f.args .unpk false)) s
def execQnt (f : VF) (s : State) := issueLocal (Instr.qnt f).view (encode (.qnt f)) (qntBody (f.args .qnt false)) s
def execDqnt (f : VF) (s : State) := issueLocal (Instr.dqnt f).view (encode (.dqnt f)) (dqntBody (f.args .dqnt false)) s
def execFdot2 (f : VF) (s : State) :=
  issueLocal (Instr.fdot2 f).view (encode (.fdot2 f)) (dotBody (f.args .fdot2 false)) s
def execIdot4 (f : VF) (s : State) :=
  issueLocal (Instr.idot4 f).view (encode (.idot4 f)) (dotBody (f.args .idot4 false)) s
def execLdot (f : VF) (s : State) := issueLocal (Instr.ldot f).view (encode (.ldot f)) (dotBody (f.args .ldot false)) s

end Sys2Proof.Machine
end

