-- ==== Sys2Proof/Machine/LaneOps.lean ====
section
/-!
DEFINITION. Lanes: shuffles (R149 to R153), votes and matching (R155), reductions, scans and compaction (R156 to R160),
lanes and group-wide registers (R162), predicates (R164), masks, shapes and formats (R166).
-/

namespace Sys2Proof.Machine

/-! ### Reading another lane (R149, R150) -/

/-- `read_lane` as TYPE has it: a dead lane reads 0. -/
def readLane (c : Ctx) (w : Wave) (ty n l : Nat) : Nat := if w.dead.getLsbD l then 0 else c.bits w ty n l

/-- The wave with the poison bit set if an instruction read a dead lane (R150). -/
def Wave.poisonIf (w : Wave) (dead : Bool) : Wave := if dead then { w with pois := true } else w

/-! ### Shuffles (R152, R153) -/

/-- Writes of values read from other lanes: all are read before any is written. -/
def moveLanes (c : Ctx) (w : Wave) (x : VArgs) (u : Bool) (src : Nat → Nat) : Wave :=
  let dead := c.lanes.any fun l => w.dead.getLsbD (src l)
  let v (l : Nat) : Nat := readLane c w x.ty x.a (src l)
  (if u then c.writeTy w x.d true x.ty fun _ => v c.lowest else c.writeTy w x.d false x.ty v).poisonIf dead

/-- SHFL (R152, R153). -/
def shflBody (x : VArgs) : WaveBody := fun c w =>
  let n (l : Nat) : Nat := c.countB w x l
  let src (l : Nat) : Nat := shuffleFrom x.sub (n l) l
  let noDead := c.lanes.all fun l => !w.dead.getLsbD (src l)
  let one := x.sub = 5 * 8 && (x.imm.isSome || c.allU w x.b 1) && !w.dead.getLsbD (n c.lowest % 32)
  .ok (moveLanes c w x ((c.allU w x.a (tyRegs x.ty) && noDead) || one) src)

/-- SWZ (R152, R153). -/
def swzBody (x : VArgs) : WaveBody := fun c w =>
  let src (l : Nat) : Nat := l - l % 4 + field x.sub (2 * (l % 4)) 2
  let noDead := c.lanes.all fun l => !w.dead.getLsbD (src l)
  .ok (moveLanes c w x (c.allU w x.a (tyRegs x.ty) && noDead) src)

/-! ### Votes and matching (R155) -/

def voteBody (x : VArgs) : WaveBody := fun c w =>
  .ok (c.writeP w x.d (if voteCond x.sub (c.readP w x.a) c.act then Mask.all else 0))

/-- A uniform W32 result. -/
def Ctx.writeU (c : Ctx) (w : Wave) (d n : Nat) : Wave := c.writeTy w d true tW32 fun _ => n

def ballotBody (x : VArgs) : WaveBody := fun c w => .ok (c.writeU w x.d (c.readP w x.a &&& c.act).toNat)

def matchBody (x : VArgs) : WaveBody := fun c w =>
  let v (l : Nat) : Nat := c.bits w x.ty x.a l
  .ok (c.writeTy w x.d (c.allU w x.a (tyRegs x.ty)) tW32 fun l =>
    (Mask.of fun m => c.act.getLsbD m && v m == v (if c.allU w x.a (tyRegs x.ty) then c.lowest else l)).toNat)

def electBody (x : VArgs) : WaveBody := fun c w => .ok (c.writeP w x.d (Mask.one c.lowest))

def flaneBody (x : VArgs) : WaveBody := fun c w =>
  let s := (c.readP w x.a &&& c.act).lanes
  let t := match if x.sub = 0 then s.head? else s.getLast? with
    | some l => l
    | none => 0xFFFFFFFF
  .ok (c.writeU w x.d t)

/-! ### Reductions and scans (R157 to R159) -/

/-- The exact combination of values by a reduction code, in the TYPE's signedness (R157). -/
def redInt (ty code : Nat) (vs : List Nat) : Int :=
  let w := tyBits ty
  let hi : Int := if tySigned ty then (2 ^ (w - 1) : Nat) - 1 else (2 ^ w : Nat) - 1
  let lo : Int := if tySigned ty then -(2 ^ (w - 1) : Nat) else 0
  match code with
  | 0 => (vs.map (tyVal ty)).sum
  | 1 => vs.foldl (fun t v => min t (tyVal ty v)) hi
  | 2 => vs.foldl (fun t v => max t (tyVal ty v)) lo
  | 3 => (vs.foldl (fun t v => t &&& v) (2 ^ w - 1) : Nat)
  | 4 => (vs.foldl (fun t v => t ||| v) 0 : Nat)
  | _ => (vs.foldl (fun t v => t ^^^ v) 0 : Nat)

def rediBody (x : VArgs) : WaveBody := fun c w =>
  let t := finish x.ty x.sat (redInt x.ty x.sub (c.lanes.map fun l => c.bits w x.ty x.a l))
  .ok (c.writeTy w x.d true x.ty fun _ => t)

/-- The active lanes a scan combines for lane `l`: up to it, or before it (R157, R159). -/
def scanLanes (c : Ctx) (exclusive : Bool) (l : Nat) : List Nat :=
  c.lanes.filter fun m => if exclusive then m < l else m ≤ l

def scaniBody (x : VArgs) : WaveBody := fun c w =>
  .ok (c.writeTy w x.d false x.ty fun l =>
    finish x.ty x.sat (redInt x.ty (x.sub % 8) ((scanLanes c (8 ≤ x.sub) l).map fun m => c.bits w x.ty x.a m)))

/-- One step of a floating reduction (R158). -/
def redFloat (f : FFmt) (mode code a b : Nat) : Nat :=
  match code with
  | 0 => floatOf .fadd f mode false a b 0 0
  | 1 => minMaxOf f false a b
  | _ => minMaxOf f true a b

/-- One level of the tree: neighbouring nodes joined (R158). -/
def treeLevel (op : Nat → Nat → Nat) : List (Option Nat) → List (Option Nat)
  | a :: b :: rest =>
    (match a, b with
      | some x, some y => some (op x y)
      | some x, none => some x
      | none, y => y) :: treeLevel op rest
  | l => l

/-- The value of the tree over lanes 0 to 31 (R158). -/
def treeOf (op : Nat → Nat → Nat) (leaves : List (Option Nat)) : Nat :=
  (((List.range 5).foldl (fun l _ => treeLevel op l) leaves).head?.bind id).getD 0

/-- A floating result with every NaN as the canonical one (R116). -/
def canonical (f : FFmt) (x : Nat) : Nat :=
  match f.value x with
  | .nan => f.nan
  | _ => x

/-- The source of a floating reduction with its modifiers (R156). -/
def redSrc (c : Ctx) (w : Wave) (x : VArgs) (l : Nat) : Nat :=
  modBits (fmtOf x.ty) (x.neg.testBit 0) (x.abs.testBit 0) (c.bits w x.ty x.a l)

def redfBody (x : VArgs) : WaveBody := fun c w =>
  let mode := modeOf w x.round
  let t := treeOf (redFloat (fmtOf x.ty) mode x.sub)
    (laneList.map fun l => if c.act.getLsbD l then some (redSrc c w x l) else none)
  .ok (c.writeTy w x.d true x.ty fun _ => canonical (fmtOf x.ty) t)

/-- The value an exclusive floating scan gives its first lane (R159). -/
def scanStart (f : FFmt) (code : Nat) : Nat :=
  match code with
  | 0 => 0
  | 1 => f.infBits
  | _ => f.signBit + f.infBits

/-- The inclusive results of a floating scan over values in lane order (R159). -/
def scanSteps (op : Nat → Nat → Nat) : Option Nat → List Nat → List Nat
  | _, [] => []
  | none, v :: vs => v :: scanSteps op (some v) vs
  | some p, v :: vs => op p v :: scanSteps op (some (op p v)) vs

def scanfBody (x : VArgs) : WaveBody := fun c w =>
  let f := fmtOf x.ty
  let code := x.sub % 8
  let inc := scanSteps (redFloat f (modeOf w x.round) code) none (c.lanes.map (redSrc c w x))
  let res := if 8 ≤ x.sub then scanStart f code :: inc else inc
  let m := c.lanes.zip (res.map (canonical f))
  .ok (c.writeTy w x.d false x.ty fun l => kgetD m l 0)

def scanpBody (x : VArgs) : WaveBody := fun c w =>
  let p := c.readP w x.a
  .ok (c.writeTy w x.d false tW32 fun l => ((scanLanes c (8 ≤ x.sub) l).filter fun m => p.getLsbD m).length)

/-! ### Compaction (R160) -/

/-- The active lanes whose predicate C is set, ascending. -/
def selected (c : Ctx) (w : Wave) (x : VArgs) : List Nat := (c.readP w x.c &&& c.act).lanes

def cmpctBody (x : VArgs) : WaveBody := fun c w =>
  let m := c.lanes.zip (selected c w x)
  .ok (c.writeTy w x.d false x.ty fun l => match kget m l with | some s => c.bits w x.ty x.a s | none => 0)

def expndBody (x : VArgs) : WaveBody := fun c w =>
  let m := (selected c w x).zip c.lanes
  .ok (c.writeTy w x.d false x.ty fun l => match kget m l with | some s => c.bits w x.ty x.a s | none => 0)

/-! ### Lanes and group-wide registers (R162) -/

def rdlaneBody (x : VArgs) : WaveBody := fun c w =>
  let n := c.countB w x c.lowest % 32
  .ok ((c.writeG w x.d (BitVec.ofNat 64 (readLane c w x.ty x.a n))).poisonIf (w.dead.getLsbD n))

def wrlaneBody (x : VArgs) : WaveBody := fun c w =>
  let n := c.countB w x c.lowest % 32
  if w.dead.getLsbD n then .ok w
  else .ok ({ c with act := Mask.one n }.writeTy w x.d false x.ty fun _ => (c.readG w x.a).toNat)

def bcstBody (x : VArgs) : WaveBody := fun c w => .ok (c.writeTy w x.d true x.ty fun _ => (c.readG w x.a).toNat)

/-! ### Predicates (R164) -/

def plopBody (x : VArgs) : WaveBody := fun c w =>
  .ok (c.writeP w x.d (tableMask x.sub (c.readP w x.a) (c.readP w x.b) (c.readP w x.c)))

def plopGroupBody (x : VArgs) : WaveBody := fun c w =>
  .ok (c.writeQ w x.d (table3 x.sub (c.readQ w x.a) (c.readQ w x.b) (c.readQ w x.c)))

def pcntBody (x : VArgs) : WaveBody := fun c w => .ok (c.writeU w x.d (c.readP w x.a &&& c.act).count)

/-- The predicates a group of 32 reaches: eight in a handler (R164). -/
def predCount (c : Ctx) : Nat := if c.handler then 8 else 32

def p2rBody (x : VArgs) : WaveBody := fun c w =>
  .ok (c.writeTy w x.d false tW32 fun l =>
    ((List.range (predCount c)).map fun j => if (c.readP w (x.a + j)).getLsbD l then 2 ^ j else 0).sum)

def movrpBody (x : VArgs) : WaveBody := fun c w =>
  .ok ((List.range (predCount c)).foldl (fun w' j =>
    c.writeP w' (x.d + j) (Mask.of fun l => (c.lane w x.a l).getLsbD j)) w)

/-! ### Masks, shapes and formats (R166) -/

def shpqBody (x : VArgs) : WaveBody := fun c w => .ok (c.writeU w x.d (c.readV w x.a).val.code)
def fmtqBody (x : VArgs) : WaveBody := fun c w => .ok (c.writeU w x.d (c.readV w x.a).fmt)

/-- One register replaced with its value kept. -/
def Wave.reshape (w : Wave) (n : Nat) (f : VVal → VVal) : Wave :=
  let b := w.bank
  let r := b.reg n
  w.setBank { b with v := kset b.v n ⟨f r.val, r.fmt⟩ }

def shpxBody (x : VArgs) : WaveBody := fun _ w =>
  .ok (if x.d = 1023 then w else (rangeFrom x.d (tyRegs x.ty)).foldl (fun w n => w.reshape n fun v => .g v.lanes) w)

/-- A general value as a uniform or affine one where all 32 lanes allow it (R166). -/
def VVal.compact (v : VVal) : VVal :=
  match v with
  | .g x =>
    let a := x.at 0
    let st := x.at 1 - a
    if laneList.all fun l => x.at l == a then .u a
    else if laneList.all fun l => x.at l == a + BitVec.ofNat 32 l * st then .a a st
    else v
  | _ => v

def shpcBody (x : VArgs) : WaveBody := fun _ w =>
  .ok (if x.d = 1023 then w else (rangeFrom x.d (tyRegs x.ty)).foldl (fun w n =>
    if w.bank.tagsOf (n / 4) ≠ 0 then w else w.reshape n VVal.compact) w)

def fmtsBody (x : VArgs) : WaveBody := fun _ w =>
  let b := w.bank
  .ok (if x.d = 1023 then w else w.setBank { b with v := kset b.v x.d ⟨(b.reg x.d).val, x.sub⟩ })

def actqBody (x : VArgs) : WaveBody := fun c w => .ok (c.writeU w x.d c.act.toNat)
def deadqBody (x : VArgs) : WaveBody := fun c w => .ok (c.writeU w x.d w.dead.toNat)

def poisqBody (x : VArgs) : WaveBody := fun c w =>
  let w1 := c.writeU w x.d (if w.pois then 1 else 0)
  .ok (if x.sub = 1 then { w1 with pois := false } else w1)

def execShfl (f : VF) (s : State) := issueLocal (Instr.shfl f).view (encode (.shfl f)) (shflBody (f.args .shfl false)) s
def execShflImm (f : IF) (s : State) :=
  issueLocal (Instr.shflImm f).view (encode (.shflImm f)) (shflBody (f.args .shfl false)) s
def execSwz (f : VF) (s : State) := issueLocal (Instr.swz f).view (encode (.swz f)) (swzBody (f.args .swz false)) s
def execVote (f : VF) (s : State) := issueLocal (Instr.vote f).view (encode (.vote f)) (voteBody (f.args .vote false)) s
def execBallot (f : VF) (s : State) :=
  issueLocal (Instr.ballot f).view (encode (.ballot f)) (ballotBody (f.args .ballot false)) s
def execMatchLanes (f : VF) (s : State) :=
  issueLocal (Instr.matchLanes f).view (encode (.matchLanes f)) (matchBody (f.args .matchLanes false)) s
def execElect (f : VF) (s : State) :=
  issueLocal (Instr.elect f).view (encode (.elect f)) (electBody (f.args .elect false)) s
def execFlane (f : VF) (s : State) :=
  issueLocal (Instr.flane f).view (encode (.flane f)) (flaneBody (f.args .flane false)) s
def execRedi (f : VF) (s : State) := issueLocal (Instr.redi f).view (encode (.redi f)) (rediBody (f.args .redi false)) s
def execRedf (f : VF) (s : State) := issueLocal (Instr.redf f).view (encode (.redf f)) (redfBody (f.args .redf false)) s
def execScani (f : VF) (s : State) :=
  issueLocal (Instr.scani f).view (encode (.scani f)) (scaniBody (f.args .scani false)) s
def execScanf (f : VF) (s : State) :=
  issueLocal (Instr.scanf f).view (encode (.scanf f)) (scanfBody (f.args .scanf false)) s
def execScanp (f : VF) (s : State) :=
  issueLocal (Instr.scanp f).view (encode (.scanp f)) (scanpBody (f.args .scanp false)) s
def execCmpct (f : VF) (s : State) :=
  issueLocal (Instr.cmpct f).view (encode (.cmpct f)) (cmpctBody (f.args .cmpct false)) s
def execExpnd (f : VF) (s : State) :=
  issueLocal (Instr.expnd f).view (encode (.expnd f)) (expndBody (f.args .expnd false)) s
def execRdlane (f : VF) (s : State) :=
  issueLocal (Instr.rdlane f).view (encode (.rdlane f)) (rdlaneBody (f.args .rdlane false)) s
def execRdlaneImm (f : IF) (s : State) :=
  issueLocal (Instr.rdlaneImm f).view (encode (.rdlaneImm f)) (rdlaneBody (f.args .rdlane false)) s
def execWrlane (f : VF) (s : State) :=
  issueLocal (Instr.wrlane f).view (encode (.wrlane f)) (wrlaneBody (f.args .wrlane false)) s
def execWrlaneImm (f : IF) (s : State) :=
  issueLocal (Instr.wrlaneImm f).view (encode (.wrlaneImm f)) (wrlaneBody (f.args .wrlane false)) s
def execBcst (f : VF) (s : State) := issueLocal (Instr.bcst f).view (encode (.bcst f)) (bcstBody (f.args .bcst false)) s
def execPlop (f : VF) (s : State) := issueLocal (Instr.plop f).view (encode (.plop f)) (plopBody (f.args .plop false)) s
def execPcnt (f : VF) (s : State) := issueLocal (Instr.pcnt f).view (encode (.pcnt f)) (pcntBody (f.args .pcnt false)) s
def execP2r (f : VF) (s : State) := issueLocal (Instr.p2r f).view (encode (.p2r f)) (p2rBody (f.args .p2r false)) s
def execMovrp (f : VF) (s : State) :=
  issueLocal (Instr.movrp f).view (encode (.movrp f)) (movrpBody (f.args .movrp false)) s
def execShpq (f : VF) (s : State) := issueLocal (Instr.shpq f).view (encode (.shpq f)) (shpqBody (f.args .shpq false)) s
def execShpx (f : VF) (s : State) := issueLocal (Instr.shpx f).view (encode (.shpx f)) (shpxBody (f.args .shpx false)) s
def execShpc (f : VF) (s : State) := issueLocal (Instr.shpc f).view (encode (.shpc f)) (shpcBody (f.args .shpc false)) s
def execFmtq (f : VF) (s : State) := issueLocal (Instr.fmtq f).view (encode (.fmtq f)) (fmtqBody (f.args .fmtq false)) s
def execFmts (f : VF) (s : State) := issueLocal (Instr.fmts f).view (encode (.fmts f)) (fmtsBody (f.args .fmts false)) s
def execActq (f : VF) (s : State) := issueLocal (Instr.actq f).view (encode (.actq f)) (actqBody (f.args .actq false)) s
def execDeadq (f : VF) (s : State) :=
  issueLocal (Instr.deadq f).view (encode (.deadq f)) (deadqBody (f.args .deadq false)) s
def execPoisq (f : VF) (s : State) :=
  issueLocal (Instr.poisq f).view (encode (.poisq f)) (poisqBody (f.args .poisq false)) s
def execPlopGroupWide (f : VF) (s : State) :=
  issueLocal (Instr.plopGroupWide f).view (encode (.plopGroupWide f)) (plopGroupBody (f.args .plop true)) s

end Sys2Proof.Machine
end

