-- ==== Sys2Proof/Machine/Caps.lean ====
section
/-!
DEFINITION. Capabilities: their fields and bounds (R182 to R188), the checks of every access (R193 to R195) and the
capability instructions (R199 to R207).
-/

namespace Sys2Proof.Machine

/-! ### Fields (R182) -/

def capExp (b : BitVec 128) : Nat := field b.toNat 84 5
def capLenm (b : BitVec 128) : Nat := field b.toNat 108 19
def capDown (b : BitVec 128) : Nat := field b.toNat 89 19
def capClass (b : BitVec 128) : Nat := field b.toNat 82 2
def capPerms (b : BitVec 128) : Nat := field b.toNat 70 12
def capOtype (b : BitVec 128) : Nat := field b.toNat 64 6
def capColour (b : BitVec 128) : Nat := field b.toNat 56 8

/-- The bits with `n` at the `len` bits from `lo` up. -/
def setField (b : BitVec 128) (lo len n : Nat) : BitVec 128 :=
  BitVec.ofNat 128 (b.toNat - field b.toNat lo len * 2 ^ lo + n % 2 ^ len * 2 ^ lo)

/-- The permissions as mask bits (R183). -/
def permLoad : Nat := 0x001
def permStore : Nat := 0x002
def permLoadCap : Nat := 0x004
def permStoreCap : Nat := 0x008
def permExec : Nat := 0x010
def permAtomic : Nat := 0x020
def permGlobal : Nat := 0x040
def permSeal : Nat := 0x080
def permUnseal : Nat := 0x100
def permInvoke : Nat := 0x200
def permRemote : Nat := 0x400
def permSystem : Nat := 0x800

/-- The permissions that grant authority: SYSTEM reads as clear on a tenant's colour (R183). -/
def capGrants (b : BitVec 128) : Nat :=
  if capColour b = 0 then capPerms b else capPerms b % permSystem

def holds (perms need : Nat) : Bool := perms &&& need == need

/-- A capability's bits from its fields (R182). -/
def capMake (lenm down exp cls perms otype colour cursor : Nat) : BitVec 128 :=
  BitVec.ofNat 128 (lenm * 2 ^ 108 + down * 2 ^ 89 + exp * 2 ^ 84 + cls * 2 ^ 82 + perms * 2 ^ 70 + otype * 2 ^ 64
    + colour * 2 ^ 56 + cursor)

/-! ### Bounds (R186 to R188) -/

/-- `encode(b, L)` (R188): the exponent, the length mantissa, and the bounds it gives. -/
structure Encoded where
  exp : Nat
  lenm : Nat
  base : Nat
  top : Nat
  exact : Bool
deriving DecidableEq, Repr

/-- The rounding of bounds outward to multiples of 2^e. -/
def encodeAt (b l e : Nat) : Encoded :=
  let b2 := b / 2 ^ e * 2 ^ e
  let t2 := (b + l + 2 ^ e - 1) / 2 ^ e * 2 ^ e
  { exp := e, lenm := (t2 - b2) / 2 ^ e, base := b2, top := t2, exact := b2 == b && t2 == b + l }

def encodeBounds (b l : Nat) : Option Encoded :=
  if l < 2 ^ 19 then some (encodeAt b l 0)
  else ((rangeFrom 1 29).map (encodeAt b l)).find? fun x => x.top - x.base < 2 ^ (x.exp + 19)

/-! ### The checks of R195 -/

/-- Who makes an access: its colour (the core's latch), and the core group that check 10 holds it to, if any. -/
structure Agent where
  colour : Nat
  group : Option Nat
deriving DecidableEq, Repr

/-- The ranges of the local address space (R193). -/
inductive Range where
  | hbm | host | device | unmapped
deriving DecidableEq, Repr

def rangeOf (a : Nat) : Range :=
  if a < 0x6000000000 then .hbm
  else if 0x8000000000 ≤ a && a < 0x800000000000 then .host
  else if 0xFF0000000000 ≤ a && a < 0xFF0004000000 then .device
  else .unmapped

/-- The device an address names and the address within it (R193). -/
def devOf (a : Nat) : Nat := a / 2 ^ 48 % 256
def localOf (a : Nat) : Nat := a % 2 ^ 48

/-- Check 10 on a granule (R195). -/
def homeOk (g : Granule) (group : Option Nat) : Bool := g.home != 2 || group == some g.pincg

/-- Checks 8 to 11 on one granule. -/
def granuleCheck (g : Granule) (agent : Agent) (colour cls : Nat) : Option Nat :=
  if g.state != 1 || g.owner != colour then some 8
  else if cls != g.cls then some 9
  else if !homeOk g agent.group then some 10
  else if g.revoked then some 11
  else none

/-- The granules of the `n` bytes from `a`. -/
def granulesOf (a n : Nat) : List Nat := rangeFrom (a / 65536) ((a + n - 1) / 65536 - a / 65536 + 1)

/-- Checks 7 to 11 at the part that owns the address (R194, R195). -/
def State.mapCheck (s : State) (agent : Agent) (colour cls a n : Nat) : Option Nat :=
  match rangeOf a with
  | .unmapped => some 7
  | .host | .device => if cls != 0 then some 9 else none
  | .hbm =>
    let gs := (granulesOf a n).map fun k => s.granuleNo k
    ([8, 9, 10, 11].find? fun k => gs.any fun g => granuleCheck g agent colour cls == some k)

/-- What an access asks of its capability: permissions, alignment, bytes, and the value an STC stores. -/
structure Ask where
  need : Nat
  align : Nat
  size : Nat
  stored : Option Cap
deriving DecidableEq, Repr

/-- Whether an address is remote (R193). -/
def State.isRemote (s : State) (a : Nat) : Bool := devOf a != s.devid

/-- Checks 12 and 13 of an STC's value, made at the issuing LSU on a remote target too (R194, R195). -/
def storedCheck (stored : Option Cap) (hbm : Bool) (colour : Nat) : Option Nat :=
  match stored with
  | none => none
  | some v =>
    if !v.tag then none
    else if !holds (capPerms v.bits) permGlobal then some 12
    else if !hbm || capColour v.bits ≠ colour then some 13
    else none

/-- The first check of R195 that an access fails: its check code. Checks 7 to 11 of a remote access are its owner's (R194). DESIGN
CHOICE: an address outside 0 to 2^56 - 1, which fails check 6 at the latest, is taken for the device its low 56 bits name in check 3
(entry 68 of the log). -/
def State.check (s : State) (agent : Agent) (q : Ask) (c : Cap) (addr : Int) : Option Nat :=
  let b := c.bits
  let a := wrapNat 56 addr
  let remote := s.isRemote a
  let need := q.need ||| (if remote then permRemote else 0)
    ||| (if !remote && rangeOf (localOf a) == .device then permSystem else 0)
  if !c.tag then some 1
  else if capOtype b ≠ 0 then some 2
  else if !holds (capGrants b) need then some 3
  else if capColour b ≠ agent.colour then some 4
  else if addr % q.align ≠ 0 then some 5
  else if addr < capBase b || capTop b < addr + q.size then some 6
  else match if remote then none else s.mapCheck agent (capColour b) (capClass b) (localOf a) q.size with
    | some k => some k
    | none => storedCheck q.stored (rangeOf (localOf a) == .hbm) (capColour b)

/-! ### The capability instructions (R199 to R207) -/

/-- A value operand of a capability instruction: its number, and whether it is uniform (R200). -/
def Ctx.capValue (c : Ctx) (w : Wave) (x : VArgs) (l : Nat) : Nat :=
  if wide x.ty then (c.lane64 w x.b l).toNat else (c.lane w x.b l).toNat

/-- A derivation of a quad from a quad and B (R200): its shape is U when every source register is uniform. -/
def capDerive (x : VArgs) (bRegs : Nat) (f : Ctx → Wave → Nat → Cap → Cap) : WaveBody := fun c w =>
  let u := c.allU w x.a 4 && c.allU w x.b bRegs
  .ok (c.writeQuad w x.d u fun l => f c w l (c.quadCap w x.a l))

/-- CBND of one lane (R201). -/
def cbndOf (ex : Bool) (c : Cap) (len : Nat) : Cap :=
  let b := capCursor c.bits
  match encodeBounds b len with
  | none => ⟨c.bits, false⟩
  | some x =>
    let r := setField (setField (setField c.bits 84 5 x.exp) 89 19 0) 108 19 x.lenm
    ⟨r, c.tag && capOtype c.bits = 0 && capBase c.bits ≤ x.base && x.top ≤ capTop c.bits && (!ex || x.exact)⟩

/-- The capability with its cursor at `n` (R202). -/
def capMove (c : Cap) (n : Int) : Cap :=
  let e := capExp c.bits
  let base := capBase c.bits
  let down := wrapNat 19 ((n - n % (2 ^ e : Nat) - base) / (2 ^ e : Nat))
  let r := setField (setField c.bits 0 56 (wrapNat 56 n)) 89 19 down
  ⟨r, c.tag && capOtype c.bits = 0 && base ≤ n && n < base + (2 ^ (e + 19) : Nat)⟩

/-- A sealer (R204). -/
def isSealer (k : Cap) : Bool :=
  let t := capOtype k.bits
  k.tag && (16 ≤ t || (1 ≤ t && t ≤ 5 && holds (capGrants k.bits) permSystem))
    && (capPerms k.bits &&& (permSeal ||| permUnseal)) != 0

/-- Whether `k` can seal or unseal capabilities of `c`'s colour (R204). -/
def sealerOf (c k : Cap) : Bool :=
  let t := capOtype k.bits
  k.tag && capColour k.bits = capColour c.bits
    && (16 ≤ t || (1 ≤ t && t ≤ 5 && holds (capGrants k.bits) permSystem))

/-- CPERM of one lane (R203). -/
def cpermOf (c : Cap) (mask : Nat) : Cap :=
  let p := capPerms c.bits &&& mask % 4096
  ⟨setField c.bits 70 12 p,
   c.tag && (capOtype c.bits = 0 || (isSealer c && (p &&& (permSeal ||| permUnseal)) != 0))⟩

/-- CSEAL of one lane (R204). -/
def csealOf (c k : Cap) : Cap :=
  let both := permSeal ||| permUnseal
  let p := capPerms c.bits &&& ((4095 - both) ||| (capPerms k.bits &&& both))
  ⟨setField (setField c.bits 64 6 (capOtype k.bits)) 70 12 p,
   c.tag && capOtype c.bits = 0 && sealerOf c k && holds (capPerms k.bits) permSeal⟩

/-- CUNSL of one lane (R204). -/
def cunslOf (c k : Cap) : Cap :=
  let p := capPerms c.bits &&& ((4095 - permGlobal) ||| (capPerms k.bits &&& permGlobal))
  ⟨setField (setField c.bits 64 6 0) 70 12 p,
   c.tag && capOtype c.bits ≠ 0 && sealerOf c k && holds (capPerms k.bits) permUnseal
     && capOtype k.bits = capOtype c.bits⟩

/-- The field CGET reads (R205). -/
def cgetOf (sub : Nat) (c : Cap) : Dword :=
  let b := c.bits
  match sub with
  | 0 => BitVec.ofNat 64 (capCursor b)
  | 1 => BitVec.ofInt 64 (capBase b)
  | 2 => BitVec.ofInt 64 (capTop b)
  | 3 => BitVec.ofInt 64 (capTop b - capBase b)
  | 4 => BitVec.ofNat 64 (capColour b)
  | 5 => BitVec.ofNat 64 (capOtype b)
  | 6 => BitVec.ofNat 64 (capPerms b)
  | 7 => BitVec.ofNat 64 (capClass b)
  | 8 => BitVec.ofNat 64 (capExp b)
  | _ => if c.tag then 1 else 0

/-- CTEST.SUB (R206). -/
def capSubset (c k : Cap) : Bool :=
  c.tag && k.tag && capColour c.bits = capColour k.bits && capClass c.bits = capClass k.bits
    && capOtype c.bits = capOtype k.bits && holds (capPerms k.bits) (capPerms c.bits)
    && capBase k.bits ≤ capBase c.bits && capTop c.bits ≤ capTop k.bits

def cbndBody (x : VArgs) : WaveBody :=
  capDerive x (tyRegs x.ty) fun c w l k => cbndOf (x.sub.testBit 0) k (c.capValue w x l)

def caddBody (x : VArgs) : WaveBody :=
  capDerive x (tyRegs x.ty) fun c w l k =>
    capMove k (capCursor k.bits + sext (if wide x.ty then 64 else 32) (c.capValue w x l))

def csetBody (x : VArgs) : WaveBody :=
  capDerive x (tyRegs x.ty) fun c w l k =>
    let v := c.capValue w x l
    capMove k (if x.sub % 2 = 0 then (v % 2 ^ 56 : Nat) else capBase k.bits + v)

def cpermBody (x : VArgs) : WaveBody := capDerive x 1 fun c w l k => cpermOf k (c.lane w x.b l).toNat
def csealBody (x : VArgs) : WaveBody := capDerive x 4 fun c w l k => csealOf k (c.quadCap w x.b l)
def cunslBody (x : VArgs) : WaveBody := capDerive x 4 fun c w l k => cunslOf k (c.quadCap w x.b l)

def cgetBody (x : VArgs) : WaveBody := fun c w =>
  let u := c.allU w x.a 4
  let f := fun l => cgetOf x.sub (c.quadCap w x.a l)
  .ok (if x.sub < 4 then c.write64 w x.d u tW64 f else c.write w x.d (shaped u fun l => lowWord (f l)) 2)

def ctestBody (x : VArgs) : WaveBody := fun c w =>
  .ok (c.writeP w x.d (Mask.of fun l =>
    let a := c.quadCap w x.a l
    let b := c.quadCap w x.b l
    match x.sub with
    | 0 => a.tag
    | 1 => capSubset a b
    | _ => a.tag == b.tag && a.bits == b.bits))

/-- CMOV (R207): a read of a dead lane gives an untagged 0 and sets the poison bit (R149). -/
def cmovBody (x : VArgs) : WaveBody := fun c w =>
  match x.sub with
  | 0 => .ok (c.writeQuad w x.d (c.allU w x.a 4) fun l => c.quadCap w x.a l)
  | 1 =>
    let n := if x.b = 1023 then c.lowest else (c.lane w x.b c.lowest).toNat % 32
    if w.dead.getLsbD n then .ok { w.setBank (w.bank.writeCap x.d Cap.null) with pois := true }
    else .ok (w.setBank (w.bank.writeCap x.d (c.quadCap w x.a n)))
  | 2 => .ok (c.writeQuad w x.d true fun _ => c.readCap w x.a)
  | _ => .ok (w.setBank (w.bank.writeCap x.d (c.readCap w x.a)))

def execCbnd (f : VF) (s : State) := issueLocal (Instr.cbnd f).view (encode (.cbnd f)) (cbndBody (f.args .cbnd false)) s
def execCadd (f : VF) (s : State) := issueLocal (Instr.cadd f).view (encode (.cadd f)) (caddBody (f.args .cadd false)) s
def execCset (f : VF) (s : State) := issueLocal (Instr.cset f).view (encode (.cset f)) (csetBody (f.args .cset false)) s
def execCperm (f : VF) (s : State) :=
  issueLocal (Instr.cperm f).view (encode (.cperm f)) (cpermBody (f.args .cperm false)) s
def execCseal (f : VF) (s : State) :=
  issueLocal (Instr.cseal f).view (encode (.cseal f)) (csealBody (f.args .cseal false)) s
def execCunsl (f : VF) (s : State) :=
  issueLocal (Instr.cunsl f).view (encode (.cunsl f)) (cunslBody (f.args .cunsl false)) s
def execCget (f : VF) (s : State) := issueLocal (Instr.cget f).view (encode (.cget f)) (cgetBody (f.args .cget false)) s
def execCtest (f : VF) (s : State) :=
  issueLocal (Instr.ctest f).view (encode (.ctest f)) (ctestBody (f.args .ctest false)) s
def execCmov (f : VF) (s : State) := issueLocal (Instr.cmov f).view (encode (.cmov f)) (cmovBody (f.args .cmov false)) s

end Sys2Proof.Machine
end

