-- ==== Sys2Proof/Machine/Image.lean ====
section
/-!
DEFINITION. Context images as they lie in memory (R372 to R378): the bytes of an image from what the save engine holds of it,
field by field, and the changes that an image undergoes where it lies (R380, R382).
-/

namespace Sys2Proof.Machine

/-! ### Values as bytes -/

/-- `n` bytes at offset `o` of a list as a number. -/
def numIn (bs : List Byte) (o n : Nat) : Nat := ofBytes ((bs.drop o).take n)

/-- The words of a list of numbers of `n` bits, the first lowest. -/
def packFields (n : Nat) (xs : List Nat) : Nat := xs.foldr (fun x acc => x % 2 ^ n + 2 ^ n * acc) 0

/-- A register of unit 3 that a level has. -/
def TrapRegs.word (r : TrapRegs) (i : Nat) : Dword :=
  match i with
  | 0 => r.tcause
  | 1 => r.tpc
  | 2 => r.tinst0
  | 3 => r.tinst1
  | 4 => r.tmask
  | 5 => r.tinfo
  | 6 => r.tfemask
  | _ => if i < 8 then 0 else if i < 12 then r.owd.getD (i - 8) 0 else r.owx.getD (i - 12) 0

/-- Word `n` of a tile (R275). -/
def Tile.word (t : Tile) (n : Nat) : Word := kgetD t.words n 0

/-- The bytes of a tile's image (R275). -/
def Tile.image (t : Tile) : List Byte := (List.range 4096).flatMap fun n => toBytes 4 (t.word n).toNat

/-- The number whose set bits are those of a list. -/
def setBits (xs : List Nat) : Nat := (xs.map fun n => 2 ^ n).sum

/-- Bytes followed by zeros up to a multiple of `m`. -/
def padTo (m : Nat) (bs : List Byte) : List Byte := bs ++ List.replicate ((m - bs.length % m) % m) 0

/-- The next multiple of `m`. -/
def upTo (m n : Nat) : Nat := (n + m - 1) / m * m

/-- A list of records cut or filled to `n` bytes. -/
def fixBytes (n : Nat) (bs : List Byte) : List Byte := (bs ++ List.replicate n 0).take n

/-! ### Pieces of an image -/

/-- What a piece of an image holds, for the errors a restore meets in it (R365): group-wide registers; a G register of the
wave of a given name; another register or a predicate of it; scratchpad words of the block at a place in the image; a tile;
or anything else. -/
inductive ImageField where
  | control
  | scalar
  | lanes (uid : Nat)
  | value (uid : Nat)
  | pad (block word : Nat)
  | tile
deriving DecidableEq, Repr

/-- Consecutive bytes of an image of one kind. -/
structure Piece where
  what : ImageField
  bytes : List Byte
deriving DecidableEq, Repr

def ctl (bs : List Byte) : Piece := ⟨.control, bs⟩

/-- The bytes of some pieces. -/
def pieceBytes (ps : List Piece) : List Byte := ps.flatMap (·.bytes)

/-- Pieces filled with zeros to a multiple of 64 bytes (R373). -/
def padPieces (ps : List Piece) : List Piece :=
  let n := (ps.map fun p => p.bytes.length).sum
  ps ++ (if n % 64 = 0 then [] else [ctl (List.replicate (64 - n % 64) 0)])

/-! ### Wave records (R375 to R378) -/

/-- A loop stack entry (R375). -/
def loopBytes (e : LoopEntry) : List Byte :=
  toBytes 8 e.count.toNat ++ toBytes 4 e.start.toNat ++ toBytes 4 e.stop.toNat ++ toBytes 8 e.cdepth

/-- A register's descriptor byte (R376). -/
def regDesc (r : VReg) : Nat := r.val.code + r.fmt * 4

/-- A register's value (R376). -/
def regPiece (uid : Nat) (r : VReg) : Piece :=
  match r.val with
  | .u x => ⟨.value uid, toBytes 4 x.toNat⟩
  | .a b st => ⟨.value uid, toBytes 4 b.toNat ++ toBytes 4 st.toNat⟩
  | .g x => ⟨.lanes uid, x.toList.flatMap fun v => toBytes 4 v.toNat⟩

/-- The registers from `lo`, `n` of them, of which those of `kept` are kept: descriptors, tag words, values (R376). -/
def registerPieces (uid lo n : Nat) (b : Bank) (kept : Nat → Bool) : List Piece :=
  let regs := rangeFrom lo n
  let desc := regs.flatMap fun r =>
    toBytes 1 (if kept r then regDesc (kgetD b.v r ⟨.u 0, 0⟩) else 0x81)
  let tags := (rangeFrom (lo / 4) (n / 4)).flatMap fun q =>
    toBytes 4 (if kept (4 * q) then (kgetD b.vtags q 0).toNat else 0)
  ctl desc :: ctl tags :: (regs.filter kept).map fun r => regPiece uid (kgetD b.v r ⟨.u 0, 0⟩)

/-- A store-buffer entry's bytes of data (R377): for BINIT the 128 of lane 0. -/
def storeWidth (i : StoreInfo) : Nat := if i.kind = 5 then 128 else 32 * sizeBytes i.size

/-- A store-buffer entry (R377). -/
def storeRecord (e : StoreEntry) : List Byte :=
  let i := e.info
  let at_ (l : Nat) : StoreLane := (i.lanes.find? fun x => x.lane == l).getD ⟨l, 0, 0, 0⟩
  let data := if i.kind = 5 then toBytes 128 (match i.lanes with | x :: _ => x.data | [] => 0)
    else laneList.flatMap fun l => toBytes (sizeBytes i.size) (at_ l).data
  padTo 16 (toBytes 8 (e.stream % 8 + i.kind * 2 ^ 8 + i.size * 2 ^ 12 + i.op * 2 ^ 16 + i.scope * 2 ^ 20 + i.order * 2 ^ 23
      + i.act.toNat * 2 ^ 32)
    ++ toBytes 8 (i.aux % 2 ^ 32 + e.place * 2 ^ 32)
    ++ laneList.flatMap (fun l => toBytes 8 ((at_ l).addr + (at_ l).cls * 2 ^ 56)) ++ data)

/-- The bank of a nesting level with its registers of unit 3 (R378). -/
def bankPieces (uid : Nat) (b : Bank) (r : TrapRegs) : List Piece :=
  padPieces
    ([ctl (toBytes 4 b.pc.toNat ++ toBytes 4 b.mask.toNat ++ toBytes 4 (b.rpc.getD 0).toNat
        ++ toBytes 4 (b.ctl.length + b.loops.length * 2 ^ 8)),
      ⟨.scalar, (List.range 16).flatMap fun n => toBytes 8 (kgetD b.g n 0).toNat⟩,
      ctl (toBytes 8 (setBits b.q + setBits (b.gtags.map fun n => 4 + n / 2))),
      ⟨.value uid, (List.range 8).flatMap fun n => toBytes 4 (kgetD b.p n 0).toNat⟩,
      ctl (toBytes 8 0 ++ fixBytes 256 (b.ctl.reverse.flatMap stackBytes) ++ fixBytes 192 (b.loops.reverse.flatMap loopBytes)
        ++ (List.range 16).flatMap fun n => toBytes 8 (r.word n).toNat)]
      ++ registerPieces uid 640 32 b fun _ => true)

/-- Whether the instruction at a wave's pc is left not complete by a save (R364). -/
def WaitKind.saved : WaitKind → Bool
  | .barrier | .implicitBarrier | .gridBarrier | .numbered | .command | .room | .fence | .mfence | .fullEmpty => true
  | _ => false

/-- VLIVE, PLIVE, ZLIVE and the ranges of SPR of a liveness entry (R368). -/
def liveReg (e n : Nat) : Bool := e.testBit (n / 4)
def livePred (e n : Nat) : Bool := e.testBit (160 + n)
def liveTile (e z : Nat) : Bool := e.testBit (256 + z)
def liveRanges (e : Nat) : List (Nat × Nat) :=
  (List.range 4).map fun k => (field e (384 + 32 * k) 14, field e (398 + 32 * k) 14)

/-- A wave's record (R375). `live` is its liveness entry, `none` where it was recorded whole; `seqPc` is its block's
sequencer's address. -/
def wavePieces (w : Wave) (live : Option Nat) (seqPc : IAddr) (sbDepth : Nat) : List Piece :=
  let b := w.base
  let kept (n : Nat) : Bool := match live with | some e => liveReg e n | none => true
  let whole := live.isNone
  let stack := b.ctl.reverse
  let banks := (w.handlers.reverse.zip [w.level1, w.level2]).flatMap fun (k, r) => bankPieces w.uid k r
  let regs := padPieces (registerPieces w.uid 0 640 b kept)
  let deep := padPieces [ctl ((stack.drop 64).flatMap stackBytes)]
  let stores := padPieces [ctl (w.sb.flatMap storeRecord)]
  let size (ps : List Piece) : Nat := (ps.map fun p => p.bytes.length).sum
  let flag (x : Bool) (n : Nat) : Nat := if x then 2 ^ n else 0
  let trap := match w.held with
    | [] => List.replicate 16 0
    | h :: _ => toBytes 4 (h.code + h.sub * 2 ^ 8 + flag h.seq 16) ++ toBytes 4 (if h.seq then seqPc.toNat else 0)
        ++ toBytes 8 h.info.toNat
  [ctl (toBytes 8 (b.pc.toNat + w.wblk * 2 ^ 32 + flag (!w.handlers.isEmpty) 37 + w.handlers.length * 2 ^ 38
      + flag w.pois 40 + flag whole 41 + flag (w.waiting.saved || w.fe.isSome) 42 + flag w.fe.isSome 43
      + flag (!w.held.isEmpty) 44 + flag w.bkpend 45)
    ++ toBytes 4 b.mask.toNat ++ toBytes 4 w.dead.toNat ++ toBytes 4 w.exited.toNat ++ toBytes 4 (b.rpc.getD 0).toNat
    ++ toBytes 4 (if whole then 0 else w.liveEntry.getD 0) ++ toBytes 4 (match w.fe with | some f => f.done | none => 0).toNat
    ++ toBytes 8 w.roundMode ++ toBytes 8 w.nearBase ++ toBytes 8 w.nearMap.toNat
    ++ toBytes 8 (b.ctl.length + b.loops.length * 2 ^ 16) ++ toBytes 16 w.rngK.toNat ++ toBytes 16 w.rngC.toNat
    ++ fixBytes 1024 ((stack.take 64).flatMap stackBytes) ++ fixBytes 192 (b.loops.reverse.flatMap loopBytes)),
   ⟨.scalar, (List.range 64).flatMap fun n => toBytes 8 (kgetD b.g n 0).toNat⟩,
   ctl (toBytes 8 (setBits b.q + setBits (b.gtags.map fun n => 16 + n / 2))
    ++ [w.capflt, w.capfpc, w.capfva, w.spflt, w.spfpc, w.spfoff, w.rmtflt, w.rmtfpc, w.rmtfva].flatMap
        (fun x => toBytes 8 x.toNat)
    ++ toBytes 8 (packFields 8 w.unack) ++ toBytes 8 (sbDepth + w.sb.length * 2 ^ 8)
    ++ [size regs, size deep, size stores, size banks].flatMap (toBytes 4)),
   ⟨.value w.uid, (List.range 96).flatMap fun n =>
      toBytes 4 (if match live with | some e => livePred e n | none => true then (kgetD b.p n 0).toNat else 0)⟩,
   ctl (trap ++ List.replicate 32 0)]
  ++ regs ++ deep ++ stores ++ banks

/-! ### Block records (R373) -/

/-- A deferral entry (R306, R373). -/
def deferBytes : Deferred → List Byte
  | .bfree u n after => toBytes 16 (1 + u * 2 ^ 4 + n * 2 ^ 8 + after * 2 ^ 32)
  | .nbsig u n after res => toBytes 16 ((if res then 3 else 2) + u * 2 ^ 4 + n * 2 ^ 8 + after * 2 ^ 32)

/-- The fixed part of a block's record. `k` is its cluster. -/
def blockHead (x : SavedBlock) (k : Cluster) : List Byte :=
  let b := x.block
  let q := b.seqr
  let emulated := (b.tiles.filter fun e => e.2.emulated).map (·.1)
  toBytes 8 (b.index + b.rank * 2 ^ 32 + (k.members.length - 1) * 2 ^ 35 + b.waves * 2 ^ 38)
    ++ toBytes 4 (setBits (x.waves.map (·.wblk))) ++ toBytes 4 (setBits b.gone)
    ++ toBytes 8 b.spSize ++ toBytes 8 (b.nTiles + (if q.status = 0 then 0 else 2 ^ 8))
    ++ toBytes 16 (setBits x.keptTiles) ++ toBytes 16 (setBits emulated)
    ++ (List.range 128).flatMap (fun z => toBytes 1 (match kget b.tiles z with | some t => t.tag | none => 0))
    ++ fixBytes 128 (b.bufs.flatMap fun u => toBytes 8 u.cfg.toNat)
    ++ fixBytes 128 (b.bufs.flatMap fun u => toBytes 8 (u.head * 2 ^ 32 + u.tail))
    ++ fixBytes 64 (b.nbc.flatMap fun n => toBytes 4 n.toNat) ++ fixBytes 64 (q.marks.flatMap fun n => toBytes 4 n.toNat)
    ++ toBytes 8 (q.pc.toNat + q.status * 2 ^ 32 + q.loops.length * 2 ^ 36) ++ toBytes 8 q.next
    ++ fixBytes 48 (q.loops.reverse.flatMap fun l => toBytes 4 l.count ++ toBytes 4 l.start.toNat ++ toBytes 4 l.t)
    ++ fixBytes 64 (q.queue.flatMap deferBytes) ++ toBytes 8 b.zbflt.toNat ++ toBytes 8 b.mflt.toNat
    ++ fixBytes 64 (b.registry.flatMap fun o => toBytes 4 (o + 2 ^ 31))
    ++ toBytes 16 (b.barPhase + setBits b.barDone * 2 ^ 16 + k.phase * 2 ^ 48
        + (k.arrived.filter fun e => e.1 == b.rank).length * 2 ^ 64)
    ++ List.replicate 224 0 ++ toBytes 1536 (setBits x.keptUnits)

/-- A block's record, at place `i` among those of its image. -/
def blockPieces (i : Nat) (x : SavedBlock) (k : Cluster) : List Piece :=
  let b := x.block
  let byte (a : Nat) : Byte := kgetD b.spad a 0
  padPieces
    ([ctl (blockHead x k)]
      ++ padPieces (x.keptUnits.map fun u => ⟨.pad i (32 * u), (rangeFrom (128 * u) 128).map byte⟩)
      ++ padPieces [ctl (x.keptUnits.flatMap fun u =>
          toBytes 4 (setBits ((List.range 32).filter fun n => b.full.contains (32 * u + n))))]
      ++ x.keptTiles.map (fun z => ⟨.tile, match kget b.tiles z with | some t => t.image | none => List.replicate 16384 0⟩)
      ++ x.waves.flatMap fun w => padPieces (wavePieces w (kget x.lives w.wblk) b.seqr.pc b.env.sbDepth))

/-! ### The image (R372, R380, R387) -/

/-- The blocks of an image by rising number, and by grid among equals. -/
def Image.inOrder (x : Image) : List SavedBlock :=
  kvals (x.blocks.foldl (fun (m : KMap SavedBlock) b => kset m (b.block.index * 2 ^ 40 + b.block.grid) b) [])

def Image.clusterOf (x : Image) (b : SavedBlock) : Cluster :=
  kgetD x.clusters b.block.cluster { members := [(0, 0)], phase := 0, arrived := [], gone := [] }

/-- The offsets of records of given sizes from a first offset. -/
def offsetsFrom : Nat → List Nat → List Nat
  | _, [] => []
  | a, n :: rest => a :: offsetsFrom (a + n) rest

/-- The nested-save record: the guest's operation, its save area and how many blocks its image holds (R387). -/
def nestBytes (guest : Option (Nat × Bool × Cap × Nat)) : List Byte :=
  match guest with
  | none => []
  | some (r, restore, c, done) =>
    toBytes 8 ((if restore then 1 else 0) + r * 2 ^ 32) ++ toBytes 16 c.bits.toNat ++ toBytes 8 done ++ List.replicate 16 0

/-- An image's pieces, its DIGEST as given. -/
def Image.pieces (x : Image) (guest : Option (Nat × Bool × Cap × Nat)) (digest : BitVec 256) : List Piece :=
  let bs := x.inOrder
  let records := (bs.zip (List.range bs.length)).map fun (b, i) => blockPieces i b (x.clusterOf b)
  let sizes := records.map fun r => (r.map fun p => p.bytes.length).sum
  let first := upTo 64 (256 + 8 * bs.length)
  let stop := first + sizes.sum
  let nest := nestBytes guest
  let flag (v : Bool) (n : Nat) : Nat := if v then 2 ^ n else 0
  let pend := bs.any fun b => b.waves.any (·.bkpend)
  [ctl (toBytes 8 (1 + x.state * 2 ^ 8 + flag x.halted 11 + flag x.isSealed 12 + flag guest.isSome 13 + flag pend 14
      + x.colour * 2 ^ 24 + x.region * 2 ^ 32)
    ++ toBytes 8 (bs.length + x.cores * 2 ^ 16) ++ toBytes 8 x.time ++ toBytes 8 (stop + nest.length)
    ++ toBytes 8 x.version ++ toBytes 8 x.discard ++ toBytes 8 (if guest.isSome then stop else 0) ++ toBytes 8 0
    ++ toBytes 32 digest.toNat ++ List.replicate 160 0
    ++ padTo 64 ((offsetsFrom first sizes).flatMap fun o => toBytes 8 o))]
  ++ records.flatten ++ [ctl nest]

/-- The blocks of an image that an operation has done: those it holds for a save, those of the clusters stood for a restore. -/
def Image.blocksDone (x : Image) (restore : Bool) : Nat :=
  (x.blocks.filter fun b => !restore || x.placed.contains b.block.cluster).length

/-- What a nested-save record says of a guest's operation. -/
def State.guestOf (s : State) (x : Image) : Option (Nat × Bool × Cap × Nat) :=
  match x.nested with
  | none => none
  | some (r, restore) =>
    match kget s.regions r with
    | none => none
    | some g => some (r, restore, g.savea, match g.image with
      | some a => (match kget s.images a with | some y => y.blocksDone restore | none => 0)
      | none => 0)

/-- Where DIGEST and DISCARD stand, which the digest leaves out (R380). -/
def digestSkips (o : Nat) : Bool := (40 ≤ o && o < 48) || (64 ≤ o && o < 96)

/-- DIGEST of a valid image at an address (R380). -/
def State.digestAt (s : State) (a : Nat) (x : Image) : BitVec 256 :=
  if x.state = 2 then
    let bs := pieceBytes (x.pieces (s.guestOf x) 0)
    Config.imageDigest (((List.range bs.length).zip bs).filter fun e => !digestSkips e.1) a x.version
  else 0

/-- The pieces of an image at an address. -/
def State.imagePieces (s : State) (a : Nat) (x : Image) : List Piece := x.pieces (s.guestOf x) (s.digestAt a x)

/-- The bytes of an image at an address. -/
def State.imageBytes (s : State) (a : Nat) (x : Image) : List Byte := pieceBytes (s.imagePieces a x)

/-- An image as the save engine has it, written whole where it lies. -/
def State.putImage (s : State) (a : Nat) (x : Image) : State :=
  ({ s with images := kset s.images a x }).store a (s.imageBytes a x)

/-- The bytes that differ between two images of one place, written one by one. -/
def State.patch (s : State) (a : Nat) : List Byte → List Byte → State
  | x :: xs, y :: ys => (if x = y then s else s.store a [y]).patch (a + 1) xs ys
  | [], ys => if ys.isEmpty then s else s.store a ys
  | _, [] => s

/-- An image changed where it lies: only the bytes that change are written, and the digest is computed again (R380, R382). -/
def State.changeImage (s : State) (a : Nat) (f : Image → Image) : State :=
  match kget s.images a with
  | none => s
  | some x =>
    let s1 := { s with images := kset s.images a (f x) }
    s1.patch a (s.imageBytes a x) (s1.imageBytes a (f x))

/-- Whether a region is being restored: its image is in STATE 3 (R381). -/
def State.restoring (s : State) (n : Nat) : Bool :=
  match kget s.regions n with
  | some r => (match r.image with
    | some a => (match kget s.images a with | some x => x.state == 3 | none => false)
    | none => false)
  | none => false

/-- Whether a cluster stands on cores and its restore has not come to its end: nothing of it acts yet (R381). -/
def State.clusterHeld (s : State) (ck : Nat) : Bool :=
  s.images.any fun e => e.2.state == 3 && (kget e.2.clusters ck).isSome

/-- The address of the image that holds a wave's record. -/
def State.imageOfWave (s : State) (uid : Nat) : Option Nat :=
  (s.images.find? fun e => e.2.state != 0 && e.2.blocks.any fun b => b.waves.any fun w => w.uid == uid).map (·.1)

/-- A wave's record changed in the image that holds it. -/
def State.changeRecord (s : State) (uid : Nat) (f : Block → Wave → Wave) : State :=
  match s.imageOfWave uid with
  | none => s
  | some a => s.changeImage a fun x => { x with blocks := x.blocks.map fun b =>
      { b with waves := b.waves.map fun w => if w.uid = uid then f b.block w else w } }

end Sys2Proof.Machine
end

