-- ==== Sys2Proof/Machine/Fabric.lean ====
section
/-!
DEFINITION. Requests that leave the part: Loess flits toward another device (R333, R334), page requests of the host
window (R474), and the report of a remote failure (R335).
-/

namespace Sys2Proof.Machine

/-! ### Flits (R333) -/

/-- The die of a Loess port: 8 for ports 0 to 7 and 9 for the others (R12). -/
def portDie (p : Nat) : Nat := 8 + p / 8

/-- A port that reaches a device and has not failed, the lowest-numbered first (R338). -/
def State.route (s : State) (dev : Nat) : Option Nat :=
  if dev = 0 || dev = 255 then none
  else (s.ports.find? fun e => e.2.reach.contains dev && !e.2.failed).map (·.1)

/-- The first payload unit of a request: the address, the length, the protection class and three bytes of detail
(entry 20 of the log). -/
def requestHead (addr len cls x y z : Nat) : List Byte :=
  toBytes 8 addr ++ toBytes 2 len ++ toBytes 1 cls ++ toBytes 1 x ++ toBytes 1 y ++ toBytes 1 z ++ toBytes 2 0

/-- CRC-64 of a list of bytes, by the polynomial of R333; the bit order and the start value are entry 20 of the log's. -/
def crc64 (bs : List Byte) : Nat :=
  bs.foldl (fun c b => (List.range 8).foldl (fun c _ =>
    if 2 ^ 63 ≤ c then (2 * c % 2 ^ 64) ^^^ 0x42F0E1EBA9EA3693 else 2 * c) (c ^^^ (b.toNat * 2 ^ 56))) 0

/-- Bytes 0 to 223 of a flit: its header, and its payload filled up to 208 bytes (R333). -/
def flitBody (f : Flit) : List Byte :=
  toBytes 16 (f.rtag.toNat + f.kind.toNat * 2 ^ 40 + f.payload.length * 2 ^ 48 + f.ord.toNat * 2 ^ 64 + f.col.toNat * 2 ^ 72
    + f.sdev.toNat * 2 ^ 80 + f.ddev.toNat * 2 ^ 88 + f.ack.toNat * 2 ^ 96 + f.seq.toNat * 2 ^ 112)
    ++ f.payload.take 208 ++ List.replicate (208 - f.payload.length) 0

/-- The 256 bytes of a flit (R333). -/
def flitBytes (f : Flit) : List Byte :=
  flitBody f ++ toBytes 32 (f.crc.toNat + f.ctag.toNat * 2 ^ 64 + f.cot.toNat * 2 ^ 77 + f.reserved.toNat * 2 ^ 155)

/-- Whether the CRC a flit carries holds. -/
def flitSound (f : Flit) : Bool := f.crc == BitVec.ofNat 64 (crc64 (flitBody f))

/-- A flit with the CRC of its bytes. -/
def flitSealed (f : Flit) : Flit := { f with crc := BitVec.ofNat 64 (crc64 (flitBody f)) }

/-- A flit of a type with a payload, not yet numbered. -/
def flitOf (s : State) (dev col ord kind rtag : Nat) (payload : List Byte) (ctag : BitVec 13) (cot : BitVec 78) : Flit :=
  { seq := 0, ack := 0, ddev := BitVec.ofNat 8 dev, sdev := BitVec.ofNat 8 s.devid, col := BitVec.ofNat 8 col,
    ord := BitVec.ofNat 8 ord, kind := BitVec.ofNat 8 kind, rtag := BitVec.ofNat 40 rtag, payload, ctag, cot,
    crc := 0, reserved := 0 }

/-- A flit as a port sends it: with the port's sequence numbers, and its CRC. -/
def Port.numbered (q : Port) (f : Flit) : Flit :=
  flitSealed { f with seq := BitVec.ofNat 16 q.seq, ack := BitVec.ofNat 16 q.ack }

/-- A flit sent on a port, numbered and kept for a replay (R333, R338). -/
def Port.post (q : Port) (t : Nat) (f : Flit) : Port :=
  { q with sent := q.numbered f :: q.sent, window := q.window ++ [q.numbered f], seq := (q.seq + 1) % 65536, lastTx := t }

/-- A flit for a port: sent, or waiting while the replay buffer's 64 flits are all taken (R338). -/
def State.sendFlit (s : State) (p : Nat) (f : Flit) : State :=
  match kget s.ports p with
  | none => s
  | some q =>
    let q1 := if q.queued.isEmpty && q.window.length < 64 then q.post (s.now (portDie p)) f else { q with queued := q.queued ++ [f] }
    { s with ports := kset s.ports p q1 }

/-- The flits that wait for the replay buffer sent as far as there is room; a request among them leaves the switch only now. -/
def State.pump (s : State) (p : Nat) : State :=
  match kget s.ports p with
  | none => s
  | some q =>
    let go := q.queued.take (64 - q.window.length)
    let q1 := go.foldl (fun (q : Port) f => q.post (s.now (portDie p)) f) { q with queued := q.queued.drop go.length }
    { s with
      ports := kset s.ports p q1
      remote := go.foldl (fun m f =>
        if [1, 3, 5].contains f.kind.toNat then kmod m f.rtag.toNat fun r => { r with sentAt := s.now (portDie p) } else m) s.remote }

/-- The I/O die that traffic of compute die `n` passes through: (n mod 2) while its link stands, else the other (R13). -/
def State.ioDie (s : State) (n : Nat) : Option Nat :=
  [n % 2, 1 - n % 2].find? fun io => !s.host.deadLinks.contains (2 * n + io)

/-- The compute die that a request comes from. -/
def State.ownerDie (s : State) (o : Owner) : Nat :=
  match o with
  | .channel g _ _ _ _ => groupDie g
  | .lane uid _ _ _ _ _ | .store uid _ _ _ _ _ _ => match s.findUid uid with | some (c, _) => dieOf c | none => 0

/-- A request that has failed already. -/
def State.answered (s : State) (owner : Owner) (dev code : Nat) : State :=
  { s with
    nextTag := (s.nextTag + 1) % 2 ^ 40
    remote := kset s.remote s.nextTag
      { owner, dev, port := 0, flits := [], sentAt := s.now 8, answer := some (Answer.failed code) } }

/-- The port by which a request leaves: there is a way to the switch from its compute die (R13), and a port that reaches the device.
A die whose links have both failed has none (DEDUCED, entry 74 of the log). -/
def State.wayOut (s : State) (owner : Owner) (dev : Nat) : Option Nat :=
  if (s.ioDie (s.ownerDie owner)).isNone then none else s.route dev

/-- A request sent to a device, its flits made from its tag; a device without a route fails it with code 1 (R335). -/
def State.request (s : State) (owner : Owner) (dev : Nat) (mk : Nat → List Flit) : State :=
  let tag := s.nextTag
  let s1 := { s with nextTag := (tag + 1) % 2 ^ 40 }
  match s.wayOut owner dev with
  | none => s.answered owner dev 1
  | some p =>
    let fs := mk tag
    let r : Remote := { owner, dev, port := p, flits := fs, sentAt := s.now (portDie p), answer := none }
    fs.foldl (fun s f => s.sendFlit p f) { s1 with remote := kset s1.remote tag r }

/-! ### Capabilities in transit (R334) -/

/-- A capability sealed for the fabric: its bits with OTYPE 3, and its OTYPE as the COT of payload unit 1. -/
def fabricSeal (b : BitVec 128) : BitVec 128 × BitVec 78 :=
  (setField b 64 6 3, BitVec.ofNat 78 (capOtype b * 2 ^ 6))

/-! ### Failures of remote accesses (R335) -/

/-- sr.rmtflt (R336). -/
def rmtfltWord (dev code kind lane : Nat) : Dword :=
  BitVec.ofNat 64 (2 ^ 63 + dev * 2 ^ 40 + code * 2 ^ 32 + kind * 2 ^ 16 + lane * 2 ^ 8)

/-- The wave with a remote failure recorded in it, or counted as OVF, and the remote fault held for it where its region handles
capability faults itself (R335, R341). -/
def Wave.noteRemote (w : Wave) (dev code kind lane : Nat) (pc : IAddr) (va : Nat) (hold : Bool) : Wave :=
  let w1 := if w.rmtflt.getLsbD 63 then { w with rmtflt := w.rmtflt ||| (1#64 <<< 62) }
    else { w with rmtflt := rmtfltWord dev code kind lane, rmtfpc := pc.setWidth 64,
                  rmtfva := BitVec.ofNat 64 (va % 2 ^ 56) }
  if hold then { w1 with held := w1.held ++ [⟨18, 0, 0, false, 0, 0⟩] } else w1

/-- A failure of a wave's remote access: held for the wave before its next instruction, or halting (R335, R341). A wave in an
image has it in its record. -/
def State.remoteFault (s : State) (uid dev code kind lane : Nat) (pc : IAddr) (va : Nat) : State :=
  match s.findUid uid with
  | none =>
    let mine (b : SavedBlock) : Bool := b.waves.any fun w => w.uid == uid
    let s1 := s.changeRecord uid fun b w => w.noteRemote dev code kind lane pc va b.env.localCap
    (s.images.flatMap fun e => e.2.blocks).foldl (fun s b =>
      if mine b && !b.block.env.localCap then
        s.raiseHalt b.block.env.top (.save (groupOf (b.block.env.partition.headD 0))) 18 0 0 pc 0
      else s) s1
  | some (c, slot) =>
    match s.wave c slot with
    | none => s
    | some w =>
      match s.block c w.bslot with
      | none => s
      | some b =>
        let s1 := s.setWave c slot (w.noteRemote dev code kind lane pc va b.env.localCap)
        if b.env.localCap then s1 else s1.haltWave c slot 18 0

/-! ### Page requests (R474) -/

/-- The page of a host-window address. -/
def hostPage (a : Nat) : Nat := a / 4096

/-- The pages without a translation that the `n` bytes from `a` touch. -/
def State.missingPages (s : State) (a n : Nat) : List Nat :=
  (rangeFrom (hostPage a) (hostPage (a + n - 1) - hostPage a + 1)).filter fun p => !s.hostPresent.contains p && Config.hostAbsent p

/-- The request of a wave's access for a page, with its tag. -/
def State.pageReq (s : State) (uid : Nat) (store : Option Nat) (page : Nat) : Option (Nat × PageReq) :=
  s.pri.find? fun e => e.2.uid == uid && e.2.store == store && e.2.page == page

/-- The lowest free tag of the page-request table. -/
def State.freePri (s : State) : Option Nat := (List.range 256).find? fun t => (kget s.pri t).isNone

/-- A page request recorded, where a tag is free; else the access waits for one. -/
def State.askPage (s : State) (uid : Nat) (store : Option Nat) (page : Nat) : State :=
  match s.pageReq uid store page, s.freePri with
  | none, some t => { s with pri := kset s.pri t { page, uid, store, sentAt := s.now 8, answer := none } }
  | _, _ => s

/-- What page requests leave of an access: nothing to wait for, a wait, or a failure (code 3). -/
inductive Paged where
  | ready
  | waits (s : State)
  | failed (s : State)
deriving DecidableEq, Repr

/-- The pages of an access, asked for where they are missing. -/
def State.paged (s : State) (uid : Nat) (store : Option Nat) (pages : List Nat) : Paged :=
  if pages.isEmpty then .ready
  else
    let asked := pages.map fun p => s.pageReq uid store p
    if asked.any fun r => match r with | some (_, q) => q.answer == some false | none => false then
      .failed { s with pri := s.pri.filter fun e => !(e.2.uid == uid && e.2.store == store) }
    else .waits (pages.foldl (fun s p => s.askPage uid store p) s)

end Sys2Proof.Machine
end

