-- ==== Sys2Proof/Machine/Lsu.lean ====
section
/-!
DEFINITION. Memory accesses of a wave (R208 to R215, R221 to R239, R268 to R272): addresses and checks, the sources of a
load's bytes, miss entries, the store buffer, releases and acquires, and the global atomics.
-/

namespace Sys2Proof.Machine

/-! ### Addresses and checks (R195, R209) -/

/-- One active lane's access. -/
structure LaneReq where
  lane : Nat
  cap : Cap
  addr : Int
deriving DecidableEq, Repr

/-- The address within the whole space of 2^56 (R182). -/
def LaneReq.va (r : LaneReq) : Nat := wrapNat 56 r.addr

/-- The access of a lane (R209). -/
def laneReq (c : Ctx) (w : Wave) (f : MF) (l : Nat) : LaneReq :=
  let cap := c.quadCap w f.a.toNat l
  let idx := sext 32 (c.lane w f.b.toNat l).toNat
  ⟨l, cap, capCursor cap.bits + idx * sizeBytes f.size.toNat + sext 24 f.offset.toNat⟩

/-- The accesses of the active lanes, ascending (R209). -/
def accessReqs (c : Ctx) (w : Wave) (f : MF) : List LaneReq := c.lanes.map (laneReq c w f)

/-- Who a core's accesses are made by (R195). -/
def State.agent (s : State) (core : Nat) : Agent := ⟨(s.core core).latch, some (groupOf core)⟩

/-- The alignment of a SIZE (R209). -/
def sizeAlign (sz : Nat) : Nat := if sz = 14 then 1 else sizeBytes sz

/-- The fault a failing check raises (R196, R198). -/
def capFaultOf (kind k : Nat) (r : LaneReq) : Exc :=
  .capFault kind r.lane k (capPerms r.cap.bits) (capColour r.cap.bits) r.va

/-- The fault of the lowest failing lane (R195, R196). -/
def State.accessFault (s : State) (core kind : Nat) (ask : LaneReq → Ask) (reqs : List LaneReq) : Option Exc :=
  reqs.findSome? fun r => (s.check (s.agent core) (ask r) r.cap r.addr).map fun k => capFaultOf kind k r

/-- What loads ask. -/
def loadAsk (f : MF) : Ask :=
  { need := permLoad, align := sizeAlign f.size.toNat, size := sizeBytes f.size.toNat, stored := none }

/-! ### The pieces of stores in flight (R223, R229) -/

/-- A home as a space, a place in it and an offset. -/
def Home.place : Home → Nat × Nat × Nat
  | .mem a => (0, 0, a)
  | .remote d a _ _ _ => (1, d, a)
  | .spad r o => (2, r, o)

/-- The bytes a piece writes at its home. -/
def Part.span (p : Part) : Nat :=
  match p.eff with
  | .bytes d _ => d.length
  | .chain c => c.size
  | .binit _ _ => 128
  | .arrive _ _ _ _ _ _ _ => 128

/-- Whether a piece writes any of `n` bytes at an offset of a place. -/
def Part.touches (p : Part) (space place a n : Nat) : Bool :=
  let (s, d, x) := p.home.place
  s == space && d == place && x < a + n && a < x + p.span

def Part.overlaps (p q : Part) : Bool :=
  let (s, d, x) := q.home.place
  p.touches s d x q.span

/-- The byte a piece holds for an offset of a place, if it is one of bytes. -/
def Part.byteAt (p : Part) (space place a : Nat) : Option Byte :=
  match p.eff with
  | .bytes d _ =>
    let (s, e, x) := p.home.place
    if s == space && e == place && x ≤ a then d[a - x]? else none
  | _ => none

/-- The tag a piece leaves in the tag unit at an address of a place that it writes (R189). -/
def Part.tagAt (p : Part) (space place a : Nat) : Option Bool :=
  match p.eff with
  | .bytes _ t => if p.touches space place a 16 then some t else none
  | _ => none

/-- Whether a piece is an atomic chain. -/
def Part.isChain (p : Part) : Bool := match p.eff with | .chain _ => true | _ => false

/-- The pieces of a wave's own stores that have not reached their homes, oldest first, wherever they wait (R237). -/
def State.ownParts (s : State) (w : Wave) : List Part :=
  (s.cores.flatMap fun e => (e.2.queue.filter fun q => q.uid == w.uid).map fun q => q.part)
    ++ w.sb.flatMap fun e => e.parts

/-- The length of a capability. -/
def capLength (b : BitVec 128) : Nat := (capTop b - capBase b).toNat

/-- Where the shadow of each output of an audited grid starts, from the shadow's base (R462). -/
def AuditPlan.starts (p : AuditPlan) : List (Nat × Cap × Nat) :=
  (p.outs.foldl (fun (acc : List (Nat × Cap × Nat) × Nat) (slot, cap) =>
    (acc.1 ++ [(slot, cap, acc.2)], acc.2 + (capLength cap.bits + 63) / 64 * 64)) ([], 0)).1

/-- The capability that stands in an output's slot in an audit execution: the shadow's bytes, with the output's length and
permissions (R462). -/
def shadowCap (shadow out : Cap) (off : Nat) : Cap :=
  let base := (capBase shadow.bits + off).toNat
  match encodeBounds base (capLength out.bits) with
  | some e =>
    ⟨capMake e.lenm ((base / 2 ^ e.exp * 2 ^ e.exp - e.base) / 2 ^ e.exp) e.exp (capClass shadow.bits) (capPerms out.bits) 0
      (capColour shadow.bits) base, true⟩
  | none => Cap.null

/-- What an audit execution's waves find in the slots of the argument block that name outputs (R462). -/
def State.auditParts (s : State) (core bslot : Nat) : List Part :=
  match s.block core bslot with
  | none => []
  | some b =>
    if b.audit.isNone then []
    else match kget s.grids b.grid with
      | none => []
      | some g =>
        match g.plan with
        | none => []
        | some p =>
          p.starts.map fun (slot, cap, off) =>
            ⟨.mem (localOf (capCursor g.args.bits) + 16 * slot),
             .bytes (toBytes 16 (shadowCap p.shadow.2 cap off).bits.toNat) (shadowCap p.shadow.2 cap off).tag⟩

/-- The pieces a load of the wave searches, newest first (R229); an audit execution's slots come last. -/
def State.newestParts (s : State) (core : Nat) (w : Wave) : List Part :=
  (w.sb.reverse.flatMap fun e => e.parts.reverse) ++ ((s.core core).queue.reverse.map fun q => q.part)
    ++ s.auditParts core w.bslot

/-! ### The L1 (R216, R217, R219) -/

/-- Whether a line of local memory may stand in the L1. -/
def State.cacheable (s : State) (a : Nat) : Bool := rangeOf a == .hbm && (s.granule a).home != 3

/-- The L1 line that holds an address, is not past its age and may serve it (R219). -/
def State.l1Line (s : State) (core a : Nat) : Option L1Line :=
  if !s.cacheable a then none
  else match kget (s.core core).l1 (a / 128) with
  | some x => if s.now (dieOf core) < x.filled + 65536 * coreCycle then some x else none
  | none => none

/-- A byte of local memory as a load finds it, and whether it is poisoned (R221, R229). DESIGN CHOICE: a byte taken from a store on
its way is not poisoned, whatever its unit is at its home (entry 70 of the log). -/
def State.loadByte (s : State) (core : Nat) (parts : List Part) (bypass : Bool) (a : Nat) : Byte × Bool :=
  match parts.findSome? fun p => p.byteAt 0 0 a with
  | some b => (b, false)
  | none =>
    match if bypass then none else s.l1Line core a with
    | some x => (x.bytes.getD (a % 128) 0, x.poison.getD (a % 128 / 64) false)
    | none => (s.byte a, s.poison.contains (a / 64))

/-- The tag of a tag unit as a load finds it. -/
def State.loadTag (s : State) (core : Nat) (parts : List Part) (bypass : Bool) (a : Nat) : Bool :=
  match parts.findSome? fun p => p.tagAt 0 0 (a / 16 * 16) with
  | some t => t
  | none =>
    match if bypass then none else s.l1Line core a with
    | some x => x.tags.getD (a % 128 / 16) false
    | none => rangeOf a == .hbm && s.tags.contains (a / 16)

/-- What one lane receives. -/
structure LaneVal where
  lane : Nat
  num : Nat
  tag : Bool
  poison : Bool
deriving DecidableEq, Repr

/-- A local load of `n` bytes. -/
def State.loadLocal (s : State) (core : Nat) (parts : List Part) (bypass : Bool) (r : LaneReq) (n : Nat) : LaneVal :=
  let a := localOf r.va
  let bs := (rangeFrom a n).map (s.loadByte core parts bypass)
  { lane := r.lane, num := ofBytes (bs.map (·.1)), tag := n = 16 && s.loadTag core parts bypass a,
    poison := bs.any (·.2) }

/-! ### Miss entries (R222) -/

/-- The lines of local accesses that the L1 does not hold, each once. -/
def State.missing (s : State) (core n : Nat) (reqs : List LaneReq) : List Nat :=
  reqs.foldl (fun m r =>
    let a := localOf r.va
    if s.isRemote r.va then m
    else [a, a + n - 1].foldl (fun m x =>
      if s.cacheable x && (s.l1Line core x).isNone then nins m (x / 128) else m) m) []

/-- The lines of a list that have no miss entry. -/
def Core.unasked (k : Core) (lines : List Nat) : List Nat := lines.filter fun l => !k.misses.any fun m => m.line == l

/-- Miss entries for all lines, or a rejection: the wait, and the state with the rejection counted. The head of the reservation
queue takes the entries it needs, or waits on. DESIGN CHOICE: a line that has an entry needs no other, and while the queue is not
empty an instruction outside it that needs an entry is rejected, since each entry freed goes to the head (entry 69 of the log). -/
def State.takeMisses (s : State) (c : Ctx) (w : Wave) (lines : List Nat) : Except (WaitKind × State) State :=
  let k := s.core c.core
  let new := k.unasked lines
  let room := new.length ≤ 256 - k.misses.length
  if new.isEmpty || (room && (w.waiting == .granted || k.reserve.isEmpty)) then
    .ok (s.setCore c.core { k with misses := k.misses ++ new.map fun l => ⟨l, false⟩,
                                   reserve := k.reserve.filter (· != c.slot) })
  else if w.waiting == .granted then .error (.miss 8 (s.now (dieOf c.core)) new.length, s)
  else
    let n := (match w.waiting with | .retry n => n | _ => 0) + 1
    let s1 := s.setWave c.core c.slot { w with missrej := w.missrej + 1 }
    let k1 := s1.core c.core
    .error (.miss n (s.now (dieOf c.core)) new.length,
      if n = 8 then s1.setCore c.core { k1 with reserve := k1.reserve ++ [c.slot] } else s1)

/-! ### Releases and acquires (R230 to R234) -/

/-- Whether the stores that a gate names have been performed at its scope (R229, R230). -/
def State.gateMet (s : State) (w : Wave) (g : Gate) : Bool :=
  let inSet (st n : Nat) : Bool := g.mask.testBit st && n < g.before
  let noBuffer := w.sb.all fun e => !inSet e.stream e.serial
  let noQueue := s.cores.all fun e => e.2.queue.all fun q => !(q.uid == w.uid && inSet q.stream q.serial)
  let noRemote := s.remote.all fun e => match e.2.owner with
    | .store u st n _ _ _ _ => !(u == w.uid && inSet st n)
    | _ => true
  let noAck := s.acks.all fun a => !(a.uid == w.uid && inSet a.stream a.serial)
  g.scope == 0 || (noBuffer && (g.scope == 1 || (noQueue && noRemote && (g.scope != 4 || noAck))))

/-- What a release of the streams of a mask at a scope waits for, at the wave's place in its order (R230). -/
def Wave.gate (w : Wave) (scope mask : Nat) : Gate := ⟨scope, mask, w.nextSerial⟩

/-- Whether a wave's earlier stores in the streams of a mask have been performed at a scope (R229, R230). -/
def State.released (s : State) (w : Wave) (scope mask : Nat) : Bool := s.gateMet w (w.gate scope mask)

/-- Whether a FENCE orders what the wave does on its present path: its mask lies within the FENCE's, or holds all of it that is
live (R236). -/
def Fence.orders (x : Fence) (w : Wave) : Bool := w.path &&& ~~~x.path == 0 || x.path &&& w.live &&& ~~~w.path == 0

/-- What a store of the wave waits for in its buffer: the FENCEs that order it, and its own release at `scope` (R230). -/
def State.gatesOf (s : State) (w : Wave) (rel : Bool) (scope : Nat) : List Gate :=
  (((w.fences.filter fun x => x.orders w).map fun x => x.gate) ++ (if rel then [w.gate scope 255] else [])).filter fun g =>
    !s.gateMet w g

/-- Whether an access that writes at its issue waits for nothing: no FENCE that orders it, and no release of its own (R230). -/
def State.ordered (s : State) (w : Wave) (rel : Bool) (scope : Nat) : Bool := (s.gatesOf w rel scope).isEmpty

/-- An acquire's effect on the core's L1: at cluster scope and wider it is wholly invalidated, fills in flight
included (R217, R231). -/
def State.acquire (s : State) (core scope : Nat) : State :=
  if scope < 2 then s
  else
    let k := s.core core
    s.setCore core { k with l1 := [], misses := k.misses.map fun m => { m with stale := true } }

def acquires (f : MF) : Bool := f.order.toNat % 2 = 1
def releases (f : MF) : Bool := f.order.toNat / 2 = 1

/-! ### Accesses outside the part's memory (R194, R335, R474) -/

/-- What the lanes outside local memory came to: failing lanes by number, remote answers by lane; or a wait. -/
inductive Outside where
  | ready (fails : KMap Nat) (answers : KMap Answer) (s : State)
  | waits (s : State)
deriving DecidableEq, Repr

/-- The flit of a load request (R333). -/
def loadFlit (s : State) (r : LaneReq) (n rtag : Nat) (cap : Bool) : Flit :=
  flitOf s (devOf r.va) (capColour r.cap.bits) 0xFF 1 rtag
    (requestHead (localOf r.va) n (capClass r.cap.bits) (if cap then 1 else 0) 0 0) 0 0

/-- The answers this instruction's lanes have to requests already made. -/
def State.mine (s : State) (c : Ctx) (w : Wave) (kind : Nat) : KMap Remote :=
  s.remote.filter fun e => match e.2.owner with
    | .lane u lv pc _ k _ => u == w.uid && lv == w.level && pc == c.pc && k == kind
    | _ => false

/-- The lanes of a load or atomic that leave the part: their requests are made once and their answers taken when all
are there (R194, R335). `mk` makes a lane's flits. -/
def State.outside (s : State) (c : Ctx) (w : Wave) (kind n : Nat) (reqs : List LaneReq)
    (mk : LaneReq → Nat → List Flit) : Outside :=
  let far := reqs.filter fun r => s.isRemote r.va
  let host := reqs.filter fun r => !s.isRemote r.va && rangeOf (localOf r.va) == .host
  let pages := host.flatMap fun r => s.missingPages (localOf r.va) n
  let failing (s : State) : KMap Nat :=
    host.foldl (fun m r => if (s.missingPages (localOf r.va) n).isEmpty then m else kset m r.lane 3) []
  match s.paged w.uid none pages with
  | .waits s1 => .waits s1
  | p =>
    let (s1, fails) := match p with
      | .failed s1 => (s1, failing s1)
      | _ => (s, [])
    if far.isEmpty then .ready fails [] s1
    else
      let s1 := s1.exclude c.core c.bslot
      let mine := s1.mine c w kind
      let unasked := far.filter fun r => !mine.any fun e => match e.2.owner with
        | .lane _ _ _ l _ _ => l == r.lane
        | _ => false
      if !unasked.isEmpty then
        .waits (unasked.foldl (fun s r =>
          s.request (.lane w.uid w.level c.pc r.lane kind r.va) (devOf r.va) (mk r)) s1)
      else if mine.any fun e => e.2.answer.isNone then .waits s1
      else
        let answers := mine.foldl (fun (m : KMap Answer) e => match e.2.owner, e.2.answer with
          | .lane _ _ _ l _ _, some a => kset m l a
          | _, _ => m) []
        let bad := answers.foldl (fun m e => if e.2.code = 0 then m else kset m e.1 e.2.code) fails
        .ready bad answers { s1 with remote := s1.remote.filter fun e => !(kget mine e.1).isSome }

/-- The report of the lowest failing lane (R335). -/
def State.reportFails (s : State) (c : Ctx) (w : Wave) (kind : Nat) (reqs : List LaneReq) (fails : KMap Nat) : State :=
  match fails with
  | [] => s
  | (l, code) :: _ =>
    match reqs.find? fun r => r.lane == l with
    | some r => s.remoteFault w.uid (devOf r.va) code kind l c.pc r.va
    | none => s

/-! ### What an audited execution reads (R458) -/

/-- The ranges an execution's stores are to fall in: output number, base and length; for an audit execution those of the
shadow (R462). -/
def AuditPlan.ranges (p : AuditPlan) (again : Bool) : List (Nat × Int × Nat) :=
  (p.starts.zip (List.range p.outs.length)).map fun ((_, cap, off), k) =>
    (k, if again then capBase p.shadow.2.bits + (off : Int) else capBase cap.bits, capLength cap.bits)

/-- The output and offset an address falls at. -/
def rangeAt (rs : List (Nat × Int × Nat)) (va : Nat) : Option (Nat × Nat) :=
  (rs.find? fun (_, b, n) => b ≤ (va : Int) && (va : Int) < b + (n : Int)).map fun (k, b, _) => (k, (va - b).toNat)

/-- The ranges of a block whose stores are digested, and whether it is an audit execution. -/
def State.auditRanges (s : State) (core bslot : Nat) : Option (Bool × List (Nat × Int × Nat)) :=
  match s.block core bslot with
  | none => none
  | some b =>
    match b.digest, (kget s.grids b.grid).bind fun g => g.plan with
    | some _, some p => some (b.audit.isSome, p.ranges b.audit.isSome)
    | _, _ => none

/-- A launch whose program has broken an obligation of R458. -/
def State.breakAudits (s : State) (launch : Nat) : State :=
  { s with launches := kmod s.launches launch fun l => { l with unruly := true } }

/-- What an audited execution reads: an address of its outputs that it has not written itself leaves the launch's audit outcomes
undefined (R458). -/
def State.noteReads (s : State) (core bslot : Nat) (addrs : List Nat) : State :=
  match s.auditRanges core bslot, s.block core bslot with
  | some (_, rs), some b =>
    if addrs.all fun a => (rangeAt rs a).isNone || b.wrote.contains a then s
    else match kget s.grids b.grid with
      | some g => s.breakAudits g.launch
      | none => s
  | _, _ => s

/-! ### Loads (R210, R212, R213) -/

/-- The format of a single register a load writes (R45). -/
def sizeFmt (sz : Nat) : Nat := if 5 ≤ sz && sz ≤ 13 then sz - 4 else if sz = 14 then 10 else 0

/-- The write of loaded values by SIZE. -/
def writeLoad (c : Ctx) (w : Wave) (d sz : Nat) (u : Bool) (v : Nat → Nat) : Wave :=
  match sz with
  | 3 => c.writeTy w d u tB64 v
  | 15 => c.writeTy w d u tF64 v
  | 4 =>
    if d = 1023 then w
    else (List.range 4).foldl (fun w' k =>
      c.write w' (d + k) (shaped u fun l => BitVec.ofNat 32 (field (v l) (32 * k) 32)) 0) w
  | _ => c.write w d (shaped u fun l => BitVec.ofNat 32 (v l)) (sizeFmt sz)

/-- Whether an access is uniform: every lane uses one capability and one index (R210). -/
def uniformAccess (c : Ctx) (w : Wave) (f : MF) : Bool := c.allU w f.a.toNat 4 && c.allU w f.b.toNat 1

/-- Lanes lost to poisoned data, and the context of those that go on (R221). -/
def loseLanes (c : Ctx) (s : State) (m : Mask) (source : Nat) : Ctx × State :=
  if m = 0 then (c, s)
  else ({ c with act := c.act &&& ~~~m, live := c.live &&& ~~~m }, s.killLanes c.core c.slot m source)

/-- The tag LDC gives a value (R212). -/
def keepTag (s : State) (core : Nat) (r : LaneReq) (v : LaneVal) : Bool :=
  v.tag && holds (capPerms r.cap.bits) permLoadCap && capColour (BitVec.ofNat 128 v.num) == (s.core core).latch

/-- The bytes of an access to another device, and the tag of a capability, where the pieces hold all of them (R223, R229). -/
def heldRemote (parts : List Part) (r : LaneReq) (n : Nat) : Option (List Byte × Bool) :=
  let dev := devOf r.va
  let a := localOf r.va
  let bs := (rangeFrom a n).filterMap fun x => parts.findSome? fun p => p.byteAt 1 dev x
  if bs.length = n then some (bs, n = 16 && (parts.findSome? fun p => p.tagAt 1 dev a).getD false) else none

/-- The lanes of an access whose values must come from elsewhere: another device's where no piece on its way holds all of the
bytes (R229). -/
def State.asking (s : State) (core n : Nat) (w : Wave) (reqs : List LaneReq) : List LaneReq :=
  reqs.filter fun r => !s.isRemote r.va || (heldRemote (s.newestParts core w) r n).isNone

/-- The values of a load's lanes: failing lanes receive 0, remote lanes their answers or what stores on their way hold. -/
def laneVals (s : State) (c : Ctx) (w : Wave) (bypass : Bool) (n : Nat) (fails : KMap Nat) (answers : KMap Answer)
    (reqs : List LaneReq) : List LaneVal :=
  let parts := s.newestParts c.core w
  reqs.map fun r =>
    if (kget fails r.lane).isSome then { lane := r.lane, num := 0, tag := false, poison := false }
    else match kget answers r.lane with
      | some a => { lane := r.lane, num := ofBytes a.data, tag := a.tag, poison := a.poison }
      | none =>
        match if s.isRemote r.va then heldRemote parts r n else none with
        | some (bs, t) => { lane := r.lane, num := ofBytes bs, tag := t, poison := false }
        | none => s.loadLocal c.core parts bypass r n

/-- Whether a store of the core's waves still on its way touches an access that cannot take its bytes, and so waits until the store
has been performed: a chain of the wave's own or in the core write queue, or, at another device, a store sent there already or one
that holds some of the bytes and not all (R223, R228, R229, R271). -/
def State.chainPending (s : State) (core : Nat) (w : Wave) (n : Nat) (reqs : List LaneReq) : Bool :=
  let parts := s.ownParts w ++ (s.core core).queue.map fun q => q.part
  let mates : List Nat := w.uid :: (s.core core).waves.map fun e => e.2.uid
  let sent (dev : Nat) : Bool := s.remote.any fun e => match e.2.owner with
    | .store u _ _ _ _ _ _ => e.2.dev == dev && mates.contains u
    | _ => false
  reqs.any fun r =>
    if s.isRemote r.va then
      (heldRemote (s.newestParts core w) r n).isNone &&
        (sent (devOf r.va) || parts.any fun p => p.touches 1 (devOf r.va) (localOf r.va) n)
    else parts.any fun p => p.isChain && p.touches 0 0 (localOf r.va) n

/-- What an attempt at a load comes to: a fault, a wait, or the failing lanes, the answers from other devices and the state. -/
inductive Access where
  | fault (e : Exc)
  | waits (k : WaitKind) (s : State)
  | ready (fails : KMap Nat) (answers : KMap Answer) (s : State)

/-- A load's attempt (R222): first its miss entries, then its checks, then what stands before it and what other devices hold. An
attempt whose requests to other devices are made only waits for their answers. With `once`, memory is read for the lowest active
lane alone (R210). -/
def State.access (s : State) (c : Ctx) (w : Wave) (f : MF) (kind : Nat) (once : Bool) (reqs : List LaneReq)
    (mk : LaneReq → Nat → List Flit) : Access :=
  let n := sizeBytes f.size.toNat
  let begun := (reqs.any fun r => s.isRemote r.va) && !(s.mine c w kind).isEmpty
  match if begun then .ok s
      else s.takeMisses c w (if f.cache.toNat % 4 = 2 then [] else s.missing c.core n reqs) with
  | .error (k, s1) => .waits k s1
  | .ok s1 =>
    match if begun then none else s.accessFault c.core kind (fun _ => loadAsk f) reqs with
    | some e => .fault e
    | none =>
      if !begun && s.chainPending c.core w n reqs then .waits .order s
      else
        match s1.outside c w kind n (s.asking c.core n w (if once then reqs.take 1 else reqs)) mk with
        | .waits s2 => .waits (.outside 0) s2
        | .ready fails answers s2 =>
          if !once then .ready fails answers s2
          else
            let spread {α : Type} (m : KMap α) : KMap α := match m with
              | (_, x) :: _ => reqs.foldl (fun m r => kset m r.lane x) []
              | [] => []
            .ready (spread fails) (spread answers) s2

/-- The core's L1 lines at an address dropped, and fills of it in flight not installed (R217, R271). -/
def State.dropL1 (s : State) (core a : Nat) : State :=
  let k := s.core core
  s.setCore core { k with
    l1 := kdel k.l1 (a / 128)
    misses := k.misses.map fun m => if m.line == a / 128 then { m with stale := true } else m }

/-- The L1 without the lines of accesses that the home has served past it, so that no later load of the core takes an older value
there (R228). -/
def State.passedBy (s : State) (core n : Nat) (bypass : Bool) (reqs : List LaneReq) : State :=
  let lines := (reqs.filter fun r => !s.isRemote r.va).flatMap fun r =>
    [localOf r.va, localOf r.va + n - 1].filter fun a => bypass || !s.cacheable a
  let k := s.core core
  let old := k.l1.filter fun e => !lines.any fun a => a / 128 == e.1
  if old.length = k.l1.length then s else s.setCore core { k with l1 := old }

/-- LD and LDC (R210, R212). -/
def loadBody (f : MF) (cap : Bool) : Body := fun c w s =>
  let kind := if cap then 2 else 0
  let reqs := accessReqs c w f
  let sz := f.size.toNat
  let n := sizeBytes sz
  let u := uniformAccess c w f
  match s.access c w f kind (u && c.full) reqs fun r tag => [loadFlit s r n tag cap] with
  | .fault e => .fail e
  | .waits k s1 => .stay k s1
  | .ready fails answers s2 =>
    let bypass := f.cache.toNat % 4 = 2
    let vals := laneVals s2 c w bypass n fails answers reqs
    let dead := vals.foldl (fun (m : Mask) v => if v.poison then m ||| Mask.one v.lane else m) 0
    let (c1, s3) := loseLanes c (s2.passedBy c.core n bypass reqs) dead 1
    let get (l : Nat) : LaneVal :=
      (vals.find? fun v => v.lane == if u then c1.lowest else l).getD ⟨l, 0, false, false⟩
    let capOf (l : Nat) : Cap :=
      let v := get l
      let r := (reqs.find? fun r => r.lane == v.lane).getD ⟨l, Cap.null, 0⟩
      ⟨BitVec.ofNat 128 v.num, keepTag s c.core r v⟩
    let s4 := if c1.act = 0 then s3 else s3.modWave c.core c.slot fun w3 =>
      if cap then c1.writeQuad w3 f.d.toNat u capOf else writeLoad c1 w3 f.d.toNat sz u fun l => (get l).num
    let s5 := s4.reportFails c w kind reqs fails
    .next ((if acquires f then s5.acquire c.core f.scope.toNat else s5).noteReads c.core c.bslot
      (reqs.flatMap fun r => rangeFrom r.va n))

/-- The extension of a value LDG writes (R213). -/
def ldgWord (sz x : Nat) : Dword := if sz = 5 then BitVec.ofInt 64 (sext 32 x) else BitVec.ofNat 64 x

/-- LDG for one lane after another until one is not lost (R213). -/
def ldgLanes (f : MF) (c : Ctx) (w : Wave) : List LaneReq → State → Done
  | [], s => .next s
  | r :: rest, s =>
    let sz := f.size.toNat
    let n := sizeBytes sz
    match s.access c w f 4 false [r] fun r tag => [loadFlit s r n tag (sz = 4)] with
    | .fault e => .failIn e s
    | .waits k s1 => .stay k s1
    | .ready fails answers s2 =>
      let bypass := f.cache.toNat % 4 = 2
      match laneVals s2 c w bypass n fails answers [r] with
      | [] => .next s2
      | v :: _ =>
        let s2 := (s2.passedBy c.core n bypass [r]).noteReads c.core c.bslot (rangeFrom r.va n)
        if v.poison then ldgLanes f c w rest (s2.killLanes c.core c.slot (Mask.one r.lane) 1)
        else
          let s3 := s2.modWave c.core c.slot fun w3 =>
            if sz = 4 then
              w3.setBank (w3.bank.writeCap f.d.toNat ⟨BitVec.ofNat 128 v.num, keepTag s c.core r v⟩)
            else c.writeG w3 f.d.toNat (ldgWord sz v.num)
          let s4 := s3.reportFails c w 4 [r] fails
          .next (if acquires f then s4.acquire c.core f.scope.toNat else s4)

/-- LDG (R213). -/
def ldgBody (f : MF) : Body := fun c w s => ldgLanes f c w (accessReqs c w f) s

/-- PREF (R214): lanes that pass every check have their lines asked for, as far as entries are free and no wave waits for them
(R222). -/
def prefBody (f : MF) : Body := fun c w s =>
  let ask : Ask := { need := 0, align := 1, size := 1, stored := none }
  let reqs := (accessReqs c w f).filter fun r => (s.check (s.agent c.core) ask r.cap r.addr).isNone
  let k := s.core c.core
  let lines := if f.cache.toNat % 4 = 2 then [] else s.missing c.core 1 reqs
  let new := k.unasked lines
  let free := if k.reserve.isEmpty then 256 - k.misses.length else 0
  .next (s.setCore c.core { k with misses := k.misses ++ (new.take free).map fun l => ⟨l, false⟩ })

/-! ### Stores (R211, R212, R223) -/

/-- What an image records of a store of an M-format instruction (R377). -/
def infoOf (kind : Nat) (f : MF) (act : Mask) (aux : Nat) (lanes : List StoreLane) : StoreInfo :=
  { kind, size := f.size.toNat, op := if kind = 3 then f.cache.toNat else 0, scope := f.scope.toNat,
    order := f.order.toNat, act, aux, lanes }

/-- The lanes of a store to memory as an image records them (R377). -/
def memLanes (reqs : List LaneReq) (val : Nat → Nat) : List StoreLane :=
  reqs.map fun r => ⟨r.lane, r.va, capClass r.cap.bits, val r.lane⟩

/-- The scratchpad bytes that pieces of a store write (R291). -/
def padWrites (parts : List Part) : List (Nat × Nat × Nat) :=
  parts.filterMap fun p => match p.home with | .spad r o => some (8 + r, o, p.span) | _ => none

/-- A store enters the wave's store buffer with what it waits for there (R230), or waits for room (R223, R224). `rel` and `scope`
are its release. -/
def enterStore (c : Ctx) (w : Wave) (s : State) (depth stream kind : Nat) (rel : Bool) (scope : Nat) (info : StoreInfo)
    (parts : List Part) : Done :=
  if depth ≤ w.sb.length || 64 ≤ w.unack.getD stream 0 then .stay .buffer s
  else
    let e : StoreEntry :=
      { serial := w.nextSerial, place := (w.placed + 1) % 2 ^ 32, stream, colour := (s.core c.core).latch, pc := c.pc, kind, parts, info,
        gates := s.gatesOf w rel scope }
    .next (s.setWave c.core c.slot
      { w with unfenced := padWrites parts ++ w.unfenced, sb := w.sb ++ [e], nextSerial := w.nextSerial + 1, placed := (w.placed + 1) % 2 ^ 32, unack := lmod w.unack stream (· + 1) })

/-- The store-buffer depth of a wave's block (R216). -/
def State.sbDepth (s : State) (c : Ctx) : Nat := match s.block c.core c.bslot with | some b => b.env.sbDepth | none => 16

/-- A byte of a store: its address in the whole space, its value and the lane that wins it (R211). -/
structure StoreByte where
  va : Nat
  byte : Byte
  lane : Nat
deriving DecidableEq, Repr

/-- The bytes of a store by rising address, the highest lane winning (R211). -/
def storeBytes (n : Nat) (val : Nat → Nat) (reqs : List LaneReq) : List StoreByte :=
  (reqs.foldl (fun (m : KMap (Byte × Nat)) r =>
    ((toBytes n (val r.lane)).zip (rangeFrom r.va n)).foldl (fun m (b, a) => kset m a (b, r.lane)) m) []).map
    fun (a, b, l) => ⟨a, b, l⟩

/-- The home of an address (R228). -/
def homeOfVa (s : State) (reqs : List LaneReq) (lane va : Nat) : Home :=
  if s.isRemote va then
    match reqs.find? fun r => r.lane == lane with
    | some r => .remote (devOf va) (localOf va) (capClass r.cap.bits) lane r.va
    | none => .remote (devOf va) (localOf va) 0 lane va
  else .mem (localOf va)

/-- Bytes grouped into pieces: runs within a line, and of one lane where they leave the part. -/
def storeRuns (s : State) (reqs : List LaneReq) : List StoreByte → List (Nat × Nat × List Byte) → List Part
  | [], acc => acc.map fun (va, l, bs) => ⟨homeOfVa s reqs l va, .bytes bs.reverse false⟩
  | x :: xs, [] => storeRuns s reqs xs [(x.va, x.lane, [x.byte])]
  | x :: xs, (va, l, bs) :: rest =>
    if x.va = va + bs.length && x.va % 128 ≠ 0 && (!s.isRemote x.va || x.lane = l) then
      storeRuns s reqs xs ((va, l, x.byte :: bs) :: rest)
    else storeRuns s reqs xs ((x.va, x.lane, [x.byte]) :: (va, l, bs) :: rest)

/-- The value a store takes from lane `l` by SIZE (R211). -/
def storeVal (c : Ctx) (w : Wave) (d sz l : Nat) : Nat :=
  match sz with
  | 3 | 15 => (c.lane64 w d l).toNat
  | 4 => if d = 1023 then 0 else (c.quad w d l).toNat
  | _ => (c.lane w d l).toNat

/-! ### Digests (R461, R462) -/

/-- A term of a digest (R461): byte `x` at offset `o` of output `k`. -/
def mixTerm (k o x : Nat) : Nat :=
  let z0 := k * 2 ^ 59 % 2 ^ 64 ||| o % 2 ^ 48 * 2 ^ 8 ||| x
  let z1 := (z0 ^^^ z0 / 2 ^ 31) * 0xA3B195F47C2E6D1B % 2 ^ 64
  let z2 := (z1 ^^^ z1 / 2 ^ 29) * 0x8E4D27C9F51AB36D % 2 ^ 64
  z2 ^^^ z2 / 2 ^ 32

/-- Whether a byte's store takes effect: an audit execution discards those outside the shadow (R462). -/
def State.storeKept (s : State) (core bslot va : Nat) : Bool :=
  match s.auditRanges core bslot with
  | some (true, rs) => (rangeAt rs va).isSome
  | _ => true

/-- The store lanes' bytes added to the block's digest; a byte outside the ranges excludes the block, or voids the digest
(R459, R461, R462). -/
def State.digestStore (s : State) (core bslot : Nat) (bytes : List (Nat × Byte)) : State :=
  match s.auditRanges core bslot with
  | none => s
  | some (_, rs) =>
    let sum := bytes.foldl (fun n (va, x) => match rangeAt rs va with
      | some (k, o) => (n + mixTerm k o x.toNat) % 2 ^ 64
      | none => n) 0
    let s1 := s.modBlock core bslot fun b =>
      { b with digest := b.digest.map fun d => (d + sum) % 2 ^ 64
               wrote := bytes.foldl (fun m x => if (rangeAt rs x.1).isSome then nins m x.1 else m) b.wrote }
    if bytes.any fun (va, _) => (rangeAt rs va).isNone then s1.exclude core bslot else s1

/-- The bytes of every lane of a store. -/
def laneBytes (n : Nat) (val : Nat → Nat) (reqs : List LaneReq) : List (Nat × Byte) :=
  reqs.flatMap fun r => (rangeFrom r.va n).zip (toBytes n (val r.lane))

/-- A store that has entered the store buffer, with its digest. -/
def digested (c : Ctx) (bytes : List (Nat × Byte)) : Done → Done
  | .next s => .next (s.digestStore c.core c.bslot bytes)
  | d => d

/-- ST (R211). -/
def stBody (f : MF) : Body := fun c w s =>
  let reqs := accessReqs c w f
  let sz := f.size.toNat
  let ask := { loadAsk f with need := permStore }
  match s.accessFault c.core 1 (fun _ => ask) reqs with
  | some e => .fail e
  | none =>
    if formatBad w (.mem .st f) then .fail (.emu 7 0)
    else
      let val := storeVal c w f.d.toNat sz
      let kept := (storeBytes (sizeBytes sz) val reqs).filter fun x => s.storeKept c.core c.bslot x.va
      digested c (laneBytes (sizeBytes sz) val reqs)
        (enterStore c w s (s.sbDepth c) f.stream.toNat 1 (releases f) f.scope.toNat (infoOf 0 f c.act 0 (memLanes reqs val))
          (storeRuns s reqs kept []).reverse)

/-- STC (R212): the highest lane wins a unit. -/
def stcBody (f : MF) : Body := fun c w s =>
  let reqs := accessReqs c w f
  let cap (l : Nat) : Cap := c.quadCap w f.d.toNat l
  let ask (r : LaneReq) : Ask :=
    { need := permStore ||| (if (cap r.lane).tag then permStoreCap else 0), align := 16, size := 16,
      stored := some (cap r.lane) }
  match s.accessFault c.core 3 ask reqs with
  | some e => .fail e
  | none =>
      let units := (reqs.foldl (fun (m : KMap Nat) r => kset m r.va r.lane) []).filter fun u =>
        s.storeKept c.core c.bslot u.1
      let val (l : Nat) : Nat := (cap l).bits.toNat
      let tags := reqs.foldl (fun (m : Mask) r => if (cap r.lane).tag then m ||| Mask.one r.lane else m) 0
      digested c (laneBytes 16 val reqs)
        (enterStore c w s (s.sbDepth c) f.stream.toNat 3 (releases f) f.scope.toNat (infoOf 1 f c.act tags.toNat (memLanes reqs val))
          (units.map fun (va, l) => ⟨homeOfVa s reqs l va, .bytes (toBytes 16 (val l)) (cap l).tag⟩))

/-- The wave after a FENCE's release: later stores wait for what is still to be performed (R230, R236). -/
def Wave.fenced (w : Wave) (s : State) (scope mask : Nat) : Wave :=
  let old := w.fences.filter fun x => !s.gateMet w x.gate
  { w with fences := if s.released w scope mask then old else old ++ [⟨w.gate scope mask, w.path⟩] }

/-- FENCE (R230 to R234): a release holds back the wave's later stores only; an acquire and release waits, so that no later load
goes before the stores. -/
def fenceBody (f : MF) : Body := fun c w s =>
  let scope := f.scope.toNat
  let mask := f.offset.toNat % 256
  if releases f && acquires f && !s.released w scope mask then .stay .fence s
  else
    let s1 := if releases f then s.setWave c.core c.slot (w.fenced s scope mask) else s
    .next (if acquires f then s1.acquire c.core scope else s1)

/-! ### Atomics (R268 to R272) -/

/-- The new value of an atomic operation (R268). -/
def atomNew (code size : Nat) (signed : Bool) (m d : Nat) : Nat :=
  let w := 8 * size
  let v (x : Nat) : Int := if signed then sext w x else x
  match code with
  | 0 => (m + d) % 2 ^ w
  | 1 => if v d < v m then d else m
  | 2 => if v m < v d then d else m
  | 3 => m &&& d
  | 4 => m ||| d
  | 5 => m ^^^ d
  | 6 => d
  | _ =>
    let f := if size = 8 then fp64 else fp32
    f.roundTo 0 ((f.value m).add 0 (f.value d))

/-- The lanes of a chain in ascending order: each lane's old value, and the value left (R270). -/
def Chain.run (k : Chain) (m : Nat) : List (Nat × Nat) × Nat :=
  k.lanes.foldl (fun (olds, m) (l, d, new) =>
    (olds ++ [(l, m)], if k.code = 8 then (if m = d then new else m) else atomNew k.code k.size k.signed m d)) ([], m)

/-- The operand of an atomic's lane, and the new value of a compare-and-swap (R269). -/
def atomOperand (c : Ctx) (w : Wave) (cas : Bool) (d sz l : Nat) : Nat × Nat :=
  let n := if sizeBytes sz = 8 then 2 else 1
  let ty := if n = 2 then tB64 else tB32
  (c.bits w ty d l, if cas then c.bits w ty (d + n) l else 0)

/-- The chains of an instruction: one for each place the lanes name, by rising place (R270). -/
def chainsOf (c : Ctx) (w : Wave) (code sz d : Nat) (places : List (Nat × Nat)) : KMap Chain :=
  let k0 : Chain := { size := sizeBytes sz, float := code = 7, signed := sz = 5, code, lanes := [] }
  places.foldl (fun (m : KMap Chain) (l, x) =>
    let k := kgetD m x k0
    let (a, b) := atomOperand c w (code = 8) d sz l
    kset m x { k with lanes := k.lanes ++ [(l, a, b)] }) []

/-- Check 7 of an atomic: the host window and the device registers count as unmapped (R272). -/
def State.atomicFault (s : State) (core kind : Nat) (ask : Ask) (reqs : List LaneReq) : Option Exc :=
  reqs.findSome? fun r =>
    let k := s.check (s.agent core) ask r.cap r.addr
    let place := rangeOf (localOf r.va)
    let late := match k with | some k => 7 ≤ k | none => true
    (if late && !s.isRemote r.va && (place == .host || place == .device) then some 7 else k).map fun k =>
      capFaultOf kind k r

/-- The old values written to the lanes (R270): format by SIZE, general, tags cleared. -/
def writeOlds (c : Ctx) (w : Wave) (d sz : Nat) (cas : Bool) (olds : KMap Nat) : Wave :=
  let v (l : Nat) : Nat := kgetD olds l 0
  if sizeBytes sz = 8 then c.writeTy w d false (if sz = 15 then tF64 else tB64) v
  else c.write w d (.g (Lanes.of fun l => BitVec.ofNat 32 (v l))) (if cas then 0 else sizeFmt sz)

/-- The flits of one chain's request: its code, operand count and operands, at most 192 bytes of them each
(R333; entry 20 of the log). -/
def chainFlits (s : State) (dev a cls col ord : Nat) (k : Chain) (rtag : Nat) : List Flit :=
  let ops := k.lanes.flatMap fun (_, d, new) => toBytes k.size d ++ if k.code = 8 then toBytes k.size new else []
  let count := (ops.length + 191) / 192
  (List.range count).map fun i =>
    flitOf s dev col ord 5 rtag
      (requestHead a k.size cls (k.code + (if k.signed then 16 else 0)) k.lanes.length (i + 16 * count)
        ++ (ops.drop (192 * i)).take 192) 0 0

/-- One lane's old value from a remote chain's answer: the lanes' values in order. -/
def chainAnswer (k : Chain) (a : Answer) : KMap Nat :=
  (k.lanes.zip (List.range k.lanes.length)).foldl (fun (m : KMap Nat) ((l, _, _), i) =>
    kset m l (if a.code = 0 then ofBytes ((a.data.drop (k.size * i)).take k.size) else 0)) []

/-- The chains of an atomic on local memory applied (R270): old values by lane, lanes lost to poison, and the state. A
write that an audit execution may not make is not made (R462). -/
def State.applyChains (s : State) (kept : Nat → Bool) (ks : List (Nat × Chain)) : KMap Nat × Mask × State :=
  ks.foldl (fun (olds, lost, s) (va, k) =>
    let a := localOf va
    if s.poisoned a k.size then
      (olds, k.lanes.foldl (fun (m : Mask) x => m ||| Mask.one x.1) lost, s)
    else
      let (os, m) := k.run (s.numAt a k.size)
      (os.foldl (fun m (l, v) => kset m l v) olds, lost, if kept va then s.storeNum a k.size m else s)) ([], 0, s)

/-- Whether a store of the wave to a byte that an atomic touches has still to be performed (R271). -/
def State.unperformed (s : State) (w : Wave) (n : Nat) (reqs : List LaneReq) : Bool :=
  let sent (dev : Nat) : Bool := s.remote.any fun e => match e.2.owner with
    | .store u _ _ _ _ _ _ => e.2.dev == dev && u == w.uid
    | _ => false
  reqs.any fun r =>
    let far := s.isRemote r.va
    (far && sent (devOf r.va)) ||
      (s.ownParts w).any fun p => p.touches (if far then 1 else 0) (if far then devOf r.va else 0) (localOf r.va) n

/-- ATOM and CAS (R270, R271). -/
def atomBody (op : Op) (f : MF) : Body := fun c w s =>
  let cas := op == .cas
  let kind := if cas then 7 else 5
  let reqs := accessReqs c w f
  let sz := f.size.toNat
  let n := sizeBytes sz
  let code := if cas then 8 else f.cache.toNat
  match s.atomicFault c.core kind { loadAsk f with need := permLoad ||| permStore ||| permAtomic } reqs with
  | some e => .fail e
  | none =>
    if formatBad w (.mem op f) then .fail (.emu 7 0)
    else if !s.ordered w (releases f) f.scope.toNat then .stay .order s
    else if s.unperformed w n reqs then .stay .order s
    else
      let chains := chainsOf c w code sz f.d.toNat (reqs.map fun r => (r.lane, r.va))
      let firsts := chains.filterMap fun (va, k) => match k.lanes with
        | (l, _, _) :: _ => some (LaneReq.mk l ((reqs.find? fun r => r.lane == l).getD ⟨l, Cap.null, 0⟩).cap va)
        | [] => none
      let mk (r : LaneReq) (tag : Nat) : List Flit := match kget chains r.va with
        | some k => chainFlits s (devOf r.va) (localOf r.va) (capClass r.cap.bits) (capColour r.cap.bits) 0xFF k tag
        | none => []
      match s.outside c w kind n firsts mk with
      | .waits s1 => .stay (.outside 0) s1
      | .ready fails answers s1 =>
        let here := chains.filter fun (va, _) => !s.isRemote va
        let s2 := here.foldl (fun s (va, _) => s.dropL1 c.core (localOf va)) s1
        let (olds, lost, s3) := (s2.exclude c.core c.bslot).applyChains (s2.storeKept c.core c.bslot) here
        let olds2 := chains.foldl (fun (m : KMap Nat) (_, k) => match k.lanes with
          | (l, _, _) :: _ => match kget answers l with
            | some a => (chainAnswer k a).foldl (fun m (l, v) => kset m l v) m
            | none => m
          | [] => m) olds
        let lost2 := chains.foldl (fun (m : Mask) (_, k) => match k.lanes with
          | (l, _, _) :: _ => match kget answers l with
            | some a => if a.poison then k.lanes.foldl (fun (m : Mask) x => m ||| Mask.one x.1) m else m
            | none => m
          | [] => m) lost
        let (c1, s4) := loseLanes c s3 lost2 1
        let merged := reqs.length - chains.length
        let s5 := s4.modWave c.core c.slot fun w3 =>
          let w4 := { w3 with aggmrg := w3.aggmrg + BitVec.ofNat 32 merged }
          if c1.act = 0 then w4 else writeOlds c1 w4 f.d.toNat sz cas olds2
        let s6 := s5.reportFails c w kind reqs fails
        .next (if acquires f then s6.acquire c.core f.scope.toNat else s6)

/-- RED (R270, R271): one store of one chain for each place. -/
def redBody (f : MF) : Body := fun c w s =>
  let reqs := accessReqs c w f
  let sz := f.size.toNat
  match s.atomicFault c.core 6 { loadAsk f with need := permStore ||| permAtomic } reqs with
  | some e => .fail e
  | none =>
    if formatBad w (.mem .red f) then .fail (.emu 7 0)
    else
      let chains := chainsOf c w f.cache.toNat sz f.d.toNat (reqs.map fun r => (r.lane, r.va))
      let parts := (chains.filter fun e => s.storeKept c.core c.bslot e.1).map fun (va, k) =>
        let l := match k.lanes with | (l, _, _) :: _ => l | [] => 0
        (⟨homeOfVa s reqs l va, .chain k⟩ : Part)
      let val (l : Nat) : Nat := (atomOperand c w false f.d.toNat sz l).1
      match enterStore c w s (s.sbDepth c) f.stream.toNat 6 (releases f) f.scope.toNat (infoOf 3 f c.act 0 (memLanes reqs val)) parts with
      | .next s0 =>
        let s1 := s0.exclude c.core c.bslot
        let s2 := chains.foldl (fun s (va, _) => if s.isRemote va then s else s.dropL1 c.core (localOf va)) s1
        .next (s2.modWave c.core c.slot fun w3 =>
          { w3 with aggmrg := w3.aggmrg + BitVec.ofNat 32 (reqs.length - chains.length) })
      | d => d

/-! ### The meanings -/

def execLd (f : MF) (s : State) := issue (Instr.ld f).view (encode (.ld f)) (loadBody f false) false s
def execSt (f : MF) (s : State) := issue (Instr.st f).view (encode (.st f)) (stBody f) false s
def execLdc (f : MF) (s : State) := issue (Instr.ldc f).view (encode (.ldc f)) (loadBody f true) false s
def execStc (f : MF) (s : State) := issue (Instr.stc f).view (encode (.stc f)) (stcBody f) false s
def execLdg (f : MF) (s : State) := issue (Instr.ldg f).view (encode (.ldg f)) (ldgBody f) false s
def execPref (f : MF) (s : State) := issue (Instr.pref f).view (encode (.pref f)) (prefBody f) false s
def execFence (f : MF) (s : State) := issue (Instr.fence f).view (encode (.fence f)) (fenceBody f) false s
def execAtom (f : MF) (s : State) := issue (Instr.atom f).view (encode (.atom f)) (atomBody .atom f) false s
def execRed (f : MF) (s : State) := issue (Instr.red f).view (encode (.red f)) (redBody f) false s
def execCas (f : MF) (s : State) := issue (Instr.cas f).view (encode (.cas f)) (atomBody .cas f) false s

end Sys2Proof.Machine
end

