-- ==== Sys2Proof/Machine/Scratch.lean ====
section
/-!
DEFINITION. Scratchpad and synchronisation (R242 to R267, R273): addresses and checks, full/empty words, barrier objects,
the implicit barriers and the scratchpad atomics.
-/

namespace Sys2Proof.Machine

/-! ### Places (R242, R243) -/

/-- The block at a rank of a block's cluster, with its core and slot. -/
def State.rankBlock (s : State) (b : Block) (rank : Nat) : Option (Nat × Nat × Block) :=
  match kget s.clusters b.cluster with
  | none => none
  | some k =>
    match k.members[rank]? with
    | some (c, sl) => (s.block c sl).map fun x => (c, sl, x)
    | none => none

/-- The blocks of a block's cluster. -/
def State.clusterSize (s : State) (b : Block) : Nat :=
  match kget s.clusters b.cluster with
  | some k => k.members.length
  | none => 1

/-- One active lane's scratchpad access. -/
structure PadReq where
  lane : Nat
  rank : Nat
  off : Int
deriving DecidableEq, Repr

/-- The access of a lane of an M-format scratchpad form (R243). -/
def padReq (c : Ctx) (w : Wave) (b : Block) (f : MF) (l : Nat) : PadReq :=
  ⟨l, if f.b.toNat = 1023 then b.rank else (c.lane w f.b.toNat l).toNat,
   ((c.lane w f.a.toNat l).toNat : Int) + sext 24 f.offset.toNat⟩

/-- The accesses of an M-format scratchpad form, ascending. -/
def padReqs (c : Ctx) (w : Wave) (b : Block) (f : MF) : List PadReq := c.lanes.map (padReq c w b f)

/-- The access of a barrier instruction: that of its lowest active lane, without an immediate (R243). -/
def barrierReq (c : Ctx) (w : Wave) (b : Block) (x : VArgs) : PadReq :=
  ⟨c.lowest, if x.b = 1023 then b.rank else (c.lane w x.b c.lowest).toNat, ((c.lane w x.a c.lowest).toNat : Int)⟩

/-- Checks 1 to 3 of R245. -/
def State.padCheck (s : State) (b : Block) (align size : Nat) (r : PadReq) : Option Nat :=
  if s.clusterSize b ≤ r.rank then some 1
  else if r.off % align ≠ 0 then some 2
  else
    match s.rankBlock b r.rank with
    | none => some 3
    | some (_, _, t) => if r.off < 0 || (t.spSize : Int) < r.off + size then some 3 else none

/-- The scratchpad fault of a failing check (R246). -/
def padFaultOf (kind k : Nat) (r : PadReq) : Exc := .spadFault kind r.lane k r.rank r.off

def State.padFault (s : State) (b : Block) (kind align size : Nat) (reqs : List PadReq) : Option Exc :=
  reqs.findSome? fun r => (s.padCheck b align size r).map fun k => padFaultOf kind k r

/-! ### Bytes of an allocation (R242, R248) -/

def Block.padByte (b : Block) (a : Nat) : Byte := kgetD b.spad a 0
def Block.padNum (b : Block) (a n : Nat) : Nat := ofBytes ((rangeFrom a n).map b.padByte)

/-- Bytes written to an allocation: a word written whole is free of error (R248). -/
def Block.padStore (b : Block) (a : Nat) (bs : List Byte) : Block :=
  { b with
    spad := (bs.zip (rangeFrom a bs.length)).foldl (fun m (x, i) => kput m i x 0) b.spad
    badWords := b.badWords.filter fun x => !(a ≤ 4 * x && 4 * x + 4 ≤ a + bs.length) }

def Block.padPut (b : Block) (a n x : Nat) : Block := b.padStore a (toBytes n x)

/-- Whether a word with an uncorrectable error lies among `n` bytes. -/
def Block.padBad (b : Block) (a n : Nat) : Bool := b.badWords.any fun x => a < 4 * x + 4 && 4 * x < a + n

/-- A block read on a place in the state. -/
def State.atBlock (s : State) (p : Nat × Nat × Block) (f : Block → Block) : State := s.modBlock p.1 p.2.1 f

/-! ### LDS and STS (R250, R251) -/

/-- A wave's own pieces bound for a scratchpad, newest first: its store buffer, then what has left it (R250, R228). -/
def State.padParts (s : State) (w : Wave) : List Part := (s.ownParts w).reverse

/-- A piece whose bytes are not known before it is applied. -/
def Part.opaque? (p : Part) : Bool :=
  match p.eff with
  | .bytes _ _ => false
  | _ => true

/-- Whether an unapplied piece of the wave's own, of unknown bytes, touches an access. -/
def padPending (parts : List Part) (n : Nat) (reqs : List PadReq) : Bool :=
  reqs.any fun r => parts.any fun p => p.opaque? && p.touches 2 r.rank r.off.toNat n

def padLoad (parts : List Part) (t : Block) (n : Nat) (r : PadReq) : LaneVal :=
  let a := r.off.toNat
  let own := (rangeFrom a n).map fun x => parts.findSome? fun p => p.byteAt 2 r.rank x
  let bs := (own.zip (rangeFrom a n)).map fun (o, x) => o.getD (t.padByte x)
  { lane := r.lane, num := ofBytes bs, tag := false,
    poison := (own.zip (rangeFrom a n)).any fun (o, x) => o.isNone && t.badWords.contains (x / 4) }

/-- What a lane's load of a block of the cluster finds. -/
def State.padFound (s : State) (b : Block) (parts : List Part) (n : Nat) (r : PadReq) : LaneVal :=
  match s.rankBlock b r.rank with
  | some (_, _, t) => padLoad parts t n r
  | none => ⟨r.lane, 0, false, false⟩

/-- LDS (R250). -/
def ldsBody (f : MF) : Body := fun c w s =>
  match s.block c.core c.bslot with
  | none => .next s
  | some b =>
    let reqs := padReqs c w b f
    let sz := f.size.toNat
    let n := sizeBytes sz
    match s.padFault b 0 (sizeAlign sz) n reqs with
    | some e => .fail e
    | none =>
      let parts := s.padParts w
      if padPending parts n reqs then .stay .order s
      else
        let vals := reqs.map (s.padFound b parts n)
        let dead := vals.foldl (fun (m : Mask) v => if v.poison then m ||| Mask.one v.lane else m) 0
        let (c1, s1) := loseLanes c s dead 2
        let u := c.allU w f.a.toNat 1 && c.allU w f.b.toNat 1
        let get (l : Nat) : Nat := match vals.find? fun v => v.lane == if u then c1.lowest else l with
          | some v => v.num
          | none => 0
        let s2 := if c1.act = 0 then s1 else s1.modWave c.core c.slot fun w3 => writeLoad c1 w3 f.d.toNat sz u get
        .next (if acquires f then s2.acquire c.core f.scope.toNat else s2)

/-- A scratchpad place as one number, rank over offset. -/
def padKey (rank off : Nat) : Nat := rank * 2 ^ 24 + off

/-- The pieces of an STS: runs of one rank within 128 bytes. -/
def padRuns : List (Nat × Byte) → List (Nat × List Byte) → List Part
  | [], acc => acc.map fun (k, bs) => ⟨.spad (k / 2 ^ 24) (k % 2 ^ 24), .bytes bs.reverse false⟩
  | (k, x) :: xs, [] => padRuns xs [(k, [x])]
  | (k, x) :: xs, (a, bs) :: rest =>
    if k = a + bs.length && k % 128 ≠ 0 then padRuns xs ((a, x :: bs) :: rest)
    else padRuns xs ((k, [x]) :: (a, bs) :: rest)

/-- STS (R251): the highest lane wins a byte. -/
def stsBody (f : MF) : Body := fun c w s =>
  match s.block c.core c.bslot with
  | none => .next s
  | some b =>
    let reqs := padReqs c w b f
    let sz := f.size.toNat
    let n := sizeBytes sz
    match s.padFault b 1 (sizeAlign sz) n reqs with
    | some e => .fail e
    | none =>
      if formatBad w (.mem .sts f) then .fail (.emu 7 0)
      else
        let bytes := reqs.foldl (fun (m : KMap Byte) r =>
          ((toBytes n (storeVal c w f.d.toNat sz r.lane)).zip (rangeFrom (padKey r.rank r.off.toNat) n)).foldl
            (fun m (x, k) => kset m k x) m) []
        let val := storeVal c w f.d.toNat sz
        let lanes := reqs.map fun r => (⟨r.lane, padKey r.rank r.off.toNat, 0, val r.lane⟩ : StoreLane)
        enterStore c w s b.env.sbDepth f.stream.toNat 16 (releases f) f.scope.toNat (infoOf 2 f c.act 0 lanes) (padRuns bytes []).reverse

/-! ### Full/empty words (R252 to R255) -/

/-- Whether a word is full. -/
def Block.isFull (b : Block) (word : Nat) : Bool := b.full.contains word

def Block.setFull (b : Block) (word : Nat) (x : Bool) : Block :=
  { b with full := if x then nins b.full word else ndel b.full word }

/-- The registers of a wave written at one lane by a load that has waited (R253). -/
def writeWaiting (w : Wave) (lane reg fmt : Nat) (x : Word) : Wave :=
  w.setBank (w.bank.write (Mask.one lane &&& w.live) w.live reg (.g (Lanes.splat x)) fmt)

/-- The lane of a waiting wave marked as done. -/
def Wave.feMark (w : Wave) (lane : Nat) : Wave :=
  match w.fe with
  | some p => { w with fe := some { p with done := p.done ||| Mask.one lane } }
  | none => w

/-- Whether a waiting operation's condition holds on a word. -/
def FeOp.ready (op : FeOp) (full : Bool) : Bool :=
  match op with
  | .load _ _ _ => full
  | .store _ => !full
  | .channel _ _ => !full

/-- A waiting operation applied at its word: the block, and what the waiting wave or channel receives. -/
def State.feApply (s : State) (tc tb : Nat) (q : FeWaiter) : State :=
  match s.block tc tb with
  | none => s
  | some t =>
    match q.op with
    | .load keep reg fmt =>
      match s.findUid q.uid with
      | none => s
      | some (c, slot) =>
        match s.wave c slot with
        | none => s
        | some w =>
          if !w.live.getLsbD q.lane then s
          else if t.padBad (4 * q.word) 4 then s.killLanes c slot (Mask.one q.lane) 2
          else
            let x := BitVec.ofNat 32 (t.padNum (4 * q.word) 4)
            let s1 := if keep then s else s.setBlock tc tb (t.setFull q.word false)
            ((s1.claimReg c slot reg (Mask.one q.lane)).modWave c slot fun w =>
              (writeWaiting w q.lane reg fmt x).feMark q.lane).settleChunks c slot
    | .store x =>
      match s.findUid q.uid with
      | none => s
      | some (c, slot) =>
        match s.wave c slot with
        | none => s
        | some w =>
          if !w.live.getLsbD q.lane then s
          else (s.setBlock tc tb ((t.padPut (4 * q.word) 4 x.toNat).setFull q.word true)).modWave c slot
            fun w => w.feMark q.lane
    | .channel k x =>
      { s.setBlock tc tb ((t.padPut (4 * q.word) 4 x.toNat).setFull q.word true) with
        channels := kmod s.channels k fun ch => { ch with written := true } }

/-- An error in the full/empty bit of a word that the waiters of a word are examined against halts the first one's partition
(R248). -/
def State.bitHalt (s : State) (tc : Nat) (t : Block) (word : Nat) : State :=
  match t.fe.find? fun q => q.word == word with
  | none => s
  | some q =>
    match q.op, s.findUid q.uid with
    | .channel k _, _ => s.raiseHalt t.env.top (.copy (k / 16)) 69 0 0 0 0
    | _, some (c, slot) => s.haltWave c slot 69 0
    | _, none => s.raiseHalt t.env.top (.waveCore tc) 69 0 0 0 0

/-- The wait queue of a word examined from its head until no condition holds (R254). The first number bounds the
applications: each takes a waiter. -/
def State.feExamine (s : State) (tc tb word : Nat) : Nat → State
  | 0 => s
  | n + 1 =>
    match s.block tc tb with
    | none => s
    | some t =>
      if t.badBits.contains word then s.bitHalt tc t word
      else match (List.range t.fe.length).find? fun i => match t.fe[i]? with
          | some q => q.word == word && q.op.ready (t.isFull word)
          | none => false with
      | none => s
      | some i =>
        match t.fe[i]? with
        | none => s
        | some q =>
          let s1 := s.setBlock tc tb { t with fe := ldel t.fe i }
          State.feExamine (s1.feApply tc tb q) tc tb word n

/-- The queue of a word examined after a change of its bit. -/
def State.feChanged (s : State) (tc tb word : Nat) : State :=
  match s.block tc tb with
  | some t => s.feExamine tc tb word t.fe.length
  | none => s

/-- One lane's operation at its word: applied, or put at the end of the word's queue (R254). The result says whether it
was applied, and a load's value. -/
def State.feTry (s : State) (tc tb : Nat) (q : FeWaiter) : Option Word × State :=
  match s.block tc tb with
  | none => (none, s)
  | some t =>
    if t.fe.any fun x => x.uid == q.uid && x.lane == q.lane then (none, s)
    else if !q.op.ready (t.isFull q.word) then (none, s.setBlock tc tb { t with fe := t.fe ++ [q] })
    else
      match q.op with
      | .load keep _ _ =>
        let x := BitVec.ofNat 32 (t.padNum (4 * q.word) 4)
        (some x, if keep then s else (s.setBlock tc tb (t.setFull q.word false)).feChanged tc tb q.word)
      | .store x =>
        (some 0, (s.setBlock tc tb ((t.padPut (4 * q.word) 4 x.toNat).setFull q.word true)).feChanged tc tb q.word)
      | .channel _ _ => (none, s)

/-- A full/empty instruction's lanes tried in ascending order: the values of those that completed, and those lost to
errors. -/
def feLanes (s : State) (b : Block) (uid : Nat) (op : PadReq → FeOp) : List PadReq → KMap Word × Mask × State
  | [] => ([], 0, s)
  | r :: rest =>
    match s.rankBlock b r.rank with
    | none => feLanes s b uid op rest
    | some (tc, tb, t) =>
      let word := r.off.toNat / 4
      let reads := match op r with | .load _ _ _ => true | _ => false
      if reads && t.isFull word && t.padBad (4 * word) 4 then
        let (vs, lost, s1) := feLanes s b uid op rest
        (vs, lost ||| Mask.one r.lane, s1)
      else
        let (v, s1) := s.feTry tc tb { word, uid, lane := r.lane, op := op r }
        let (vs, lost, s2) := feLanes s1 b uid op rest
        (match v with | some x => kset vs r.lane x | none => vs, lost, s2)

/-- A full/empty bit with an uncorrectable error among the words named (R248). -/
def State.bitError (s : State) (b : Block) (reqs : List PadReq) : Bool :=
  reqs.any fun r => match s.rankBlock b r.rank with
    | some (_, _, t) => t.badBits.contains (r.off.toNat / 4)
    | none => false

/-- The scope of a full/empty operation: block on the issuing block's words, cluster otherwise (R252). -/
def padScope (b : Block) (reqs : List PadReq) : Nat := if reqs.all fun r => r.rank == b.rank then 1 else 2

/-- Whether an earlier store of the wave to one of the words has not been performed (R252). -/
def padOwn (s : State) (w : Wave) (n : Nat) (reqs : List PadReq) : Bool :=
  reqs.any fun r => (s.ownParts w).any fun p => p.touches 2 r.rank r.off.toNat n

/-- LDFE and STFE (R253, R255): `kind` is 2 or 3. The checks are made when the instruction first issues. -/
def feWaitBody (f : MF) (load : Bool) : Body := fun c w s =>
  match s.block c.core c.bslot with
  | none => .next s
  | some b =>
    let reqs := padReqs c w b f
    let fmt := sizeFmt f.size.toNat
    let fresh := w.fe.isNone
    let p := w.fe.getD ⟨0, c.act, padScope b reqs⟩
    let todo := reqs.filter fun r => p.act.getLsbD r.lane && !p.done.getLsbD r.lane
    match if fresh then s.padFault b (if load then 2 else 3) 4 4 reqs else none with
    | some e => .fail e
    | none =>
      if fresh && !load && formatBad w (.mem .stfe f) then .fail (.emu 7 0)
      else if s.bitError b todo then .fail (.halt 69 0)
      else if padOwn s w 4 todo || !(load && f.stream.toNat % 2 = 1 || s.ordered w (!load) p.scope) then .stay .order s
      else
        let op (r : PadReq) : FeOp :=
          if load then .load (f.stream.toNat % 2 = 1) f.d.toNat fmt else .store (c.lane w f.d.toNat r.lane)
        let s0 := s.modWave c.core c.slot fun w => { w with fe := some p }
        let (vals, lost, s1) := feLanes s0 b w.uid op todo
        let (c1, s2) := loseLanes c s1 lost 2
        let done := vals.foldl (fun (m : Mask) e => m ||| Mask.one e.1) 0
        let s3 := s2.modWave c.core c.slot fun w3 =>
          let w4 := match w3.fe with
            | some q => { w3 with fe := some { q with done := q.done ||| done } }
            | none => w3
          if load && done ≠ 0 then
            { c1 with act := done }.write w4 f.d.toNat (.g (Lanes.of fun l => kgetD vals l 0)) fmt
          else w4
        let left : Mask := match s3.wave c.core c.slot with
          | some w3 => match w3.fe with
            | some q => q.act &&& w3.live &&& ~~~q.done
            | none => 0
          | none => 0
        if left ≠ 0 then .stay .fullEmpty s3
        else .next (if load then s3.acquire c.core p.scope else s3)

/-- FESET and FEQ (R253): `set` marks FESET. -/
def feBitBody (f : MF) (set : Bool) : Body := fun c w s =>
  match s.block c.core c.bslot with
  | none => .next s
  | some b =>
    let reqs := padReqs c w b f
    match s.padFault b (if set then 4 else 5) 4 4 reqs with
    | some e => .fail e
    | none =>
      if s.bitError b reqs then .fail (.halt 69 0)
      else if padOwn s w 4 reqs || (set && !s.ordered w true (padScope b reqs)) then .stay .order s
      else if set then
        .next (reqs.foldl (fun s r => match s.rankBlock b r.rank with
          | some (tc, tb, t) =>
            (s.setBlock tc tb (t.setFull (r.off.toNat / 4) (f.stream.toNat % 2 = 1))).feChanged tc tb (r.off.toNat / 4)
          | none => s) s)
      else
        let v (l : Nat) : Nat := match reqs.find? fun r => r.lane == l with
          | some r => match s.rankBlock b r.rank with
            | some (_, _, t) => if t.isFull (r.off.toNat / 4) then 1 else 0
            | none => 0
          | none => 0
        let s1 := s.modWave c.core c.slot fun w3 => c.writeTy w3 f.d.toNat false tW32 v
        .next (s1.acquire c.core (padScope b reqs))

/-! ### Barrier objects (R256 to R258) -/

/-- A barrier object as its words say (R256). -/
structure Object where
  conf : Nat
  state : Nat
  part : List Nat
  arrd : List Nat
  rest : Bool
deriving DecidableEq, Repr

def Block.object (t : Block) (o : Nat) : Object :=
  { conf := t.padNum o 4, state := t.padNum (o + 4) 4,
    part := (List.range 8).map fun r => t.padNum (o + 8 + 4 * r) 4,
    arrd := (List.range 8).map fun r => t.padNum (o + 40 + 4 * r) 4,
    rest := (rangeFrom (o + 72) 56).all fun a => t.padByte a == 0 }

def Object.valid (x : Object) : Bool := x.conf.testBit 31
def Object.scope (x : Object) : Nat := field x.conf 10 2
def Object.expected (x : Object) : Nat := x.conf % 512
def Object.phase (x : Object) : Nat := x.state / 2 ^ 16
def Object.pending (x : Object) : Nat := x.state % 512
def bitsSet (ws : List Nat) : Nat := (ws.map (popcount 32)).sum

/-- Whether an object is consistent, in a cluster of `n` blocks and held by the block at `rank` (R256). -/
def Object.consistent (x : Object) (n rank : Nat) : Bool :=
  x.valid && (x.scope == 1 || x.scope == 2) && field x.conf 12 19 == 0 && !x.conf.testBit 9 && field x.state 9 7 == 0
    && x.rest
    && (x.part.zip x.arrd).all (fun (p, a) => a &&& p == a)
    && (List.range 8).all (fun r =>
      (r < n && (x.scope == 2 || r == rank)) || (x.part.getD r 0 == 0 && x.arrd.getD r 0 == 0))
    && x.expected == bitsSet x.part && x.expected == x.pending + bitsSet x.arrd

/-- An object written back to its words. -/
def Block.putObject (t : Block) (o : Nat) (x : Object) : Block :=
  let ws := x.conf :: x.state :: (x.part ++ x.arrd)
  t.padStore o (ws.flatMap (toBytes 4))

def Object.with (x : Object) (expected phase pending : Nat) (part arrd : List Nat) : Object :=
  { x with conf := x.conf / 512 * 512 + expected, state := phase % 65536 * 65536 + pending, part, arrd }

/-- `complete(o)` (R260). -/
def Object.complete (x : Object) : Object :=
  if x.pending = 0 then x.with x.expected (x.phase + 1) x.expected x.part (List.replicate 8 0) else x

/-- The checks 4 to 6 of an arrival, a WAIT or a TRYWAIT (R245): `arrive` holds the wave and rank of an arrival. -/
def objectCheck (t : Block) (o n own : Nat) (arrive : Option (Nat × Nat)) : Option Nat :=
  let x := t.object o
  if !x.consistent n t.rank then some 4
  else
    let member := match arrive with | some (wv, r) => (x.part.getD r 0).testBit wv | none => true
    if !member || (x.scope == 1 && t.rank != own) then some 5
    else match arrive with
      | some (wv, r) => if (x.arrd.getD r 0).testBit wv then some 6 else none
      | none => none

/-- The checks of a barrier instruction made at issue, at the lowest active lane (R245); an error in a word of the
object halts (R248). -/
def State.barrierCheck (s : State) (b : Block) (kind : Nat) (r : PadReq) (arrive : Option (Nat × Nat)) : Option Exc :=
  match s.padCheck b 128 128 r with
  | some k => some (padFaultOf kind k r)
  | none =>
    match s.rankBlock b r.rank with
    | none => some (padFaultOf kind 3 r)
    | some (_, _, t) =>
      if t.padBad r.off.toNat 128 then some (.halt 69 0)
      else (objectCheck t r.off.toNat (s.clusterSize b) b.rank arrive).map fun k => padFaultOf kind k r

/-- BINIT (R258): checks 1 to 3, 7 and 8, then one store in stream 0. -/
def binitBody (f : MF) : Body := fun c w s =>
  match s.block c.core c.bslot with
  | none => .next s
  | some b =>
    match (padReqs c w b f).head? with
    | none => .next s
    | some r =>
      match s.padCheck b 128 128 r with
      | some k => .fail (padFaultOf 8 k r)
      | none =>
        match s.rankBlock b r.rank with
        | none => .fail (padFaultOf 8 3 r)
        | some (_, _, t) =>
          let o := r.off.toNat
          let x := t.object o
          if t.padBad o 128 then .fail (.halt 69 0)
          else if x.valid && x.arrd.any (· != 0) then .fail (padFaultOf 8 7 r)
          else if !t.registry.contains o && 16 ≤ t.registry.length then .fail (padFaultOf 8 8 r)
          else
            let n := s.clusterSize b
            let scope := f.scope.toNat
            let d := f.d.toNat
            let masks := (List.range 8).map fun k =>
              if n ≤ k || (scope = 1 && k ≠ r.rank) then (0 : Word)
              else if w.dead.getLsbD k then 0
              else c.lane w d k &&& BitVec.ofNat 32 (2 ^ b.waves - 1)
            let w1 := w.poisonIf ((List.range 8).any fun k => w.dead.getLsbD k)
            let e := bitsSet (masks.map (·.toNat))
            let words := (2 ^ 31 + scope * 2 ^ 10 + e) :: e :: masks.map (·.toNat)
            let lane : StoreLane := ⟨0, padKey r.rank o, 0, ofBytes (words.flatMap (toBytes 4))⟩
            enterStore c w1 s b.env.sbDepth 0 17 false 0 (infoOf 5 f c.act 0 [lane]) [⟨.spad r.rank o, .binit scope masks⟩]

/-- BINIT's store applied at its home (R258): the bits of the object's words are cleared, and the registry follows. A
full registry takes no further entry. -/
def State.applyBinit (s : State) (tc tb o scope : Nat) (masks : List Word) : State :=
  match s.block tc tb with
  | none => s
  | some t =>
    let e := bitsSet (masks.map (·.toNat))
    let old := t.object o
    let x : Object := { conf := 2 ^ 31 + scope * 2 ^ 10 + e, state := (old.phase + 1) % 65536 * 65536 + e,
                        part := masks.map (·.toNat), arrd := List.replicate 8 0, rest := true }
    let t1 := (t.putObject o x).padStore (o + 72) (List.replicate 56 0)
    let reg := t1.registry.filter (· != o)
    let t2 := { t1 with
      full := t1.full.filter fun wd => !(o / 4 ≤ wd && wd < o / 4 + 32)
      registry := if e = 0 then reg
        else if t1.registry.contains o then t1.registry
        else if t1.registry.length < 16 then t1.registry ++ [o] else t1.registry }
    (List.range 32).foldl (fun s k => s.feChanged tc tb (o / 4 + k)) (s.setBlock tc tb t2)

/-! ### Arrivals (R260, R263, R264) -/

/-- ARRIVE (R260): checked and ordered at issue, then one store in stream 0. -/
def arriveBody (x : VArgs) : Body := fun c w s =>
  match s.block c.core c.bslot with
  | none => .next s
  | some b =>
    let r := barrierReq c w b x
    match s.barrierCheck b 9 r (some (w.wblk, b.rank)) with
    | some e => .fail e
    | none =>
      let scope := match s.rankBlock b r.rank with
        | some (_, _, t) => (t.object r.off.toNat).scope
        | none => 2
      let lane : StoreLane := ⟨c.lowest, padKey r.rank r.off.toNat, 0, 0⟩
      enterStore c w s b.env.sbDepth 0 18 (x.sub % 2 = 0) scope
          { kind := 4, size := 0, op := if x.sub.testBit 1 then 1 else 0, scope, order := if x.sub % 2 = 0 then 2 else 0,
            act := c.act, aux := x.d, lanes := [lane] }
        [⟨.spad r.rank r.off.toNat, .arrive (x.sub.testBit 1) w.wblk b.rank x.d c.act w.level w.nextSerial⟩]

/-- The token of an arrival in its wave's register (R264): registers below 640 are the wave's own, the others those of the level that
issued it, if it still stands. -/
def Wave.putToken (w : Wave) (d : Nat) (act : Mask) (level serial token : Nat) : Wave :=
  let put (b : Bank) : Bank := b.write (act &&& w.live) w.live d (.u (BitVec.ofNat 32 token)) 2
  let since := if level = 1 then w.level1.since else w.level2.since
  if act &&& w.live = 0 then w
  else if d < 640 || level = 0 then { w with base := put w.base }
  else if w.level < level || serial < since then w
  else { w with handlers := lmod w.handlers (w.level - level) put }

/-- The token of an arrival written to its wave (R264): a spilled register is claimed first, and what the write takes of the file
is settled (R84). -/
def State.writeToken (s : State) (uid d : Nat) (act : Mask) (level serial token : Nat) : State :=
  if d = 1023 then s
  else match s.findUid uid with
    | none => s
    | some (c, slot) =>
      let s1 := if d < 640 then s.claimReg c slot d act else s
      (s1.modWave c slot fun w => w.putToken d act level serial token).settleChunks c slot

/-- An arrival applied at its object's home (R260): checks 4 to 6 again, and the whole update. `n` is the cluster's size
and `rank` the arriving block's; an error in the object's words halts (R248). -/
def State.applyArrive (s : State) (tc tb o n uid : Nat) (drop : Bool) (wv rank d : Nat) (act : Mask) (level serial : Nat) :
    State :=
  match s.block tc tb with
  | none => s
  | some t =>
    let x := t.object o
    if t.padBad o 128 then
      match s.findUid uid with
      | some (c, slot) => s.haltWave c slot 69 0
      | none => s.raiseHalt t.env.top (.waveCore tc) 69 0 0 0 0
    else match objectCheck t o n rank (some (wv, rank)) with
    | some k => s.writeToken uid d act level serial (x.phase + 2 ^ 16 + k * 2 ^ 20)
    | none =>
      let bit := 2 ^ wv
      let arrd := lmod x.arrd rank (· ||| bit)
      let y := if drop then x.with (x.expected - 1) x.phase (x.pending - 1) (lmod x.part rank fun p => p - bit)
          (lmod arrd rank fun a => a - bit)
        else x.with x.expected x.phase (x.pending - 1) x.part arrd
      (s.setBlock tc tb (t.putObject o y.complete)).writeToken uid d act level serial x.phase

/-! ### WAIT, TRYWAIT and BAR (R261, R267) -/

/-- The checks of a WAIT, made when it issues; a later look only meets errors (R248, R261). -/
def State.waitCheck (s : State) (b : Block) (w : Wave) (r : PadReq) : Option Exc :=
  if w.waiting != .barrier then s.barrierCheck b 10 r none
  else match s.rankBlock b r.rank with
    | some (_, _, t) => if t.padBad r.off.toNat 128 then some (.halt 69 0) else none
    | none => none

/-- WAIT (R261): the object is examined at each look. -/
def waitBody (x : VArgs) : Body := fun c w s =>
  match s.block c.core c.bslot with
  | none => .next s
  | some b =>
    let r := barrierReq c w b x
    match s.waitCheck b w r with
    | some e => .fail e
    | none =>
      match s.rankBlock b r.rank with
      | none => .next s
      | some (_, _, t) =>
        let o := t.object r.off.toNat
        if o.phase ≠ c.low32 w x.c % 65536 then .next (s.acquire c.core o.scope) else .stay .barrier s

/-- TRYWAIT (R261): a false result yields. -/
def trywaitBody (x : VArgs) : Body := fun c w s =>
  match s.block c.core c.bslot with
  | none => .next s
  | some b =>
    let r := barrierReq c w b x
    match s.barrierCheck b 11 r none with
    | some e => .fail e
    | none =>
      match s.rankBlock b r.rank with
      | none => .next s
      | some (_, _, t) =>
        let o := t.object r.off.toNat
        if o.phase ≠ c.low32 w x.c % 65536 then
          .next ((s.setWave c.core c.slot (c.writeP w x.d Mask.all)).acquire c.core o.scope)
        else
          let w1 := c.writeP w x.d 0
          .next (s.setWave c.core c.slot { w1 with producers := [], passed := 0, urgent := false })

/-- The phase of an implicit barrier. -/
def State.barPhaseOf (s : State) (b : Block) (cluster : Bool) : Nat :=
  if cluster then (match kget s.clusters b.cluster with | some k => k.phase | none => 0) else b.barPhase

/-- An arrival at an implicit barrier. -/
def State.barArrive (s : State) (c : Ctx) (b : Block) (w : Wave) (cluster : Bool) : State :=
  if cluster then
    { s with clusters := kmod s.clusters b.cluster fun k => { k with arrived := k.arrived ++ [(b.rank, w.wblk)] } }
  else s.modBlock c.core c.bslot fun x => { x with barDone := nins x.barDone w.wblk }

/-- BAR (R267): a release, one arrival, and a wait for the phase to complete. -/
def barBody (x : VArgs) : Body := fun c w s =>
  match s.block c.core c.bslot with
  | none => .next s
  | some b =>
    let cluster := x.sub % 2 = 1
    let scope := if cluster then 2 else 1
    match w.barWait with
    | some (_, ph) =>
      if s.barPhaseOf b cluster ≠ ph then .next (s.acquire c.core scope) else .stay .implicitBarrier s
    | none =>
      if !s.ordered w true scope then .stay .order s
      else
        let s1 := s.setWave c.core c.slot { w with barWait := some (cluster, s.barPhaseOf b cluster) }
        .stay .implicitBarrier (s1.barArrive c b w cluster)

/-- IMPLICIT_BARRIER_COMPLETE (R267): every participant that has not retired has arrived. -/
def State.implicitComplete (s : State) (core bslot : Nat) (cluster : Bool) : State :=
  match s.block core bslot with
  | none => s
  | some b =>
    if cluster then
      match kget s.clusters b.cluster with
      | none => s
      | some k =>
        let waves := (List.range k.members.length).flatMap fun r => (List.range b.waves).map fun i => (r, i)
        let still := waves.filter fun p => !k.gone.contains p
        if k.arrived.isEmpty || !(still.all fun p => k.arrived.contains p) then s
        else { s with clusters := kset s.clusters b.cluster { k with phase := k.phase + 1, arrived := [] } }
    else
      let still := (List.range b.waves).filter fun i => !b.gone.contains i
      if b.barDone.isEmpty || !(still.all fun i => b.barDone.contains i) then s
      else s.setBlock core bslot { b with barPhase := b.barPhase + 1, barDone := [] }

/-! ### Retirement of a wave (R262) -/

/-- A wave removed from an object that holds it (R262). An object that is not consistent is left as it is. -/
def removeFrom (n rank wv : Nat) (t : Block) (o : Nat) : Block :=
  let x := t.object o
  let bit := 2 ^ wv
  if !x.consistent n t.rank || !(x.part.getD rank 0).testBit wv then t
  else
    let had := (x.arrd.getD rank 0).testBit wv
    let arrd := if had then lmod x.arrd rank fun a => a - bit else x.arrd
    let y := x.with (x.expected - 1) x.phase (if had then x.pending else x.pending - 1)
      (lmod x.part rank fun p => p - bit) arrd
    t.putObject o y.complete

/-- Whether a word of a registered object of the cluster has an error, so that a retirement that reads it halts (R248). -/
def State.barrierError (s : State) (b : Block) : Bool :=
  match kget s.clusters b.cluster with
  | none => false
  | some k => k.members.any fun (c, sl) => match s.block c sl with
    | some t => t.registry.any fun o => t.padBad o 128
    | none => false

/-- A retired wave removed from every registered object of its cluster that its words hold, and from the implicit
barriers (R262, R267). -/
def State.leaveBarriers (s : State) (b : Block) (wv : Nat) : State :=
  match kget s.clusters b.cluster with
  | none => s
  | some k =>
    let n := k.members.length
    let s1 := k.members.foldl (fun s (c, sl) => s.modBlock c sl fun t =>
      t.registry.foldl (removeFrom n b.rank wv) t) s
    { s1 with clusters := kmod s1.clusters b.cluster fun k =>
        { k with gone := k.gone ++ [(b.rank, wv)], arrived := k.arrived.filter (· != (b.rank, wv)) } }

/-! ### Scratchpad atomics (R273) -/

/-- The chains of an atomic on scratchpads applied (R270): old values by lane, lanes lost to errors, and the state. -/
def State.applyPadChains (s : State) (b : Block) (n : Nat) (ks : List (Nat × Chain)) : KMap Nat × Mask × State :=
  ks.foldl (fun (olds, lost, s) (key, k) =>
    match s.rankBlock b (key / 2 ^ 24) with
    | none => (olds, lost, s)
    | some (tc, tb, t) =>
      let a := key % 2 ^ 24
      if t.padBad a n then (olds, k.lanes.foldl (fun (m : Mask) x => m ||| Mask.one x.1) lost, s)
      else
        let (os, m) := k.run (t.padNum a n)
        (os.foldl (fun m (l, v) => kset m l v) olds, lost, s.setBlock tc tb (t.padPut a n m))) ([], 0, s)

/-- ATOMS and CASS (R270, R273). -/
def atomsBody (op : Op) (f : MF) : Body := fun c w s =>
  match s.block c.core c.bslot with
  | none => .next s
  | some b =>
    let cas := op == .cass
    let reqs := padReqs c w b f
    let sz := f.size.toNat
    let n := sizeBytes sz
    match s.padFault b (if cas then 7 else 6) n n reqs with
    | some e => .fail e
    | none =>
      if formatBad w (.mem op f) then .fail (.emu 7 0)
      else if !s.ordered w (releases f) f.scope.toNat then .stay .order s
      else if padOwn s w n reqs then .stay .order s
      else
        let code := if cas then 8 else f.stream.toNat
        let chains := chainsOf c w code sz f.d.toNat (reqs.map fun r => (r.lane, padKey r.rank r.off.toNat))
        let (olds, lost, s1) := s.applyPadChains b n chains
        let (c1, s2) := loseLanes c s1 lost 2
        let s3 := s2.modWave c.core c.slot fun w3 =>
          let w4 := { w3 with aggmrg := w3.aggmrg + BitVec.ofNat 32 (reqs.length - chains.length) }
          if c1.act = 0 then w4 else writeOlds c1 w4 f.d.toNat sz cas olds
        .next (if acquires f then s3.acquire c.core f.scope.toNat else s3)

/-! ### The meanings -/

def execLds (f : MF) (s : State) := issue (Instr.lds f).view (encode (.lds f)) (ldsBody f) false s
def execSts (f : MF) (s : State) := issue (Instr.sts f).view (encode (.sts f)) (stsBody f) false s
def execLdfe (f : MF) (s : State) := issue (Instr.ldfe f).view (encode (.ldfe f)) (feWaitBody f true) false s
def execStfe (f : MF) (s : State) := issue (Instr.stfe f).view (encode (.stfe f)) (feWaitBody f false) false s
def execFeset (f : MF) (s : State) := issue (Instr.feset f).view (encode (.feset f)) (feBitBody f true) false s
def execFeq (f : MF) (s : State) := issue (Instr.feq f).view (encode (.feq f)) (feBitBody f false) false s
def execAtoms (f : MF) (s : State) := issue (Instr.atoms f).view (encode (.atoms f)) (atomsBody .atoms f) false s
def execCass (f : MF) (s : State) := issue (Instr.cass f).view (encode (.cass f)) (atomsBody .cass f) false s
def execBinit (f : MF) (s : State) := issue (Instr.binit f).view (encode (.binit f)) (binitBody f) false s
def execArrive (f : VF) (s : State) :=
  issue (Instr.arrive f).view (encode (.arrive f)) (arriveBody (f.args .arrive false)) false s
def execWait (f : VF) (s : State) := issue (Instr.wait f).view (encode (.wait f)) (waitBody (f.args .wait false)) false s
def execTrywait (f : VF) (s : State) :=
  issue (Instr.trywait f).view (encode (.trywait f)) (trywaitBody (f.args .trywait false)) false s
def execBar (f : VF) (s : State) := issue (Instr.bar f).view (encode (.bar f)) (barBody (f.args .bar false)) false s

def execImplicitBarrierComplete (core bslot : Nat) (cluster : Bool) (s : State) :
    Host.Outcome State Fault Refusal := .next (s.implicitComplete core bslot cluster)

end Sys2Proof.Machine
end

