-- ==== Sys2Proof/Machine/StorePath.lean ====
section
/-!
DEFINITION. The path of a store after its issue (R217, R223, R224, R228, R229), the L1's fills and invalidations (R217,
R219), miss entries (R222), segment loads (R100, R101), refills (R84) and uncorrectable errors as they arise (R362).
-/

namespace Sys2Proof.Machine

/-! ### Homes (R218, R228) -/

/-- The home slice of an HBM address (R218). -/
def sliceOf (a : Nat) : Nat :=
  (a / 2 ^ 7 % 256) ^^^ (a / 2 ^ 15 % 256) ^^^ (a / 2 ^ 23 % 256) ^^^ (a / 2 ^ 31 % 256)

/-- The stack of an HBM address (R218). -/
def stackOf (a : Nat) : Nat := (a / 2 ^ 8 % 8) ^^^ (a / 2 ^ 16 % 8)

/-- What makes two stores bound for one home (R223, R228). -/
def Home.key : Home → Nat × Nat
  | .mem a => if rangeOf a == .hbm then (0, sliceOf a) else (3, 0)
  | .remote d _ _ _ _ => (1, d)
  | .spad r _ => (2, r)

/-! ### Leaving the store buffer (R217, R223, R229) -/

/-- Whether the bytes of some spans cover a 64-byte unit (R221). -/
def coversUnit (spans : List (Nat × Nat)) (u : Nat) : Bool :=
  (rangeFrom (64 * u) 64).all fun a => spans.any fun (x, n) => x ≤ a && a < x + n

/-- The span of memory that a piece of bytes writes. -/
def Part.memSpan (p : Part) : Option (Nat × Nat) :=
  match p.home, p.eff with
  | .mem a, .bytes d _ => some (a, d.length)
  | _, _ => none

/-- An L1 line with a store's bytes, where it holds them (R217). -/
def L1Line.put (x : L1Line) (line a : Nat) (d : List Byte) (tag : Bool) : L1Line :=
  let lo := 128 * line
  { x with
    bytes := (x.bytes.zip (rangeFrom lo 128)).map fun (old, i) => if a ≤ i && i < a + d.length then d.getD (i - a) old else old
    tags := (x.tags.zip (rangeFrom (lo / 16) 8)).map fun (old, u) =>
      if a < 16 * u + 16 && 16 * u < a + d.length then tag && a = 16 * u && d.length = 16 else old }

/-- The units of a line that the pieces of one store cover are clean (R221). -/
def L1Line.cleaned (x : L1Line) (line : Nat) (parts : List Part) : L1Line :=
  { x with poison := (x.poison.zip (rangeFrom (2 * line) 2)).map fun (old, u) =>
      old && !coversUnit (parts.filterMap Part.memSpan) u }

/-- A piece bound for HBM added to its line in the core's L1. -/
def Core.writeThrough (k : Core) (p : Part) : Core :=
  match p.home, p.eff with
  | .mem a, .bytes d t =>
    if rangeOf a == .hbm then { k with l1 := kmod k.l1 (a / 128) fun x => x.put (a / 128) a d t } else k
  | _, _ => k

/-- The pieces of one store added to the core's L1 (R217, R221). -/
def Core.storeThrough (k : Core) (parts : List Part) : Core :=
  let k1 := parts.foldl Core.writeThrough k
  { k1 with l1 := k1.l1.map fun e => (e.1, e.2.cleaned e.1 parts) }

/-- A piece applied to the scratchpad of the block at its rank (R251, R258, R260). `c` and `bslot` are the issuing
block's. -/
def State.applyPad (s : State) (c bslot uid rank off : Nat) (e : Effect) : State :=
  match s.block c bslot with
  | none => s
  | some b =>
    match s.rankBlock b rank with
    | none => s
    | some (tc, tb, _) =>
      match e with
      | .bytes d _ => s.modBlock tc tb fun t => t.padStore off d
      | .binit scope masks => s.applyBinit tc tb off scope masks
      | .arrive drop wv r d act lv n => s.applyArrive tc tb off (s.clusterSize b) uid drop wv r d act lv n
      | .chain _ => s

/-- The lowest lane of a store with a byte in one of its pieces (R335). -/
def StoreEntry.laneAt (e : StoreEntry) (p : Part) : Nat :=
  match p.home, p.eff with
  | .remote _ _ _ lane _, _ => lane
  | .mem a, .bytes d _ =>
    ((e.info.lanes.find? fun l => localOf l.addr < a + d.length && a < localOf l.addr + if e.info.kind = 1 then 16 else sizeBytes e.info.size).map fun l => l.lane).getD 0
  | _, _ => 0

/-- An entry of a wave's store buffer leaves it (R223): none of its stream stands before it, none that writes a byte
of its own, and what its releases wait for has been performed (R230). What is bound for the block's own scratchpad is applied; the rest enters the core write queue. -/
def State.leaveBuffer (s : State) (core slot idx : Nat) : State :=
  match s.wave core slot with
  | none => s
  | some w =>
    match s.block core w.bslot, w.sb[idx]? with
    | some b, some e =>
      let own (p : Part) : Bool := match p.home with | .spad r _ => r == b.rank | _ => false
      let rest := e.parts.filter fun p => !own p
      let held := (w.sb.take idx).any fun x =>
        x.stream == e.stream || x.parts.any fun p => e.parts.any fun q => p.overlaps q
      let gated := e.gates.any fun g => !s.gateMet w g
      if held || gated || s.coreStopped core || s.clusterHeld b.cluster || 64 < (s.core core).queue.length + rest.length then s
      else
        let k := (s.core core).storeThrough e.parts
        let piece (p : Part) : QPart :=
          { uid := w.uid, serial := e.serial, stream := e.stream, colour := e.colour, bslot := w.bslot, pc := e.pc,
            kind := e.kind, lane := e.laneAt p, part := p }
        let s1 := s.setCore core { k with
          waves := kset k.waves slot { w with sb := ldel w.sb idx }
          queue := k.queue ++ rest.map piece }
        let s2 := (e.parts.filter own).foldl (fun s p =>
          match p.home with
          | .spad r o => s.applyPad core w.bslot w.uid r o p.eff
          | _ => s) s1
        if rest.isEmpty then { s2 with acks := s2.acks ++ [⟨w.uid, e.stream, e.serial⟩] } else s2
    | _, _ => s

/-! ### At the home (R228, R229, R333, R474) -/

/-- The flit of a write (R333, R334; entry 20 of the log). -/
def writeFlit (s : State) (dev addr cls col ord : Nat) (d : List Byte) (tag : Bool) (rtag : Nat) : Flit :=
  if tag then
    let (b, cot) := fabricSeal (BitVec.ofNat 128 (ofBytes d))
    flitOf s dev col ord 3 rtag (requestHead addr 16 cls 1 0 0 ++ toBytes 16 b.toNat) 2 cot
  else flitOf s dev col ord 3 rtag (requestHead addr d.length cls 0 0 0 ++ d) 0 0

/-- An acknowledgement, once no piece of the store is left on its way (R224). -/
def State.acknowledge (s : State) (uid stream serial : Nat) : State :=
  let queued := s.cores.any fun e => e.2.queue.any fun q => q.uid == uid && q.serial == serial
  let away := s.remote.any fun e => match e.2.owner with
    | .store u _ n _ _ _ _ => u == uid && n == serial
    | _ => false
  if queued || away then s else { s with acks := s.acks ++ [⟨uid, stream, serial⟩] }

/-- Whether a piece is written together with another: both are bytes of one store in one line of memory (R221, R228). -/
def QPart.mate (q x : QPart) : Bool :=
  x.uid == q.uid && x.serial == q.serial && match q.part.memSpan, x.part.memSpan with
    | some (a, _), some (b, _) => rangeOf a == .hbm && a / 128 == b / 128
    | _, _ => false

/-- A piece at the head of its order within the core write queue, with those written together with it (R223, R228). -/
def Core.atHead (k : Core) (idx : Nat) : Option QPart :=
  match k.queue[idx]? with
  | none => none
  | some q =>
    let group := q :: k.queue.filter fun y => q.mate y
    if (k.queue.take idx).any fun x => !q.mate x &&
      ((x.uid == q.uid && x.stream == q.stream && x.part.home.key == q.part.home.key) || group.any fun y => x.part.overlaps y.part)
    then none else some q

/-- The other pieces that are written together with one of the queue. -/
def Core.matesOf (k : Core) (idx : Nat) : List QPart :=
  match k.queue[idx]? with
  | none => []
  | some q => (ldel k.queue idx).filter fun x => q.mate x

/-- A piece that leaves the core write queue. -/
def State.dequeue (s : State) (core idx : Nat) : State :=
  let k := s.core core
  s.setCore core { k with queue := ldel k.queue idx }

/-- The pieces written together with one leave the queue after it. -/
def State.dequeueMates (s : State) (core : Nat) (q : QPart) : State :=
  let k := s.core core
  s.setCore core { k with queue := k.queue.filter fun x => !q.mate x }

/-- The bytes of a piece written to memory, as a capability with its tag where they are one. -/
def State.putPiece (s : State) (p : Part) : State :=
  match p.home, p.eff with
  | .mem a, .bytes d t => if t && d.length = 16 then s.storeCap a d t else s.store a d
  | _, _ => s

/-- A piece and its mates written, whose bytes together clean the units they cover (R221). -/
def State.putPieces (s : State) (ps : List Part) : State :=
  let s1 := ps.foldl State.putPiece s
  match ps with
  | [_] => s1
  | _ => { s1 with poison := s1.poison.filter fun u => !coversUnit (ps.filterMap Part.memSpan) u }

/-- A store of bytes, or of a barrier object, written at its home (R229). A host-window page without a translation is asked
for first (R474); another device's write leaves as a flit. -/
def State.writeHome (s : State) (core idx : Nat) : State :=
  match (s.core core).atHead idx with
  | none => s
  | some q =>
    match q.part.home, q.part.eff with
    | .mem a, .bytes d t =>
      if rangeOf a == .host then
        match s.paged q.uid (some q.serial) (s.missingPages a d.length) with
        | .waits s1 => s1
        | .failed s1 =>
          (s1.dequeue core idx).answered (.store q.uid q.stream q.serial q.pc q.lane q.kind (s.devid * 2 ^ 48 + a)) s.devid 3
        | .ready => ((s.dequeue core idx).store a d).acknowledge q.uid q.stream q.serial
      else
        let mates := (s.core core).matesOf idx
        let s1 := s.dequeue core idx
        let s2 := if mates.isEmpty then s1 else s1.dequeueMates core q
        (s2.putPieces (q.part :: mates.map fun x => x.part)).acknowledge q.uid q.stream q.serial
    | .remote dev a cls lane va, .bytes d t =>
      (s.dequeue core idx).request (.store q.uid q.stream q.serial q.pc lane q.kind va) dev fun tag =>
        [writeFlit s dev a cls q.colour q.stream d t tag]
    | .spad r o, .bytes d t =>
      ((s.dequeue core idx).applyPad core q.bslot q.uid r o (.bytes d t)).acknowledge q.uid q.stream q.serial
    | .spad r o, .binit scope masks =>
      ((s.dequeue core idx).applyPad core q.bslot q.uid r o (.binit scope masks)).acknowledge q.uid q.stream q.serial
    | _, _ => s

/-- An arrival applied at its object's home (R260). -/
def State.arriveHome (s : State) (core idx : Nat) : State :=
  match (s.core core).atHead idx with
  | none => s
  | some q =>
    match q.part.home, q.part.eff with
    | .spad r o, .arrive drop wv rank d act lv n =>
      ((s.dequeue core idx).applyPad core q.bslot q.uid r o (.arrive drop wv rank d act lv n)).acknowledge
        q.uid q.stream q.serial
    | _, _ => s

/-- A RED's chain applied at its location (R270, R271), or sent to another device. -/
def State.chainHome (s : State) (core idx : Nat) : State :=
  match (s.core core).atHead idx with
  | none => s
  | some q =>
    match q.part.home, q.part.eff with
    | .mem a, .chain k =>
      let (_, m) := k.run (s.numAt a k.size)
      (((s.dequeue core idx).storeNum a k.size m).dropL1 core a).acknowledge q.uid q.stream q.serial
    | .remote dev a cls lane va, .chain k =>
      (s.dequeue core idx).request (.store q.uid q.stream q.serial q.pc lane q.kind va) dev fun tag =>
        chainFlits s dev a cls q.colour q.stream k tag
    | _, _ => s

/-- One stream of a wave counted down (R224), whether the wave is resident or in an image (R237, R382). -/
def Wave.lower (w : Wave) (stream : Nat) : Wave := { w with unack := lmod w.unack stream (· - 1) }

/-- An acknowledgement reaches its wave (R224, R237). -/
def State.takeAck (s : State) (idx : Nat) : State :=
  match s.acks[idx]? with
  | none => s
  | some a =>
    let s1 := { s with acks := ldel s.acks idx }
    match s1.findUid a.uid with
    | some (c, slot) => s1.modWave c slot fun w => w.lower a.stream
    | none =>
      s1.changeRecord a.uid fun _ w => w.lower a.stream

/-! ### The L1 (R217, R219, R222) -/

/-- How many lines the L1 holds in the general or the pinned partition (R216). -/
def Core.l1Count (k : Core) (pinned : Bool) : Nat := (k.l1.filter fun e => e.2.pinned == pinned).length

/-- A line of memory as a fill brings it, with the core's own stores applied (R217). -/
def State.homeLine (s : State) (core line : Nat) (pinned : Bool) : L1Line :=
  let x : L1Line :=
    { bytes := s.bytesAt (128 * line) 128, tags := (rangeFrom (8 * line) 8).map s.tags.contains,
      poison := (rangeFrom (2 * line) 2).map s.poison.contains, filled := s.now (dieOf core), pinned }
  let own := (s.core core).queue
  let y := own.foldl (fun x q => match q.part.home, q.part.eff with
    | .mem a, .bytes d t => x.put line a d t
    | _, _ => x) x
  own.foldl (fun x q => x.cleaned line (q.part :: (own.filter fun z => q.mate z).map fun z => z.part)) y

/-- Room for a line in a partition: a general line gives way where the partition is full, any one of them. -/
def Core.evict (k : Core) (choice : Nat) : Core :=
  if k.l1Count false < 1536 then k
  else
    let keys := (k.l1.filter fun e => !e.2.pinned).map (·.1)
    { k with l1 := kdel k.l1 (keys.getD (choice % keys.length) 0) }

/-- A missed line returns (R217, R219). -/
def State.fillLine (s : State) (core line : Nat) : State :=
  let k := s.core core
  match k.misses.find? fun m => m.line == line with
  | none => s
  | some m =>
    let k1 := { k with misses := k.misses.filter fun m => m.line != line }
    let g := s.granule (128 * line)
    let pinned := g.home == 2
    if m.stale || !s.cacheable (128 * line) then s.setCore core k1
    else if pinned then
      if g.pincg == groupOf core && k1.l1Count true < 512 then
        s.setCore core { k1 with l1 := kset k1.l1 line (s.homeLine core line true) }
      else s.setCore core k1
    else
      let k2 := k1.evict (Config.choice s.tick)
      s.setCore core { k2 with l1 := kset k2.l1 line (s.homeLine core line false) }

/-- A line leaves the L1 (R217). -/
def State.ageLine (s : State) (core line : Nat) : State :=
  let k := s.core core
  s.setCore core { k with l1 := kdel k.l1 line }

/-- A rejected instruction may try again 16 cycles after its rejection (R222). -/
def State.retryMiss (s : State) (core slot : Nat) : State :=
  s.modWave core slot fun w =>
    match w.waiting with
    | .miss n since _ =>
      if n < 8 && since + 16 * coreCycle ≤ s.now (dieOf core) then { w with waiting := .retry n } else w
    | _ => w

/-- The head of the reservation queue issues once it has all the entries it needs (R222). A head that no longer waits
leaves the queue. -/
def State.grantMiss (s : State) (core : Nat) : State :=
  let k := s.core core
  match k.reserve with
  | [] => s
  | slot :: rest =>
    let drop := s.setCore core { k with reserve := rest }
    match s.wave core slot with
    | none => drop
    | some w =>
      match w.waiting with
      | .miss _ _ need => if need ≤ 256 - k.misses.length then s.setWave core slot { w with waiting := .granted } else s
      | .granted => s
      | _ => drop

/-! ### Segments (R100, R101) -/

/-- Whether a wave's stores before a place in its order have all been performed at device scope (R101, R229). -/
def State.storedBefore (s : State) (uid serial : Nat) : Bool :=
  s.cores.all fun e =>
    e.2.waves.all (fun x => x.2.uid != uid || x.2.sb.all fun b => serial ≤ b.serial) &&
    e.2.queue.all fun q => q.uid != uid || serial ≤ q.serial

/-- The bytes of a segment's image, as they stand (R98). -/
def State.segmentBytes (s : State) (code num size : Nat) : KMap Byte :=
  let a := (s.segEntry code num).2
  ((s.bytesAt a (8192 * size)).zip (List.range (8192 * size))).filterMap fun (x, i) => if x = 0 then none else some (i, x)

/-- A segment load completes (R100, R101). -/
def State.loadSegment (s : State) (core code num : Nat) : State :=
  match (s.core core).segment code num with
  | none => s
  | some g =>
    if !g.loading || !s.storedBefore g.after.1 g.after.2 then s
    else
      let bs := s.segmentBytes code num g.size
      s.setCore core ((s.core core).modSegment code num fun g => { g with loading := false, bytes := bs })

/-- Whether a wave of a core has a pc in a segment (R101). -/
def Core.pcIn (k : Core) (code num : Nat) : Bool :=
  (kvals k.waves).any fun w =>
    (match kget k.blocks w.bslot with | some b => b.code == code | none => false) &&
      (segOf w.base.pc == num || w.handlers.any fun b => segOf b.pc == num)

/-- Whether a running sequencer of a core stands in a segment. -/
def Core.seqIn (k : Core) (code num : Nat) : Bool :=
  (kvals k.blocks).any fun b =>
    b.code == code && !b.retired && 1 ≤ b.seqr.status && b.seqr.status ≤ 4 && segOf b.seqr.pc == num

/-- A drop-pending segment's slots are freed (R101). -/
def State.freeSegment (s : State) (core code num : Nat) : State :=
  let k := s.core core
  match k.segment code num with
  | none => s
  | some g =>
    if !g.dropPending || g.loading || k.pcIn code num || k.seqIn code num then s
    else s.setCore core { k with segs := k.segs.filter fun g => !(g.code == code && g.num == num) }

/-! ### Uncorrectable errors as they arise (R181, R248, R286, R362) -/

/-- An error in a register or in control state of a wave. -/
def State.regError (s : State) (core slot file num lane : Nat) : State :=
  s.modWave core slot fun w => { w with errors := w.errors ++ [⟨w.level, file, num, lane⟩] }

/-- A fault in logic that serves every partition: the halt line of every partition rises, and the fault ring names the die that detected
it (R33). R340 names no code for it: the CODE recorded is a free value (entry 75 of the log). -/
def State.sharedFault (s : State) (die : Nat) : State :=
  let code := (Config.freeByte s.tick die).toNat
  let s1 := s.regions.foldl (fun s (n, r) => if r.env.top = n then s.raiseHalt n (.distributor die) code 0 0 0 0 else s) s
  s1.engineRecord 1 (.distributor die) 0 0 (code + 2 ^ 16) 0 0 0 0

/-- An error in a register, scratchpad word, tile, sequencer or memory line. A corrected error is invisible and has no
step. -/
def State.errorAt (s : State) : ErrorPlace → State
  | .vector c w r l => s.regError c w 0 r (l % 32)
  | .predicate c w r => s.regError c w 1 r 0
  | .group c w r => s.regError c w 2 r 0
  | .groupPredicate c w r => s.regError c w 3 r 0
  | .control c w => s.regError c w 4 0 0
  | .stack c w => s.regError c w 4 1 0
  | .generator c w => s.regError c w 4 2 0
  | .systemRegister c w => s.regError c w 4 3 0
  | .shared d => s.sharedFault (d % 10)
  | .scratchWord c b x => s.modBlock c b fun t => { t with badWords := nins t.badWords x }
  | .scratchBit c b x => s.modBlock c b fun t => { t with badBits := nins t.badBits x }
  | .tile c b z => s.modBlock c b fun t => { t with badTiles := nins t.badTiles z }
  | .sequencer c b => s.modBlock c b fun t => { t with seqr := { t.seqr with error := true } }
  | .memory u => { s with poison := nins s.poison u }
  | .upset c k l => s.setCore c { s.core c with upsets := (s.core c).upsets ++ [(k % 3, min l 32)] }

/-! ### The hot-word cache (R337) -/

/-- A line written back: its home again serves every access. -/
def State.dropHot (s : State) (line : Nat) : State := { s with hot := s.hot.filter (· != line) }

/-! ### The meanings -/

def execStoreLeavesBuffer (core slot idx : Nat) (s : State) : Host.Outcome State Fault Refusal :=
  .next (s.leaveBuffer core slot idx)
def execStoreWrittenAtHome (core idx : Nat) (s : State) : Host.Outcome State Fault Refusal := .next (s.writeHome core idx)
def execArriveAppliedAtHome (core idx : Nat) (s : State) : Host.Outcome State Fault Refusal :=
  .next (s.arriveHome core idx)
def execAtomicChainApplied (core idx : Nat) (s : State) : Host.Outcome State Fault Refusal := .next (s.chainHome core idx)
def execStoreAcknowledged (idx : Nat) (s : State) : Host.Outcome State Fault Refusal := .next (s.takeAck idx)
def execL1LineFill (core line : Nat) (s : State) : Host.Outcome State Fault Refusal := .next (s.fillLine core line)
def execL1LineAgeInvalidation (core line : Nat) (s : State) : Host.Outcome State Fault Refusal :=
  .next (s.ageLine core line)
def execMissRejectionRetry (core slot : Nat) (s : State) : Host.Outcome State Fault Refusal :=
  .next (s.retryMiss core slot)
def execReservationQueueIssue (core : Nat) (s : State) : Host.Outcome State Fault Refusal := .next (s.grantMiss core)
def execSegmentLoadComplete (core code seg : Nat) (s : State) : Host.Outcome State Fault Refusal :=
  .next (s.loadSegment core code seg)
def execSegmentDropFree (core code seg : Nat) (s : State) : Host.Outcome State Fault Refusal :=
  .next (s.freeSegment core code seg)
def execRegisterRefill (core slot reg : Nat) (s : State) : Host.Outcome State Fault Refusal :=
  .next (s.refill core slot reg)
def execUncorrectableError (place : ErrorPlace) (s : State) : Host.Outcome State Fault Refusal := .next (s.errorAt place)
def execHotWordWriteback (line : Nat) (s : State) : Host.Outcome State Fault Refusal := .next (s.dropHot line)

end Sys2Proof.Machine
end

