-- ==== Sys2Proof/Machine/Matrix.lean ====
section
/-!
DEFINITION. The matrix engine (R274 to R313): operand layouts, summation, the sequencer's instructions, results and
deferred entries, and the waves' side of it.
-/

namespace Sys2Proof.Machine

/-! ### When a sequencer runs (R283, R360, R370) -/

/-- Whether region `r` is `a` or stands below it. -/
def State.withinFrom (s : State) : Nat → Nat → Nat → Bool
  | 0, _, _ => false
  | n + 1, r, a =>
    r == a || match kget s.regions r with
      | some x => match x.parent with | some p => s.withinFrom n p a | none => false
      | none => false

def State.within (s : State) (r a : Nat) : Bool := s.withinFrom 8 r a

/-- Whether the save of region `n` takes the blocks of region `x`: its own, and for a sealed save those of every region below
it. -/
def State.covers (s : State) (n : Nat) (r : Region) (x : Nat) : Bool := if r.why = 3 then s.within x n else x == n

/-- Whether pre-emption is signalled to a core for a region's blocks. -/
def State.signalledOn (s : State) (c region : Nat) : Bool :=
  s.regions.any fun (n, r) => (kget r.signal c).isSome && s.covers n r region

/-- Whether a block's sequencer may have the turn: started and not ended, a wave of the block not retired, its region not signalled for
pre-emption, its engines not stopped (R283, R360, R370). -/
def State.seqrRuns (s : State) (c : Nat) (b : Block) : Bool :=
  (b.seqr.status == 2 || b.seqr.status == 3) && ((List.range b.waves).any fun i => !b.gone.contains i)
    && !s.signalledOn c b.env.region && !s.clusterHeld b.cluster && !s.coreStopped c && (kvals s.halts).all fun h =>
      !h.stopped.contains (.matrix c) && (kget h.reached c).isNone

/-! ### Shapes and layouts (R275, R278 to R282) -/

/-- M and N (R278). -/
def matRows (fmt : Nat) : Nat := if fmt = tF64 then 32 else 64

/-- K (R278). -/
def matK (fmt : Nat) : Nat :=
  if fmt = tF64 then 8 else if fmt = tF32 then 4 else if fmt = tF16 || fmt = tBf16 then 32
  else if fmt = tI4 || fmt = tL6 then 128 else 64

/-- A row's words in scratchpad, or in registers (R278). -/
def matWords (fmt : Nat) (regs : Bool) : Nat :=
  if fmt = tF32 then 4 else if fmt = tL6 then (if regs then 32 else 24) else 16

/-- The accumulator's tag of an operand format (R275). -/
def accTag (fmt : Nat) : Nat := if fmt = tF64 then 11 else if fmt = tI8 || fmt = tI4 || fmt = tL6 then 1 else 3

/-- The tag a tile move's FMT stands for (R305). -/
def moveTag (fmt : Nat) : Nat := if fmt = tI32 then 1 else if fmt = tF32 then 3 else if fmt = tF64 then 11 else 0

/-- The rows a tile move moves (R305). -/
def moveRows (fmt : Nat) : Nat := if fmt = tF64 then 32 else 64

/-- Element k of a row (R279). -/
def matElem (fmt : Nat) (regs : Bool) (row k : Nat) : Nat :=
  if fmt = tL6 then (if regs then field row (32 * (k / 4) + 6 * (k % 4)) 6 else field row (6 * k) 6)
  else
    let b := elemBits fmt
    field row (b * k) b

/-- The place of word x of the row that starts at an offset (R282). -/
def rotWord (start rot x : Nat) : Nat := x ^^^ (start / 256 % 2 ^ rot)

/-- The rows of a source, each as one number (R280, R281). -/
def State.readSource (s : State) (core bslot : Nat) (m : MatSource) : List Nat :=
  match m.wave with
  | some i =>
    let bank := match s.waveOf core bslot i with | some (_, w) => w.base | none => Bank.start 0 0
    (List.range m.rows).map fun r =>
      ((List.range m.words).map fun x =>
        let n := m.words * r + x
        ((bank.reg (m.start + n / 32)).val.lane (n % 32)).toNat * 2 ^ (32 * x)).sum
  | none =>
    match s.block core bslot with
    | none => []
    | some b =>
      (List.range m.rows).map fun r =>
        let at_ := m.start + r * m.pitch
        ((List.range m.words).map fun x => b.padNum (at_ + 4 * rotWord at_ m.rot x) 4 * 2 ^ (32 * x)).sum

/-- The byte ranges of a source in scratchpad, row by row. -/
def MatSource.spans (m : MatSource) : List (Nat × Nat) :=
  if m.wave.isSome then [] else (List.range m.rows).map fun r => (m.start + r * m.pitch, 4 * m.words)

/-- Whether a word of a source holds an uncorrectable error (R286). -/
def State.sourceBad (s : State) (core bslot : Nat) (m : MatSource) : Bool :=
  match m.wave with
  | some i =>
    match s.waveOf core bslot i with
    | some (_, w) => w.errors.any fun e =>
        e.level = 0 && e.file = 0 && m.start ≤ e.num && e.num < m.start + (m.rows * m.words + 31) / 32
    | none => false
  | none =>
    match s.block core bslot with
    | some b => m.spans.any fun (a, n) => b.padBad a n
    | none => false

/-- The first and last registers of a source in the vector file, and how many. -/
def MatSource.regs (m : MatSource) : Nat := (m.rows * m.words + 31) / 32

/-- Whether a wave of the block has written some of a source's bytes or registers and not made them ready with an MFENCE and a signal
after it, or has a store to them that is not performed at block scope (R291). -/
def State.sourceUnready (s : State) (core bslot : Nat) (b : Block) (m : MatSource) : Bool :=
  match m.wave with
  | some i =>
    match s.waveOf core bslot i with
    | some (_, w) => (w.unfenced ++ w.unsent).any fun (f, n, _) => f = 0 && m.start ≤ n && n < m.start + m.regs
    | none => false
  | none => (kvals (s.core core).waves).any fun w => w.bslot == bslot &&
      ((w.sb.any fun e => e.parts.any fun p => m.spans.any fun (a, n) => p.touches 2 b.rank a n) ||
        (w.unfenced ++ w.unsent).any fun (f, x, k) => f = 8 + b.rank && m.spans.any fun (a, n) => x < a + n && a < x + k)

/-- Whether the wave that an operation names has written one of its descriptors and not made it ready (R291). -/
def State.pairsUnready (s : State) (core bslot wv : Nat) (grps : List Nat) : Bool :=
  match s.waveOf core bslot wv with
  | some (_, w) => (w.unfenced ++ w.unsent).any fun (f, n, _) => f = 2 && grps.contains n
  | none => false

/-- Whether a group-wide register of a block's wave that the sequencer reads holds an uncorrectable error (R362). -/
def State.grpBad (s : State) (core bslot wv : Nat) (grps : List Nat) : Bool :=
  match s.waveOf core bslot wv with
  | some (_, w) => w.errors.any fun e => e.level = 0 && e.file = 2 && grps.contains e.num
  | none => false

/-- The spilled registers of a source, by wave slot (R280). -/
def State.sourceSpilled (s : State) (core bslot : Nat) (m : MatSource) : List (Nat × Nat) :=
  match m.wave with
  | none => []
  | some i =>
    match s.waveOf core bslot i with
    | some (slot, w) => (w.spilled.filter fun n => m.start ≤ n && n < m.start + m.regs).map fun n => (slot, n)
    | none => []

/-! ### Summation (R294 to R296, R303) -/

/-- The magnitude of an addend in units of 2^q, truncated, and whether bits were lost. -/
def truncTo (q : Int) (m : Nat) (e : Int) : Nat × Bool :=
  if q ≤ e then (m * 2 ^ (e - q).toNat, false)
  else
    let d := min (q - e).toNat (bitLen m + 1)
    (m / 2 ^ d, m % 2 ^ d != 0)

/-- `group_update` on the addends, the accumulator first (R295): FP32 bits. -/
def groupUpdate (xs : List FVal) : Nat :=
  let infs := xs.filter fun x => match x with | .inf _ => true | _ => false
  if xs.any FVal.isNan then fp32.nan
  else if infs.any FVal.neg? && infs.any fun x => !x.neg? then fp32.nan
  else match infs with
    | x :: _ => fp32.roundTo 0 x
    | [] =>
      if xs.all FVal.isZero then fp32.roundTo 0 (.zero (xs.all FVal.neg?))
      else
        let tops := xs.filterMap fun x => match x with
          | .fin _ m e => if m = 0 then none else some ((bitLen m : Int) - 1 + e)
          | _ => none
        let top := tops.foldl max (tops.headD 0)
        let q := top - 47
        let (t, sticky) := xs.foldl (fun ((t : Int), st) x => match x with
          | .fin s m e =>
            let (n, lost) := truncTo q m e
            (if s then t - n else t + n, st || lost)
          | _ => (t, st)) (0, false)
        if t = 0 then 0
        else fp32.roundTo 0 (.fin (t < 0) (4 * t.natAbs + (if sticky then 1 else 0)) (q - 2))

/-- The products of a group added to an FP32 element, group by group (R295). -/
def floatSum (fmt : Nat) (regsA regsB : Bool) (c ra rb : Nat) : Nat :=
  let g := min (matK fmt) 16
  (List.range (matK fmt / g)).foldl (fun c m =>
    groupUpdate (fp32.value c :: (rangeFrom (m * g) g).map fun k =>
      (exactVal fmt (matElem fmt regsA ra k)).mul (exactVal fmt (matElem fmt regsB rb k)))) c

/-- An FP64 element (R294). -/
def doubleSum (regsA regsB : Bool) (c ra rb : Nat) : Nat :=
  (List.range 8).foldl (fun c k =>
    fp64.roundTo 0 (((fp64.value (matElem tF64 regsA ra k)).mul (fp64.value (matElem tF64 regsB rb k))).add 0
      (fp64.value c))) c

/-- The exact integer sum of a row and a column over some positions: products, or L6 terms (R296). -/
def intSum (fmt : Nat) (regsA regsB : Bool) (ra rb lo n : Nat) : Int :=
  ((rangeFrom lo n).map fun k =>
    let a := matElem fmt regsA ra k
    let b := matElem fmt regsB rb k
    if fmt = tL6 then l6Term a b else sext (elemBits fmt) a * sext (elemBits fmt) b).sum

/-- The sum of the codes of a row over a block. -/
def codeSum (fmt : Nat) (regs : Bool) (row lo : Nat) : Int :=
  ((rangeFrom lo 32).map fun k => sext (elemBits fmt) (matElem fmt regs row k)).sum

/-- A block term of MMAS (R303), from the scale pairs of its row and column. -/
def blockTerm (fmt : Nat) (regsA regsB : Bool) (ra rb m pa pb : Nat) : FVal :=
  let e := pairScale pa + pairScale pb - 254
  let za := pairZero pa
  let zb := pairZero pb
  let lo := 32 * m
  let x : FVal :=
    if fmt = tI8 || fmt = tI4 then
      (FVal.ofInt (intSum fmt regsA regsB ra rb lo 32 - za * codeSum fmt regsB rb lo - zb * codeSum fmt regsA ra lo
        + 32 * za * zb)).scale e
    else if fmt = tL6 then (FVal.ofInt (intSum fmt regsA regsB ra rb lo 32)).scale (e - 16)
    else ((rangeFrom lo 32).foldl (fun (acc : FVal) k =>
      acc.add 0 ((exactVal fmt (matElem fmt regsA ra k)).mul (exactVal fmt (matElem fmt regsB rb k)))) (.zero false)).scale e
  if x.isZero then .zero false else x

/-- The element an MMA leaves (R301). -/
def mmaElem (fmt : Nat) (regsA regsB : Bool) (c ra rb : Nat) : Nat :=
  if fmt = tF64 then doubleSum regsA regsB c ra rb
  else if fmt = tI8 || fmt = tI4 || fmt = tL6 then
    wrapNat 32 ((c : Int) + intSum fmt regsA regsB ra rb 0 (matK fmt))
  else floatSum fmt regsA regsB c ra rb

/-- The element an MMAS leaves (R303): `sa` and `sb` are the rows of the scale tables. -/
def mmasElem (fmt : Nat) (regsA regsB : Bool) (c ra rb sa sb : Nat) : Nat :=
  groupUpdate (fp32.value c :: (List.range (matK fmt / 32)).map fun m =>
    blockTerm fmt regsA regsB ra rb m (field sa (16 * m) 16) (field sb (16 * m) 16))

/-! ### Tiles -/

/-- A map from word numbers with its zero words left out, from all the words of `n` rising numbers. -/
def wordMap (f : Nat → Word) (n : Nat) : KMap Word :=
  (List.range n).filterMap fun k => if f k = 0 then none else some (k, f k)

/-- An element of a tile as a number (R275). -/
def Tile.elem (t : Tile) (wideElem : Bool) (i j : Nat) : Nat :=
  if wideElem then (t.word (64 * i + 2 * j)).toNat + (t.word (64 * i + 2 * j + 1)).toNat * 2 ^ 32
  else (t.word (64 * i + j)).toNat

/-- A tile with its elements replaced, and its words beyond them kept (R275). -/
def Tile.setElems (t : Tile) (wideElem : Bool) (f : Nat → Nat → Nat) (tag : Nat) : Tile :=
  let old := t.words.filter fun e => wideElem && 2048 ≤ e.1
  let new := if wideElem then wordMap (fun n =>
      BitVec.ofNat 32 (f (n / 64) (n % 64 / 2) / 2 ^ (32 * (n % 2)))) 2048
    else wordMap (fun n => BitVec.ofNat 32 (f (n / 64) (n % 64))) 4096
  { t with words := new ++ old, tag }

/-- Row r of a tile as one number. -/
def Tile.row (t : Tile) (r : Nat) : Nat := ((List.range 64).map fun x => (t.word (64 * r + x)).toNat * 2 ^ (32 * x)).sum

def Block.tile (b : Block) (z : Nat) : Tile := kgetD b.tiles z Tile.zero
def Block.setTile (b : Block) (z : Nat) (t : Tile) : Block := { b with tiles := kput b.tiles z t Tile.zero }

/-! ### Buffers (R287, R289) -/

def Buf.en (u : Buf) : Bool := u.cfg.getLsbD 63
def Buf.out (u : Buf) : Bool := u.cfg.getLsbD 62
def Buf.nslot (u : Buf) : Nat := field u.cfg.toNat 48 8
def Buf.slotSize (u : Buf) : Nat := field u.cfg.toNat 24 20
def Buf.base (u : Buf) : Nat := field u.cfg.toNat 0 24
/-- P of R289; 1 for a buffer that was never configured, whose pointers are 0. -/
def Buf.period (u : Buf) : Nat := if u.nslot = 0 then 1 else u.nslot * 2 ^ 24
/-- H of R289. -/
def Buf.held (u : Buf) : Nat := (u.head + u.period - u.tail) % u.period
/-- Where the slot of a pointer starts. -/
def Buf.slotAt (u : Buf) (p : Nat) : Nat := u.base + (if u.nslot = 0 then 0 else p % u.nslot) * u.slotSize
def Buf.advHead (u : Buf) (n : Nat) : Buf := { u with head := (u.head + n) % u.period }
def Buf.advTail (u : Buf) (n : Nat) : Buf := { u with tail := (u.tail + n) % u.period }

def Block.buf (b : Block) (n : Nat) : Buf := b.bufs.getD n Buf.zero
def Block.modBuf (b : Block) (n : Nat) (f : Buf → Buf) : Block := { b with bufs := lmod b.bufs n f }

/-! ### The sequencer's view of time (R285, R306) -/

/-- Whether operation `x` was fired at or before operation `n` (R284): 0 stands for none. -/
def seqUpTo (n x : Nat) : Bool := n != 0 && (n + 2 ^ 32 - x) % 2 ^ 32 < 2 ^ 31

/-- Whether the head of the deferral queue may take effect (R306), for conditions met strictly before `now` when `late`. -/
def Block.deferReady (b : Block) (now : Nat) (late : Bool) : Bool :=
  let read (n : Nat) : Bool := b.seqr.flights.all fun f =>
    !seqUpTo n f.seq || (if late then f.readAt < now else f.readAt ≤ now)
  match b.seqr.queue with
  | [] => false
  | .bfree u n after :: _ => read after && n ≤ (b.buf u).held
  | .nbsig _ _ after res :: _ =>
    if res then b.seqr.flights.all fun f => !seqUpTo after f.seq else read after

/-- A result that is due and not yet made, or a deferred entry that should have taken effect, comes before anything else the
sequencer does. -/
def Block.seqBehind (b : Block) (now : Nat) : Bool :=
  (b.seqr.flights.any fun f => f.resultAt ≤ now) || b.deferReady now true

/-! ### Executing a sequencer instruction (R286, R293, R300) -/

/-- What a sequencer instruction comes to. -/
inductive SeqDone where
  | next (s : State)
  | jumped (s : State)
  /-- it waits, with no effect -/
  | wait
  /-- a local trap in the block's lowest-numbered live wave (R286) -/
  | fault (code sub : Nat)
  /-- a target that no instruction stands at (R37) -/
  | target (v : Dword)
  /-- a halting fault (R286, R308) -/
  | halt (code : Nat)
deriving DecidableEq, Repr

/-- The meaning of a sequencer instruction. -/
abbrev SeqBody := Nat → Nat → Block → State → SeqDone

/-- A halting fault raised by a block's matrix engine. An undefined instruction raises none (R9). -/
def State.haltSeq (s : State) (core bslot code : Nat) : State :=
  if s.loose then s
  else match s.block core bslot with
  | none => s
  | some b =>
    ((s.raiseHalt b.env.top (.matrix core) code 0 0 b.seqr.pc 0).setBlock core bslot
      { b with seqr := { b.seqr with status := 4 } }).exclude core bslot

def State.modSeqr (s : State) (core bslot : Nat) (f : Sequencer → Sequencer) : State :=
  s.modBlock core bslot fun b => { b with seqr := f b.seqr }

/-- Execute an instruction of the matrix class: in a block's sequencer it acts, and in a wave's or handler's stream it is in
the wrong stream (R61). -/
def issueSeq (v : View) (inst : Slot) (body : SeqBody) (s : State) : Host.Outcome State Fault Refusal :=
  match s.turn with
  | .seqr core bslot =>
    match s.block core bslot with
    | none => .fault .emptySlot
    | some b =>
      match seqFate s core b v with
      | some (cause, fl) => .next ((s.seqFault core bslot (seqTrap b cause 0 fl inst)).seqLine core bslot)
      | none =>
        let s1 := s.seqLine core bslot
        if b.seqr.error then .next (s1.haltSeq core bslot 70)
        else match body core bslot b s1 with
          | .next s2 => .next (s2.modSeqr core bslot fun q =>
              { q with pc := (s2.core core).nextValid b.code b.seqr.pc, status := 2 })
          | .jumped s2 => .next (s2.modSeqr core bslot fun q => { q with status := if q.status = 5 then 5 else 2 })
          | .wait => .next (s1.modSeqr core bslot fun q => { q with status := 3 })
          | .fault code sub => .next (s1.seqFault core bslot (seqTrap b code sub 0 inst))
          | .target t => .next (s1.seqFault core bslot (seqTrap b 21 0 0 inst (some t)))
          | .halt code => .next (s1.haltSeq core bslot code)
  | _ => issue v inst (fun _ _ s => .next s) false s

/-! ### Firing (R281, R285, R300, R302) -/

/-- The iteration index of the innermost active loop (R281). -/
def Sequencer.index (q : Sequencer) : Nat := match q.loops with | l :: _ => l.t | [] => 0

/-- Whether a descriptor meets its limits (R281), for rows of `words` words; a buffer's BASE and TPITCH are ignored. -/
def descriptorBad (lo hi : Nat) (buffer : Bool) (words : Nat) : Bool :=
  let rot := field lo 60 3
  let pitch := field lo 24 16
  hi != 0 || lo.testBit 63 || 5 < rot || pitch % 4 != 0 || pitch < 4 * words || words % 2 ^ rot != 0
    || (!buffer && (field lo 40 20 % 4 != 0 || field lo 0 24 % 4 != 0))

/-- One operand as an operation names it: where it comes from (0 scratchpad, 1 registers, 2 buffer), the descriptor's or
register's number, the buffer, and which slot past the pointer. -/
structure MatUse where
  src : Nat
  g : Nat
  v : Nat
  buf : Nat
  skip : Nat
  /-- a slot at HEAD, for ZST -/
  fill : Bool
  rows : Nat
  words : Nat
  regWords : Nat
deriving DecidableEq, Repr

/-- The operands of a tile operation (R297, R305). -/
def matUses (op : Op) (f : XF) : List MatUse :=
  let fmt := f.fmt.toNat
  let use (src g v buf skip : Nat) : MatUse :=
    ⟨src, g, v, buf, skip, false, matRows fmt, matWords fmt false, matWords fmt true⟩
  match op with
  | .mma | .mmas =>
    let same := f.asrc.toNat = 2 && f.bsrc.toNat = 2 && f.bufA = f.bufB
    [use f.asrc.toNat f.ga.toNat f.va.toNat f.bufA.toNat 0,
     use f.bsrc.toNat f.gb.toNat f.vb.toNat f.bufB.toNat (if same then 1 else 0)]
  | .zld => [⟨f.asrc.toNat, f.ga.toNat, 0, f.bufA.toNat, 0, false, moveRows fmt, 64, 64⟩]
  | .zst => [⟨f.asrc.toNat, f.ga.toNat, 0, f.bufO.toNat, 0, true, moveRows fmt, 64, 64⟩]
  | _ => []

/-- Whether a buffer named by an operation is enabled and accepts it (R300, check 6). -/
def MatUse.open? (u : MatUse) (b : Block) : Bool := (b.buf u.buf).en && (b.buf u.buf).out == u.fill

/-- Conditions 1 and 2 of R285. -/
def buffersReady (b : Block) (us : List MatUse) : Bool :=
  us.all fun u => u.src != 2 || !u.open? b ||
    (if u.fill then (b.buf u.buf).held < (b.buf u.buf).nslot else u.skip < (b.buf u.buf).held)

/-- A use as a source, once its descriptor is read. -/
def MatUse.source (u : MatUse) (b : Block) (wv lo : Nat) : MatSource :=
  if u.src = 1 then ⟨some wv, u.v, 0, 0, u.rows, u.regWords⟩
  else
    let start := if u.src = 2 then (b.buf u.buf).slotAt ((if u.fill then (b.buf u.buf).head else (b.buf u.buf).tail) + u.skip)
      else field lo 0 24 + b.seqr.index * field lo 40 20
    ⟨none, start, field lo 24 16, field lo 60 3, u.rows, u.words⟩

/-- Whether an operand lies within bounds (R280, R281); a slot of a buffer that will fail check 6 is not tested. -/
def MatUse.outside (u : MatUse) (b : Block) (m : MatSource) : Bool :=
  if u.src = 1 then 640 < u.v + (u.rows * u.regWords) / 32
  else
    let n := (m.rows - 1) * m.pitch + 4 * m.words
    if u.src = 2 then u.open? b && (b.buf u.buf).slotSize < n else b.spSize < m.start + n

/-- The two scale tables of an MMAS (R302), from its descriptor. -/
def scaleSources (fmt lo hi t : Nat) : List MatSource :=
  let kb := matK fmt / 32
  [⟨none, field lo 0 24 + t * field hi 0 20, 2 * kb, 0, 64, kb / 2⟩,
   ⟨none, field lo 24 24 + t * field hi 20 20, 2 * kb, 0, 64, kb / 2⟩]

def scaleBad (lo hi : Nat) : Bool :=
  field lo 48 16 != 0 || field hi 40 24 != 0 || field lo 0 24 % 4 != 0 || field lo 24 24 % 4 != 0
    || field hi 0 20 % 4 != 0 || field hi 20 20 % 4 != 0

/-- A tile's tag as the operations in flight will leave it (R300, check 7). -/
def Block.tagAfter (b : Block) (z : Nat) : Nat :=
  b.seqr.flights.foldl (fun tag f =>
    if f.tile ≠ z then tag
    else match f.op with
      | .mma fmt => accTag fmt
      | .mmas _ => 3
      | .zld fmt | .zclr fmt => moveTag fmt
      | .zst _ _ _ _ _ => tag) (b.tile z).tag

/-- Cycles from fire to the read point and to the result point (R285). -/
def opPoints : Op → Nat × Nat
  | .mma | .mmas => (32, 48)
  | .zld => (64, 64)
  | .zst => (16, 64)
  | _ => (0, 8)

/-- Whether an operation uses the array rather than the tile port. -/
def usesArray (op : Op) : Bool := op == .mma || op == .mmas

/-- Whether a core's array, or its tile port, is held (R285). -/
def Core.resourceHeld (k : Core) (array : Bool) (now : Nat) : Bool :=
  (kvals k.blocks).any fun b => b.seqr.flights.any fun f =>
    f.array == array && now < (if array then f.readAt else f.resultAt)

/-- The operands of an operation as sources, each with its use. -/
def State.operandSources (s : State) (core bslot : Nat) (b : Block) (op : Op) (f : XF) : List (MatUse × MatSource) :=
  (matUses op f).map fun u => (u, u.source b f.wv.toNat (s.blockGrp core bslot f.wv.toNat (2 * u.g)).toNat)

/-- The scale tables of an MMAS; none for another operation. -/
def State.operandScales (s : State) (core bslot : Nat) (b : Block) (op : Op) (f : XF) : List MatSource :=
  let g (n : Nat) : Nat := (s.blockGrp core bslot f.wv.toNat n).toNat
  if op == .mmas then scaleSources f.fmt.toNat (g (2 * f.gs.toNat)) (g (2 * f.gs.toNat + 1)) b.seqr.index else []

/-- What an operation reads when it fires: its sources and scale tables, but for a ZST, which reads its tile later. -/
def State.operandReads (s : State) (core bslot : Nat) (b : Block) (op : Op) (f : XF) : List MatSource :=
  if op == .zst || op == .zclr then []
  else (s.operandSources core bslot b op f).map (·.2) ++ s.operandScales core bslot b op f

/-- The group-wide registers that hold an operation's descriptors (R281, R302). -/
def descriptorRegs (op : Op) (f : XF) : List Nat :=
  ((matUses op f).filter fun u => u.src != 1).flatMap (fun u => [2 * u.g, 2 * u.g + 1]) ++
    (if op == .mmas then [2 * f.gs.toNat, 2 * f.gs.toNat + 1] else [])

/-- The checks 1 to 8 of R300, in their order: what stops an operation's fire, with an error in a descriptor's register (R362) or
in a word that it reads (R286). -/
def fireStop (op : Op) (f : XF) (core bslot : Nat) (b : Block) (s : State) : Option SeqDone :=
  let z := f.tile.toNat
  let fmt := f.fmt.toNat
  let wv := f.wv.toNat
  let uses := matUses op f
  let g (n : Nat) : Nat := (s.blockGrp core bslot wv n).toNat
  if b.nTiles ≤ z then some (.fault 20 1)
  else if (b.tile z).emulated then some (.fault 8 0)
  else if op != .zclr && (s.waveOf core bslot wv).isNone then some (.fault 20 3)
  else if s.grpBad core bslot wv (descriptorRegs op f) then some (.halt 73)
  else if (uses.any fun u => u.src != 1 && descriptorBad (g (2 * u.g)) (g (2 * u.g + 1)) (u.src = 2) u.words)
      || (op == .mmas && scaleBad (g (2 * f.gs.toNat)) (g (2 * f.gs.toNat + 1))) then some (.fault 20 4)
  else if ((s.operandSources core bslot b op f).any fun (u, m) => u.outside b m)
      || ((s.operandScales core bslot b op f).any fun m => b.spSize < m.start + (m.rows - 1) * m.pitch + 4 * m.words) then
    some (.fault 20 2)
  else match uses.find? fun u => u.src = 2 && !u.open? b with
    | some u => some (.fault 20 (if (b.buf u.buf).en then 6 else 5))
    | none =>
      let tag := b.tagAfter z
      let accepts := match op with
        | .mma => tag = 0 || tag = accTag fmt
        | .mmas => tag = 0 || tag = 3
        | .zst => fmt = tB32 || tag = 0 || tag = moveTag fmt
        | _ => true
      let read := s.operandReads core bslot b op f
      let zeros := ((read.map (s.readSource core bslot)).drop 2).any fun rows => rows.any fun row =>
        (List.range (matK fmt / 32)).any fun m => field row (16 * m + 8) 8 != 0
      if !accepts then some (.fault 7 0)
      else if op == .mmas && (fmt = tE4m3 || fmt = tE5m2 || fmt = tL6) && zeros then some (.fault 7 0)
      else if read.any (s.sourceBad core bslot) then some (.halt 70)
      else none

/-- The operation in flight once it has fired, with what it read (R285). -/
def fireFlight (op : Op) (f : XF) (core bslot : Nat) (b : Block) (s : State) : Flight :=
  let fmt := f.fmt.toNat
  let now := s.now (dieOf core)
  let (r, e) := opPoints op
  let read := s.operandReads core bslot b op f
  let fop : FlightOp := match op with
    | .mma => .mma fmt
    | .mmas => .mmas fmt
    | .zld => .zld fmt
    | .zst =>
      match s.operandSources core bslot b op f with
      | (u, m) :: _ => .zst fmt m.start m.pitch m.rot (if u.src = 2 then some u.buf else none)
      | [] => .zclr fmt
    | _ => .zclr fmt
  { seq := b.seqr.next, tile := f.tile.toNat, op := fop, srcs := read, data := read.map (s.readSource core bslot),
    tainted := read.any (s.sourceUnready core bslot b) || s.pairsUnready core bslot f.wv.toNat (descriptorRegs op f),
    wv := f.wv.toNat, grps := descriptorRegs op f, readAt := now + r * coreCycle, resultAt := now + e * coreCycle,
    array := usesArray op, bufs := ((matUses op f).filter fun u => u.src = 2).map (·.buf) }

/-- The fire of an operation that passes its checks: the spilled registers among its operands are refilled first (R84, R280). -/
def fireChecks (op : Op) (f : XF) (core bslot : Nat) (b : Block) (s : State) : SeqDone :=
  match fireStop op f core bslot b s with
  | some d => d
  | none =>
    let spilled := (s.operandReads core bslot b op f).flatMap (s.sourceSpilled core bslot)
    let s := spilled.foldl (fun s r => s.refill core r.1 r.2) s
    let b := (s.block core bslot).getD b
    let s1 := s.modSeqr core bslot fun q =>
      { q with flights := q.flights ++ [fireFlight op f core bslot b s], last := q.next,
               next := if q.next + 1 = 2 ^ 32 then 1 else q.next + 1 }
    let k := s1.core core
    .next (s1.setCore core (if usesArray op then { k with lastArray := bslot } else { k with lastPort := bslot }))

/-- The instruction at a sequencer's pc, where one stands there. -/
def State.seqInstr (s : State) (core : Nat) (b : Block) : Option Instr :=
  match (s.core core).segment b.code (segOf b.seqr.pc), slotAt (offOf b.seqr.pc % 64) with
  | some g, some sl =>
    if validBit (g.header (offOf b.seqr.pc / 64)) sl then parse (s.fetched b.code g (g.slot (offOf b.seqr.pc / 64) sl)) else none
  | _, _ => none

/-- Whether a block's sequencer waits at an operation that could fire on a resource, but for its turn (R285). -/
def State.couldFire (s : State) (core : Nat) (array : Bool) (b : Block) : Bool :=
  s.seqrRuns core b && b.seqr.status == 3 && b.seqr.flights.length < 4 &&
  match (s.seqInstr core b).map Instr.view with
  | some (.matrix op f) =>
    (op == .mma || op == .mmas || op == .zld || op == .zst || op == .zclr) && usesArray op == array
      && buffersReady b (matUses op f)
  | _ => false

/-- Whether the turn on a resource is a block's: no other that could fire comes before it, counting up from the block slot
after the one that fired last (R285). -/
def State.hasTurn (s : State) (core bslot : Nat) (array : Bool) : Bool :=
  let k := s.core core
  let last := if array then k.lastArray else k.lastPort
  let rank (n : Nat) : Nat := (n + 7 - last) % 8
  k.blocks.all fun (n, b) => n == bslot || !s.couldFire core array b || rank bslot < rank n

/-- MMA, MMAS, ZLD, ZST and ZCLR (R285, R300). -/
def fireBody (op : Op) (f : XF) : SeqBody := fun core bslot b s =>
  let now := s.now (dieOf core)
  if b.seqBehind now || 4 ≤ b.seqr.flights.length || !buffersReady b (matUses op f)
      || (s.core core).resourceHeld (usesArray op) now || !s.hasTurn core bslot (usesArray op) then .wait
  else fireChecks op f core bslot b s

/-! ### Results (R285, R301, R303, R305) -/

/-- A row of an operand as the operation uses it: free where its words are undefined (R291, R292). -/
def Flight.rowOf (f : Flight) (src r : Nat) : Nat :=
  if f.tainted then
    match f.srcs[src]? with
    | some m => ((List.range m.words).map fun x =>
        (Config.freeWord (f.seq + 2 ^ 32 * f.tile) (64 * src + r) x).toNat * 2 ^ (32 * x)).sum
    | none => 0
  else (f.data.getD src []).getD r 0

/-- The tile an operation leaves. -/
def Flight.newTile (f : Flight) (t : Tile) : Tile :=
  let regs (k : Nat) : Bool := match f.srcs[k]? with | some m => m.wave.isSome | none => false
  match f.op with
  | .mma fmt =>
    t.setElems (fmt = tF64) (fun i j =>
      mmaElem fmt (regs 0) (regs 1) (t.elem (fmt = tF64) i j) (f.rowOf 0 i) (f.rowOf 1 j)) (accTag fmt)
  | .mmas fmt =>
    t.setElems false (fun i j =>
      mmasElem fmt (regs 0) (regs 1) (t.elem false i j) (f.rowOf 0 i) (f.rowOf 1 j) (f.rowOf 2 i) (f.rowOf 3 j)) 3
  | .zld fmt =>
    t.setElems (fmt = tF64) (fun i j =>
      if fmt = tF64 then field (f.rowOf 0 i) (64 * j) 64 else field (f.rowOf 0 i) (32 * j) 32) (moveTag fmt)
  | .zst _ _ _ _ _ => t
  | .zclr fmt => { t with words := [], tag := moveTag fmt }

/-- The flight whose result is due next: the first in stream order that no earlier one on its tile holds back. -/
def Sequencer.due (q : Sequencer) (now : Nat) : Option Nat :=
  (List.range q.flights.length).find? fun i =>
    match q.flights[i]? with
    | some f => f.resultAt ≤ now && !(q.flights.take i).any fun g =>
        g.tile == f.tile && (match g.op with | .zst _ _ _ _ _ => false | _ => true)
    | none => false

/-- Rows stored to scratchpad, each word at its rotated place; full/empty bits are kept (R282, R305). -/
def Block.storeRows (b : Block) (start pitch rot : Nat) (rows : List Nat) : Block :=
  (rows.zip (List.range rows.length)).foldl (fun b (row, r) =>
    let at_ := start + r * pitch
    (List.range 64).foldl (fun b x => b.padPut (at_ + 4 * rotWord at_ rot x) 4 (field row (32 * x) 32)) b) b

/-- A tile operation reaches its result point (R276, R285). A ZST fired earlier on the tile has read it by now. -/
def State.resultPoint (s : State) (core bslot : Nat) : State :=
  match s.block core bslot with
  | none => s
  | some b =>
    match b.seqr.due (s.now (dieOf core)) with
    | none => s
    | some i =>
      match b.seqr.flights[i]? with
      | none => s
      | some f =>
        let t := b.tile f.tile
        let rows := (List.range 64).map t.row
        let before := (b.seqr.flights.take i).map fun g =>
          if g.tile == f.tile && g.data.isEmpty then { g with data := [rows] } else g
        let b1 := { b with seqr := { b.seqr with flights := before ++ b.seqr.flights.drop (i + 1) } }
        let reads := match f.op with | .zclr _ | .zld _ => false | _ => true
        if reads && b.badTiles.contains f.tile then (s.setBlock core bslot b1).haltSeq core bslot 70
        else
          let whole := match f.op with | .zclr _ => true | .zld fmt => fmt != tF64 | _ => false
          let b2 := match f.op with
            | .zst fmt start pitch rot buf =>
              let b2 := b1.storeRows start pitch rot (((f.data.head?).getD rows).take (moveRows fmt))
              match buf with | some n => b2.modBuf n fun u => u.advHead 1 | none => b2
            | _ => b1.setTile f.tile (f.newTile t)
          s.setBlock core bslot (if whole then { b2 with badTiles := ndel b2.badTiles f.tile } else b2)

/-- The head of the deferral queue takes effect (R306): `free` for a BFREE, else an NBSIG. -/
def State.applyDeferred (s : State) (core bslot : Nat) (free : Bool) : State :=
  match s.block core bslot with
  | none => s
  | some b =>
    if !b.deferReady (s.now (dieOf core)) false then s
    else match b.seqr.queue with
      | .bfree u n _ :: rest =>
        if free then s.setBlock core bslot ({ b with seqr := { b.seqr with queue := rest } }.modBuf u fun x => x.advTail n)
        else s
      | .nbsig k n _ _ :: rest =>
        if free then s
        else s.setBlock core bslot { b with seqr := { b.seqr with queue := rest },
                                            nbc := lmod b.nbc k (· + BitVec.ofNat 32 n) }
      | [] => s

/-! ### Waiting, signalling and looping in the stream (R306 to R308) -/

def bwaitBody (f : XF) : SeqBody := fun core _ b s =>
  let u := b.buf f.bufA.toNat
  let n := f.va.toNat
  if !u.en then .fault 20 5
  else if u.nslot < n then .fault 20 7
  else if b.seqBehind (s.now (dieOf core)) then .wait
  else if n ≤ (if u.out then u.nslot - u.held else u.held) then .next s else .wait

def bfreeBody (f : XF) : SeqBody := fun core bslot b s =>
  let u := b.buf f.bufA.toNat
  let n := f.va.toNat
  if b.seqBehind (s.now (dieOf core)) || 4 ≤ b.seqr.queue.length then .wait
  else if !u.en then .fault 20 5
  else if u.out then .fault 20 6
  else if u.nslot < n then .fault 20 7
  else .next (s.modSeqr core bslot fun q => { q with queue := q.queue ++ [.bfree f.bufA.toNat n q.last] })

def nbsigBody (f : XF) : SeqBody := fun core bslot b s =>
  if b.seqBehind (s.now (dieOf core)) || 4 ≤ b.seqr.queue.length then .wait
  else .next (s.modSeqr core bslot fun q =>
    { q with queue := q.queue ++ [.nbsig f.bufO.toNat f.va.toNat q.last (f.asrc.toNat = 1)] })

/-- Whether a count has reached a target (R290). -/
def reached (count target : Word) : Bool := (count - target).toNat < 2 ^ 31

def nbswBody (f : XF) : SeqBody := fun core bslot b s =>
  let n := f.bufO.toNat
  let t := b.seqr.marks.getD n 0 + f.va.setWidth 32
  if b.seqBehind (s.now (dieOf core)) then .wait
  else if reached (b.nbc.getD n 0) t then
    .next (s.modSeqr core bslot fun q => { q with marks := lmod q.marks n fun _ => t })
  else .wait

/-- SLOOP (R297, R308): SOFF stands in TILE, BUFA, BUFB and BUFO, and CNT in VA and VB. -/
def sloopBody (f : XF) : SeqBody := fun core bslot b s =>
  let k := s.core core
  let soff := f.bufO ++ f.bufB ++ f.bufA ++ f.tile
  match k.relative b.code b.seqr.pc (sext 19 soff.toNat) with
  | .error v => .target v
  | .ok e =>
    if f.asrc.toNat = 1 && (s.waveOf core bslot f.wv.toNat).isNone then .fault 20 3
    else if f.asrc.toNat = 1 && s.grpBad core bslot f.wv.toNat [2 * f.ga.toNat] then .halt 73
    else
      let n := if f.asrc.toNat = 0 then f.va.toNat + f.vb.toNat * 2 ^ 10
        else (s.blockGrp core bslot f.wv.toNat (2 * f.ga.toNat)).toNat % 2 ^ 32
      if n = 0 then .jumped (s.modSeqr core bslot fun q => { q with pc := k.nextValid b.code e })
      else if b.seqr.loops.length = 4 then .halt 72
      else .next (s.modSeqr core bslot fun q => { q with loops := ⟨n, k.nextValid b.code b.seqr.pc, 0⟩ :: q.loops })

def sendlBody : SeqBody := fun core bslot b s =>
  match b.seqr.loops with
  | [] => .halt 72
  | top :: rest =>
    if top.count - 1 ≠ 0 then
      .jumped (s.modSeqr core bslot fun q =>
        { q with pc := top.start, loops := { top with count := top.count - 1, t := top.t + 1 } :: rest })
    else .next (s.modSeqr core bslot fun q => { q with loops := rest })

/-- SEND (R308): nothing after it is fetched, so the pc stays. -/
def sendBody : SeqBody := fun core bslot _ s => .jumped (s.modSeqr core bslot fun q => { q with status := 5 })

def snopBody : SeqBody := fun _ _ _ s => .next s

/-! ### The waves' side (R309 to R313) -/

/-- MFENCE (R291, R310): it waits for the wave's stores to scratchpad and for the tokens of its arrivals (R264). What the wave has
written is then ready, once it has signalled. -/
def mfenceBody : Body := fun c w s =>
  if (w.sb.any fun e => e.parts.any fun p => p.home.place.1 == 2) || !(pendingTokens w (s.core c.core).queue).isEmpty then
    .stay .mfence s
  else .next (s.setWave c.core c.slot { w with unfenced := [], unsent := w.unfenced ++ w.unsent })

/-- The wave after an NBAR or a BADV, which tells the sequencer of all that the last MFENCE made ready (R291). -/
def Wave.signalled (w : Wave) : Wave := { w with unsent := [] }

/-- NBAR (R311). -/
def nbarBody (x : VArgs) : Body := fun c w s =>
  .next ((s.setWave c.core c.slot w.signalled).modBlock c.core c.bslot fun b =>
    { b with nbc := lmod b.nbc (x.sub % 16) (· + BitVec.ofNat 32 (c.low32 w x.a)) })

/-- NBWAIT (R312). -/
def nbwaitBody (x : VArgs) : Body := fun c w s =>
  match s.block c.core c.bslot with
  | none => .next s
  | some b =>
    if reached (b.nbc.getD (x.sub % 16) 0) (BitVec.ofNat 32 (c.low32 w x.a)) then .next s else .stay .numbered s

/-- BADV (R311). -/
def badvBody (x : VArgs) : Body := fun c w s =>
  match s.block c.core c.bslot with
  | none => .next s
  | some b =>
    let i := x.sub % 16
    let u := b.buf i
    let n := c.low32 w x.a
    if n = 0 then .next s
    else if !u.en then .fail (.matrixFault 5)
    else if u.nslot < n then .fail (.matrixFault 7)
    else if u.out then
      if u.held < n then .stay .room s
      else .next ((s.setWave c.core c.slot w.signalled).setBlock c.core c.bslot (b.modBuf i fun u => u.advTail n))
    else if u.nslot < u.held + n then .stay .room s
    else .next ((s.setWave c.core c.slot w.signalled).setBlock c.core c.bslot (b.modBuf i fun u => u.advHead n))

/-- BQRY (R312). -/
def bqryBody (x : VArgs) : Body := fun c w s =>
  match s.block c.core c.bslot with
  | none => .next s
  | some b =>
    let u := b.buf (x.sub % 16)
    if x.d = 1023 then .next s
    else
      let w1 := c.write w x.d (.u (BitVec.ofNat 32 u.tail)) 2
      .next (s.setWave c.core c.slot (c.write w1 (x.d + 1) (.u (BitVec.ofNat 32 u.head)) 2))

/-- The checks of a wave's access to a tile (R313): what stops it. A result that is due is awaited. -/
def tileStop (s : State) (core : Nat) (b : Block) (z : Nat) : Option Exc :=
  if b.nTiles ≤ z then some (.matrixFault 1)
  else if (b.tile z).emulated then some (.emu 8 0)
  else
    let on := b.seqr.flights.filter fun f => f.tile == z
    if on.any fun f => f.resultAt ≤ s.now (dieOf core) then some (.wait .scoreboard)
    else match on with
      | f :: _ => some (.busy z f.seq)
      | [] => if b.badTiles.contains z then some (.halt 70 0) else none

/-- ZREAD (R313). -/
def zreadBody (x : VArgs) : Body := fun c w s =>
  match s.block c.core c.bslot with
  | none => .next s
  | some b =>
    let z := x.sub % 128
    match tileStop s c.core b z with
    | some e => .fail e
    | none =>
      let t := b.tile z
      let g := c.low32 w x.a
      if x.d = 1023 then (if x.ty = tF64 && t.tag ≠ 11 && t.tag ≠ 0 then .fail (.emu 7 0) else .next s)
      else if x.ty = tF64 then
        if t.tag ≠ 11 && t.tag ≠ 0 then .fail (.emu 7 0)
        else
          let w1 := (List.range x.c).foldl (fun w i =>
            let at_ (l h : Nat) : Word := t.word (64 * ((g + i) % 32) + 2 * l + h)
            w.setBank (w.bank.writePair c.act c.live (x.d + 2 * i) (.g (Lanes.of (at_ · 0))) (.g (Lanes.of (at_ · 1))) 11 12)) w
          .next (s.setWave c.core c.slot w1)
      else
        let w1 := (List.range x.c).foldl (fun w i =>
          c.write w (x.d + i) (.g (Lanes.of fun l => t.word (32 * ((g + i) % 128) + l)))
            (if t.tag = 1 then 1 else if t.tag = 3 then 3 else 0)) w
        .next (s.setWave c.core c.slot w1)

/-- ZWRITE (R313). -/
def zwriteBody (v : View) (x : VArgs) : Body := fun c w s =>
  match s.block c.core c.bslot with
  | none => .next s
  | some b =>
    let z := x.sub % 128
    match tileStop s c.core b z with
    | some e => .fail e
    | none =>
      let t := b.tile z
      let g := c.low32 w x.a
      if formatBad w v then .fail (.emu 7 0)
      else if x.ty ≠ tB32 && t.tag ≠ 0 && t.tag ≠ moveTag x.ty then .fail (.emu 7 0)
      else
        let src (i l : Nat) : Word := if x.b = 1023 then 0 else c.lane w (x.b + i) l
        let words := (List.range x.c).foldl (fun m i =>
          c.lanes.foldl (fun m l =>
            if x.ty = tF64 then
              let n := 64 * ((g + i) % 32) + 2 * l
              kput (kput m n (src (2 * i) l) 0) (n + 1) (src (2 * i + 1) l) 0
            else kput m (32 * ((g + i) % 128) + l) (src i l) 0) m) t.words
        .next (s.setBlock c.core c.bslot
          (b.setTile z { t with words, tag := if x.ty = tB32 then t.tag else moveTag x.ty }))

/-! ### The sequencer's turn (R283, R308) -/

/-- A sequencer's turn: its instruction, or the trap that fetching it raises. The line is checked, and if need be fetched again, before
its header is used (R35). -/
def fetchSeq (s : State) (core bslot : Nat) (b : Block) : Except State (Slot × State) :=
  let x := b.seqr.pc
  let misaligned (s : State) : State := s.seqFault core bslot (seqTrap b 21 0 0 0 (some (x.setWidth 64)))
  match slotAt (offOf x % 64), (s.core core).segment b.code (segOf x) with
  | none, _ => .error (misaligned s)
  | some _, none => .error (s.seqFault core bslot (seqTrap b 22 0 0 0))
  | some sl, some g =>
    if g.loading then .error ((s.cancelDrop core b.code g.num).modSeqr core bslot fun q => { q with status := 3 })
    else if g.size * 8192 ≤ offOf x then .error (misaligned s)
    else
      let line := offOf x / 64
      match s.fetchLine core b.code g line with
      | (false, s1) => .error (s1.haltSeq core bslot 67)
      | (true, s1) =>
        match (s1.core core).segment b.code (segOf x) with
        | none => .error s1
        | some g2 =>
          if g2.header line % 256 ≠ segOf x then .error (s1.seqFault core bslot (seqTrap b 22 0 0 0))
          else if !validBit (g2.header line) sl then .error (misaligned s1)
          else .ok (s1.fetched b.code g2 (g2.slot line sl), { s1 with loose := !s1.imageKept b.code g2 })

/-- Operands in flight looked at again: those written before their read point, or whose words have changed by then, are undefined
(R292). DESIGN CHOICE: so are the register operands of a wave that retires in between, unless they were zero (entry 72 of the log). -/
def Flight.watch (s : State) (core bslot : Nat) (b : Block) (f : Flight) : Flight :=
  if f.tainted || f.readAt ≤ s.now (dieOf core) || f.srcs.isEmpty then f
  else { f with tainted := f.srcs.any (s.sourceUnready core bslot b) || s.pairsUnready core bslot f.wv f.grps
                  || f.srcs.map (s.readSource core bslot) != f.data }

/-- R292 over every operation in flight. -/
def State.watchFlights (s : State) : State :=
  s.cores.foldl (fun s (c, k) => k.blocks.foldl (fun s (n, b) =>
    if b.seqr.flights.isEmpty then s
    else s.setBlock c n { b with seqr := { b.seqr with flights := b.seqr.flights.map (Flight.watch s c n b) } }) s) s

/-! ### The meanings -/

def execMma (f : XF) (s : State) := issueSeq (Instr.mma f).view (encode (.mma f)) (fireBody .mma f) s
def execMmas (f : XF) (s : State) := issueSeq (Instr.mmas f).view (encode (.mmas f)) (fireBody .mmas f) s
def execZld (f : XF) (s : State) := issueSeq (Instr.zld f).view (encode (.zld f)) (fireBody .zld f) s
def execZst (f : XF) (s : State) := issueSeq (Instr.zst f).view (encode (.zst f)) (fireBody .zst f) s
def execZclr (f : XF) (s : State) := issueSeq (Instr.zclr f).view (encode (.zclr f)) (fireBody .zclr f) s
def execBwait (f : XF) (s : State) := issueSeq (Instr.bwait f).view (encode (.bwait f)) (bwaitBody f) s
def execBfree (f : XF) (s : State) := issueSeq (Instr.bfree f).view (encode (.bfree f)) (bfreeBody f) s
def execNbsig (f : XF) (s : State) := issueSeq (Instr.nbsig f).view (encode (.nbsig f)) (nbsigBody f) s
def execNbsw (f : XF) (s : State) := issueSeq (Instr.nbsw f).view (encode (.nbsw f)) (nbswBody f) s
def execSloop (f : XF) (s : State) := issueSeq (Instr.sloop f).view (encode (.sloop f)) (sloopBody f) s
def execSendl (f : XF) (s : State) := issueSeq (Instr.sendl f).view (encode (.sendl f)) sendlBody s
def execSend (f : XF) (s : State) := issueSeq (Instr.send f).view (encode (.send f)) sendBody s
def execSnop (f : XF) (s : State) := issueSeq (Instr.snop f).view (encode (.snop f)) snopBody s

def execMfence (f : VF) (s : State) := issue (Instr.mfence f).view (encode (.mfence f)) mfenceBody false s
def execNbar (f : VF) (s : State) := issue (Instr.nbar f).view (encode (.nbar f)) (nbarBody (f.args .nbar false)) false s
def execNbwait (f : VF) (s : State) :=
  issue (Instr.nbwait f).view (encode (.nbwait f)) (nbwaitBody (f.args .nbwait false)) false s
def execZread (f : VF) (s : State) :=
  issue (Instr.zread f).view (encode (.zread f)) (zreadBody (f.args .zread false)) false s
def execZwrite (f : VF) (s : State) :=
  issue (Instr.zwrite f).view (encode (.zwrite f)) (zwriteBody (Instr.zwrite f).view (f.args .zwrite false)) false s
def execBadv (f : VF) (s : State) := issue (Instr.badv f).view (encode (.badv f)) (badvBody (f.args .badv false)) false s
def execBqry (f : VF) (s : State) := issue (Instr.bqry f).view (encode (.bqry f)) (bqryBody (f.args .bqry false)) false s

def execTileOperationResultPoint (core bslot : Nat) (s : State) : Host.Outcome State Fault Refusal :=
  .next (s.resultPoint core bslot)
def execBfreeApplied (core bslot : Nat) (s : State) : Host.Outcome State Fault Refusal :=
  .next (s.applyDeferred core bslot true)
def execNbsigApplied (core bslot : Nat) (s : State) : Host.Outcome State Fault Refusal :=
  .next (s.applyDeferred core bslot false)

end Sys2Proof.Machine
end

