-- ==== Sys2Proof/Machine/Copy.lean ====
section
/-!
DEFINITION. The copy and collective engines (R314 to R330): command blocks and their validation, the instructions of the
class, the units of a command, completion writes, cancellation and the stop of a halted partition's channels.
-/

namespace Sys2Proof.Machine

/-! ### Command blocks (R316) -/

/-- The fields of a command block. -/
structure Command where
  op : Nat
  red : Nat
  dtype : Nat
  dkind : Nat
  ckind : Nat
  buf : Nat
  tags : Bool
  len : Nat
  src : Cap
  dst : Cap
  cmpl : Cap
  grp : Cap
  cval : Nat
  gid : Nat
  rank : Nat
  root : Nat
  n : Nat
  dstoff : Nat
  cvoff : Nat
deriving DecidableEq, Repr

/-- A capability at an offset of a list. -/
def capIn (bs : List Byte) (o : Nat) (tag : Bool) : Cap := ⟨BitVec.ofNat 128 (numIn bs o 16), tag⟩

/-- A command block's 128 bytes and the tags of its four capabilities. -/
def commandOf (bs : List Byte) (ts : List Bool) : Command :=
  let ctrl := numIn bs 0 8
  let g := numIn bs 88 8
  let sp := numIn bs 96 8
  { op := field ctrl 0 4, dtype := field ctrl 4 4, red := field ctrl 8 2, dkind := field ctrl 10 2,
    buf := field ctrl 12 4, ckind := field ctrl 16 2, tags := ctrl.testBit 18, len := numIn bs 8 8 % 2 ^ 40,
    src := capIn bs 16 (ts.getD 0 false), dst := capIn bs 32 (ts.getD 1 false), cmpl := capIn bs 48 (ts.getD 2 false),
    grp := capIn bs 64 (ts.getD 3 false), cval := numIn bs 80 8, gid := field g 0 16, rank := field g 16 8,
    root := field g 24 8, n := field g 32 8, dstoff := field sp 0 24, cvoff := field sp 32 24 }

def Channel.cmd (ch : Channel) : Command := commandOf ch.image ch.tags

def Command.collective (k : Command) : Bool := k.op != 0

/-- The bytes of an element of DTYPE (R316). -/
def dtypeSize (ty : Nat) : Nat := if ty = tBf16 then 2 else if wide ty then 8 else 4

/-- The bytes a command writes at its destination. -/
def Command.total (k : Command) : Nat := if k.op = 3 then k.n * k.len else k.len

/-- Whether this member reads a source, and whether it writes a destination (R318, R327). -/
def Command.reads (k : Command) : Bool := k.op != 1 || k.rank == k.root
def Command.writes (k : Command) : Bool := k.op != 1 || k.rank != k.root

/-! ### Validation (R317, R318) -/

/-- Check 7: reserved, unused and undefined fields. -/
def fieldBad (bs : List Byte) (k : Command) : Bool :=
  let ctrl := numIn bs 0 8
  let sp := numIn bs 96 8
  let dtypes := [tF32, tF64, tBf16, tI32, tW32, tI64, tW64]
  ctrl / 2 ^ 19 != 0 || 4 ≤ k.op || k.dkind == 3
    || (if k.op = 2 then k.red == 3 || !dtypes.contains k.dtype else k.red != 0 || k.dtype != 0)
    || (k.tags && (k.op != 0 || k.dkind != 0))
    || numIn bs 8 8 / 2 ^ 40 != 0 || numIn bs 88 8 / 2 ^ 40 != 0
    || (k.op == 0 && (numIn bs 88 8 != 0 || k.grp != Cap.null))
    || field sp 24 8 != 0 || field sp 56 8 != 0 || numIn bs 104 24 != 0
    || (k.dkind != 0 && k.dst != Cap.null)
    || (k.ckind != 1 && k.cmpl != Cap.null)
    || (k.ckind != 1 && k.ckind != 2 && k.cval != 0)
    || (k.dkind == 0 && k.dstoff != 0) || (k.ckind != 2 && k.cvoff != 0)
    || (k.dkind != 2 && k.ckind != 3 && k.buf != 0)

/-- A capability that passes (R318). -/
def Cap.passes (c : Cap) (latch need n align : Nat) : Bool :=
  c.tag && capOtype c.bits == 0 && capColour c.bits == latch && holds (capGrants c.bits) need
    && capBase c.bits ≤ capCursor c.bits && (capCursor c.bits + n : Nat) ≤ capTop c.bits
    && capCursor c.bits % align == 0

/-- A data capability may leave the part in a COPY only, with REMOTE (R318). -/
def State.placeOk (s : State) (k : Command) (c : Cap) : Bool :=
  !s.isRemote (capCursor c.bits) || (k.op == 0 && holds (capGrants c.bits) permRemote)

/-- The alignment of SRC and of a memory destination. -/
def Command.align (k : Command) : Nat := if k.op = 2 then dtypeSize k.dtype else if k.tags then 16 else 1

/-- Check 8. -/
def State.srcOk (s : State) (latch : Nat) (k : Command) : Bool :=
  if k.reads then k.src.passes latch (permLoad ||| if k.tags then permLoadCap else 0) k.len k.align && s.placeOk k k.src
  else k.src == Cap.null

/-- Whether a buffer of the block is enabled and IN (R287). -/
def Block.bufIn (b : Block) (n : Nat) : Bool := (b.buf n).en && !(b.buf n).out

/-- Check 9. -/
def State.dstOk (s : State) (latch : Nat) (b : Block) (k : Command) : Bool :=
  if !k.writes then k.dkind == 0 && k.dst == Cap.null
  else match k.dkind with
    | 0 => k.dst.passes latch (permStore ||| if k.tags then permStoreCap else 0) k.total k.align && s.placeOk k k.dst
    | 1 => k.dstoff % 4 == 0 && k.dstoff + k.total ≤ b.spSize
    | _ => b.bufIn k.buf && k.dstoff + k.total ≤ (b.buf k.buf).slotSize

/-- Check 10. -/
def State.cmplOk (s : State) (latch : Nat) (b : Block) (k : Command) : Bool :=
  match k.ckind with
  | 1 => k.cmpl.passes latch permStore 8 8 && !s.isRemote (capCursor k.cmpl.bits)
  | 2 => k.cvoff % 4 == 0 && k.cvoff + 4 ≤ b.spSize
  | 3 => b.bufIn k.buf
  | _ => true

/-- Checks 7 to 11 of R195 on a channel's local access, with device registers counted as unmapped: no channel acts for
SYSTEM (R193, R325). -/
def State.chanCheck (s : State) (colour group : Nat) (c : Cap) (a n : Nat) : Option Nat :=
  if rangeOf a == .device then some 7 else s.mapCheck ⟨colour, some group⟩ colour (capClass c.bits) a n

/-- A collective's member table: the devices by rank. -/
def State.table (s : State) (k : Command) : List Nat :=
  (s.bytesAt (localOf (capCursor k.grp.bits)) k.n).map (·.toNat)

def distinct : List Nat → Bool
  | [] => true
  | x :: xs => !xs.contains x && distinct xs

/-- Check 11. -/
def State.groupOk (s : State) (latch group : Nat) (k : Command) : Bool :=
  if !k.collective then true
  else
    let a := capCursor k.grp.bits
    let t := s.table k
    2 ≤ k.n && k.n ≤ 64 && k.rank < k.n && k.root < k.n && k.grp.passes latch permLoad k.n 1 && !s.isRemote a
      && rangeOf (localOf a) == .hbm && (s.chanCheck latch group k.grp (localOf a) k.n).isNone
      && distinct t && t.all (fun d => d != 0 && d != 255) && t.getD k.rank 0 == s.devid

/-- Check 12. -/
def Command.lenOk (k : Command) : Bool :=
  k.len != 0 && (k.op != 2 || k.len % dtypeSize k.dtype == 0) && (!k.tags || k.len % 16 == 0)
    && (k.dkind == 0 || k.len % 4 == 0)

/-- The channels of a core's group that the partition of its block owns, ascending (R314). -/
def ownedChannels (core : Nat) (b : Block) : List Nat :=
  (List.range 16).filter fun c => b.env.partition.contains (8 * groupOf core + c / 2)

def State.channel (s : State) (k : Nat) : Option Channel := kget s.channels k

/-- Whether a channel is busy (R315). -/
def State.busy (s : State) (k : Nat) : Bool := match s.channel k with | some ch => ch.status == 1 | none => false

/-- A free channel of the partition in the core's group, the lowest first (R322). -/
def State.freeChannel (s : State) (core : Nat) (b : Block) : Option Nat :=
  (ownedChannels core b).find? fun c => !s.busy (16 * groupOf core + c)

/-- The running member of a collective on this part (R317, R327). -/
def State.member (s : State) (colour gid : Nat) : Option (Nat × Channel) :=
  s.channels.find? fun e => e.2.status == 1 && e.2.colour == colour && e.2.cmd.collective && e.2.cmd.gid == gid

/-- The bytes of a block and the tags of its capabilities. -/
def State.readBlock (s : State) (a : Nat) : List Byte × List Bool :=
  (s.bytesAt a 128, [1, 2, 3, 4].map fun k => s.tags.contains (a / 16 + k))

/-- The validation code of a block capability (R317). -/
def State.validate (s : State) (core : Nat) (b : Block) (invk : Bool) (c : Cap) : Nat :=
  let latch := (s.core core).latch
  let group := groupOf core
  let t := capOtype c.bits
  let a := localOf (capCursor c.bits)
  if !c.tag then 1
  else if !(t == 1 || (!invk && t == 0)) then 2
  else if (invk && !holds (capGrants c.bits) permInvoke) || (!invk && t == 0 && !holds (capGrants c.bits) permLoad) then 3
  else if capColour c.bits ≠ latch then 4
  else if capCursor c.bits % 128 ≠ 0 || (capCursor c.bits : Int) < capBase c.bits
      || capTop c.bits < (capCursor c.bits + 128 : Nat) then 5
  else if s.isRemote (capCursor c.bits) || rangeOf a != .hbm || (s.chanCheck latch group c a 128).isSome then 6
  else
    let (bs, ts) := s.readBlock a
    let k := commandOf bs ts
    if fieldBad bs k then 7
    else if !s.srcOk latch k then 8
    else if !s.dstOk latch b k then 9
    else if !s.cmplOk latch b k then 10
    else if !s.groupOk latch group k then 11
    else if !k.lenOk then 12
    else if invk && (s.freeChannel core b).isNone then 13
    else if invk && k.collective && (s.member latch k.gid).isSome then 14
    else 0

/-! ### Groups (R327, R328; entry 20 of the log for the payload) -/

/-- What every flit of a collective says of its member: GID, RANK with the poison flag, N, ROOT, OP with RED and DTYPE,
LEN, and an offset or a code. -/
def groupHead (k : Command) (poisoned : Bool) (x : Nat) : List Byte :=
  toBytes 2 k.gid ++ toBytes 1 (k.rank + if poisoned then 128 else 0) ++ toBytes 1 k.n ++ toBytes 1 k.root
    ++ toBytes 1 (k.op + 4 * k.red + 16 * k.dtype) ++ toBytes 5 k.len ++ toBytes 5 x

/-- The devices of the other members. -/
def State.others (s : State) (k : Command) : List Nat := (s.table k).filter (· != s.devid)

/-- A flit of a collective sent to every other member; BCAST data leave once on each port that leads to a member. Whether
every member has a route is the first part of the result. -/
def State.sendGroup (s : State) (colour : Nat) (k : Command) (kind : Nat) (payload : List Byte) : Bool × State :=
  (s.others k).foldl (fun (r : Bool × State × NSet) d =>
    match r.2.1.route d with
    | none => (false, r.2)
    | some p =>
      if k.op = 1 && kind = 7 && r.2.2.contains p then r
      else (r.1, r.2.1.sendFlit p (flitOf r.2.1 d colour 0xFF kind 0 payload 0 0), nins r.2.2 p)) (true, s, [])
  |> fun r => (r.1, r.2.1)

/-- A control flit with a code: 0 joins, 11 aborts, 12 reports a mismatch, 13 cancels. -/
def State.sendControl (s : State) (ch : Channel) (code : Nat) : State :=
  (s.sendGroup ch.colour ch.cmd 8 (groupHead ch.cmd false code)).2

def State.setChannel (s : State) (k : Nat) (ch : Channel) : State := { s with channels := kset s.channels k ch }

/-- A running command that has failed: its completion is still to be made (R329, R335). -/
def State.failChannel (s : State) (k code : Nat) : State :=
  { s with channels := kmod s.channels k fun ch =>
      if ch.status = 1 && ch.code = 0 then { ch with code } else ch }

/-- The key of a piece of a contribution. -/
def partKey (rank off : Nat) : Nat := rank * 2 ^ 40 + off / 192

/-- The mark of a poisoned piece. -/
def poisonKey : Nat := 2 ^ 60

/-- A collective flit taken by a member here (R327, R328). -/
def State.takeGroup (s : State) (num : Nat) (ch : Channel) (control : Bool) (p : List Byte) : State :=
  let k := ch.cmd
  let rank := numIn p 2 1 % 128
  let same := numIn p 3 1 == k.n && numIn p 4 1 == k.root && numIn p 5 1 == k.op + 4 * k.red + 16 * k.dtype
    && numIn p 6 5 == k.len
  let x := numIn p 11 5
  if !same then (s.sendControl ch 12).failChannel num 12
  else if control then (if x = 0 then s else s.failChannel num x)
  else
    let key := partKey rank x
    let parts := kset ch.parts key (p.drop 16)
    s.setChannel num { ch with
      parts := if 128 ≤ numIn p 2 1 then kset parts (poisonKey + key) [] else parts
      since := s.now (groupDie (num / 16)) }

/-- A collective flit at a colour: taken by the member here, or kept until one joins. -/
def State.groupFlit (s : State) (colour : Nat) (control : Bool) (p : List Byte) : State :=
  match s.member colour (numIn p 0 2) with
  | some (num, ch) => s.takeGroup num ch control p
  | none => { s with groupFlits := s.groupFlits ++ [(65536 * colour + numIn p 0 2, control, p)] }

/-- A new member: it makes itself known, and takes what has come for its group. -/
def State.joinGroup (s : State) (num : Nat) (ch : Channel) : State :=
  let key := 65536 * ch.colour + ch.cmd.gid
  let (routed, s1) := s.sendGroup ch.colour ch.cmd 8 (groupHead ch.cmd false 0)
  let s2 := if routed then s1 else s1.failChannel num 1
  let s3 := { s2 with groupFlits := s2.groupFlits.filter fun f => f.1 != key }
  (s2.groupFlits.filter fun f => f.1 == key).foldl (fun s f =>
    match s.channel num with
    | some c => if c.status = 1 then s.takeGroup num c f.2.1 f.2.2 else s
    | none => s) s3

/-! ### Starting a command (R322) -/

/-- The handle of a command (R321). -/
def handleWord (num inv : Nat) : Dword := BitVec.ofNat 64 (num / 16 * 2 ^ 40 + inv * 2 ^ 8 + num % 16)

/-- INVK (R322). -/
def invkBody (x : VArgs) : Body := fun c w s0 =>
  match s0.block c.core c.bslot with
  | none => .next s0
  | some b =>
    if !s0.ordered w false 0 then .stay .order s0
    else
    let s := s0.exclude c.core c.bslot
    let cap := c.quadCap w x.a c.lowest
    let code := s.validate c.core b true cap
    if code ≠ 0 then .next (s.setWave c.core c.slot (c.writeG w x.d (BitVec.ofNat 64 (2 ^ 63 + code))))
    else match s.freeChannel c.core b with
      | none => .next s
      | some n =>
        let num := 16 * groupOf c.core + n
        let (image, tags) := s.readBlock (localOf (capCursor cap.bits))
        let inv := match s.channel num with | some ch => (ch.inv + 1) % 2 ^ 32 | none => 1
        let owners := match s.channel num with | some ch => ch.owners | none => []
        let ch : Channel :=
          { inv, status := 1, code := 0, done := 0, pois := false, image, tags, colour := (s.core c.core).latch,
            grid := b.grid, index := b.index, context := b.env.top, slot := none, owners := kset owners inv b.env.top,
            sent := 0, parts := [], since := s.now (dieOf c.core), queued := false, written := false, unit := none }
        let s1 := (s.setChannel num ch).setWave c.core c.slot (c.writeG w x.d (handleWord num inv))
        .next (if ch.cmd.collective then s1.joinGroup num ch else s1)

/-! ### The invoking block's scratchpad -/

/-- Where the invoking block of a channel stands: resident, in an image, or gone (R242, R329, R330). -/
inductive Invoker where
  | here (core bslot : Nat) (b : Block)
  | saved (image : Nat)
  | gone
deriving DecidableEq, Repr

def State.invoker (s : State) (ch : Channel) : Invoker :=
  match s.cores.findSome? fun (c, k) =>
      (k.blocks.find? fun e => e.2.grid == ch.grid && e.2.index == ch.index && e.2.audit.isNone).map fun e => (c, e) with
  | some (c, (n, b)) => .here c n b
  | none =>
    match s.images.find? fun e => e.2.state != 0 && !e.2.halted &&
        e.2.blocks.any fun x => x.block.grid == ch.grid && x.block.index == ch.index with
    | some (a, _) => .saved a
    | none => .gone

/-! ### Ending a command (R323, R328, R329) -/

/-- The requests of a channel toward other devices, and its place in a word's queue, taken away. -/
def State.dropChannelWork (s : State) (num inv : Nat) : State :=
  let s1 := { s with
    remote := s.remote.filter fun e => match e.2.owner with
      | .channel g c i _ _ => !(16 * g + c == num && i == inv)
      | _ => true
    pri := s.pri.filter fun e => e.2.uid != 2 ^ 64 + num }
  { s1 with cores := s1.cores.map fun (c, k) => (c, { k with blocks := k.blocks.map fun (n, b) =>
      (n, { b with fe := b.fe.filter fun q => match q.op with | .channel x _ => x != num | _ => true }) }) }

/-- A command ends. -/
def State.endChannel (s : State) (num status code : Nat) : State :=
  match s.channel num with
  | none => s
  | some ch =>
    (s.setChannel num { ch with status, code, queued := false, written := false, unit := none, parts := [] }).dropChannelWork
      num ch.inv

/-- A command ends done, or failed with the code it holds. -/
def State.finishChannel (s : State) (num : Nat) (ch : Channel) : State :=
  s.endChannel num (if ch.code = 0 then 2 else 4) ch.code

/-- The status word of a command (R323). -/
def Channel.word (ch : Channel) : Dword :=
  BitVec.ofNat 64 ((if ch.status = 4 then ch.code else 0) * 2 ^ 56 + ch.done % 2 ^ 40 * 2 ^ 16
    + (if ch.pois then 2 ^ 8 else 0) + ch.status)

/-- What a handle names for a context: a word with a state of its own, or a channel and its latest command (R323). -/
def State.handleOf (s : State) (top : Nat) (h : Dword) : Except Dword (Nat × Channel) :=
  let g := field h.toNat 40 8
  let inv := field h.toNat 8 32
  let num := 16 * g + field h.toNat 0 4
  match s.channel num with
  | none => .error 6
  | some ch =>
    if h.getLsbD 63 || 24 ≤ g || s.product.off.contains g || kget ch.owners inv != some top then .error 6
    else if inv ≠ ch.inv then .error 5
    else .ok (num, ch)

/-- The status written to g[D], with the acquire that state 2 is (R323). -/
def reportStatus (x : VArgs) (c : Ctx) (w : Wave) (s : State) (v : Dword) : Done :=
  let s1 := s.setWave c.core c.slot (c.writeG w x.d v)
  .next (if v.toNat % 256 = 2 then s1.acquire c.core 3 else s1)

/-- CHSTAT and CHWAIT (R323). -/
def chstatBody (x : VArgs) (waits : Bool) : Body := fun c w s =>
  let top := match s.block c.core c.bslot with | some b => b.env.top | none => 0
  match s.handleOf top (c.readG w x.a) with
  | .error v => reportStatus x c w s v
  | .ok (_, ch) => if waits && ch.status = 1 then .stay .command s else reportStatus x c w s ch.word

/-- CHCAN (R328). -/
def chcanBody (x : VArgs) : Body := fun c w s =>
  let top := match s.block c.core c.bslot with | some b => b.env.top | none => 0
  match s.handleOf top (c.readG w x.a) with
  | .error v => reportStatus x c w s v
  | .ok (num, ch) =>
    let s1 := if ch.status ≠ 1 then s
      else if ch.written then s.finishChannel num ch
      else
        let s1 := s.endChannel num 3 0
        if ch.cmd.collective then s1.sendControl ch 13 else s1
    match s1.channel num with
    | some ch1 => reportStatus x c w s1 ch1.word
    | none => .next s1

/-- CBSEAL (R324). -/
def cbsealBody (x : VArgs) : Body := fun c w s =>
  let k := c.quadCap w x.a c.lowest
  let a := capCursor k.bits
  let ok := k.tag && capOtype k.bits = 0 && holds (capGrants k.bits) (permLoad ||| permInvoke)
    && capColour k.bits = (s.core c.core).latch && a % 128 = 0 && capBase k.bits ≤ a && (a + 128 : Nat) ≤ capTop k.bits
  let perms := permInvoke ||| (capPerms k.bits &&& permGlobal)
  let r := capMake 128 0 0 (capClass k.bits) perms 1 (capColour k.bits) a
  let keep := field k.bits.toNat 127 1 * 2 ^ 127
  .next (s.setWave c.core c.slot (c.writeQuad w x.d true fun _ => ⟨r ||| BitVec.ofNat 128 keep, ok⟩))

/-- CBCHK (R324). -/
def cbchkBody (x : VArgs) : Body := fun c w s =>
  match s.block c.core c.bslot with
  | none => .next s
  | some b =>
    let code := s.validate c.core b false (c.quadCap w x.a c.lowest)
    .next (s.setWave c.core c.slot (c.writeG w x.d (BitVec.ofNat 64 code)))

/-! ### Units (R325, R326) -/

/-- What a read or a write of a unit comes to. -/
inductive Moved where
  | bytes (bs : List Byte) (tags : List Bool) (bad : NSet) (s : State)
  | waits (s : State)
  | fails (code : Nat) (s : State)
deriving DecidableEq, Repr

/-- The pages of a channel's access to the host window (R474). -/
def State.chanPages (s : State) (num a n : Nat) : Paged :=
  if rangeOf a == .host then s.paged (2 ^ 64 + num) none (s.missingPages a n) else .ready

/-- The failure code of a failing check (R335). -/
def failureOf (check : Nat) : Nat := check - 4

/-- A channel's local read. -/
def State.chanRead (s : State) (num : Nat) (ch : Channel) (cap : Cap) (va n : Nat) : Moved :=
  let a := localOf va
  match s.chanCheck ch.colour (num / 16) cap a n with
  | some k => .fails (failureOf k) s
  | none =>
    match s.chanPages num a n with
    | .waits s1 => .waits s1
    | .failed s1 => .fails 3 s1
    | .ready =>
      .bytes (s.bytesAt a n) ((rangeFrom (a / 16) (n / 16)).map fun u => rangeOf a == .hbm && s.tags.contains u)
        ((List.range n).filter fun i => s.poison.contains ((a + i) / 64)) s

/-- The request of a channel for a unit, if it has been made. -/
def State.unitRequest (s : State) (num inv off : Nat) (write : Bool) : Option (Nat × Remote) :=
  s.remote.find? fun e => e.2.owner == .channel (num / 16) (num % 16) inv off write

def State.dropRequest (s : State) (tag : Nat) : State := { s with remote := kdel s.remote tag }

/-- A channel's read from another device (R333). -/
def State.chanFetch (s : State) (num : Nat) (ch : Channel) (k : Command) (va n : Nat) : Moved :=
  match s.unitRequest num ch.inv ch.done false with
  | none =>
    .waits (s.request (.channel (num / 16) (num % 16) ch.inv ch.done false) (devOf va) fun tag =>
      [flitOf s (devOf va) ch.colour 0xFF 1 tag
        (requestHead (localOf va) n (capClass k.src.bits) (if k.tags then 1 else 0) 0 0) 0 0])
  | some (tag, r) =>
    match r.answer with
    | none => .waits s
    | some a =>
      if a.code ≠ 0 then .fails a.code (s.dropRequest tag)
      else .bytes a.data [a.tag] ((List.range n).filter fun i => a.units.testBit ((va % 64 + i) / 64)) (s.dropRequest tag)

/-- Whether a unit's capability keeps its tag (R326). -/
def keepsTag (colour : Nat) (bs : List Byte) : Bool :=
  let v := BitVec.ofNat 128 (ofBytes bs)
  capColour v == colour && holds (capPerms v) permGlobal

/-- Bytes written at a local address with the tags of R326, which the host window holds none of, and the units that become poisoned
(R325). -/
def State.chanStore (s : State) (colour a : Nat) (bs : List Byte) (tags : List Bool) (bad : NSet) : State :=
  let s1 := s.store a bs
  let set := (tags.zip (List.range tags.length)).filter fun (t, i) =>
    let x := (bs.drop (16 * i)).take 16
    t && keepsTag colour x && rangeOf a == .hbm && !s1.touchesRevoked (BitVec.ofNat 128 (ofBytes x))
  { s1 with
    tags := set.foldl (fun m e => nins m (a / 16 + e.2)) s1.tags
    poison := bad.foldl (fun p i => nins p ((a + i) / 64)) s1.poison }

/-- Bytes written into a block's scratchpad: a word that takes a poisoned byte holds an error (R325). -/
def Block.chanStore (b : Block) (off : Nat) (bs : List Byte) (bad : NSet) : Block :=
  let b1 := b.padStore off bs
  { b1 with badWords := bad.foldl (fun m i => nins m ((off + i) / 4)) b1.badWords }

/-- The destination's address or offset for a byte of the command. -/
def Channel.target (ch : Channel) (k : Command) (off : Nat) : Nat :=
  match k.dkind with
  | 0 => capCursor k.dst.bits + off
  | 1 => k.dstoff + off
  | _ => ch.slot.getD 0 + k.dstoff + off

/-- The bytes of the next unit: at most 256, ending at a 64-byte boundary of the destination where they are not the last, and few
enough for a flit where a device is reached. -/
def unitSize (s : State) (k : Command) (dst left : Nat) : Nat :=
  let far := (k.reads && s.isRemote (capCursor k.src.bits)) || (k.dkind = 0 && k.writes && s.isRemote (capCursor k.dst.bits))
  min left (if !far then 256 - dst % 64 else if k.tags then 16 else 192 - dst % 64)

/-- Whether another running command of DKIND 2 fills the same buffer (R325). -/
def State.slotClash (s : State) (num : Nat) (ch : Channel) (k : Command) : Bool :=
  k.dkind == 2 && s.channels.any fun e =>
    e.1 != num && e.2.status == 1 && e.2.grid == ch.grid && e.2.index == ch.index && e.2.cmd.dkind == 2
      && e.2.cmd.buf == k.buf

/-- A unit written at its destination; `done` follows. Two commands filling one slot leave all of it undefined (R325). -/
def State.putUnit (s : State) (num : Nat) (ch : Channel) (k : Command) (bs : List Byte) (tags : List Bool) (bad : NSet) :
    State :=
  let dst := ch.target k ch.done
  let moved : Channel := { ch with done := ch.done + bs.length, pois := ch.pois || !bad.isEmpty,
                                   since := s.now (groupDie (num / 16)) }
  if k.dkind = 0 then
    if s.isRemote dst then
      let tag := tags.getD 0 false && keepsTag ch.colour bs
      let s1 := s.setChannel num { ch with unit := some bs, pois := ch.pois || !bad.isEmpty }
      s1.request (.channel (num / 16) (num % 16) ch.inv ch.done true) (devOf dst) fun rtag =>
        if bad.isEmpty then [writeFlit s (devOf dst) (localOf dst) (capClass k.dst.bits) ch.colour 0xFF bs tag rtag]
        else
          let units := (bad.foldl (fun m i => nins m ((dst % 64 + i) / 64)) ([] : NSet)).map (2 ^ ·)
          [flitOf s (devOf dst) ch.colour 0xFF 3 rtag
            (requestHead (localOf dst) bs.length (capClass k.dst.bits) 0 units.sum 0 ++ bs) 0 0]
    else
      match s.chanCheck ch.colour (num / 16) k.dst (localOf dst) bs.length with
      | some c => s.failChannel num (failureOf c)
      | none =>
        match s.chanPages num (localOf dst) bs.length with
        | .waits s1 => s1
        | .failed s1 => s1.failChannel num 3
        | .ready => (s.setChannel num moved).chanStore ch.colour (localOf dst) bs tags bad
  else
    match s.invoker ch with
    | .here c n b =>
      let b1 := if s.slotClash num ch k then
          b.chanStore (ch.slot.getD 0) ((List.range (b.buf k.buf).slotSize).map fun i => Config.freeByte s.tick i) []
        else b.chanStore dst bs bad
      (s.setChannel num moved).setBlock c n b1
    | .saved _ => s
    | .gone => s.failChannel num 15

/-- The bytes of a unit that fall where the source range lies are undefined (R325). -/
def overlapped (s : State) (k : Command) (dst : Nat) (bs : List Byte) (tags : List Bool) : List Byte × List Bool :=
  let src := capCursor k.src.bits
  let inside (x : Nat) : Bool := k.dkind = 0 && src ≤ x && x < src + k.len
  ((bs.zip (List.range bs.length)).map fun (b, i) => if inside (dst + i) then Config.freeByte s.tick i else b,
   (tags.zip (List.range tags.length)).map fun (t, i) => t && !inside (dst + 16 * i) && !inside (dst + 16 * i + 15))

/-- The next unit of a COPY: its bytes as they are to be written. -/
def State.copyUnit (s : State) (num : Nat) (ch : Channel) (k : Command) : Moved :=
  let va := capCursor k.src.bits + ch.done
  let n := unitSize s k (ch.target k ch.done) (k.len - ch.done)
  match if s.isRemote va then s.chanFetch num ch k va n else s.chanRead num ch k.src va n with
  | .bytes bs tags bad s1 =>
    let (bs1, tags1) := overlapped s k (ch.target k ch.done) bs (if k.tags then tags else [])
    .bytes bs1 tags1 bad s1
  | m => m

/-- The next piece of a member's own contribution, sent to the others (R327). -/
def State.sendPart (s : State) (num : Nat) (ch : Channel) (k : Command) : State :=
  let n := min 192 (k.len - ch.sent)
  match s.chanRead num ch k.src (capCursor k.src.bits + ch.sent) n with
  | .waits s1 => s1
  | .fails code s1 => s1.failChannel num code
  | .bytes bs _ bad s1 =>
    let key := partKey k.rank ch.sent
    let parts := kset ch.parts key bs
    let ch1 : Channel := { ch with
      sent := ch.sent + n
      parts := if bad.isEmpty then parts else kset parts (poisonKey + key) []
      pois := ch.pois || !bad.isEmpty
      done := if k.writes then ch.done else ch.sent + n
      since := s.now (groupDie (num / 16)) }
    let (routed, s2) := (s1.setChannel num ch1).sendGroup ch.colour k 7 (groupHead k (!bad.isEmpty) ch.sent ++ bs)
    if routed then s2 else s2.failChannel num 1

/-- Byte `o` of rank `r`'s contribution, and whether it came poisoned. -/
def Channel.partByte (ch : Channel) (r o : Nat) : Option (Byte × Bool) :=
  match kget ch.parts (partKey r o) with
  | some bs => (bs[o % 192]?).map fun b => (b, (kget ch.parts (poisonKey + partKey r o)).isSome)
  | none => none

/-- `x ⊕ y` of an ALLRED (R327). -/
def reduceElem (dtype red x y : Nat) : Nat :=
  let float (f : FFmt) : Nat := if red = 0 then f.roundTo 0 ((f.value x).add 0 (f.value y)) else minMaxOf f (red = 2) x y
  if dtype = tF32 then float fp32
  else if dtype = tF64 then float fp64
  else if dtype = tBf16 then float bf16
  else
    let w := 8 * dtypeSize dtype
    let v (z : Nat) : Int := if dtype = tI32 || dtype = tI64 then sext w z else z
    if red = 0 then (x + y) % 2 ^ w
    else if red = 1 then (if v y < v x then y else x)
    else if v x < v y then y else x

/-- Byte `d` of a collective's result at this member, if the contributions it needs have come. -/
def Channel.resultByte (ch : Channel) (k : Command) (d : Nat) : Option (Byte × Bool) :=
  match k.op with
  | 1 => ch.partByte k.root d
  | 3 => ch.partByte (d / k.len) (d % k.len)
  | _ =>
    let n := dtypeSize k.dtype
    let elems := (List.range k.n).map fun r => (rangeFrom (d / n * n) n).map (ch.partByte r)
    if elems.any fun e => e.any (·.isNone) then none
    else
      let xs := elems.map fun e => ofBytes (e.map fun b => (b.getD (0, false)).1)
      let bad := elems.any fun e => e.any fun b => (b.getD (0, false)).2
      match xs with
      | [] => none
      | x :: rest => some (BitVec.ofNat 8 (rest.foldl (reduceElem k.dtype k.red) x / 256 ^ (d % n)), bad)

/-- The result of a collective's next unit at this member, byte for byte as far as the contributions have come. -/
def State.resultBytes (s : State) (ch : Channel) (k : Command) : List (Option (Byte × Bool)) :=
  (rangeFrom ch.done (unitSize s k (ch.target k ch.done) (k.total - ch.done))).map (ch.resultByte k)

/-- The next unit of a collective: it waits for the contributions it needs. -/
def State.groupUnit (s : State) (ch : Channel) (k : Command) : Moved :=
  let bytes := s.resultBytes ch k
  if bytes.any (·.isNone) then .waits s
  else
    let got := bytes.map fun b => b.getD (0, false)
    .bytes (got.map (·.1)) [] ((List.range got.length).filter fun i => (got.getD i (0, false)).2) s

/-- The next unit of a command, as it is to be written. -/
def State.nextUnit (s : State) (num : Nat) (ch : Channel) (k : Command) : Moved :=
  if k.collective then s.groupUnit ch k else s.copyUnit num ch k

/-- Whether a member's own contribution is still to go out: that comes before its results. -/
def Channel.toSend (ch : Channel) (k : Command) : Bool := k.collective && k.reads && ch.sent < k.len

/-- Whether a command has moved all its bytes. -/
def Channel.moved (ch : Channel) (k : Command) : Bool :=
  ch.unit.isNone && (if k.writes then ch.done == k.total else true) && (!k.collective || !k.reads || ch.sent == k.len)

/-- A channel's next unit (R325). Nothing moves once the command has failed or has all its bytes, or while it waits; a member of a saved
block still sends its contribution, and stops before its next write (R330, R383). -/
def State.moveUnit (s : State) (num : Nat) : State :=
  match s.channel num with
  | none => s
  | some ch =>
    let k := ch.cmd
    if ch.status ≠ 1 || ch.code ≠ 0 || ch.moved k then s
    else match ch.unit with
      | some bs =>
        match s.unitRequest num ch.inv ch.done true with
        | some (tag, r) =>
          match r.answer with
          | none => s
          | some a =>
            let s1 := s.dropRequest tag
            if a.code ≠ 0 then (s1.setChannel num { ch with unit := none }).failChannel num a.code
            else s1.setChannel num { ch with unit := none, done := ch.done + bs.length }
        | none => s
      | none =>
        if k.dkind = 2 && k.writes && ch.slot.isNone then
          match s.invoker ch with
          | .here _ _ b =>
            let u := b.buf k.buf
            if u.held < u.nslot then s.setChannel num { ch with slot := some (u.slotAt u.head) } else s
          | .saved _ => s
          | .gone => s.failChannel num 15
        else if ch.toSend k then s.sendPart num ch k
        else if !k.writes || (k.dkind ≠ 0 && match s.invoker ch with | .saved _ => true | _ => false) then s
        else match s.nextUnit num ch k with
          | .waits s1 => s1
          | .fails code s1 => s1.failChannel num code
          | .bytes bs tags bad s1 => s1.putUnit num ch k bs tags bad

/-- Whether a busy channel has bytes left to move. -/
def Channel.toMove (ch : Channel) : Bool := ch.status == 1 && ch.code == 0 && !ch.moved ch.cmd

/-- The channel that an engine serves next: by ascending number from the one after the last (R315). -/
def State.channelTurn (s : State) (g : Nat) : Option Nat :=
  let last := match kget s.served g with | some c => c | none => 15
  ((rangeFrom (last + 1) 16).map (· % 16)).find? fun c => match s.channel (16 * g + c) with | some ch => ch.toMove | none => false

/-- A channel has had its engine's turn. -/
def State.servedBy (s : State) (g c : Nat) : State := { s with served := kset s.served g c }

/-! ### Completion (R329) -/

/-- The completion value. -/
def Channel.value (ch : Channel) (k : Command) (bits : Nat) : Nat :=
  if ch.code = 0 then k.cval % 2 ^ bits else 2 ^ (bits - 1) + ch.code

/-- The completion write a command makes once its data are written, or once it has failed (R329). -/
def State.completeChannel (s : State) (num : Nat) : State :=
  match s.channel num with
  | none => s
  | some ch =>
    let k := ch.cmd
    if ch.status ≠ 1 || !(ch.code ≠ 0 || ch.moved k) then s
    else match k.ckind with
      | 0 => s.finishChannel num ch
      | 1 =>
        let a := localOf (capCursor k.cmpl.bits)
        match s.chanCheck ch.colour (num / 16) k.cmpl a 8 with
        | some c => s.endChannel num 4 (failureOf c)
        | none =>
          match s.chanPages num a 8 with
          | .waits s1 => s1
          | .failed s1 => s1.endChannel num 4 3
          | .ready => (s.storeNum a 8 (ch.value k 64)).finishChannel num ch
      | 2 =>
        if ch.written then s.finishChannel num ch
        else match s.invoker ch with
          | .saved _ => s
          | .gone => s.endChannel num 4 15
          | .here c n b =>
            let word := k.cvoff / 4
            if ch.queued then s
            else if b.badBits.contains word then s.raiseHalt b.env.top (.copy (num / 16)) 69 0 0 0 0
            else if b.isFull word then
              let q : FeWaiter := { word, uid := 2 ^ 64 + num, lane := 0, op := .channel num (BitVec.ofNat 32 (ch.value k 32)) }
              (s.setChannel num { ch with queued := true }).setBlock c n { b with fe := b.fe ++ [q] }
            else
              (((s.setBlock c n ((b.padPut (4 * word) 4 (ch.value k 32)).setFull word true)).feChanged c n word)).finishChannel
                num ch
      | _ =>
        if ch.code ≠ 0 then s.finishChannel num ch
        else match s.invoker ch with
          | .saved _ => s
          | .gone => s.endChannel num 4 15
          | .here c n b =>
            let u := b.buf k.buf
            if u.held < u.nslot then (s.setBlock c n (b.modBuf k.buf fun u => u.advHead 1)).finishChannel num ch else s

/-! ### Writes held for a saved block (R383) -/

/-- A unit or a completion aimed at a saved block, held by the save engine. -/
def State.holdWrite (s : State) (num : Nat) : State :=
  match s.channel num with
  | none => s
  | some ch =>
    let k := ch.cmd
    match s.invoker ch with
    | .saved a =>
      match kget s.images a with
      | none => s
      | some img =>
        let put (s : State) (h : HeldWrite) : State :=
          { s with images := kset s.images a { img with held := kset img.held num h } }
        let mine := match kget img.held num with | some h => h.inv == ch.inv | none => false
        if ch.status ≠ 1 || mine then s
        else if ch.code = 0 && !ch.moved k then
          if k.dkind = 0 || ch.toSend k || !k.writes || (k.dkind = 2 && ch.slot.isNone) then s
          else match s.nextUnit num ch k with
            | .waits s1 => s1
            | .fails code s1 => s1.failChannel num code
            | .bytes bs _ bad s1 => put s1 ⟨ch.inv, bs, bad, false⟩
        else if k.ckind = 2 || k.ckind = 3 then put s ⟨ch.inv, [], [], true⟩
        else s
    | _ => s

/-- A held write applied once its block stands again, if the command it belongs to still runs (R383). -/
def State.applyHeld (s : State) (num : Nat) (h : HeldWrite) : State :=
  match s.channel num with
  | none => s
  | some ch =>
    if ch.status ≠ 1 || ch.inv ≠ h.inv then s
    else if h.completion then s.completeChannel num
    else s.putUnit num ch ch.cmd h.bytes [] h.bad

/-! ### Groups that end (R328, R338), and the halt line (R330) -/

/-- A cancellation from a member elsewhere ends the member here with code 13 (R328). -/
def State.groupCancelled (s : State) (colour gid : Nat) : State :=
  match s.member colour gid with
  | some (num, _) => s.failChannel num 13
  | none => s

/-- Whether a member waits for another one's contribution. -/
def State.waitsGroup (s : State) (ch : Channel) : Bool :=
  let k := ch.cmd
  ch.status == 1 && ch.code == 0 && k.collective && k.writes && !ch.toSend k && ch.done < k.total
    && ch.unit.isNone && (s.resultBytes ch k).any (·.isNone)

/-- A member that has waited 500 µs for another's contribution ends with code 11, and aborts the group (R338). -/
def State.groupTimeout (s : State) (num : Nat) : State :=
  match s.channel num with
  | none => s
  | some ch =>
    if s.waitsGroup ch && ch.since + 500 * microsecond ≤ s.now (groupDie (num / 16)) then
      (s.sendControl ch 11).failChannel num 11
    else s

/-- A channel of a halted partition stopped: it ends failed with code 14, and its stop record carries its handle and
DONE (R330, R361). -/
def State.stopChannel (s : State) (num : Nat) : State :=
  match s.channel num with
  | none => s
  | some ch =>
    match kget s.halts ch.context, kget s.regions ch.context with
    | some h, some r =>
      if ch.status ≠ 1 || !h.stopped.contains (.copy (num / 16)) then s
      else (s.endChannel num 4 14).stopRecord h r ch.context (.copy (num / 16)) ch.colour 1 (handleWord num ch.inv).toNat ch.done
    | _, _ => s

/-! ### sr.chmap (R336) and buffers in use (R287) -/

/-- sr.chmap. -/
def State.chmap (s : State) (core : Nat) (b : Block) : Dword :=
  BitVec.ofNat 64 ((ownedChannels core b).map fun c =>
    2 ^ c + if s.busy (16 * groupOf core + c) then 2 ^ (16 + c) else 0).sum

/-- Whether a running command of DKIND 2 or CKIND 3 names a buffer of a block (R287). -/
def State.bufferUsed (s : State) (b : Block) (n : Nat) : Bool :=
  s.channels.any fun e =>
    let k := e.2.cmd
    e.2.status == 1 && e.2.grid == b.grid && e.2.index == b.index && k.buf == n && (k.dkind == 2 || k.ckind == 3)

/-! ### The meanings -/

def execInvk (f : VF) (s : State) := issue (Instr.invk f).view (encode (.invk f)) (invkBody (f.args .invk false)) false s
def execChstat (f : VF) (s : State) :=
  issue (Instr.chstat f).view (encode (.chstat f)) (chstatBody (f.args .chstat false) false) false s
def execChwait (f : VF) (s : State) :=
  issue (Instr.chwait f).view (encode (.chwait f)) (chstatBody (f.args .chwait false) true) false s
def execChcan (f : VF) (s : State) :=
  issue (Instr.chcan f).view (encode (.chcan f)) (chcanBody (f.args .chcan false)) false s
def execCbseal (f : VF) (s : State) :=
  issue (Instr.cbseal f).view (encode (.cbseal f)) (cbsealBody (f.args .cbseal false)) false s
def execCbchk (f : VF) (s : State) :=
  issue (Instr.cbchk f).view (encode (.cbchk f)) (cbchkBody (f.args .cbchk false)) false s

def execChannelUnitTransfer (group chan : Nat) (s : State) : Host.Outcome State Fault Refusal :=
  .next ((s.moveUnit (16 * group + chan)).servedBy group chan)
def execCommandCompletionWrite (group chan : Nat) (s : State) : Host.Outcome State Fault Refusal :=
  .next (s.completeChannel (16 * group + chan))
def execHeldChannelWrite (group chan : Nat) (s : State) : Host.Outcome State Fault Refusal :=
  .next (s.holdWrite (16 * group + chan))
def execCollectiveCancellation (colour gid : Nat) (s : State) : Host.Outcome State Fault Refusal :=
  .next (s.groupCancelled colour gid)
def execGroupTimeout (group chan : Nat) (s : State) : Host.Outcome State Fault Refusal :=
  .next (s.groupTimeout (16 * group + chan))
def execChannelHaltStop (group chan : Nat) (s : State) : Host.Outcome State Fault Refusal :=
  .next (s.stopChannel (16 * group + chan))

end Sys2Proof.Machine
end

