-- ==== Sys2Proof/Machine/Regions.lean ====
section
/-!
DEFINITION. Region control blocks (R389 to R391), code objects and launch records (R392, R393), the refusal of a launch
(R394), and the acceptance of a grid with its audit plan (R395, R457 to R460).
-/

namespace Sys2Proof.Machine

/-! ### Region control blocks (R389) -/

structure Rcb where
  cap : Cap
  num : Nat
  colour : Nat
  depth : Nat
  ovr : Nat
  parent : Cap
  part : NSet
  buda : Nat
  budb : Nat
  sched : Nat
  mode : Nat
  trape : Nat
  emue : Nat
  backing : Cap
  savea : Cap
  emua : Cap
  /-- every reserved bit is zero, and every given field within its range -/
  clean : Bool
deriving DecidableEq, Repr

def Rcb.gives (r : Rcb) (k : Nat) : Bool := r.ovr.testBit k

/-- The numbers of the set bits among the `n` low ones, rising. -/
def bitsOf (n x : Nat) : NSet := (List.range n).filter x.testBit

/-- Check 7 to 11 on memory that the machine's own agents keep: local HBM, in granules of colour 0 with the capability's
class (R389). -/
def State.systemAt (s : State) (c : Cap) (a n : Nat) : Bool :=
  !s.isRemote a && rangeOf (localOf a) == .hbm
    && (granulesOf (localOf a) n).all fun k => (granuleCheck (s.granuleNo k) ⟨0, none⟩ 0 (capClass c.bits)).isNone

/-- Whether a range lies within a capability's bounds. -/
def Cap.covers (c : Cap) (a n : Nat) : Bool := capBase c.bits ≤ a && (a + n : Nat) ≤ capTop c.bits

/-- The 256 bytes of an RCB read through its capability, which must be of the region's colour (R389). -/
def State.readRcb (s : State) (c : Cap) : Option Rcb :=
  let a := capCursor c.bits
  if !c.tag || capOtype c.bits ≠ 5 || !holds (capGrants c.bits) permLoad || a % 256 ≠ 0 || !c.covers a 256
      || !s.systemAt c a 256 then none
  else
    let b := localOf a
    let bs := s.bytesAt b 256
    let w (o : Nat) : Nat := numIn bs o 8
    let cap (o : Nat) : Cap := s.capAt (b + o)
    let ovr := w 8
    let given (k : Nat) (ok : Bool) : Bool := !ovr.testBit k || ok
    let r : Rcb :=
      { cap := c, num := field (w 0) 0 32, colour := field (w 0) 32 8, depth := field (w 0) 40 3, ovr,
        parent := cap 16, part := bitsOf 192 (numIn bs 32 24), buda := w 56, budb := w 64, sched := w 72, mode := w 80,
        trape := w 88, emue := w 96, backing := cap 112, savea := cap 128, emua := cap 144,
        clean := w 0 / 2 ^ 43 == 0 && ovr / 2 ^ 17 == 0 && w 56 / 2 ^ 36 == 0 && w 64 / 2 ^ 44 == 0
          && field (w 72) 4 12 == 0 && w 72 / 2 ^ 48 == 0 && field (w 80) 9 7 == 0 && field (w 80) 24 8 == 0 && w 80 / 2 ^ 40 == 0
          && w 88 / 2 ^ 33 == 0 && w 96 / 2 ^ 33 == 0 && w 104 == 0 && numIn bs 160 96 == 0
          && field (w 0) 32 8 != 0
          && given 0 (1 ≤ field (w 56) 0 8 && field (w 56) 0 8 ≤ 192 && 1 ≤ field (w 56) 8 13
              && field (w 56) 8 13 ≤ 6144 && field (w 56) 21 15 ≤ 24576)
          && given 9 (field (w 80) 4 5 ≤ 16) }
    if r.colour = capColour c.bits then some r else none

/-- The RCBs on the path from a region to its top, the region's first (R389). -/
def State.readPath (s : State) : Nat → Cap → Option (List Rcb)
  | 0, _ => none
  | n + 1, c =>
    match s.readRcb c with
    | none => none
    | some r => if r.depth = 0 then some [r] else (s.readPath n r.parent).map (r :: ·)

/-- The nearest RCB on a path that gives a field (R390). -/
def giver (path : List Rcb) (k : Nat) : Option Rcb := path.find? fun r => r.gives k

def given (path : List Rcb) (k : Nat) (f : Rcb → Nat) : Nat := match giver path k with | some r => f r | none => 0

/-- The effective store-buffer depth code. -/
def depthCode (path : List Rcb) : Nat := given path 1 fun r => field r.budb 42 2

/-- A capability field that an RCB gives: tagged, unsealed and of a colour it may have. -/
def capFieldOk (r : Rcb) (k : Nat) (c : Cap) (mayBeNull : Bool) (colours : List Nat) : Bool :=
  !r.gives k || (mayBeNull && c == Cap.null) || (c.tag && capOtype c.bits == 0 && colours.contains (capColour c.bits))

/-- Whether a capability reaches only class-2 granules of a colour (R455). -/
def State.overSealed (s : State) (c : Cap) (colour : Nat) : Bool :=
  let lo : Int := (s.devid * 2 ^ 48 : Nat)
  c == Cap.null || (lo ≤ capBase c.bits && capTop c.bits ≤ lo + 0x6000000000 &&
    (granulesOf (capBase c.bits - lo).toNat (capTop c.bits - capBase c.bits).toNat).all fun n =>
      let g := s.granuleNo n
      g.state == 1 && g.owner == colour && g.cls == 2)

/-- Whether the areas that an RCB gives may serve its colour: those of a confidential one lie in class-2 granules of it
(R455). -/
def State.areasSealed (s : State) (r : Rcb) : Bool :=
  !s.confidential r.colour ||
    ((!r.gives 14 || s.overSealed r.backing r.colour) && (!r.gives 15 || s.overSealed r.savea r.colour)
      && (!r.gives 16 || s.overSealed r.emua r.colour))

/-- Whether the path of a region is valid (R391). -/
def State.pathValid (s : State) : List Rcb → Bool
  | [] => false
  | r :: rest =>
    let own := r.clean && r.depth ≤ 7 && capFieldOk r 14 r.backing false [r.colour]
      && capFieldOk r 15 r.savea false [if s.confidential r.colour then r.colour else 0] && capFieldOk r 16 r.emua true [r.colour] && s.areasSealed r
    match rest with
    | [] =>
      own && r.depth == 0 && r.ovr % 2 ^ 17 == 2 ^ 17 - 1 && r.parent == Cap.null && !r.part.isEmpty
        && r.part.all (fun c => !s.product.off.contains (groupOf c)) && depthCode [r] != 3
    | p :: _ => own && r.depth == p.depth + 1 && r.colour == p.colour && r.part.isEmpty && depthCode (r :: rest) != 3
        && s.pathValid rest

/-- The effective budget of the first region of a path (R390). -/
def budgetOf (path : List Rcb) : Budget :=
  let a := given path 0 Rcb.buda
  let b := given path 1 Rcb.budb
  { cores := field a 0 8, waves := field a 8 13, tiles := field a 21 15, units := field b 0 21, chunks := field b 21 21 }

/-- A handler entry. -/
def entryOf (x : Nat) : Option IAddr := if x.testBit 32 then some (BitVec.ofNat 32 x) else none

/-- The effective fields of the first region of a path (R390). -/
def envOf (path : List Rcb) : Env :=
  let bit (k n : Nat) : Bool := (given path k Rcb.mode).testBit n
  let capOf (k : Nat) (f : Rcb → Cap) : Cap := match giver path k with | some r => f r | none => Cap.null
  { region := match path with | r :: _ => r.num | [] => 0
    top := match path.getLast? with | some r => r.num | none => 0
    partition := match path.getLast? with | some r => r.part | none => []
    colour := match path with | r :: _ => r.colour | [] => 0
    checked := bit 5 0, stallCheck := bit 6 1, localCap := bit 7 2, codeOffset := bit 8 3
    audit := given path 9 fun r => field r.mode 4 5
    feat := path.foldl (fun m r => if r.gives 10 then m &&& BitVec.ofNat 16 (field r.mode 16 16) else m) (BitVec.allOnes 16)
    domain := given path 11 fun r => field r.mode 32 8
    trapEntry := entryOf (given path 12 Rcb.trape), emuEntry := entryOf (given path 13 Rcb.emue)
    backing := capOf 14 Rcb.backing, emuArea := capOf 16 Rcb.emua
    sbDepth := match depthCode path with | 0 => 16 | 1 => 32 | _ => 64 }

/-- A region as its path gives it, with what the distributor holds of it already. -/
def regionOf (old : Option Region) (path : List Rcb) : Region :=
  let base : Region :=
    { env := envOf path
      parent := match path with | _ :: p :: _ => some p.num | _ => none
      depth := match path with | r :: _ => r.depth | [] => 0
      rcb := match path with | r :: _ => r.cap | [] => Cap.null
      budget := budgetOf path
      prio := given path 2 fun r => field r.sched 0 4
      ownPrio := match path with | r :: _ => r.gives 2 | [] => false
      prioSet := none
      slice := given path 3 fun r => field r.sched 16 16
      window := given path 4 fun r => field r.sched 32 16
      savea := match giver path 15 with | some r => r.savea | none => Cap.null
      sliceAt := none, signal := [], why := 0, client := none, answer := none, image := none, restore := false,
      refused := false }
  match old with
  | none => base
  | some r => { base with prioSet := r.prioSet, sliceAt := r.sliceAt, signal := r.signal, why := r.why, client := r.client,
                          answer := r.answer, image := r.image, restore := r.restore, refused := r.refused }

/-- The distributor's record of every region on a path, read afresh (R391). -/
def State.noteRegions (s : State) : List Rcb → State
  | [] => s
  | r :: rest => (State.noteRegions s rest |> fun s =>
      { s with regions := kset s.regions r.num (regionOf (kget s.regions r.num) (r :: rest)) })

/-- The effective priority of a region: the nearest setting or SCHED priority on its path (R390, R391). The first number
bounds the path. -/
def State.priorityFrom (s : State) : Nat → Nat → Nat
  | 0, _ => 0
  | n + 1, r =>
    match kget s.regions r with
    | none => 0
    | some x =>
      match x.prioSet with
      | some p => p
      | none =>
        if x.ownPrio then x.prio
        else match x.parent with
          | some p => if (kget s.regions p).isSome then s.priorityFrom n p else x.prio
          | none => x.prio

def State.priority (s : State) (r : Nat) : Nat := s.priorityFrom 8 r

/-! ### Code objects (R392) -/

/-- The stamp of every code object that runs on this part (R432). -/
def devHash : Nat := 0x7A482E11C03D9B564F02A817E6D43C95

/-- What a code object's header and one kernel descriptor say. -/
structure CodeObject where
  base : Nat
  kernels : Nat
  stamp : Nat
  kernel : Kernel
deriving DecidableEq, Repr

/-- A kernel descriptor's 64 bytes; `none` where it breaks its limits. -/
def kernelOf (bs : List Byte) : Option Kernel :=
  let shape := numIn bs 8 8
  let mstr := numIn bs 4 4
  let args := numIn bs 16 4
  let k : Kernel :=
    { entry := BitVec.ofNat 32 (numIn bs 0 4), mstream := if mstr.testBit 8 then some (mstr % 256) else none,
      waves := field shape 0 5 + 1, cluster := field shape 5 3 + 1, persistent := shape.testBit 8,
      scratch := field shape 32 21, tiles := field shape 53 8, args, audd := numIn bs 24 8 }
  if mstr / 2 ^ 9 ≠ 0 || field shape 9 23 ≠ 0 || shape / 2 ^ 61 ≠ 0 || k.scratch % 128 ≠ 0 || 128 < k.tiles
      || args % 16 ≠ 0 || 4096 < args || numIn bs 20 4 ≠ 0 || numIn bs 32 32 ≠ 0 then none else some k

/-- Whether `n` bytes at an offset of a code object lie within its capability and in local HBM. -/
def State.inObject (s : State) (c : Cap) (off n : Nat) : Bool :=
  let a := capCursor c.bits + off
  c.covers a n && !s.isRemote a && rangeOf (localOf a) == .hbm && localOf a + n ≤ 0x6000000000

/-- The header's kernel count and stamp, or `none` where the header or a table breaks its limits. -/
def State.objectHeader (s : State) (c : Cap) : Option (Nat × Nat) :=
  if !s.inObject c 0 256 then none
  else
    let b := localOf (capCursor c.bits)
    let bs := s.bytesAt b 256
    let ver := numIn bs 0 8
    let n := field ver 16 16
    let segt := numIn bs 32 8
    let livt := numIn bs 40 8
    let kdir := numIn bs 48 8
    if ver % 65536 ≠ 1 || n = 0 || 256 < n || ver / 2 ^ 32 ≠ 0 || numIn bs 8 8 ≠ 0 || livt / 2 ^ 56 ≠ 0
        || segt % 64 ≠ 0 || livt % 2 ^ 40 % 64 ≠ 0 || kdir % 64 ≠ 0 || numIn bs 72 184 ≠ 0
        || !s.inObject c segt 4096 || !s.inObject c (livt % 2 ^ 40) (64 * field livt 40 16)
        || !s.inObject c kdir (64 * n) then none
    else some (n, numIn bs 16 16)

/-- The descriptor of kernel `i`. -/
def State.kernelAt (s : State) (c : Cap) (i : Nat) : Option Kernel :=
  let b := localOf (capCursor c.bits)
  match kernelOf (s.bytesAt (b + s.numAt (b + 48) 8 + 64 * i) 64) with
  | some k => if k.audd = 0 || s.inObject c k.audd 32 then some k else none
  | none => none

/-! ### Fit (R379, R394, R398) -/

/-- The resources of some blocks: cores, waves, tiles, scratchpad units, chunks. -/
def Budget.holds (b n : Budget) : Bool :=
  n.cores ≤ b.cores && n.waves ≤ b.waves && n.tiles ≤ b.tiles && n.units ≤ b.units && n.chunks ≤ b.chunks

/-- What `n` blocks of a kernel on `c` cores need. -/
def Kernel.need (k : Kernel) (n c : Nat) : Budget :=
  { cores := c, waves := n * k.waves, tiles := n * k.tiles, units := n * ((k.scratch + 255) / 256),
    chunks := n * 32 * k.waves }

/-- How many blocks of a kernel an empty core holds. -/
def Kernel.perCore (k : Kernel) : Nat :=
  let spad := (k.scratch + 255) / 256
  min (min 8 (32 / k.waves)) (min (if spad = 0 then 8 else 6144 / spad) (if k.tiles = 0 then 8 else 128 / k.tiles))

/-- The cores of a partition in each core group. -/
def groupCounts (partition : List Nat) : List Nat :=
  (List.range 24).map fun g => (partition.filter fun c => groupOf c == g).length

/-- The clusters that an empty core group with `m` cores holds, each with its blocks on distinct cores. -/
def Kernel.groupClusters (k : Kernel) (m : Nat) : Nat :=
  ((List.range (8 * m + 1)).filter fun t => t * k.cluster ≤ m * min k.perCore t).foldl max 0

/-- The most clusters on `n` cores, by `n`, when a further core group with `m` cores joins those counted in `most`. -/
def Kernel.withGroup (k : Kernel) (most : List Nat) (m : Nat) : List Nat :=
  let own := (List.range (m + 1)).map k.groupClusters
  (List.range (most.length + m)).map fun n =>
    ((List.range (m + 1)).map fun c => if c ≤ n && n - c < most.length then most.getD (n - c) 0 + own.getD c 0 else 0).foldl max 0

/-- The fewest cores of an empty partition that hold a persistent grid whole, each cluster in one core group (R400, R401). -/
def Kernel.fewestCores (k : Kernel) (count : Nat) (partition : List Nat) : Option Nat :=
  (((groupCounts partition).filter (· != 0)).foldl k.withGroup [0]).findIdx? fun n => count ≤ n * k.cluster

/-- The cores that some blocks of a kernel take in an empty partition, if they fit there at all: those of one cluster, or of a
persistent grid. -/
def Kernel.coresFor (k : Kernel) (count : Nat) (partition : List Nat) : Option Nat :=
  if k.perCore = 0 then none
  else if k.persistent then k.fewestCores count partition
  else if (groupCounts partition).any fun m => k.cluster ≤ m then some k.cluster
  else none

/-- Whether some blocks of a kernel fit in an empty partition and the budgets (R394, code 7). -/
def Kernel.fits (k : Kernel) (count : Nat) (path : List Rcb) : Bool :=
  let blocks := if k.persistent then count else k.cluster
  match k.coresFor count (envOf path).partition with
  | none => false
  | some cores => (List.range path.length).all fun i => (budgetOf (path.drop i)).holds (k.need blocks cores)

/-- W at its largest for a region's budget and partition (R379). -/
def largestImage (b : Budget) (partition : List Nat) : Nat :=
  let p := min b.cores partition.length
  let wm := min (min b.waves (32 * p)) (b.chunks / 32)
  let tm := min b.tiles (128 * p)
  let sm := min (256 * b.units) (1572864 * p)
  let bm := min (8 * p) wm
  256 + 2568 * bm + sm + sm / 32 + 16384 * tm + 160960 * wm

/-- Code 8 of R394. -/
def areasOk (path : List Rcb) : Bool :=
  let env := envOf path
  let savea := (match giver path 15 with | some r => r.savea | none => Cap.null).bits
  (capCursor savea + largestImage (budgetOf path) env.partition : Nat) ≤ capTop savea
    && capBase env.backing.bits + (env.partition.length * 32 * 98304 : Nat) ≤ capTop env.backing.bits

/-! ### Launch records (R393, R394) -/

/-- A launch record that is not refused. -/
structure Accepted where
  kidx : Nat
  count : Nat
  code : Nat
  kernel : Kernel
  path : List Rcb
  args : Cap
deriving DecidableEq, Repr

/-- Who launches: a queue of a colour, or a wave's region and its launch (R394, R396). -/
inductive Launcher where
  | queue (colour : Nat)
  | wave (region launch : Nat)
deriving DecidableEq, Repr

/-- The compute die of the home distributor (R28). -/
def homeDie (partition : List Nat) : Nat := dieOf (partition.headD 0)

/-- Pending-grid entries in use at a home distributor (R397). -/
def State.pendingGrids (s : State) (home : Nat) : Nat :=
  (s.grids.filter fun e => e.2.next < e.2.count
    && match kget s.launches e.2.launch with | some l => l.home == home | none => false).length

/-- Whether the pending-grid list of a home distributor is full (R397). -/
def State.listFull (s : State) (home : Nat) : Bool := decide (256 ≤ s.pendingGrids home)

/-- Whether an RCB's capability holds the colour that check 4 asks of its reader: the queue's for the command processor; a wave's
spawn names a region of its own colour (R389). -/
def Launcher.mayRead : Launcher → Cap → Bool
  | .queue colour, c => capColour c.bits == colour
  | .wave _ _, _ => true

/-- The counter of the launch that a SPAWN adds to, and whether its home distributor's list is full (R394, R397). A LAUNCH that finds the
list full waits. -/
def State.treeOf (s : State) : Launcher → Nat × Bool
  | .wave _ l => match kget s.launches l with | some x => (x.counter, s.listFull x.home) | none => (0, false)
  | .queue _ => (0, false)

/-- Whether a wave launches into a region that is not its own and not below it (R394). -/
def State.launchOutside (s : State) (who : Launcher) (target : Nat) : Bool :=
  match who with
  | .wave r _ => !s.within target r
  | .queue _ => false

/-- A launch record's bytes and the tags of its capabilities, refused with a code of R394 or accepted. -/
def State.judge (s : State) (who : Launcher) (bs : List Byte) (ts : List Bool) : Except Nat Accepted :=
  let kidx := numIn bs 0 2
  let count := numIn bs 8 4
  let entry := capIn bs 16 (ts.getD 1 false)
  let rcb := capIn bs 32 (ts.getD 2 false)
  let args := capIn bs 48 (ts.getD 3 false)
  if numIn bs 2 6 ≠ 0 || numIn bs 12 4 ≠ 0 || numIn bs 64 64 ≠ 0 || count = 0 then .error 1
  else if !entry.tag || capOtype entry.bits ≠ 2 || !holds (capGrants entry.bits) permExec
      || capColour entry.bits ≠ capColour rcb.bits then .error 2
  else match s.objectHeader entry with
    | none => .error 3
    | some (kernels, stamp) =>
      match if kidx < kernels then (s.kernelAt entry kidx).map some else some none with
      | none => .error 3
      | some none => .error 1
      | some (some k) =>
        if count % k.cluster ≠ 0 then .error 1
        else if stamp ≠ devHash then .error 4
        else match s.readPath 8 rcb with
          | none => .error 5
          | some path =>
            if !s.pathValid path || !who.mayRead rcb then .error 5
            else
              let s1 := s.noteRegions path
              let env := envOf path
              let (counter, full) := s.treeOf who
              if s1.launchOutside who env.region then .error 6
              else if !k.fits count path then .error 7
              else if !areasOk path then .error 8
              else if !(args.tag && capOtype args.bits = 0 && holds (capGrants args.bits) permLoad
                  && capColour args.bits = env.colour && args.covers (capCursor args.bits) k.args) then .error 9
              else if full then .error 10
              else if 2 ^ 40 - 1 < counter + count then .error 11
              else .ok { kidx, count, code := localOf (capCursor entry.bits), kernel := k, path, args }

/-! ### Audit plans (R457 to R460) -/

/-- An argument slot's capability. -/
def State.argSlot (s : State) (args : Cap) (n : Nat) : Cap := s.capAt (localOf (capCursor args.bits) + 16 * n)

/-- Two ranges of capabilities that share a byte. -/
def capsOverlap (a b : Cap) : Bool := capBase a.bits < capTop b.bits && capBase b.bits < capTop a.bits

/-- A capability over local HBM only. -/
def State.overHbm (s : State) (c : Cap) : Bool :=
  let lo : Int := (s.devid * 2 ^ 48 : Nat)
  lo ≤ capBase c.bits && capTop c.bits ≤ lo + 0x6000000000

/-- Whether a byte of the part's memory lies in the range of a capability of a list. -/
def State.insideAny (s : State) (cs : List Cap) (a : Nat) : Bool :=
  let va : Int := (s.devid * 2 ^ 48 + a : Nat)
  cs.any fun c => capBase c.bits ≤ va && va < capTop c.bits

/-- The plan of an audited grid, if every condition of R458 holds. -/
def State.auditPlan (s : State) (x : Accepted) : Option AuditPlan :=
  let env := envOf x.path
  let d := s.bytesAt (x.code + x.kernel.audd) 32
  let nin := field (numIn d 0 8) 8 4
  let nout := field (numIn d 0 8) 12 4
  let byteAt (o : Nat) : Nat := numIn d o 1
  let ins := (List.range nin).map fun i => s.argSlot x.args (byteAt (8 + i))
  let outs := (List.range nout).map fun i => (byteAt (16 + i), s.argSlot x.args (byteAt (16 + i)))
  let shadow := (byteAt 23, s.argSlot x.args (byteAt 23))
  let plain (c : Cap) : Bool := c.tag && capOtype c.bits == 0
  let needed := (outs.map fun o => (capLength o.2.bits + 63) / 64 * 64).sum
  let written := outs.map (·.2) ++ [shadow.2]
  let apart : Bool := (List.range written.length).all fun i =>
    let c := written.getD i Cap.null
    ins.all (fun j => !capsOverlap c j)
      && (List.range written.length).all fun j => i == j || !capsOverlap c (written.getD j Cap.null)
  if env.audit ≠ 0 && !x.kernel.persistent && x.kernel.cluster = 1
      && field (numIn d 0 8) 0 8 == 1 && nin ≤ 8 && 1 ≤ nout && nout ≤ 7
      && ins.all (fun c => plain c && capPerms c.bits &&& (permStore ||| permStoreCap ||| permAtomic) == 0)
      && outs.all (fun o => plain o.2 && holds (capGrants o.2.bits) permStore && s.overHbm o.2)
      && plain shadow.2 && holds (capGrants shadow.2.bits) permStore && s.overHbm shadow.2
      && capColour shadow.2.bits == env.colour && needed ≤ capLength shadow.2.bits && apart then
    some { seed := if s.cpmode.testBit 3 then s.sorrel.seed else (Config.drawn s.tick).toNat % 2 ^ 32, k := env.audit - 1,
           outs, shadow, ins, kept := s.mem.filter fun e => s.insideAny ins e.1 }
  else none

/-- The launches whose program has changed a byte of an input range of an audited grid, marked (R458). -/
def State.noteInputs (s : State) : State :=
  s.grids.foldl (fun (s : State) (_, g) => match g.plan with
    | none => s
    | some p =>
      if s.mem.filter (fun e => s.insideAny p.ins e.1) == p.kept then s
      else s.breakAudits g.launch) s

/-- Whether a block is selected (R460). -/
def AuditPlan.selects (p : AuditPlan) (block : Nat) : Bool :=
  (block ^^^ p.seed) * 0x9E3779B1 % 2 ^ 32 < 2 ^ (32 - p.k)

/-! ### Acceptance (R28, R395, R397) -/

/-- A grid enters the home distributor's list under a launch; its regions are recorded as just read. -/
def State.addGrid (s0 : State) (x : Accepted) (launch : Nat) (expanded : Bool) : State :=
  let s := s0.noteRegions x.path
  let plan := if x.kernel.audd = 0 then none else s.auditPlan x
  let s1 := if x.kernel.audd ≠ 0 && plan.isNone then
      { s with sorrel := { s.sorrel with inelig := min 65535 (s.sorrel.inelig + 1) } } else s
  let g : Grid :=
    { launch, region := (envOf x.path).region, order := s1.tick, code := x.code, kidx := x.kidx, kernel := x.kernel,
      count := x.count, next := 0, args := x.args, expanded, waits := false, gen := 0, arrived := [], gone := [], plan }
  { s1 with
    grids := kset s1.grids s1.nextUid g
    nextUid := s1.nextUid + 1
    launches := kmod s1.launches launch fun l => { l with regions := nins l.regions g.region } }

/-- The REGION PRIO settings of some regions dropped, where no launch of the region is in flight any more (R391). -/
def State.dropPriorities (s : State) (regions : NSet) : State :=
  { s with regions := s.regions.map fun ((n, r) : Nat × Region) =>
      (n, if regions.contains n && s.launches.all (fun e => !e.2.regions.contains n) then { r with prioSet := none } else r) }

end Sys2Proof.Machine
end

