-- ==== Sys2Proof/Machine/Sched.lean ====
section
/-!
DEFINITION. What comes next: the fetch of a wave's instruction (R35 to R38), the turns that could come next (R94, R404)
and the passing of time (R5).
-/

namespace Sys2Proof.Machine

/-! ### Readiness (R405) -/

/-- The bits of the instruction at a wave's pc, where one stands there. -/
def State.nextBits (s : State) (core : Nat) (b : Block) (x : IAddr) : Slot :=
  match (s.core core).segment b.code (segOf x), slotAt (offOf x % 64) with
  | some g, some sl => g.slot (offOf x / 64) sl
  | _, _ => 0

/-- The issue port of an operation code: 0 vector, 1 group-wide, 2 memory, 3 control (R404). -/
def portOf (code : Nat) : Nat :=
  if code < 0x100 then 0 else if code < 0x200 then 1 else if code < 0x300 || (0x380 ≤ code && code < 0x3A0) then 2 else 3

/-- The issue port of a wave's next instruction. -/
def State.portAt (s : State) (c : Nat) (w : Wave) : Nat :=
  match s.block c w.bslot with
  | some b => portOf ((s.nextBits c b w.bank.pc).toNat % 1024)
  | none => 3

/-- Whether a wave stands between two instructions, waits of R341 included. -/
def Wave.atBoundary (w : Wave) : Bool :=
  !w.dbgHalt && !w.recorded && match w.waiting with
  | .halted | .outside _ => false
  | _ => true

/-- Whether a wave can have the turn (R358, R360, R364): not stopped by a debugger, which lets a remote
access end first, nor by a record or the halt line. -/
def Wave.runs (w : Wave) : Bool :=
  !w.recorded && w.waiting != .halted &&
  match w.waiting with
  | .miss _ _ _ => false
  | .outside _ => true
  | _ => !w.dbgHalt

/-- Whether a wave in a slot is ready for its port (R405). Whether the gap of R94 has elapsed, and the cycles of R406, are
timing: a free bit. -/
def State.ready (s : State) (c slot : Nat) (w : Wave) : Bool :=
  w.runs && (match w.waiting with | .none | .retry _ | .granted => true | _ => false)
    && !Config.freeBit s.tick (262144 + 32 * c + slot)
    && (match s.block c w.bslot with
      | none => false
      | some b => match parse (s.nextBits c b w.bank.pc) with
        | some i => !scoreboardWait w (s.core c).queue i.view
        | none => true)

/-- A wave issues: each other wave of its core that is ready for the same port is passed over (R405). A step stands for a
cycle of the core (entry 52 of the log). -/
def State.passOver (s : State) (c slot : Nat) : State :=
  match s.wave c slot with
  | none => s
  | some me =>
    let k := s.core c
    let port := s.portAt c me
    if (k.waves.all fun e => e.1 == slot || s.portAt c e.2 != port || !s.ready c e.1 e.2) || !s.ready c slot me then s
    else s.setCore c { k with waves := k.waves.map fun (n, w) =>
      (n, if n == slot || s.portAt c w != port || !s.ready c n w then w
          else { w with passed := w.passed + 1, urgentAt := if w.passed = 63 then s.tick else w.urgentAt }) }

/-! ### Fetch -/

/-- What stands at a wave's pc. -/
inductive Fetched where
  | instr (w : Slot) (s : State)
  | fail (e : Exc) (s : State)
  | retire
deriving DecidableEq, Repr

/-- Fetch a wave's next instruction after the pops of R103. The line is checked and, if need be, fetched again before its
header is used (R35). -/
def fetchWave (s : State) (core slot : Nat) (b : Block) : Fetched :=
  match s.settlePath core slot b.code with
  | .error e => .fail e (s.keepWanted core b.code e)
  | .ok s1 =>
    match s1.wave core slot with
    | none => .retire
    | some w =>
      if w.path = 0 then .retire
      else
        let x := w.bank.pc
        let line := offOf x / 64
        let absent : Exc := .trap 22 0 (BitVec.ofNat 64 (segOf x))
        let misaligned : Exc := .trap 21 0 (x.setWidth 64)
        match slotAt (offOf x % 64), (s1.core core).segment b.code (segOf x) with
        | none, _ => .fail misaligned s1
        | some _, none => .fail absent s1
        | some sl, some g =>
          if g.loading then .fail (.wait (.segment (segOf x))) s1
          else if g.size * 8192 ≤ offOf x then .fail misaligned s1
          else match s1.fetchLine core b.code g line with
            | (false, s2) => .fail (.halt 67 0) s2
            | (true, s2) =>
              match (s2.core core).segment b.code (segOf x) with
              | none => .fail absent s2
              | some g2 =>
                if g2.header line % 256 ≠ segOf x then .fail absent s2
                else if !validBit (g2.header line) sl then .fail misaligned s2
                else .instr (s2.fetched b.code g2 (g2.slot line sl))
                  ({ s2 with loose := !s2.imageKept b.code g2 }.passOver core slot)

/-- The context of an encoding that is no instruction. Its active mask is by the guard all formats have in common, on q for a
group-wide code (R41, R62). -/
def fetchCtx (s : State) (core slot : Nat) (w : Wave) (inst : Slot) : Ctx :=
  { core, slot, bslot := w.bslot, act := guardLanes w (inst.toNat % 1024 / 256 = 1) (Common.parse inst) s.tick, live := w.live, pc := w.bank.pc, inst, handler := w.level != 0,
    tick := s.tick }

/-! ### The passing of time and the choice of the next turn -/

/-- Every die's counter after a step (R5). -/
def advanceTime (s : State) : List Nat :=
  (List.range 10).map fun d => s.time.getD d 0 + Config.elapsed d s.tick

/-- Whether a trap held for a wave is due: it is in wave mode, at a boundary (R341). -/
def Wave.trapDue (w : Wave) : Bool := !w.held.isEmpty && w.level == 0 && w.atBoundary

end Sys2Proof.Machine
end

