-- ==== Sys2Proof/Machine/Traps.lean ====
section
/-!
DEFINITION. The trap and emulation unit (R340 to R362): the instructions of the trap class, the system registers, moves
through windows and by number, tiles emulated and released, and the delivery of asynchronous traps.
-/

namespace Sys2Proof.Machine

/-! ### TRAP and BKPT (R350, R358, R388) -/

/-- TRAP. -/
def trapBody (f : IF) : Body := fun _ _ _ => .fail (.trap 26 0 ((f.imm.setWidth 16).setWidth 64))

/-- Whether a debugger is armed for a block's context (R345). -/
def State.armedFor (s : State) (b : Block) : Bool := s.host.armed.contains b.env.region

/-- Whether a region's save writes a sealed image: an eviction, or any save of a confidential colour (R386, R455). -/
def State.savesSealed (s : State) (r : Region) : Bool := r.why == 3 || (r.why != 0 && s.confidential r.env.colour)

/-- Whether a context is being sealed (R388). -/
def State.sealing (s : State) (region : Nat) : Bool :=
  s.regions.any fun (n, r) => s.savesSealed r && !r.signal.isEmpty && s.covers n r region

/-- BKPT: a debugger halt before it where a debugger is armed, and else code 25; held while the context is sealed. -/
def bkptBody (f : IF) : Body := fun c w s =>
  match s.block c.core c.bslot with
  | none => .next s
  | some b =>
    if !s.armedFor b then .fail (.trap 25 0 ((f.imm.setWidth 16).setWidth 64))
    else if s.sealing b.env.region then
      .stay .none (s.setWave c.core c.slot { w with recorded := true, bkpend := true })
    else
      .stay .none (s.setWave c.core c.slot
        { w.setLevelRegs { w.levelRegs with tpc := c.pc.setWidth 64 } with dbgHalt := true })

/-! ### System registers (R48, R76, R198, R225, R247, R288, R336, R345, R408) -/

/-- The feature mask in force in a block (R66). -/
def featWord (s : State) (b : Block) : Dword :=
  BitVec.ofNat 64 ((if s.product.gradeB then 2 ^ 16 else 0) + b.env.feat.toNat)

/-- A register of unit 0. -/
def sysUnit0 (s : State) (core slot : Nat) (b : Block) (w : Wave) (i : Nat) : Dword :=
  match i with
  | 0 => wstatWord s core slot b w
  | 1 => BitVec.ofNat 64 w.roundMode
  | 2 => w.path.setWidth 64
  | 3 => w.live.setWidth 64
  | 4 => BitVec.ofNat 64 w.bank.ctl.length
  | 5 => BitVec.ofNat 64 w.bank.loops.length
  | 6 => BitVec.ofNat 64 w.chunks.length
  | 7 => w.spills.setWidth 64
  | 8 => (s.core core).parref.setWidth 64
  | 9 => BitVec.ofNat 64 (s.dieTime (dieOf core))
  | 10 => w.nearMap
  | _ => BitVec.ofNat 64 w.nearBase

/-- A register of unit 1. -/
def sysUnit1 (s : State) (b : Block) (w : Wave) (i : Nat) : Dword :=
  match i with
  | 0 => w.capflt
  | 1 => w.capfpc
  | 2 => w.capfva
  | 3 => BitVec.ofNat 64 s.devid
  | 0x10 => BitVec.ofNat 64 (packFields 8 w.unack)
  | 0x11 => BitVec.ofNat 64 b.env.sbDepth
  | 0x12 => w.missrej.setWidth 64
  | 0x20 => w.spflt
  | 0x21 => w.spfpc
  | 0x22 => w.spfoff
  | 0x23 =>
    let n := match kget s.clusters b.cluster with | some k => k.members.length | none => 1
    BitVec.ofNat 64 (b.rank + (n - 1) * 16)
  | 0x24 => BitVec.ofNat 64 b.spSize
  | _ => w.aggmrg.setWidth 64

/-- sr.mstat (R288). DESIGN CHOICE: the PC of a block without a sequencer, whose reset value "Entry" names none, reads 0 (entry 73 of
the log). -/
def mstatWord (b : Block) : Dword :=
  BitVec.ofNat 64 (b.seqr.pc.toNat * 2 ^ 32 + b.seqr.flights.length * 2 ^ 8 + b.seqr.loops.length * 2 ^ 4 + b.seqr.status)

/-- A register of unit 2. -/
def sysUnit2 (b : Block) (i : Nat) : Dword :=
  if i < 0x10 then (b.buf i).cfg
  else if i < 0x20 then BitVec.ofNat 64 ((b.buf (i - 0x10)).head * 2 ^ 32 + (b.buf (i - 0x10)).tail)
  else if i < 0x30 then (b.nbc.getD (i - 0x20) 0).setWidth 64
  else match i with
    | 0x30 => BitVec.ofNat 64 b.seqr.next
    | 0x31 => mstatWord b
    | 0x32 => b.zbflt
    | _ => b.mflt

/-- A register of unit 3 (R345). -/
def sysUnit3 (s : State) (b : Block) (w : Wave) (i : Nat) : Dword :=
  if i < 0x10 then w.levelRegs.word i
  else if i = 0x10 then featWord s b
  else if s.armedFor b then 1 else 0

/-- A register of unit 4 (R336). -/
def sysUnit4 (s : State) (core : Nat) (b : Block) (w : Wave) (i : Nat) : Dword :=
  match i with
  | 0 => s.chmap core b
  | 1 => w.rmtflt
  | 2 => w.rmtfpc
  | _ => w.rmtfva

/-- A register of unit 5 (R408). -/
def sysUnit5 (s : State) (b : Block) (i : Nat) : Dword :=
  let g := kget s.grids b.grid
  let num (f : Grid → Nat) : Dword := match g with | some g => BitVec.ofNat 64 (f g) | none => 0
  match i with
  | 0 => BitVec.ofNat 64 b.index
  | 1 => num (·.count)
  | 2 => num (·.kidx)
  | 3 => BitVec.ofNat 64 (b.env.region + s.priority b.env.region * 2 ^ 32)
  | 4 => num fun g => match kget s.launches g.launch with | some l => l.counter | none => 0
  | _ => num fun g => if g.kernel.persistent then g.gen % 2 ^ 32 else 0

/-- The generator's registers, unit 6 (R170): the key's halves and the counter's. -/
def sysUnit6 (w : Wave) (i : Nat) : Dword :=
  match i with
  | 0 => w.rngK.setWidth 64
  | 1 => (w.rngK >>> 64).setWidth 64
  | 2 => w.rngC.setWidth 64
  | _ => (w.rngC >>> 64).setWidth 64

/-- The value of a system register. -/
def sysRead (s : State) (core slot : Nat) (b : Block) (w : Wave) (n : Nat) : Dword :=
  let i := n % 4096
  match n / 4096 with
  | 0 => sysUnit0 s core slot b w i
  | 1 => sysUnit1 s b w i
  | 2 => sysUnit2 b i
  | 3 => sysUnit3 s b w i
  | 4 => sysUnit4 s core b w i
  | 5 => sysUnit5 s b i
  | _ => sysUnit6 w i

/-- SRD (R350). -/
def srdBody (f : SF) : Body := fun c w s =>
  match s.block c.core c.bslot with
  | none => .next s
  | some b =>
    .next (s.setWave c.core c.slot (c.writeG w f.d.toNat (sysRead s c.core c.slot b w f.sysreg.toNat)))

/-- The bits of a field list that a register holds: reserved bits of a writable register read as zero (R7). -/
def keepBits (fields : List (Nat × Nat)) (x : Dword) : Dword :=
  x &&& BitVec.ofNat 64 ((fields.map fun (lo, n) => (2 ^ n - 1) * 2 ^ lo).sum)

/-- Whether an SWR that enables a buffer breaks its limits (R287). -/
def bufferBad (b : Block) (x : Dword) : Bool :=
  let v := x.toNat
  let nslot := field v 48 8
  let slot := field v 24 20
  let base := field v 0 24
  x.getLsbD 63 && (field v 56 6 != 0 || field v 44 4 != 0 || nslot == 0 || slot % 128 != 0 || slot < 128 || base % 128 != 0
    || b.spSize < base + nslot * slot)

/-- Whether something still names a buffer (R287). -/
def State.bufferBusy (s : State) (b : Block) (n : Nat) : Bool :=
  (b.seqr.flights.any fun f => f.bufs.contains n || (match f.op with | .zst _ _ _ _ (some u) => u == n | _ => false))
    || (b.seqr.queue.any fun d => match d with | .bfree u _ _ => u == n | _ => false)
    || s.bufferUsed b n

/-- SWR (R350). A register of 32 bits ignores the upper half. -/
def swrBody (f : SF) : Body := fun c w s =>
  match s.block c.core c.bslot with
  | none => .next s
  | some b =>
    let x := c.readG w f.a.toNat
    let low : Dword := keepBits [(0, 32)] x
    let va : Dword := keepBits [(0, 56)] x
    let own (w1 : Wave) : Done := .next (s.setWave c.core c.slot w1)
    let i := f.sysreg.toNat % 4096
    match f.sysreg.toNat / 4096 with
    | 0 => own { w with roundMode := field x.toNat 0 2 }
    | 1 =>
      own (match i with
        | 0 => { w with capflt := keepBits [(63, 1), (32, 12), (24, 8), (16, 4), (8, 5), (0, 4)] x }
        | 1 => { w with capfpc := low }
        | 2 => { w with capfva := va }
        | 0x20 => { w with spflt := keepBits [(63, 1), (24, 4), (16, 4), (8, 5), (0, 4)] x }
        | 0x21 => { w with spfpc := low }
        | _ => { w with spfoff := x })
    | 2 =>
      if i < 0x10 then
        -- DESIGN CHOICE: of two refusals that both apply, configuration comes first (entry 73 of the log)
        if bufferBad b x then .fail (.matrixFault 7)
        else if s.bufferBusy b i then .fail (.matrixFault 8)
        else .next (s.setBlock c.core c.bslot
          (b.modBuf i fun _ => { cfg := keepBits [(62, 2), (48, 8), (24, 20), (0, 24)] x, head := 0, tail := 0 }))
      else if i = 0x32 then
        .next (s.setBlock c.core c.bslot { b with zbflt := keepBits [(63, 1), (0, 39)] x })
      else .next (s.setBlock c.core c.bslot { b with mflt := keepBits [(63, 1), (0, 40)] x })
    | 3 => own (w.setLevelRegs { w.levelRegs with tpc := low })
    | 4 =>
      own (match i with
        | 1 => { w with rmtflt := keepBits [(62, 2), (32, 16), (16, 4), (8, 5)] x }
        | 2 => { w with rmtfpc := low }
        | _ => { w with rmtfva := va })
    | _ =>
      own (match i with
        | 0 => { w with rngK := (w.rngK >>> 64).setWidth 64 ++ x }
        | 1 => { w with rngK := x ++ w.rngK.setWidth 64 }
        | 2 => { w with rngC := (w.rngC >>> 64).setWidth 64 ++ x }
        | _ => { w with rngC := x ++ w.rngC.setWidth 64 })

/-! ### MOVW (R351) -/

/-- The state a MOVW reaches: a wave's, in wave mode or at level 1 (R344). -/
structure MovTarget where
  slot : Nat
  wave : Wave
  low : Bool
deriving DecidableEq, Repr

def MovTarget.bank (t : MovTarget) : Bank := if t.low then t.wave.handlers.getD 1 t.wave.base else t.wave.base

def MovTarget.setBank (t : MovTarget) (b : Bank) : Wave :=
  if t.low then { t.wave with handlers := lmod t.wave.handlers 1 fun _ => b } else { t.wave with base := b }

/-- What a MOVW names: a register of a file, or a value. -/
inductive MovPlace where
  | vec (n : Nat) | pred (n : Nat) | grp (n : Nat) | qp (n : Nat)
  | value (x : Dword)
deriving DecidableEq, Repr

/-- What a window names, if a MOVW may name it (R348, R351). -/
def windowPlace (d x : Dword) (cap write : Bool) : Option MovPlace :=
  let v := d.toNat
  let reg := field v 40 10
  let kind := field v 32 2
  if !d.getLsbD 63 then none
  else match field v 60 3 with
    | 1 => if (write && 1016 ≤ reg) || (cap && field v 58 2 ≠ 2) then none else some (.vec reg)
    | 2 => if cap then none else some (if d.getLsbD 27 then .qp reg else .pred reg)
    | 3 => if cap then none else some (.grp reg)
    | 4 => if write || cap then none else some (.value x)
    | 5 => if 1016 ≤ reg then none else some (.vec reg)
    | 7 => if cap || kind = 3 then none else some (if kind = 1 then .vec reg else .grp reg)
    | _ => none

/-- The registers of a vector operand of a MOVW: at level 1 of the wave itself where level 2 names them, and none where they
lie outside the file (R344, R351). -/
def movVec (own : Bool) (level n k : Nat) : Option Bool :=
  if n % k ≠ 0 then none
  else if n + k ≤ 640 then some false
  else if own && level = 2 && 640 ≤ n && n + k ≤ 672 then some true
  else none

/-- The tags of the active lanes of one quad copied to another (R190, R351, R469). -/
def copyTags (touch : BitVec 128 → Bool) (sweep : Bool) (act : Mask) (src : Bank) (sq : Nat) (dst : Bank) (dq : Nat) :
    Bank :=
  let t := src.tagsOf sq &&& act
  let first := (dst.reg (4 * dq)).val
  let b := dst.setTags dq
    (if first.isU then (if t = 0 then 0 else Mask.all) else if first.isA then 0 else (dst.tagsOf dq &&& ~~~act) ||| t)
  if sweep then b.sweepQuad touch act dq else b

/-- The lanes a MOVW's read of vector registers loses to errors, and whether an error halts (R362). -/
def movErrors (act : Mask) (t : MovTarget) (level : Nat) (p : MovPlace) (k : Nat) : Mask × Option Nat :=
  let hit (file n k : Nat) : List RegError :=
    t.wave.errors.filter fun e => e.level = level && e.file = file && n ≤ e.num && e.num < n + k
  match p with
  | .vec n =>
    ((hit 0 n k).foldl (fun m e => if (t.bank.reg e.num).val.isG then m ||| (Mask.one e.lane &&& act) else m ||| act) 0, none)
  | .pred n => (if (hit 1 n 1).isEmpty then 0 else act, none)
  | .grp n => (0, if (hit 2 n 1).isEmpty then none else some 73)
  | .qp n => (0, if (hit 3 n 1).isEmpty then none else some 73)
  | .value _ => (0, none)

/-- A value moved into the handler's bank. -/
def movRead (c : Ctx) (w : Wave) (t : MovTarget) (p : MovPlace) (d k : Nat) (cap : Bool) (s : State) : Wave :=
  let put (lo hi : VVal) (fmt : Nat) : Wave :=
    if k = 2 then w.setBank (w.bank.writePair c.act c.live d lo hi fmt 0) else c.write w d lo fmt
  match p with
  | .vec 1023 =>
    (List.range k).foldl (fun w i => if d = 1023 then w else c.write w (d + i) (.u 0) 0) w
  | .vec n =>
    if d = 1023 then w
    else
      let w1 := (List.range k).foldl (fun w i =>
        let r := t.wave.readIn t.bank (n + i)
        c.write w (d + i) r.val r.fmt) w
      if cap then w1.setBank (copyTags s.touchesRevoked s.sweeper.running c.act t.bank (n / 4) w1.bank (d / 4)) else w1
  | .pred n =>
    let m := t.bank.pred n
    put (.g (Lanes.of fun l => if m.getLsbD l then 1 else 0)) (.u 0) 2
  | .grp n => put (.u (lowWord (t.bank.grp n))) (.u (highWord (t.bank.grp n))) 0
  | .qp n => put (.u (if t.bank.qp n then 1 else 0)) (.u 0) 0
  | .value x => put (.u (lowWord x)) (.u (highWord x)) 0

/-- A value moved out of the handler's bank. -/
def movWrite (c : Ctx) (w : Wave) (t : MovTarget) (p : MovPlace) (a k : Nat) (cap : Bool) (s : State) : Wave :=
  let b := t.bank
  match p with
  | .vec n =>
    let b1 := (List.range k).foldl (fun b i =>
      let r := if a = 1023 then (⟨.u 0, 0⟩ : VReg) else c.readV w (a + i)
      b.write c.act t.wave.live (n + i) r.val r.fmt) b
    t.setBank (if cap && a ≠ 1023 then copyTags s.touchesRevoked s.sweeper.running c.act w.bank (a / 4) b1 (n / 4) else b1)
  | .pred n => t.setBank (b.writePred c.act n (Mask.of fun l => (c.lane w a l).getLsbD 0))
  | .grp n => t.setBank (b.writeGrp n (if k = 2 then c.lane64 w a c.lowest else (c.lane w a c.lowest).setWidth 64))
  | .qp n => t.setBank (b.writeQ n ((c.lane w a c.lowest).getLsbD 0))
  | .value _ => t.wave

/-- What a MOVW reaches: its target and place, or the field of cause 5. -/
def movwReach (x : VArgs) (c : Ctx) (w : Wave) (s : State) : Except Nat (MovTarget × MovPlace) :=
  let write := x.sub % 2 = 1
  let cap := x.sub.testBit 4
  let k := if cap then 4 else tyRegs x.ty
  let numField := if write then 0 else 1
  let fld := if write then x.d else x.a
  let find (i : Nat) : Option (Nat × Wave) :=
    if i = w.wblk then some (c.slot, w) else s.waveOf c.core c.bslot i
  let place (window : Bool) (t : Nat × Wave) (p : MovPlace) : Except Nat (MovTarget × MovPlace) :=
    let own := t.1 = c.slot
    let lower := own && w.level = 2
    match p with
    | .vec n =>
      if window && !write && 1016 ≤ n then (if k = 1 || n = 1023 then .ok (⟨t.1, t.2, false⟩, p) else .error numField)
      else match movVec own w.level n k with
        | some low => .ok (⟨t.1, t.2, low⟩, p)
        | none => .error numField
    | .pred n =>
      let low := window && lower
      if n < (if low then 8 else 96) then .ok (⟨t.1, t.2, low⟩, p) else .error numField
    | .grp n =>
      let low := window && lower
      if n < (if low then 16 else 64) && (window || k = 1 || n % 2 = 0) then .ok (⟨t.1, t.2, low⟩, p) else .error numField
    | .qp n =>
      let low := window && lower
      if n < (if low then 4 else 16) then .ok (⟨t.1, t.2, low⟩, p) else .error numField
    | .value _ => .ok (⟨t.1, t.2, false⟩, p)
  if x.sub % 4 < 2 then
    let r := w.levelRegs
    let d := r.owd.getD (fld - 672) 0
    match windowPlace d (r.owx.getD (fld - 672) 0) cap write with
    | none => .error numField
    | some p =>
      match find (field d.toNat 35 5) with
      | some t => place true t p
      | none => .error numField
  else
    let n := fld + (if x.c = 1023 then 0 else c.low32 w x.c)
    match if x.b = 1023 then some (c.slot, w) else find (c.low32 w x.b) with
    | none => .error 2
    | some t =>
      place false t (match x.sub / 4 % 4 with | 0 => .vec n | 1 => .pred n | 2 => .grp n | _ => .qp n)

/-- MOVW. A spilled register is refilled first (R84). -/
def movwBody (x : VArgs) : Body := fun c w s =>
  let write := x.sub % 2 = 1
  let cap := x.sub.testBit 4
  let k := if cap then 4 else tyRegs x.ty
  match movwReach x c w s with
  | .error fl => .fail (.emu 5 fl)
  | .ok (t, p) =>
    let gone := match p with
      | .vec n => (rangeFrom n k).find? fun r => !t.low && t.wave.spilled.contains r
      | _ => none
    match gone with
    | some r => .stay .scoreboard (s.refill c.core t.slot r)
    | none =>
      let (kills, stop) := if write then (0, none) else movErrors c.act t (if t.low then 1 else 0) p k
      match stop with
      | some code => .fail (.halt code 0)
      | none =>
        if kills &&& c.live ≠ 0 then .stay .scoreboard (s.killLanes c.core c.slot (kills &&& c.live) 0)
        else if write then .next (s.setWave c.core t.slot (movWrite c w t p x.a k cap s))
        else .next (s.setWave c.core c.slot (movRead c w t p x.d k cap s))

/-! ### EMRET and TRET (R352) -/

/-- EMRET and TRET. -/
def returnBody (repeats fails : Bool) : Body := fun c w s =>
  match s.block c.core c.bslot with
  | none => .next s
  | some b =>
    let r := w.levelRegs
    let t : IAddr := r.tpc.setWidth 32
    let k := s.core c.core
    let seq := r.tcause.getLsbD 23
    if fails then .fail (.halt 66 0)
    else
      let x := if repeats || seq || r.tcause.getLsbD 22 then t else k.nextValid b.code t
      if k.xfer b.code x = .misaligned then .fail (.trap 21 0 (x.setWidth 64))
      else
        let s1 := if seq && b.seqr.status = 4 then s.modSeqr c.core c.bslot fun q =>
            { q with status := 2, pc := if repeats then q.pc else k.nextValid b.code q.pc } else s
        .jumped (s1.setWave c.core c.slot (w.leave x))

/-! ### ZEMU (R353, R354) -/

/-- The address within the part of `n` bytes at an offset of a block's emulation area, where R195 lets them be accessed. -/
def State.emuAddr (s : State) (core : Nat) (b : Block) (need off n : Nat) : Option Nat :=
  let a : Int := capBase b.env.emuArea.bits + off
  if (s.check ⟨(s.core core).latch, some (groupOf core)⟩ { need, align := 1, size := n, stored := none }
      b.env.emuArea a).isSome then none
  else if s.isRemote (wrapNat 56 a) || rangeOf (localOf (wrapNat 56 a)) != .hbm then none
  else some (localOf (wrapNat 56 a))

/-- The L1 lines of a core that hold any of `n` bytes, dropped: the part has written them itself. -/
def State.dropLines (s : State) (core a n : Nat) : State :=
  let k := s.core core
  let hit (l : Nat) : Bool := 128 * l < a + n && a < 128 * l + 128
  s.setCore core { k with l1 := k.l1.filter fun e => !hit e.1
                          misses := k.misses.map fun m => if hit m.line then { m with stale := true } else m }

/-- The words of a tile read from its image. -/
def imageWords (bs : List Byte) : KMap Word :=
  (List.range 4096).foldr (fun n m =>
    let x := BitVec.ofNat 32 (numIn bs (4 * n) 4)
    if x = 0 then m else (n, x) :: m) []

/-- The tag that a tag byte of the emulation area gives a tile (R354). Only four codes are ever held (R275): another byte leaves one of
them, which is a free value (entry 73 of the log). -/
def imageTag (tick x : Nat) : Nat :=
  if x = 0 || x = 1 || x = 3 || x = 11 then x else [0, 1, 3, 11].getD (Config.choice tick % 4) 0

/-- ZEMU by its SUB: 0 .MARK, 1 .REL, 2 .QRY. Its accesses come after the wave's own stores. -/
def zemuBody (x : VArgs) : Body := fun c w s =>
  match s.block c.core c.bslot with
  | none => .next s
  | some b =>
    let z := c.low32 w x.a
    let t := b.tile z
    let flying := b.seqr.flights.any fun f => f.tile == z
    let answer (s1 : State) (n : Nat) : Done :=
      match s1.wave c.core c.slot with
      | some w1 => .next (s1.setWave c.core c.slot (c.writeU w1 x.d n))
      | none => .next s1
    if b.nTiles ≤ z then answer s 3
    else if x.sub % 4 = 2 then answer s ((if t.emulated then 2 else if flying then 1 else 0) + 16 * t.tag)
    else if x.sub % 4 = 0 then
      if t.emulated then answer s 2
      else if flying then answer s 1
      else if !s.released w 3 255 then .stay .order s
      else if b.badTiles.contains z then .fail (.halt 70 0)
      else match s.emuAddr c.core b permStore (16384 * z) 16384, s.emuAddr c.core b permStore (2097152 + z) 1 with
        | some a, some a1 =>
          let s1 := (((s.store a t.image).store a1 [BitVec.ofNat 8 t.tag]).dropLines c.core a 16384).dropLines c.core a1 1
          answer (s1.setBlock c.core c.bslot (b.setTile z { t with emulated := true })) 0
        | _, _ => .fail (.halt 75 0)
    else if !t.emulated then answer s 1
    else if !s.released w 3 255 then .stay .order s
    else match s.emuAddr c.core b permLoad (16384 * z) 16384, s.emuAddr c.core b permLoad (2097152 + z) 1 with
      | some a, some a1 =>
        let t1 : Tile := { words := imageWords (s.bytesAt a 16384), tag := imageTag s.tick (s.byte a1).toNat, emulated := false }
        let b1 := b.setTile z t1
        let bad := s.poisoned a 16384 || s.poisoned a1 1
        answer (s.setBlock c.core c.bslot (if bad then { b1 with badTiles := nins b1.badTiles z } else b1)) 0
      | _, _ => .fail (.halt 75 0)

/-! ### Asynchronous traps (R341) -/

/-- A wave's places in the queues of full/empty words, given up: its lanes already completed stay recorded. -/
def State.leaveWords (s : State) (uid : Nat) : State :=
  { s with cores := s.cores.map fun (c, k) =>
      (c, { k with blocks := k.blocks.map fun (n, b) => (n, { b with fe := b.fe.filter fun f => f.uid != uid }) }) }

/-- The oldest trap held for a wave in wave mode, delivered at its boundary. A sequencer's instruction has no lanes: the mask
recorded for it is a free value. -/
def State.deliverHeld (s : State) (core slot : Nat) : State :=
  match s.wave core slot with
  | none => s
  | some w =>
    match s.block core w.bslot, w.held with
    | some b, h :: rest =>
      if w.level ≠ 0 || !w.atBoundary || s.coreStopped core then s
      else
        let none4 : List (Dword × Dword) := [(0, 0), (0, 0), (0, 0), (0, 0)]
        let bits := if h.seq then h.inst else s.nextBits core b w.bank.pc
        let act : Mask := if h.seq then Config.freeWord s.tick slot 0
          else match (parse bits).map Instr.view with
          | some v => (ctxOf s core slot w v bits).act
          | none => 0
        let windows := if h.code = 2 || h.code = 3 || h.code = 7 || h.code = 8 then
            match (parse h.inst).map Instr.view with
            | some (.matrix op f) => matrixWindows s core w.bslot b op f
            | _ => none4
          else none4
        let k := s.core core
        let s1 := s.setCore core { k with reserve := k.reserve.filter (· != slot) }
        let s2 := (s1.setWave core slot { w with held := rest }).leaveWords w.uid
        s2.deliver core slot
          { code := h.code, sub := h.sub, fieldNum := h.fieldNum, seq := h.seq, async := true, info := h.info, inst := bits,
            act, tpc := w.bank.pc, windows, feDone := match w.fe with | some f => f.done | none => 0 }
    | _, _ => s

/-! ### The meanings -/

def execTrap (f : IF) (s : State) := issue (Instr.trap f).view (encode (.trap f)) (trapBody f) false s
def execBkpt (f : IF) (s : State) := issue (Instr.bkpt f).view (encode (.bkpt f)) (bkptBody f) false s
def execMovw (f : VF) (s : State) := issue (Instr.movw f).view (encode (.movw f)) (movwBody (f.args .movw false)) false s
def execEmret (f : VF) (s : State) :=
  issue (Instr.emret f).view (encode (.emret f)) (returnBody false (f.sub.getLsbD 0)) false s
def execTret (f : VF) (s : State) := issue (Instr.tret f).view (encode (.tret f)) (returnBody true false) false s
def execSrd (f : SF) (s : State) := issue (Instr.srd f).view (encode (.srd f)) (srdBody f) false s
def execSwr (f : SF) (s : State) := issue (Instr.swr f).view (encode (.swr f)) (swrBody f) false s
def execZemuMark (f : VF) (s : State) :=
  issue (Instr.zemuMark f).view (encode (.zemuMark f)) (zemuBody (f.args .zemu false)) false s
def execZemuRel (f : VF) (s : State) :=
  issue (Instr.zemuRel f).view (encode (.zemuRel f)) (zemuBody (f.args .zemu false)) false s
def execZemuQry (f : VF) (s : State) :=
  issue (Instr.zemuQry f).view (encode (.zemuQry f)) (zemuBody (f.args .zemu false)) false s

def execAsynchronousTrapDelivery (core slot : Nat) (s : State) : Host.Outcome State Fault Refusal :=
  .next (s.deliverHeld core slot)

end Sys2Proof.Machine
end

