-- ==== Sys2Proof/Machine/Distributor.lean ====
section
/-!
DEFINITION. The distributor (R395 to R407): SPAWN and GBAR, the placement of blocks, clusters and persistent grids, the
world latch (R22 to R24), retirement, time slices and the urgency of waves.
-/

namespace Sys2Proof.Machine

/-! ### Waves and blocks at placement (R242, R274, R283, R402) -/

/-- A wave as it stands at placement (R402). -/
def startWave (uid bslot wblk : Nat) (entry : IAddr) (args : Cap) : Wave :=
  { uid, bslot, wblk, base := (Bank.start entry Mask.all).writeCap 0 args, handlers := [], level1 := TrapRegs.zero,
    level2 := TrapRegs.zero, dead := 0, exited := 0, pois := false, nearBase := 0, nearMap := 0, roundMode := 0,
    spills := 0, spilled := [], unfenced := [], unsent := [], deep := [], lastIssue := 0, sb := [], nextSerial := 0, placed := 0, fences := [], unack := [0, 0, 0, 0, 0, 0, 0, 0],
    missrej := 0, aggmrg := 0, capflt := 0, capfpc := 0, capfva := 0, spflt := 0, spfpc := 0, spfoff := 0, rmtflt := 0,
    rmtfpc := 0, rmtfva := 0, rngK := 0, rngC := 0, producers := [], early := [], waiting := .none, fe := none,
    barWait := none, gbarWait := none, held := [], errors := [], lines := [none, none, none], urgent := false,
    passed := 0, urgentAt := 0, dbgHalt := false, recorded := false, liveEntry := none, bkpend := false, age := uid }

/-- A sequencer that has not started (R283, R284, R288). -/
def startSequencer (pc : IAddr) (status : Nat) : Sequencer :=
  { pc, loops := [], next := 1, last := 0, status, flights := [], queue := [], marks := List.replicate 16 0, line := none,
    trap := none, error := false }

/-- A block as it stands at placement (R242, R274, R283). -/
def startBlock (grid index rank cluster waves code : Nat) (entry : IAddr) (env : Env) (spBase spSize nTiles : Nat)
    (sq : Sequencer) : Block :=
  { grid, index, rank, cluster, waves, code, entry, env, spBase, spSize, spad := [], full := [], badWords := [],
    badBits := [], fe := [], registry := [], barPhase := 0, barDone := [], gone := [], nTiles, tiles := [],
    badTiles := [], bufs := List.replicate 16 Buf.zero, nbc := List.replicate 16 0, zbflt := 0, mflt := 0, seqr := sq,
    retired := false, digest := none, excluded := false, audit := none, wrote := [] }

/-! ### What stands on a core and what a region holds (R390, R398) -/

def Kernel.units (k : Kernel) : Nat := (k.scratch + 255) / 256

/-- The lowest start of a free range of scratchpad, at a multiple of 256 bytes (R398). -/
def Core.spadRoom (k : Core) (size : Nat) : Option Nat :=
  let held := kvals k.blocks
  let starts := nins (held.foldl (fun m b => nins m ((b.spBase + b.spSize + 255) / 256 * 256)) []) 0
  starts.find? fun a => a + size ≤ 1572864 && held.all fun b => b.spSize = 0 || a + size ≤ b.spBase || b.spBase + b.spSize ≤ a

def Core.tilesUsed (k : Core) : Nat := ((kvals k.blocks).map (·.nTiles)).sum

def Core.chunksUsed (k : Core) : Nat := ((kvals k.waves).map fun w => w.chunks.length).sum

/-- The segments that must be resident before a block of a kernel starts (R283, R342, R402). -/
def startSegments (k : Kernel) (e : Env) : NSet :=
  let m := nins [] (segOf k.entry)
  let m := match e.trapEntry with | some x => nins m (segOf x) | none => m
  let m := match e.emuEntry with | some x => nins m (segOf x) | none => m
  match k.mstream with | some x => nins m x | none => m

/-- Drop-pending segments of other code objects that no PC stands in (R398). -/
def Core.idleSegment (k : Core) (code : Nat) (g : Segment) : Bool :=
  g.code != code && g.dropPending && !g.loading && !k.pcIn g.code g.num && !k.seqIn g.code g.num

/-- The segments of a list that a core does not hold, and the slots they take. -/
def State.slotsNeeded (s : State) (k : Core) (code : Nat) (segs : NSet) : Nat :=
  ((segs.filter fun n => (k.segment code n).isNone).map fun n => (s.segEntry code n).1).sum

/-- Whether the instruction store can take a block's segments (R398). -/
def State.segmentRoom (s : State) (k : Core) (code : Nat) (segs : NSet) : Bool :=
  s.slotsNeeded k code segs ≤
    64 - ((k.segs.filter fun g => !k.idleSegment code g).map fun g => g.slots.length).sum

/-- A segment made resident, its slots taken and its image loaded (R97, R402). A load that a SEGLD has started goes on, with its
own order after stores (R101), and the block's waves wait for it. -/
def State.bringSegment (s : State) (c code num : Nat) : State :=
  let k := s.core c
  if (k.segment code num).isSome then s.cancelDrop c code num
  else
    let (size, _) := s.segEntry code num
    if size = 0 then s
    else
      let k1 := if k.freeSlots.length < size then { k with segs := k.segs.filter fun g => !k.idleSegment code g } else k
      match takeSlots k1 size with
      | none => s
      | some slots =>
        s.setCore c { k1 with segs := k1.segs ++
          [{ code, num, size, slots, loading := false, dropPending := false, bytes := s.segmentBytes code num size,
             after := (0, 0), changed := false }] }

/-- What a region and its descendants hold on the cores (R390). -/
def State.held (s : State) (region : Nat) : Budget :=
  s.cores.foldl (fun n (_, k) =>
    let bs := k.blocks.filter fun e => s.within e.2.env.region region
    let ws := (kvals k.waves).filter fun w => bs.any fun e => e.1 == w.bslot
    { cores := n.cores + (if bs.isEmpty then 0 else 1), waves := n.waves + ws.length,
      tiles := n.tiles + (bs.map (·.2.nTiles)).sum, units := n.units + (bs.map fun e => (e.2.spSize + 255) / 256).sum,
      chunks := n.chunks + (ws.map fun w => w.chunks.length).sum })
    { cores := 0, waves := 0, tiles := 0, units := 0, chunks := 0 }

def Budget.plus (a b : Budget) : Budget :=
  { cores := a.cores + b.cores, waves := a.waves + b.waves, tiles := a.tiles + b.tiles, units := a.units + b.units,
    chunks := a.chunks + b.chunks }

/-- A region and its ancestors. The first number bounds the path. -/
def State.ancestors (s : State) : Nat → Nat → List Nat
  | 0, _ => []
  | n + 1, r =>
    match kget s.regions r with
    | none => []
    | some x => r :: (match x.parent with | some p => s.ancestors n p | none => [])

/-- Whether a core holds a block of a region or of one below it. -/
def State.regionOn (s : State) (c region : Nat) : Bool :=
  (kvals (s.core c).blocks).any fun b => s.within b.env.region region

/-- Whether the budgets leave room for `n` blocks on the cores `cs`, at the region and at every ancestor (R390, R398). -/
def State.budgetRoom (s : State) (region : Nat) (k : Kernel) (n : Nat) (cs : List Nat) : Bool :=
  (s.ancestors 8 region).all fun a =>
    match kget s.regions a with
    | none => false
    | some r => r.budget.holds ((s.held a).plus (k.need n (cs.filter fun c => !s.regionOn c a).length))

/-! ### Placement conditions (R398, R399) -/

/-- Whether a core's channels run a command of another context (R383). -/
def State.coreLent (s : State) (c top : Nat) : Bool :=
  [0, 1].any fun i => match s.channel (16 * groupOf c + 2 * (c % 8) + i) with
    | some ch => ch.status == 1 && ch.context != top
    | none => false

/-- The conditions of R398 that concern one core, but for its latch and the budgets. -/
def State.coreTakes (s : State) (c code : Nat) (k : Kernel) (e : Env) : Bool :=
  let x := s.core c
  e.partition.contains c && !s.product.off.contains (groupOf c) && !s.sorrel.quar.contains c && (kget s.halts e.top).isNone
    && x.blocks.length < 8 && x.waves.length + k.waves ≤ 32 && (x.spadRoom k.scratch).isSome
    && x.tilesUsed + k.tiles ≤ 128 && x.chunksUsed + 32 * k.waves ≤ 8192
    && s.segmentRoom x code (startSegments k e) && !s.coreLent c e.top

/-- Whether a core whose latch is the region's colour passes R398 for a block. -/
def State.passes (s : State) (c code : Nat) (k : Kernel) (e : Env) : Bool :=
  s.latchedTo c e.colour && s.coreTakes c code k e && s.budgetRoom e.region k 1 [c]

/-- A core with nothing on it, drained, that would pass once latched (R23, R399); a part without a device number latches none
(R475). -/
def State.passesFresh (s : State) (c code : Nat) (k : Kernel) (e : Env) : Bool :=
  let x := s.core c
  s.devid != 0 && x.latch != e.colour && x.blocks.isEmpty && x.queue.isEmpty
    && (s.setCore c { x with segs := [] }).coreTakes c code k e && s.budgetRoom e.region k 1 [c]

/-- Of some cores, the one with the fewest waves, the lower number on a tie (R399). -/
def State.leastLoaded (s : State) (cs : List Nat) : Option Nat :=
  cs.foldl (fun best c => match best with
    | none => some c
    | some b => if (s.core c).waves.length < (s.core b).waves.length then some c else some b) none

/-- Cores in the order R399 takes them: the fewest waves first. The recursion is over the number to take. -/
def State.takeLeast (s : State) : Nat → List Nat → List Nat
  | 0, _ => []
  | n + 1, cs =>
    match s.leastLoaded cs with
    | none => []
    | some c => c :: s.takeLeast n (cs.filter (· != c))

/-- The cores that take the next block or cluster of a kernel (R399, R400); `fresh` also counts free cores that would have to
be latched first. -/
def State.pickCores (s : State) (code : Nat) (k : Kernel) (e : Env) (fresh : Bool) : Option (List Nat) :=
  let pass := e.partition.filter fun c => s.passes c code k e
  if k.cluster = 1 then
    match pass with
    | c :: _ =>
      (s.leastLoaded (pass.filter fun x => dieOf x == dieOf c)).map fun x => [x]
    | [] => if fresh then (e.partition.find? fun c => s.passesFresh c code k e).map fun c => [c] else none
  else
    let inGroup (g : Nat) (cs : List Nat) : List Nat := cs.filter fun c => groupOf c == g
    let groups := (e.partition.map groupOf).foldl nins []
    let choose (g : Nat) (more : List Nat) : Option (List Nat) :=
      let cs := (s.takeLeast k.cluster (inGroup g pass) ++ inGroup g more).take k.cluster
      if cs.length = k.cluster && s.budgetRoom e.region k k.cluster cs then some (cs.foldl nins []) else none
    match groups.findSome? fun g => choose g [] with
    | some cs => some cs
    | none =>
      if fresh then
        let more := e.partition.filter fun c => s.passesFresh c code k e
        groups.findSome? fun g => choose g more
      else none

/-! ### Placing a block (R242, R400, R402) -/

/-- ARGS as a wave receives it (R402). -/
def argsCap (c : Cap) : Cap :=
  ⟨setField c.bits 70 12 (capPerms c.bits &&& (permLoad ||| permLoadCap ||| permGlobal)), c.tag⟩

/-- The first valid slot of line 0 of a segment (R283). -/
def Core.streamStart (k : Core) (code num : Nat) : IAddr :=
  match k.segment code num with
  | some g => match (List.range 5).find? fun sl => validBit (g.header 0) sl with
    | some sl => mkAddr num (4 + 12 * sl)
    | none => mkAddr num 4
  | none => mkAddr num 4

/-- How many partial digests Sorrel holds (R461). -/
def State.partialDigests (s : State) : Nat :=
  (s.cores.map fun e => ((kvals e.2.blocks).filter fun b => b.digest.isSome).length).sum
    + (s.images.map fun e => (e.2.blocks.filter fun b => b.block.digest.isSome && !s.clusterHeld b.block.cluster).length).sum

/-- The lowest free slots of a core for `n` waves. -/
def Core.freeWaveSlots (k : Core) (n : Nat) : List Nat :=
  ((List.range 32).filter fun i => (kget k.waves i).isNone).take n

/-- Whether a region has blocks on cores. -/
def State.resident (s : State) (r : Nat) : Bool :=
  s.cores.any fun e => (kvals e.2.blocks).any fun b => b.env.region == r

/-- Stand a block and its waves on a core, with everything R402 asks done first. `audit` makes it an audit execution. -/
def State.standBlock (s0 : State) (c gk : Nat) (g : Grid) (e : Env) (index rank cluster : Nat) (audit : Option Nat) :
    State :=
  let s := (startSegments g.kernel e).foldl (fun s n => s.bringSegment c g.code n) s0
  let k := s.core c
  let slot := ((List.range 8).find? fun i => (kget k.blocks i).isNone).getD 0
  let sq := match g.kernel.mstream with
    | some m => startSequencer (k.streamStart g.code m) 1
    | none => startSequencer 0 0
  let b := startBlock gk index rank cluster g.kernel.waves g.code g.kernel.entry
    { e with feat := if g.kernel.persistent then e.feat else e.feat &&& 0xFFBF }
    ((k.spadRoom g.kernel.scratch).getD 0) g.kernel.scratch g.kernel.tiles sq
  let chosen := audit.isSome || (match g.plan with | some p => p.selects index | none => false)
  let full := audit.isNone && chosen && 4096 ≤ s.partialDigests
  let b1 := { b with digest := if chosen && !full then some 0 else none, audit }
  let slots := k.freeWaveSlots g.kernel.waves
  let args := s.sweptCap (argsCap g.args)
  let waves := (slots.zip (List.range g.kernel.waves)).foldl (fun m (w, i) =>
    kset m w (startWave (s.nextUid + i) slot i g.kernel.entry args)) k.waves
  let uids := rangeFrom s.nextUid g.kernel.waves
  { s.setCore c { k with blocks := kset k.blocks slot b1, waves, l1 := [],
                         misses := k.misses.map fun m => { m with stale := true } } with
    nextUid := s.nextUid + g.kernel.waves
    launches := kmod s.launches g.launch fun l => { l with uids := uids.foldl nins l.uids }
    regions := kmod s.regions g.region fun r =>
      let now := s.now (homeDie e.partition)
      { r with sliceAt := some (if s0.resident g.region then r.sliceAt.getD now else now) }
    sorrel := if full then { s.sorrel with skip := min 65535 (s.sorrel.skip + 1) } else s.sorrel }

/-- The slot a block of a grid took on a core. -/
def State.slotOf (s : State) (c gk index : Nat) : Nat :=
  match (s.core c).blocks.find? fun e => e.2.grid == gk && e.2.index == index with
  | some e => e.1
  | none => 0

/-- Stand the next block or cluster of a grid on the cores given, in rank order (R400). -/
def State.standCluster (s : State) (gk : Nat) (g : Grid) (e : Env) (cs : List Nat) : State :=
  let uid := s.nextUid
  let s1 := (cs.zip (List.range cs.length)).foldl (fun s (c, r) => s.standBlock c gk g e (g.next + r) r uid none)
    { s with nextUid := uid + 1 }
  let members := (cs.zip (List.range cs.length)).map fun (c, r) => (c, s1.slotOf c gk (g.next + r))
  { s1 with
    clusters := kset s1.clusters uid { members, phase := 0, arrived := [], gone := [] }
    grids := kmod s1.grids gk fun g => { g with next := g.next + g.kernel.cluster, waits := false } }

/-- A free core latched: all that step 2 and step 3 of R23 name is cleared, and then the clean bit is set. What counts since reset, the
vote log and the turns of R285 stay. -/
def State.latchCore (s : State) (c colour : Nat) : State :=
  let k := s.core c
  s.setCore c { Core.cleared with
    latch := colour, parref := k.parref, votes := k.votes, lastArray := k.lastArray, lastPort := k.lastPort, upsets := k.upsets }

/-- One step toward placing a grid, if some cores take its next block or cluster; with `fresh`, free cores are latched on the
way. -/
def State.placeNext (s : State) (gk : Nat) (fresh : Bool) : Option State :=
  match kget s.grids gk with
  | none => none
  | some g =>
    match kget s.regions g.region with
    | none => none
    | some r =>
      if g.count ≤ g.next then none
      else (s.pickCores g.code g.kernel r.env fresh).map fun cs =>
        let s1 := cs.foldl (fun s c => if s.latchedTo c r.env.colour then s else s.latchCore c r.env.colour) s
        s1.standCluster gk g r.env cs

/-- A persistent grid placed whole, if it fits (R401). The recursion is over its blocks. -/
def State.placeWhole (s : State) (gk : Nat) (fresh : Bool) : Nat → Option State
  | 0 => none
  | n + 1 =>
    match s.placeNext gk fresh with
    | none => none
    | some s1 =>
      match kget s1.grids gk with
      | some g => if g.count ≤ g.next then some s1 else s1.placeWhole gk fresh n
      | none => none

/-- The part as it would stand with a grid's next blocks placed. -/
def State.tryGrid (s : State) (gk : Nat) (fresh : Bool) : Option State :=
  match kget s.grids gk with
  | none => none
  | some g => if g.kernel.persistent then s.placeWhole gk fresh g.count else s.placeNext gk fresh

/-! ### Which grid comes next (R391, R399, R401) -/

/-- Whether a region stands in a sealed image, or is going into one, with a region above it (R387). -/
def State.sealedAway (s : State) (r : Nat) : Bool :=
  s.regions.any fun (n, x) => n != r && s.within r n &&
    (x.why == 3 || match x.image with
      | some a => (match kget s.images a with | some i => i.isSealed | none => false)
      | none => false)

/-- A grid that may be placed: blocks of it wait, its region is neither saved nor being taken off, the counter holds its blocks
(R28, R395), and a further persistent grid of a partition that has sixteen waits (R401). -/
def State.placeable (s : State) (gk : Nat) : Bool :=
  match kget s.grids gk with
  | none => false
  | some g =>
    match kget s.regions g.region with
    | none => false
    | some r =>
      g.next < g.count && (g.expanded || (g.next = 0 && g.kernel.cluster = 1 && !g.kernel.persistent))
        && r.image.isNone && r.why = 0 && !s.sealedAway g.region
        && (!g.kernel.persistent ||
          (s.grids.filter fun e => e.2.kernel.persistent && e.2.next != 0 &&
            (match kget s.regions e.2.region with | some x => x.env.top == r.env.top | none => false)).length < 16)

/-- Whether two grids may be placed on some core both (R21, R399). -/
def State.sharesCores (s : State) (a b : Grid) : Bool :=
  match kget s.regions a.region, kget s.regions b.region with
  | some x, some y => x.env.partition.any fun c => y.env.partition.contains c
  | _, _ => false

/-- The top-level region of a grid. -/
def State.gridTop (s : State) (g : Grid) : Nat :=
  match kget s.regions g.region with | some r => r.env.top | none => 0

/-- Whether a persistent grid waits: it cannot be placed, or could not when it was tried (R401). -/
def State.waitsWhole (s : State) (gk : Nat) (g : Grid) : Bool :=
  g.kernel.persistent && (g.waits || (s.tryGrid gk true).isNone)

/-- Whether grid `h` comes before grid `g`: by priority, then a persistent grid that waits, then by acceptance (R399, R401). -/
def State.gridBefore (s : State) (hk : Nat) (h : Grid) (gk : Nat) (g : Grid) : Bool :=
  let ph := s.priority h.region
  let pg := s.priority g.region
  let wh := s.waitsWhole hk h
  let wg := s.waitsWhole gk g
  pg < ph || (ph == pg && ((wh && !wg) || (wh == wg && decide (h.order < g.order))))

/-- Whether a grid on the same cores keeps another from being placed: it comes first, and it could be placed, on free cores latched
for it too, or is a persistent grid that waits (R399, R401). -/
def State.heldBack (s : State) (gk : Nat) (g : Grid) : Bool :=
  s.grids.any fun (hk, h) =>
    hk != gk && s.sharesCores h g && s.placeable hk && s.gridBefore hk h gk g
      && (s.waitsWhole hk h || (s.tryGrid hk true).isSome)

/-- BLOCK_PLACEMENT (R398 to R400, R402). -/
def State.placeGrid (s : State) (gk : Nat) : State :=
  match kget s.grids gk with
  | none => s
  | some g =>
    if g.kernel.persistent || !s.placeable gk || s.heldBack gk g then s
    else (s.placeNext gk false).getD s

/-- PERSISTENT_GRID_PLACEMENT (R401): whole, or it waits. -/
def State.placePersistent (s : State) (gk : Nat) : State :=
  match kget s.grids gk with
  | none => s
  | some g =>
    if !g.kernel.persistent || !s.placeable gk || s.heldBack gk g then s
    else match s.placeWhole gk false g.count with
      | some s1 => s1
      | none => { s with grids := kmod s.grids gk fun g => { g with waits := true } }

/-- GRID_EXPANSION (R28, R395): once the seed stands, or before a grid whose first blocks are placed together. -/
def State.expandGrid (s : State) (launch : Nat) : State :=
  match s.grids.find? fun e => e.2.launch == launch && !e.2.expanded with
  | none => s
  | some (gk, g) =>
    if g.next = 0 && g.kernel.cluster = 1 && !g.kernel.persistent then s
    else
      { s with
        grids := kset s.grids gk { g with expanded := true }
        launches := kmod s.launches launch fun l => { l with counter := l.counter + g.count - 1 } }

/-- The colour a core is to be latched to, for the first grid that waits for a free core (R23, R399); a grid that fits on
latched cores asks for none. -/
def State.latchWanted (s : State) (c : Nat) : Option Nat :=
  s.grids.findSome? fun (gk, g) =>
    if !s.placeable gk || s.heldBack gk g || (s.tryGrid gk false).isSome then none
    else match s.tryGrid gk true with
      | none => none
      | some s1 =>
        let after := (s1.core c).latch
        let cores := match kget s.regions g.region with | some r => r.env.partition | none => []
        if (s.core c).latch != after && cores.all (fun x => c ≤ x || (s.core x).latch == (s1.core x).latch) then some after
        else none

/-- LATCH_CHANGE (R23, R24). -/
def State.changeLatch (s : State) (c colour : Nat) : State :=
  let k := s.core c
  if !k.blocks.isEmpty || !k.queue.isEmpty || k.latch == colour then s
  else if s.latchWanted c == some colour then s.latchCore c colour
  else s

/-! ### Launching from a wave (R396, R397) -/

/-- A capability whose OTYPE of 4 passes check 2 (R396). -/
def unsealRecord (c : Cap) : Cap := if capOtype c.bits = 4 then ⟨setField c.bits 64 6 0, c.tag⟩ else c

/-- The status a record's refusal or acceptance gives, and the state with the child grid. -/
def State.spawnRecord (s : State) (b : Block) (bs : List Byte) (ts : List Bool) : Nat × State :=
  match kget s.grids b.grid with
  | none => (10, s)
  | some g =>
    match s.judge (.wave b.env.region g.launch) bs ts with
    | .error code => (code, s)
    | .ok x =>
      let s1 := s.addGrid x g.launch true
      (0, { s1 with launches := kmod s1.launches g.launch fun l => { l with counter := l.counter + x.count } })

/-- SPAWN (R396). -/
def spawnBody (f : MF) : Body := fun c w s =>
  match s.block c.core c.bslot with
  | none => .next s
  | some b =>
    if !s.released w 3 255 then .stay .order s
    else
      let cap := unsealRecord (c.quadCap w f.a.toNat c.lowest)
      let r : LaneReq := ⟨c.lowest, cap, capCursor cap.bits + sext 24 f.offset.toNat⟩
      let answer (s1 : State) (n : Nat) : Done :=
        .next (s1.modWave c.core c.slot fun w1 => c.writeU w1 f.d.toNat n)
      match s.check (s.agent c.core) { need := permLoad, align := 128, size := 128, stored := none } cap r.addr with
      | some k => answer (s.exclude c.core c.bslot) (12 + k * 256)
      | none =>
        match s.outside c w 8 128 [r] fun r tag => [loadFlit s r 128 tag false] with
        | .waits s1 => .stay (.outside 0) s1
        | .ready fails answers s1 =>
          let a := localOf r.va
          let zeros := List.replicate 128 (0 : Byte)
          let (bs, ts) := if !fails.isEmpty then (zeros, [])
            else match kget answers r.lane with
              | some x => (x.data, [])
              | none => (s1.bytesAt a 128, (List.range 8).map fun i => rangeOf a == .hbm && s1.tags.contains (a / 16 + i))
          let (n, s2) := (s1.exclude c.core c.bslot).spawnRecord b bs ts
          answer s2 n

/-! ### The grid barrier (R403) -/

/-- A wave's number in its grid. -/
def gridWave (b : Block) (w : Nat) : Nat := 32 * b.index + w

/-- GBAR. -/
def gbarBody : Body := fun c w s =>
  match s.block c.core c.bslot with
  | none => .next s
  | some b =>
    match kget s.grids b.grid, w.gbarWait with
    | none, _ => .next s
    | some g, some gen => if g.gen ≠ gen then .next (s.acquire c.core 3) else .stay .gridBarrier s
    | some g, none =>
      if !s.released w 3 255 then .stay .order s
      else
        let s1 := (s.exclude c.core c.bslot).modWave c.core c.slot fun x => { x with gbarWait := some g.gen }
        .stay .gridBarrier
          { s1 with grids := kset s1.grids b.grid { g with arrived := nins g.arrived (gridWave b w.wblk) } }

/-- GRID_BARRIER_GENERATION: every wave that has not retired has arrived. -/
def State.advanceGeneration (s : State) (gk : Nat) : State :=
  match kget s.grids gk with
  | none => s
  | some g =>
    if !g.kernel.persistent || g.arrived.isEmpty || g.arrived.length + g.gone.length ≠ g.count * g.kernel.waves then s
    else { s with grids := kset s.grids gk { g with gen := (g.gen + 1) % 2 ^ 32, arrived := [] } }

/-! ### Retirement (R103, R242, R262, R283, R362, R395, R403, R462) -/

/-- Traps held for a wave that retires pass to the block's lowest-numbered live wave; without one the last stays with the
block (R362). -/
def State.passTraps (s : State) (c bslot : Nat) (ts : List HeldTrap) : State :=
  match s.lowestWave c bslot with
  | some (slot, w) => s.setWave c slot { w with held := w.held ++ ts }
  | none => s.modBlock c bslot fun b => { b with seqr := { b.seqr with trap := (ts.filter (·.seq)).getLast? } }

/-- A wave without lanes retires once its stores have been performed at cluster scope (R262): it leaves every barrier, and its
slot is free. -/
def State.retireWave (s : State) (c slot : Nat) : State :=
  match s.wave c slot with
  | none => s
  | some w =>
    match s.block c w.bslot with
    | none => s
    | some b =>
      if !s.released w 2 255 then s.setWave c slot { w with waiting := .order }
      else if s.barrierError b then s.haltWave c slot 69 0
      else
        let s1 := s.leaveBarriers b w.wblk
        let s2 := s1.modBlock c w.bslot fun b => { b with gone := nins b.gone w.wblk, barDone := ndel b.barDone w.wblk }
        let id := gridWave b w.wblk
        let s3 := { s2 with
          grids := if b.audit.isSome then s2.grids else kmod s2.grids b.grid fun g =>
            if g.kernel.persistent then { g with gone := nins g.gone id, arrived := ndel g.arrived id } else g
          pri := s2.pri.filter fun e => e.2.uid != w.uid }
        let k := s3.core c
        let s4 := s3.setCore c { k with waves := kdel k.waves slot, reserve := k.reserve.filter (· != slot) }
        (s4.leaveWords w.uid).passTraps c w.bslot w.held

/-- Whether every block of a grid is gone for good, its audits included. -/
def State.gridOver (s : State) (gk : Nat) : Bool :=
  match kget s.grids gk with
  | none => true
  | some g =>
    g.count ≤ g.next
      && s.cores.all (fun e => (kvals e.2.blocks).all fun b => b.grid != gk)
      && s.images.all (fun e => e.2.state == 0 || e.2.halted || e.2.blocks.all fun b => b.block.grid != gk)
      && (kvals s.sorrel.audits).all fun a => a.grid != gk

/-- A grid that is over leaves the distributor. -/
def State.dropGrid (s : State) (gk : Nat) : State := if s.gridOver gk then { s with grids := kdel s.grids gk } else s

/-- A launch's counter lowered (R395). An expansion that is still to come is made first: every block counts before one retires
(R28). -/
def State.lowerCounter (s0 : State) (gk n : Nat) : State :=
  let s := match kget s0.grids gk with | some g => s0.expandGrid g.launch | none => s0
  match kget s.grids gk with
  | none => s
  | some g => { s with launches := kmod s.launches g.launch fun l => { l with counter := l.counter - n } }

/-- A selected block that retires is queued for its re-execution, and its launch's counter rises (R462). -/
def State.queueAudit (s : State) (c : Nat) (b : Block) : State :=
  match b.digest, kget s.grids b.grid with
  | some d, some g =>
    if b.excluded then s
    else
      let queued := (kvals s.sorrel.audits).filter fun a =>
        match kget s.grids a.grid with | some h => h.region == g.region | none => false
      if 64 ≤ queued.length then { s with sorrel := { s.sorrel with skip := min 65535 (s.sorrel.skip + 1) } }
      else
        let a : Audit := { grid := b.grid, index := b.index, core0 := c, digest0 := d, core1 := 0, digest1 := none,
                           core2 := 0, digest2 := none, stage := 0 }
        { s with
          nextUid := s.nextUid + 1
          sorrel := { s.sorrel with audits := kset s.sorrel.audits s.nextUid a }
          launches := kmod s.launches g.launch fun l => { l with counter := l.counter + 1 } }
  | _, _ => s

/-- An audit execution that retires hands its digest over; a voided one equals no other (R462). -/
def State.endAuditBlock (s : State) (c : Nat) (b : Block) (key : Nat) : State :=
  let d := if b.excluded then none else b.digest
  { s with sorrel := { s.sorrel with audits := kmod s.sorrel.audits key fun a =>
      if a.stage = 1 then { a with core1 := c, digest1 := d, stage := 2 }
      else if a.stage = 4 then { a with core2 := c, digest2 := d, stage := 5 }
      else a } }

/-- The allocations of a cluster freed (R242). -/
def State.freeCluster (s : State) (ck : Nat) (k : Cluster) : State :=
  let s1 := k.members.foldl (fun s (c, b) => s.setCore c { s.core c with blocks := kdel (s.core c).blocks b }) s
  { s1 with clusters := kdel s1.clusters ck }

/-- BLOCK_RETIREMENT: a block whose waves have all retired, and whose operations in flight have reached their result points. -/
def State.retireBlock (s : State) (c bslot : Nat) : State :=
  match s.block c bslot with
  | none => s
  | some b =>
    if b.retired || b.gone.length ≠ b.waves || !b.seqr.flights.isEmpty then s
    else
      let b1 := { b with retired := true, nTiles := 0, tiles := [], badTiles := [],
                         seqr := { b.seqr with status := 0, queue := [], trap := none } }
      let s1 := s.setBlock c bslot b1
      let s2 := match b.audit with
        | some key => s1.endAuditBlock c b key
        | none => s1.queueAudit c b
      match kget s2.clusters b.cluster with
      | none => s2
      | some k =>
        if k.members.all fun (c, n) => match s2.block c n with | some b => b.retired | none => true then
          let s3 := s2.freeCluster b.cluster k
          (if b.audit.isSome then s3 else s3.lowerCounter b.grid k.members.length).dropGrid b.grid
        else s2

/-! ### Urgency (R405) and time slices (R407) -/

/-- WAVE_BECOMES_URGENT: a wave passed over 64 times. -/
def State.makeUrgent (s : State) (c slot : Nat) : State :=
  s.modWave c slot fun w => if w.passed < 64 then w else { w with urgent := true }

/-- Whether another colour's work waits for cores of a region's partition, and with more than a given priority if one is given
(R407): blocks to be placed, or a region to be restored. -/
def State.otherWaits (s : State) (r : Region) (above : Option Nat) : Bool :=
  let rival (n : Nat) : Bool :=
    match kget s.regions n with
    | none => false
    | some x => x.env.colour != r.env.colour && x.env.partition.any (r.env.partition.contains ·)
        && (match above with | some p => p < s.priority n | none => true)
  s.grids.any (fun (gk, g) => rival g.region && s.placeable gk && (s.tryGrid gk false).isNone)
    || s.regions.any fun (n, x) => x.restore && rival n

/-- TIME_SLICE_EXPIRY. -/
def State.endSlice (s : State) (n : Nat) : State :=
  match kget s.regions n with
  | none => s
  | some r =>
    let now := s.now (homeDie r.env.partition)
    match r.sliceAt with
    | none => s
    | some t =>
      if r.slice = 0 || now < t + r.slice * microsecond || r.why ≠ 0 || !s.resident n || s.restoring n then s
      else if s.otherWaits r none then { s with regions := kset s.regions n { r with why := 1, sliceAt := none } }
      else { s with regions := kset s.regions n { r with sliceAt := some now } }

/-! ### The meanings -/

def execSpawn (f : MF) (s : State) := issue (Instr.spawn f).view (encode (.spawn f)) (spawnBody f) false s
def execGbar (f : VF) (s : State) := issue (Instr.gbar f).view (encode (.gbar f)) gbarBody false s

def execGridBarrierGeneration (grid : Nat) (s : State) : Host.Outcome State Fault Refusal :=
  .next (s.advanceGeneration grid)
def execBlockRetirement (core bslot : Nat) (s : State) : Host.Outcome State Fault Refusal := .next (s.retireBlock core bslot)
def execLatchChange (core colour : Nat) (s : State) : Host.Outcome State Fault Refusal := .next (s.changeLatch core colour)
def execBlockPlacement (grid : Nat) (s : State) : Host.Outcome State Fault Refusal := .next (s.placeGrid grid)
def execGridExpansion (launch : Nat) (s : State) : Host.Outcome State Fault Refusal := .next (s.expandGrid launch)
def execPersistentGridPlacement (grid : Nat) (s : State) : Host.Outcome State Fault Refusal := .next (s.placePersistent grid)
def execWaveBecomesUrgent (core slot : Nat) (s : State) : Host.Outcome State Fault Refusal := .next (s.makeUrgent core slot)
def execTimeSliceExpiry (region : Nat) (s : State) : Host.Outcome State Fault Refusal := .next (s.endSlice region)

end Sys2Proof.Machine
end

