-- ==== Sys2Proof/Machine/Save.lean ====
section
/-!
DEFINITION. The save engine (R363 to R388): pre-emption and LIVE, the writing of context images, their restore, sealed and
halted saves, and the discard of a halted partition.
-/

namespace Sys2Proof.Machine

/-! ### Who is signalled (R364, R386) -/

/-- Whether an arrival of a wave has left its store buffer and is not yet applied (R264). -/
def State.arriving (s : State) (uid : Nat) : Bool :=
  s.cores.any fun e => e.2.queue.any fun q => q.uid == uid && match q.part.eff with | .arrive _ _ _ _ _ _ _ => true | _ => false

/-- A wave recorded, at a liveness entry or whole. Its lanes leave the queues of full/empty words (R255). -/
def State.recordWave (s : State) (c slot : Nat) (entry : Option Nat) : State :=
  match s.wave c slot with
  | none => s
  | some w =>
    let k := s.core c
    (s.setCore c { k with waves := kset k.waves slot { w with recorded := true, liveEntry := entry },
                          reserve := k.reserve.filter (· != slot) }).leaveWords w.uid

/-- The waves of a save's blocks on a core that `pick` takes, recorded whole. -/
def State.recordWhere (s : State) (n c : Nat) (r : Region) (pick : Wave → Bool) : State :=
  (s.core c).waves.foldl (fun s (slot, w) =>
    match s.block c w.bslot with
    | none => s
    | some b =>
      if s.covers n r b.env.region && w.alive && !w.recorded && pick w && !s.arriving w.uid then s.recordWave c slot none
      else s) s

/-- Waves recorded whole at once: in a waiting instruction, in handler mode at a boundary, or with a breakpoint pending; for a sealed
save also a wave that a debugger has halted, with its breakpoint pending (R359, R364, R388). -/
def State.recordReady (s : State) (n : Nat) (r : Region) : State :=
  let s1 := (kkeys r.signal).foldl (fun s c =>
    s.recordWhere n c r fun w => w.atBoundary && (w.waiting.saved || w.level != 0 || w.bkpend)) s
  if s.savesSealed r then
    (kkeys r.signal).foldl (fun s c =>
      (s.core c).waves.foldl (fun s (slot, w) =>
        match s.block c w.bslot with
        | none => s
        | some b =>
          if s.covers n r b.env.region && w.dbgHalt && !s.arriving w.uid then
            (s.setWave c slot { w with dbgHalt := false, bkpend := true }).recordWave c slot none
          else s) s) s1
  else s1

/-- A request to the save engines, after those that have come before (R363). -/
def State.askSave (s : State) (n : Nat) : State :=
  if s.saveOrder.contains n then s else { s with saveOrder := s.saveOrder ++ [n] }

/-- Whether the save engines of a region's core groups have come to its request: each serves its requests in order of arrival, whatever
partition makes them (R20, R363). Those of a halted partition have stopped. -/
def State.engineFree (s : State) (n : Nat) (r : Region) : Bool :=
  (s.saveOrder.takeWhile (· != n)).all fun m => match kget s.regions m with
    | none => true
    | some x => (x.signal.isEmpty && !s.restoring m) || (kget s.halts x.env.top).isSome
        || x.env.partition.all fun c => r.env.partition.all fun d => groupOf c != groupOf d

/-- PRE_EMPTION_SIGNAL (R363, R364, R407): the signal of a save that has been asked for, or that waiting work of a higher
priority asks for, and the recording of the waves that are ready for it. -/
def State.signalRegion (s : State) (n : Nat) : State :=
  match kget s.regions n with
  | none => s
  | some r0 =>
    let r := if r0.why = 0 && s.resident n && !s.restoring n && s.otherWaits r0 (some (s.priority n)) then { r0 with why := 1, sliceAt := none }
      else r0
    if r.why = 0 || (kget s.halts r.env.top).isSome || (r.why ≠ 3 && s.sealedAway n) || s.restoring n then s
    else
      let r1 := if r.signal.isEmpty then
          { r with signal := r.env.partition.foldl (fun m c => kset m c (s.now (dieOf c))) [] } else r
      (({ s with regions := kset s.regions n r1 }).askSave n).recordReady n r1

/-- The length of a pre-emption window in ticks (R371). -/
def Region.windowTicks (r : Region) : Nat := (if r.window = 0 then 64 else r.window) * 64 * coreCycle

/-- PRE_EMPTION_WINDOW_END (R364): every other wave is recorded whole at its boundary. -/
def State.endWindow (s : State) (c n : Nat) : State :=
  match kget s.regions n with
  | none => s
  | some r =>
    match kget r.signal c with
    | none => s
    | some t => if s.now (dieOf c) < t + r.windowTicks then s else s.recordWhere n c r (·.atBoundary)

/-! ### LIVE (R367) -/

/-- The liveness table of a code object: its address and entry count (R392). -/
def State.liveTable (s : State) (code : Nat) : Nat × Nat :=
  let x := s.numAt (code + 40) 8
  (code + x % 2 ^ 40, field x 40 16)

/-- LIVE. -/
def liveBody (f : IF) : Body := fun c w s =>
  match s.block c.core c.bslot with
  | none => .next s
  | some b =>
    if c.handler || !s.signalledOn c.core b.env.region then .next s
    else if s.arriving w.uid then .stay .scoreboard s
    else
      let i := f.imm.toNat % 65536
      .next (s.recordWave c.core c.slot (if i < (s.liveTable b.code).2 then some i else none))

/-! ### What an image keeps (R365, R370, R374) -/

/-- A wave as it stands after restore: with a liveness entry, only what the entry names. -/
def Wave.keepLive (w : Wave) (entry : Option Nat) : Wave :=
  match entry with
  | none => w
  | some e =>
    let b := w.base
    let v := b.v.filter fun x => liveReg e x.1
    let vtags := b.vtags.filter fun x => e.testBit x.1
    let p := b.p.filter fun x => livePred e x.1
    { w with base := { b with v, vtags, p } }

/-- The bank of a level. -/
def Wave.bankAt (w : Wave) (level : Nat) : Bank := if level = 0 then w.base else w.handlers.reverse.getD (level - 1) w.base

/-- The lanes a wave loses to errors in what its record holds, and the halting fault they raise (R365). -/
def Wave.saveErrors (w : Wave) (entry : Option Nat) : Mask × Option Nat :=
  let kept (e : RegError) : Bool := e.level != 0 || e.file ≥ 2 || match entry with
    | some x => if e.file = 0 then liveReg x e.num else livePred x e.num
    | none => true
  (w.errors.filter kept).foldl (fun (m, stop) e =>
    match e.file with
    | 0 => (m ||| (if ((w.bankAt e.level).reg e.num).val.isG then Mask.one e.lane else w.live), stop)
    | 1 => (m ||| w.live, stop)
    | 2 | 3 => (m, some (stop.getD 73))
    | _ => (m, some 74)) ((0 : Mask), none)

/-- What the save engine finds in a wave's backing area: the wave with its spilled registers, of which only those that are kept are read,
and its control stack entries beyond 64; the lanes lost to errors there, and the halting fault met (R85, R365, R376, R377). A register
or entry that cannot be read, or has been overwritten there, is undefined. -/
def State.unspilled (s : State) (b : Block) (c slot : Nat) (w : Wave) (entry : Option Nat) : Wave × Mask × Option Nat :=
  let read := w.spilled.filter fun r => match entry with | some e => liveReg e r | none => true
  let free (k : Nat) (e : StackEntry) : StackEntry :=
    { e with pc := (s.core c).someAddr b.code (Config.freeDword s.tick (2048 + k)).toNat, mask := s.freeMask (1026 + k) }
  let put (w : Wave) (xs : List StackEntry) : Wave :=
    { w with base := { w.base with ctl := (w.base.ctl.reverse.take 64 ++ xs).reverse }, deep := [] }
  let lost (w : Wave) (r : Nat) : Wave :=
    { w with base := ({ w.base with v := kset w.base.v r ⟨.g (s.freeLanes r), (w.base.reg r).fmt⟩ }).setTags (r / 4) 0,
             spilled := ndel w.spilled r }
  if read.isEmpty && w.deep.isEmpty then ({ w with spilled := [] }, 0, none)
  else match backingAddr s b (corePos b c) slot with
    | none =>
      let w1 := read.foldl lost w
      (put { w1 with spilled := [] } ((w.deepStack.zip (List.range w.deepStack.length)).map fun (e, k) => free k e), 0, some 68)
    | some a =>
      let (w1, m, bad) := read.foldl (fun (w, m, bad) r =>
        let vals := Lanes.of fun l => BitVec.ofNat 32 (s.numAt (a + 128 * r + 4 * l) 4)
        let w1 := if vals = (w.base.reg r).val.lanes then
            let b1 := { w.base with v := kset w.base.v r ⟨.g vals, (w.base.reg r).fmt⟩ }
            let b2 := if r % 4 = 0 then
                b1.setTags (r / 4) (w.base.tagsOf (r / 4) &&& BitVec.ofNat 32 (s.numAt (a + 81920 + r) 4)) else b1
            { w with base := b2, spilled := ndel w.spilled r }
          else lost w r
        (w1, m ||| Mask.of (fun l => s.poisoned (a + 128 * r + 4 * l) 4),
         bad || (r % 4 = 0 && s.poisoned (a + 81920 + r) 4))) (w, (0 : Mask), false)
      let deep := (w.deepStack.zip (List.range w.deepStack.length)).map fun (e, k) =>
        if s.deepKept a k e then e else free k e
      let worn := (List.range w.deepStack.length).any fun k => s.poisoned (a + 82944 + 16 * k) 16
      (put { w1 with spilled := [] } deep, m, if bad || worn then some 74 else none)

/-- The units of `n` bytes from an offset. -/
def unitsOf (o n : Nat) : List Nat := if n = 0 then [] else rangeFrom (o / 128) ((o + n - 1) / 128 - o / 128 + 1)

/-- The kept units of a block none of whose waves was recorded whole (R374). -/
def State.keptUnits (s : State) (b : Block) (lives : List Nat) : NSet :=
  let ranges := lives.flatMap fun e => (liveRanges e).flatMap fun (a, n) => rangeFrom a n
  let slots := b.bufs.flatMap fun u =>
    if !u.en then []
    else (List.range u.held).flatMap (fun i => unitsOf (u.slotAt (u.tail + i)) u.slotSize)
      ++ (if u.out then unitsOf (u.slotAt u.head) u.slotSize else [])
  let words := s.channels.flatMap fun e =>
    if e.2.status == 1 && e.2.grid == b.grid && e.2.index == b.index && e.2.cmd.ckind == 2 then [e.2.cmd.cvoff / 128] else []
  ((ranges ++ b.registry.map (· / 128) ++ slots ++ words).filter fun u => 128 * u < b.spSize).foldl nins []

/-- A block as an image keeps it. Operations in flight have finished, and no lane waits in it any more. -/
def State.keepBlock (s : State) (b : Block) (ws : List Wave) (lives : KMap Nat) : SavedBlock :=
  let whole := ws.any fun w => (kget lives w.wblk).isNone
  let units := if whole then List.range ((b.spSize + 127) / 128) else s.keptUnits b (kvals lives)
  let tiles := if whole then List.range b.nTiles else
    (List.range b.nTiles).filter fun z => (kvals lives).any (fun e => liveTile e z) && !(kgetD b.tiles z Tile.zero).emulated
  let inUnit (a : Nat) : Bool := units.contains (a / 128)
  let b1 := { b with
    spad := b.spad.filter (fun e => inUnit e.1), full := b.full.filter (fun x => inUnit (4 * x)),
    badWords := b.badWords.filter (fun x => inUnit (4 * x)), badBits := [], fe := [],
    tiles := b.tiles.filterMap fun (z, t) =>
      if tiles.contains z || t.emulated then some (z, t)
      else if t.tag = 0 then none else some (z, { t with words := [] }),
    badTiles := [] }
  { block := b1, waves := ws, lives, keptUnits := units, keptTiles := tiles }

/-- The lanes a wave loses, with their loss records (R365, R366). -/
def State.loseSaved (s : State) (e : EngineId) (b : Block) (slot : Nat) (w : Wave) (m : Mask) : State :=
  m.lanes.foldl (fun s l =>
    s.engineRecord 2 e b.env.colour b.env.region (96 + slot * 2 ^ 24 + codeWord b w.base.pc) 0 0 l l) s

/-- The first of two halting faults, if any. -/
def firstHalt (a b : Option Nat) : Option Nat := match a with | some x => some x | none => b

/-- A block and its waves read from a core into an image; the halting fault that an error or a refused backing area
raises. The block and its waves are read all the same (R365). -/
def State.readBlockOff (s : State) (c n : Nat) (b : Block) : State × SavedBlock × Option Nat :=
  let slots := (s.core c).waves.filter fun e => e.2.bslot == n
  let (s1, ws, lives, stop) := slots.foldl (fun (s, ws, lives, stop) (slot, w) =>
    let entry := w.liveEntry.map fun i => s.numAt ((s.liveTable b.code).1 + 64 * i) 64
    let (w1, poisoned, halt) := s.unspilled b c slot w entry
    let (lost, worn) := w1.saveErrors entry
    let m := (lost ||| poisoned) &&& w1.live
    let w2 := { w1.keepLive entry with dead := w1.dead ||| m, errors := [] }
    (s.loseSaved (.save (groupOf c)) b slot w1 m, ws ++ [w2],
     (match entry with | some e => kset lives w.wblk e | none => lives), firstHalt stop (firstHalt halt worn)))
    (s, ([] : List Wave), ([] : KMap Nat), (none : Option Nat))
  let x := s1.keepBlock b ws lives
  let own := if b.seqr.error || b.badBits.any (fun w => x.keptUnits.contains (w / 32)) then some 74
    else if b.badTiles.any x.keptTiles.contains then some 70
    else none
  (s1, x, firstHalt stop own)

/-! ### Accesses of the save engine (R363) -/

/-- The core group whose save engine serves a region. -/
def Region.group (r : Region) : Nat := groupOf (r.env.partition.headD 0)

/-- Whether `n` bytes at an offset of a region's save area can be read and written by the engine, of the colour an image
needs. -/
def State.areaOk (s : State) (r : Region) (sealedImage : Bool) (off n : Nat) : Bool :=
  let a := capCursor r.savea.bits + off
  (s.check ⟨if sealedImage then r.env.colour else 0, some r.group⟩
    { need := permLoad ||| permStore, align := 1, size := n, stored := none } r.savea a).isNone
    && !s.isRemote a && rangeOf (localOf a) == .hbm

/-- A halting fault of the save engine. -/
def State.haltSave (s : State) (r : Region) (code : Nat) : State := s.raiseHalt r.env.top (.save r.group) code 0 0 0 0

/-! ### Saving (R363, R364, R381 in reverse) -/

/-- The guest's operation that an eviction of a region cuts short: a save or a restore in progress of a region below it (R387). -/
def State.nestedOf (s : State) (n : Nat) (r : Region) : Option (Nat × Bool) :=
  if r.why ≠ 3 then none
  else match s.regions.find? fun (g, x) => g != n && (x.why == 1 || x.why == 2) && s.within g n with
    | some (g, _) => some (g, false)
    | none => (s.regions.find? fun (g, _) => g != n && s.restoring g && s.within g n).map fun e => (e.1, true)

/-- The image a save of a region writes: the one begun, or a new one (R372). -/
def State.imageOf (s : State) (n : Nat) (r : Region) : Nat × Image :=
  let a := localOf (capCursor r.savea.bits)
  let fresh : Image :=
    { region := n, colour := r.env.colour, cap := r.savea, version := (s.numAt (a + 32) 8 + 1) % 2 ^ 64, time := 0,
      discard := s.numAt (a + 40) 4, cores := r.env.partition.length, halted := false,
      isSealed := r.why = 3 || s.confidential r.env.colour, state := 1,
      blocks := [], clusters := [], held := [], nested := s.nestedOf n r, placed := [], asker := none }
  match r.image with
  | some b => match kget s.images b with
    | some x => if x.state = 1 then (b, if x.nested.isNone then { x with nested := s.nestedOf n r } else x) else (a, fresh)
    | none => (a, fresh)
  | none => (a, fresh)

/-- Whether a cluster can be written: it is of the save, every wave of its blocks is recorded, no operation is in flight and
no piece of its stores stands in a core write queue. -/
def State.clusterReady (s : State) (n : Nat) (r : Region) (k : Cluster) : Bool :=
  k.members.all fun (c, i) => match s.block c i with
    | none => true
    | some b =>
      let ws := (s.core c).waves.filter fun e => e.2.bslot == i
      s.covers n r b.env.region && b.seqr.flights.isEmpty && ws.all (·.2.recorded)
        && s.cores.all fun e => e.2.queue.all fun q => ws.all fun w => w.2.uid != q.uid

/-- The channels whose completion waits in a block give their place up; they hold the write (R383). -/
def State.unqueueChannels (s : State) (b : Block) : State :=
  b.fe.foldl (fun s q => match q.op with
    | .channel num _ => { s with channels := kmod s.channels num fun ch => { ch with queued := false } }
    | _ => s) s

/-- The blocks and waves of a cluster off their cores. -/
def State.liftCluster (s : State) (ck : Nat) (k : Cluster) : State :=
  let s1 := k.members.foldl (fun s (c, i) =>
    match s.block c i with
    | none => s
    | some b =>
      let q := s.core c
      (s.unqueueChannels b).setCore c { q with blocks := kdel q.blocks i, waves := q.waves.filter fun e => e.2.bslot != i }) s
  { s1 with clusters := kdel s1.clusters ck }

/-- A cluster written into an image, its blocks and waves off their cores; an error met on the way raises the halt line (R365). -/
def State.saveCluster (s : State) (r : Region) (a : Nat) (x : Image) (ck : Nat) (k : Cluster) : State :=
  let (s1, bs, stop) := k.members.foldl (fun (s, bs, stop) (c, i) =>
    match s.block c i with
    | none => (s, bs, stop)
    | some b =>
      let (s1, y, halt) := s.readBlockOff c i b
      (s1, bs ++ [y], firstHalt stop halt)) (s, ([] : List SavedBlock), (none : Option Nat))
  let y := { x with blocks := x.blocks ++ bs, clusters := kset x.clusters ck k }
  if stop = some 68 || !s1.areaOk r x.isSealed 0 (s1.imageBytes a y).length then s1.haltSave r 68
  else
    let s2 := (s1.liftCluster ck k).putImage a y
    match stop with
    | some code => s2.haltSave r code
    | none => s2

/-- CONTEXT_SAVE: the image begun, or its next cluster written. -/
def State.saveStep (s : State) (n : Nat) : State :=
  match kget s.regions n with
  | none => s
  | some r =>
    if r.signal.isEmpty || (kget s.halts r.env.top).isSome || (r.why ≠ 3 && s.sealedAway n) || !s.engineFree n r then s
    else
      let (a, x) := s.imageOf n r
      if !s.areaOk r x.isSealed 0 256 then s.haltSave r 68
      else
        let s1 := { s with regions := kset s.regions n { r with image := some a } }
        match s.clusters.find? fun e => s.clusterReady n r e.2 with
        | none => if r.image = some a then s else s1.putImage a x
        | some (ck, k) => s1.saveCluster r a x ck k

/-- Whether blocks that a save takes still stand on cores. -/
def State.stillResident (s : State) (n : Nat) (r : Region) : Bool :=
  s.cores.any fun e => (kvals e.2.blocks).any fun b => s.covers n r b.env.region

/-- SAVE_COMPLETE (R380): DIGEST, then STATE 2. -/
def State.saveDone (s : State) (n : Nat) : State :=
  match kget s.regions n with
  | none => s
  | some r =>
    match r.image with
    | none => s
    | some a =>
      let begun := match kget s.images a with | some x => x.state == 1 | none => false
      if !begun || r.signal.isEmpty || (kget s.halts r.env.top).isSome || s.stillResident n r then s
      else
        let s1 := s.changeImage a fun x => { x with state := 2, time := s.dieTime (groupDie r.group) }
        let r1 := { r with signal := [], why := 0, sliceAt := none, restore := r.why == 1,
                           answer := if r.client.isSome then some 0 else none }
        { s1 with regions := kset s1.regions n r1, saveOrder := s1.saveOrder.filter (· != n) }

/-! ### Sealed saves (R386 to R388) -/

/-- Whether an eviction of a region can begin: nothing of it is saved, or a save of its own into a sealed image has begun, which then
becomes the eviction's. -/
def State.evictable (s : State) (r : Region) : Bool :=
  r.why != 3 && match r.image with
    | none => true
    | some a => match kget s.images a with
      | some x => r.why != 0 && x.state == 1 && x.isSealed
      | none => false

/-- The blocks of a guest's region whose restore had not come to them, off their cores again: they stay in the guest's image (R387). -/
def State.stopGuestRestore (s : State) (g : Nat) : State :=
  match (kget s.regions g).bind fun q => q.image with
  | none => s
  | some a => match kget s.images a with
    | none => s
    | some y =>
      (s.clusters.filter fun e => (kget y.clusters e.1).isSome && !y.placed.contains e.1).foldl (fun s (ck, k) => s.liftCluster ck k) s

/-- SEALED_SAVE: a hypervisor evicts a context. A guest's own save or restore in progress stops where it is (R387). -/
def State.sealRegion (s : State) (n : Nat) : State :=
  match kget s.regions n with
  | none => s
  | some r =>
    if !s.evictable r || (kget s.halts r.env.top).isSome || capColour r.savea.bits ≠ r.env.colour then s
    else
      let r1 := { r with why := 3, sliceAt := none,
                         signal := r.env.partition.foldl (fun m c => kset m c (s.now (dieOf c))) [] }
      let below := (kkeys s.regions).filter fun g => g != n && s.within g n
      let s1 := (below.filter s.restoring).foldl State.stopGuestRestore s
      let others := s1.regions.map fun (g, x) => (g, if below.contains g then { x with signal := [] } else x)
      let order := s1.saveOrder.filter fun g => !below.contains g
      (({ s1 with regions := kset others n r1, saveOrder := order }).askSave n).recordReady n r1

/-! ### Restoring (R380 to R384) -/

/-- A bank with the tags that touch revoked granules cleared (R468, R469). -/
def Bank.sweepAll (touch : BitVec 128 → Bool) (b : Bank) : Bank :=
  let b1 := (kkeys b.vtags).foldl (fun b q => b.sweepQuad touch Mask.all q) b
  b1.gtags.foldl (fun b n => b.sweepPair touch (n / 2)) b1

/-- A piece of a store with its tag cleared likewise. -/
def Part.sweep (touch : BitVec 128 → Bool) (p : Part) : Part :=
  match p.eff with
  | .bytes d true => { p with eff := .bytes d !(touch (BitVec.ofNat 128 (ofBytes d))) }
  | _ => p

/-- A wave with such tags cleared in its registers and its store buffer. -/
def Wave.sweepAll (touch : BitVec 128 → Bool) (w : Wave) : Wave :=
  { w with
    base := w.base.sweepAll touch
    handlers := w.handlers.map (·.sweepAll touch)
    sb := w.sb.map fun e =>
      { e with parts := e.parts.map (·.sweep touch)
               info := if e.info.kind = 1 then { e.info with aux := e.info.lanes.foldl (fun m x =>
                   if m.testBit x.lane && touch (BitVec.ofNat 128 x.data) then m - 2 ^ x.lane else m) e.info.aux }
                 else e.info } }

/-- The lanes of a recorded store that fail checks 7 to 11 now (R377). -/
def State.failedLanes (s : State) (c : Nat) (i : StoreInfo) : NSet :=
  if i.kind = 0 || i.kind = 1 || i.kind = 3 then
    (i.lanes.filter fun x => !s.isRemote x.addr &&
      (s.mapCheck (s.agent c) (s.core c).latch x.cls (localOf x.addr) (sizeBytes i.size)).isSome).map (·.lane)
  else []

/-- The bytes of a piece that remain: at each place those of the highest remaining lane (R211). -/
def keptRuns (i : StoreInfo) (ok : List StoreLane) (a : Nat) (d : List Byte) (tag : Bool) : List Part :=
  let n := sizeBytes i.size
  let at_ (x : Nat) : Option (StoreLane × Byte) :=
    ((ok.filter fun l => localOf l.addr ≤ x && x < localOf l.addr + n).getLast?).map fun l =>
      (l, BitVec.ofNat 8 (l.data / 2 ^ (8 * (x - localOf l.addr))))
  let runs := (rangeFrom a d.length).foldl (fun (acc : List (Nat × List Byte)) x =>
    match at_ x with
    | none => acc
    | some (_, y) => match acc with
      | (p, bs) :: rest => if p + bs.length = x then (p, bs ++ [y]) :: rest else (x, [y]) :: acc
      | [] => [(x, [y])]) []
  let whole := tag || i.kind = 1
  runs.reverse.map fun (p, bs) =>
    ⟨.mem p, .bytes bs (whole && bs.length = 16 && match at_ p with | some (l, _) => i.aux.testBit l.lane | none => false)⟩

/-- A store-buffer entry checked again on the core it is restored to, and the lanes it loses (R377). -/
def State.recheck (s : State) (c : Nat) (e : StoreEntry) : StoreEntry × Nat :=
  let bad := s.failedLanes c e.info
  if bad.isEmpty then (e, 0)
  else
    let ok := e.info.lanes.filter fun x => !bad.contains x.lane
    let parts := e.parts.flatMap fun p =>
      match p.home, p.eff with
      | .mem a, .bytes d t => keptRuns e.info ok a d t
      | .mem _, .chain k =>
        let left := k.lanes.filter fun l => !bad.contains l.1
        if left.isEmpty then [] else [{ p with eff := .chain { k with lanes := left } }]
      | _, _ => [p]
    ({ e with parts, info := { e.info with lanes := ok } }, bad.length)

/-- The effective fields a restored block runs under: its region's now. -/
def State.freshEnv (s : State) (b : Block) : Env :=
  match kget s.regions b.env.region with
  | none => b.env
  | some r =>
    let persistent := match kget s.grids b.grid with | some g => g.kernel.persistent | none => false
    { r.env with feat := if persistent then r.env.feat else r.env.feat &&& 0xFFBF }

/-- A wave as it stands when it has been placed again (R370, R381), recorded until the restore's end. `stays` keeps its liveness entry,
for a guest's save. The count of store-stream entries goes on from the last recorded (R377). -/
def Wave.restored (w : Wave) (bslot age tick : Nat) (armed stays : Bool) : Wave :=
  { w with bslot, spilled := [], deep := [], lastIssue := tick, producers := [], early := [], waiting := .none,
           lines := [none, none, none], urgent := false, passed := 0, urgentAt := 0, dbgHalt := w.bkpend && armed, bkpend := false,
           recorded := true, liveEntry := if stays then w.liveEntry else none, age,
           placed := match w.sb.getLast? with | some e => e.place | none => 0 }

/-- The segments a restored block needs (R381). -/
def SavedBlock.segments (x : SavedBlock) (e : Env) : NSet :=
  let b := x.block
  let ofBank (k : Bank) : List Nat := segOf k.pc :: k.ctl.map fun t => segOf t.pc
  let xs := segOf b.entry :: (e.trapEntry.toList.map segOf ++ e.emuEntry.toList.map segOf
    ++ (if 1 ≤ b.seqr.status && b.seqr.status ≤ 4 then [segOf b.seqr.pc] else [])
    ++ x.waves.flatMap fun w => ofBank w.base ++ w.handlers.flatMap ofBank)
  xs.foldl nins []

/-- A saved cluster's blocks as the distributor sees them: a kernel of their shape. -/
def restoreKernel (xs : List SavedBlock) : Kernel :=
  let most (f : SavedBlock → Nat) : Nat := (xs.map f).foldl max 0
  { entry := match xs with | x :: _ => x.block.entry | [] => 0,
    mstream := none, waves := most fun x => x.waves.length, cluster := xs.length, persistent := false,
    scratch := most fun x => x.block.spSize, tiles := most fun x => x.block.nTiles, args := 0, audd := 0 }

/-- The cores an audit's execution may stand on (R462, R463). -/
def State.auditAllows (s : State) (b : Block) (c : Nat) : Bool :=
  match b.audit with
  | none => true
  | some key => match kget s.sorrel.audits key with
    | some a => c != a.core0 && !(a.stage == 4 && c == a.core1)
    | none => true

/-- One saved block stood on a core. `stays` says whether its waves stay recorded. The count is of discarded store lanes. -/
def State.standSaved (s0 : State) (c : Nat) (x : SavedBlock) (e : Env) (stays : Bool) : Option (State × Nat) :=
  let code := x.block.code
  let segs := x.segments e
  let s := segs.foldl (fun s g => s.bringSegment c code g) s0
  let k := s.core c
  if !segs.all (fun g => (k.segment code g).isSome || (s.segEntry code g).1 = 0) then none
  else match (List.range 8).find? (fun i => (kget k.blocks i).isNone), k.spadRoom x.block.spSize with
    | some slot, some sp =>
      let b := { x.block with env := e, spBase := sp, spSize := x.block.spSize, seqr := { x.block.seqr with line := none } }
      let touch := s.touchesRevoked
      let slots := k.freeWaveSlots x.waves.length
      if slots.length < x.waves.length then none
      else
        let armed := s.armedFor b
        let stand (i : Nat) (w : Wave) : Wave × Nat :=
          let done := w.sb.map fun t => s.recheck c t
          let sb := done.map fun d => d.1
          let w1 := { w with sb }.restored slot (s.nextUid + i) s.tick armed stays
          (if s.sweeper.running then w1.sweepAll touch else w1, (done.map fun d => d.2).sum)
        let stood := (slots.zip x.waves).map fun (i, w) => (i, stand i w)
        let waves := stood.foldl (fun m (i, w, _) => kset m i w) k.waves
        let lost := (stood.map fun (_, _, n) => n).sum
        let s1 := { s.setCore c { k with blocks := kset k.blocks slot b, waves, l1 := [],
                                         misses := k.misses.map fun m => { m with stale := true } } with
          nextUid := s.nextUid + 32 }
        some (slots.foldl (fun s i => s.settleChunks c i) s1, lost)
    | _, _ => none

/-- A saved cluster stood on cores that take it, latched on the way (R23, R381). -/
def State.standSavedCluster (s : State) (img : Image) (ck : Nat) (k : Cluster) (stays : Nat → Bool) : Option (State × Nat) :=
  let xs := kvals ((img.blocks.filter fun x => x.block.cluster == ck).foldl (fun (m : KMap SavedBlock) x => kset m x.block.rank x) [])
  match xs with
  | [] => some (s, 0)
  | x :: _ =>
    let e := s.freshEnv x.block
    let allowed := { e with partition := e.partition.filter fun c => s.auditAllows x.block c }
    match s.pickCores x.block.code (restoreKernel xs) allowed true with
    | none => none
    | some cs =>
      let s1 := cs.foldl (fun s c => if s.latchedTo c e.colour then s else s.latchCore c e.colour) s
      let stood := (cs.zip xs).foldl (fun (acc : Option (State × Nat)) (c, x) =>
        match acc with
        | none => none
        | some (s, n) => (s.standSaved c x (s.freshEnv x.block) (stays x.block.env.region)).map fun (s2, m) => (s2, n + m))
        (some (s1, 0))
      stood.map fun (s2, n) =>
        let members := (cs.zip xs).map fun (c, x) => (c, match (s2.core c).blocks.find? fun e =>
            e.2.cluster == ck && e.2.rank == x.block.rank with | some e => e.1 | none => 0)
        ({ s2 with clusters := kset s2.clusters ck { k with members } }, n)

/-- What memory shows where an image lies, against what the engine wrote (R380). -/
def State.digestMatches (s : State) (a : Nat) (x : Image) : Bool :=
  let bs := s.imageBytes a x
  (bs.zip (List.range bs.length)).all fun (y, i) => (40 ≤ i && i < 48) || s.byte (a + i) == y

/-- Why a restore is refused, 0 if it is not (R380). -/
def State.restoreRefusal (s : State) (r : Region) : Nat :=
  let a := localOf (capCursor r.savea.bits)
  let own := capColour r.savea.bits = r.env.colour
  if !s.areaOk r own 0 256 then 6
  else if field (s.numAt a 8) 8 3 ≠ 2 then 1
  else match kget s.images a with
    | none => 2
    | some x =>
      if !s.digestMatches a x then 2
      else if x.halted then 3
      else if x.colour ≠ r.env.colour then 4
      else if (kvals x.clusters).any (fun k => (groupCounts r.env.partition).all fun m => m < k.members.length) then 5
      else if x.isSealed != own || !s.areaOk r own 0 (s.imageBytes a x).length then 6
      else 0

/-- The errors a restore meets in an image's bytes (R365): lanes lost by wave, scratchpad words by block, and a halting
fault. -/
def State.restoreErrors (s : State) (a : Nat) : List Piece → KMap Mask × List (Nat × Nat) × Option Nat
  | [] => ([], [], none)
  | p :: rest =>
    let (kills, words, stop) := s.restoreErrors (a + p.bytes.length) rest
    if p.bytes.isEmpty || !s.poisoned a p.bytes.length then (kills, words, stop)
    else match p.what with
      | .control => (kills, words, some 74)
      | .scalar => (kills, words, some 73)
      | .tile => (kills, words, some 70)
      | .value uid => (kset kills uid Mask.all, words, stop)
      | .lanes uid =>
        (kset kills uid (kgetD kills uid 0 ||| Mask.of fun l => s.poisoned (a + 4 * l) 4), words, stop)
      | .pad i w =>
        (kills, words ++ ((List.range 32).filter fun j => s.poisoned (a + 4 * j) 4).map (fun j => (i, w + j)), stop)

/-- An image with the lanes and words it has lost to errors in memory. -/
def Image.afterErrors (x : Image) (kills : KMap Mask) (words : List (Nat × Nat)) : Image :=
  let bs := x.inOrder
  { x with blocks := (bs.zip (List.range bs.length)).map fun (b, i) =>
      { b with
        block := { b.block with badWords := (words.filter fun e => e.1 == i).foldl (fun m e => nins m e.2) b.block.badWords }
        waves := b.waves.map fun w => { w with dead := w.dead ||| (kgetD kills w.uid 0 &&& w.live) } } }

/-- Every save step of a guest's save left to do, and its end. The first number bounds the clusters. -/
def State.finishGuest (s : State) (g : Nat) : Nat → State
  | 0 => s.saveDone g
  | n + 1 => State.finishGuest (s.saveStep g) g n

/-- Some clusters of an image stood on cores, their waves still recorded, and how many store lanes that discards. -/
def State.standClusters (s : State) (x : Image) (stays : Nat → Bool) (ks : KMap Cluster) : Option (State × Nat) :=
  ks.foldl (fun (acc : Option (State × Nat)) (ck, k) =>
    match acc with
    | none => none
    | some (s, lost) => (s.standSavedCluster x ck k stays).map fun (s1, m) => (s1, lost + m)) (some (s, 0))

/-- The STATE of an image written where it lies. -/
def State.markImage (s : State) (a st : Nat) : State := s.store (a + 1) [BitVec.ofNat 8 ((s.byte (a + 1)).toNat / 8 * 8 + st)]

/-- The loss records of the lanes that an image's errors kill, each with its wave's new slot (R366). -/
def State.loseRestored (s : State) (r : Region) (x : Image) (kills : KMap Mask) : State :=
  x.blocks.foldl (fun s b => b.waves.foldl (fun s w =>
    match kget kills w.uid with
    | none => s
    | some m => s.loseSaved (.save r.group) b.block (match s.findUid w.uid with | some (_, slot) => slot | none => 0) w
        (m &&& w.live)) s) s

/-- The restore of a region's image begun, if cores take all its blocks: STATE becomes 3, and the blocks are placed (R381). -/
def State.restoreImage (s : State) (n : Nat) (r : Region) (a : Nat) (x : Image) : Option State :=
  let (kills, words, stop) := s.restoreErrors a (s.imagePieces a x)
  match stop with
  | some code => some (s.haltSave r code)
  | none =>
    let y := x.afterErrors kills words
    let stays (region : Nat) : Bool := match x.nested with | some (g, false) => region == g | _ => false
    (s.standClusters y stays y.clusters).map fun (s1, lost) =>
      let s2 := (s1.loseRestored r x kills).markImage a 3
      let s3 := s2.storeNum (a + 40) 8 lost
      ({ s3 with
        images := kset s3.images a { x with state := 3, discard := lost, placed := [], asker := if r.answer.isNone then r.client else none }
        regions := kmod s3.regions n fun q => { q with image := some a } }).askSave n

/-- The writes held for the blocks of a cluster applied (R381, R383). -/
def State.applyHeldTo (s : State) (x : Image) (ck : Nat) : State :=
  let mine (num : Nat) : Bool := match s.channel num with
    | some ch => x.blocks.any fun b => b.block.cluster == ck && b.block.grid == ch.grid && b.block.index == ch.index
    | none => true
  (x.held.filter fun e => mine e.1).foldl (fun s (num, h) => s.applyHeld num h) s

/-- The next cluster of an image restored: the copy of its state is done. -/
def State.restoreCluster (s : State) (a : Nat) (x : Image) (ck : Nat) : State :=
  ({ s with images := kset s.images a { x with placed := nins x.placed ck } }).applyHeldTo x ck

/-- A restore's end: STATE becomes 0 and the waves issue, but those of a guest whose save goes on (R381, R387). -/
def State.endRestore (s : State) (n a : Nat) (x : Image) : State :=
  let stays (region : Nat) : Bool := match x.nested with | some (g, false) => region == g | _ => false
  let wake (k : Core) (w : Wave) : Wave := match kget k.blocks w.bslot with
    | some b => if (kget x.clusters b.cluster).isSome then { w with recorded := stays b.env.region } else w
    | none => w
  let s1 := s.markImage a 0
  { s1 with
    images := kdel s1.images a
    saveOrder := s1.saveOrder.filter (· != n)
    cores := s1.cores.map fun (c, k) => (c, { k with waves := k.waves.map fun (i, w) => (i, wake k w) })
    regions := kmod s1.regions n fun q =>
      { q with image := none, restore := false, refused := false, sliceAt := some (s.now (homeDie q.env.partition)),
               answer := if x.asker.isSome then some 0 else q.answer } }

/-- A guest's restore that an eviction cut short, completed: the blocks still in its image are placed, if cores take them (R387). -/
def State.finishGuestRestore (s : State) (g : Nat) : Option State :=
  match (kget s.regions g).bind fun q => q.image with
  | none => some s
  | some a => match kget s.images a with
    | none => some s
    | some y =>
      let rest := y.clusters.filter fun e => !y.placed.contains e.1
      (s.standClusters y (fun _ => false) rest).map fun (s1, lost) =>
        let s2 := rest.foldl (fun s e => s.applyHeldTo y e.1) (s1.storeNum (a + 40) 8 (y.discard + lost))
        s2.endRestore g a y

/-- The end of a restore, with what the nested-save record asks to be completed before any wave of the context issues (R387). -/
def State.finishRestore (s : State) (n a : Nat) (x : Image) : State :=
  match x.nested with
  | some (g, true) => match s.finishGuestRestore g with
    | some s1 => s1.endRestore n a x
    | none => s
  | some (g, false) =>
    let s1 := s.endRestore n a x
    let s2 := { s1 with
      saveOrder := g :: s1.saveOrder.filter (· != g)
      regions := kmod s1.regions g fun q => { q with signal := q.env.partition.foldl (fun m c => kset m c (s1.now (dieOf c))) [] } }
    s2.finishGuest g (s2.clusters.length + 1)
  | none => s.endRestore n a x

/-- A restore that goes on: its next cluster, or its end. -/
def State.restoreStep (s : State) (n a : Nat) (x : Image) : State :=
  match x.clusters.find? fun e => !x.placed.contains e.1 with
  | some (ck, _) => s.restoreCluster a x ck
  | none => s.finishRestore n a x

/-- The restores of a halted partition stopped: what has been placed is discarded, and STATE is 2 again (R384). -/
def State.abortRestores (s : State) (top : Nat) : State :=
  s.regions.foldl (fun s (n, r) =>
    match r.image with
    | none => s
    | some a => match kget s.images a with
      | some x =>
        if r.env.top = top && x.state = 3 then
          let s1 := (s.clusters.filter fun e => (kget x.clusters e.1).isSome).foldl (fun s (ck, k) => s.liftCluster ck k) s
          ({ s1 with saveOrder := s1.saveOrder.filter (· != n) }).putImage a { x with state := 2, placed := [], asker := none }
        else s
      | none => s) s

/-- CONTEXT_RESTORE: at a queue's request, or the distributor's own. A restore that only lacks cores waits; one asked for while another
of the same image goes on is refused (R380, R381, R384). -/
def State.restoreRegion (s : State) (n : Nat) : State :=
  match kget s.regions n with
  | none => s
  | some r =>
    let asked := r.client.isSome && r.answer.isNone
    let a := localOf (capCursor r.savea.bits)
    if r.why ≠ 0 || (kget s.halts r.env.top).isSome || s.sealedAway n then s
    else
      let refuse (code : Nat) : State :=
        if asked then { s with regions := kset s.regions n { r with answer := some code } }
        else if code = 5 then s
        else ({ s with regions := kset s.regions n { r with refused := true, restore := false } }).engineRecord 8
          (.distributor (homeDie r.env.partition)) r.env.colour n code 0 0 0 0
      match if s.restoring n then kget s.images (r.image.getD a) else none with
      | some x =>
        if asked && x.asker.isNone then refuse 1
        else if s.engineFree n r then s.restoreStep n (r.image.getD a) x else s
      | none =>
        if !(asked || (r.restore && !r.refused)) then s
        else match s.restoreRefusal r with
          | 0 =>
            (match kget s.images a with
            | some x => (s.restoreImage n r a x).getD s
            | none => s)
          | code => refuse code

/-! ### Halted partitions (R384, R385) -/

/-- Whether every core of a partition has stopped and no operation is in flight. -/
def State.partitionStopped (s : State) (top : Nat) : Bool :=
  match kget s.halts top with
  | none => false
  | some h => s.cores.all fun (c, k) =>
      (kvals k.blocks).all fun b => b.env.top != top || (h.stopped.contains (.waveCore c) && b.seqr.flights.isEmpty)

/-- The halted image of a region's clusters, every wave whole; the state with the losses met on the way, and what stops it. -/
def State.haltedImage (s : State) (n : Nat) (r : Region) (x : Image) : State × Image × Option Nat :=
  let mine := s.clusters.filter fun e => e.2.members.all fun (c, i) =>
    match s.block c i with | some b => b.env.region == n | none => false
  let (s1, bs, stop) := mine.foldl (fun acc e => e.2.members.foldl (fun (s, bs, stop) (c, i) =>
    match s.block c i with
    | none => (s, bs, stop)
    | some b =>
      let plain := { s.core c with waves := (s.core c).waves.map fun (j, w) => (j, { w with liveEntry := none }) }
      let (s1, y, halt) := (s.setCore c plain).readBlockOff c i b
      (s1, bs ++ [y], firstHalt stop halt)) acc)
    (s, ([] : List SavedBlock), (none : Option Nat))
  (s1, { x with blocks := bs, clusters := mine, halted := true, state := 2, time := s.dieTime (groupDie r.group) }, stop)

/-- Whether a region's image is whole. -/
def State.savedWhole (s : State) (r : Region) : Bool :=
  match r.image with
  | some a => (match kget s.images a with | some x => x.state == 2 | none => false)
  | none => false

/-- HALTED_SAVE: an image of a stopped region with every wave whole, which is never restored. The blocks stay. Errors met on the way stop
nothing that has not stopped already (R365). -/
def State.saveHalted (s : State) (n : Nat) : State :=
  match kget s.regions n with
  | none => s
  | some r =>
    if !s.partitionStopped r.env.top || s.savedWhole r then s
    else
      let (a, x) := s.imageOf n { r with why := 4, image := none }
      let (s1, y, _) := s.haltedImage n r x
      if !s1.areaOk r x.isSealed 0 (s1.imageBytes a y).length then s1
      else { s1 with regions := kset s1.regions n { r with image := some a } }.putImage a y

/-- The blocks of a partition dropped, resident, saved and waiting, and what the engines hold for them (R385). -/
def State.discardPartition (s : State) (top : Nat) : State :=
  let ofGrid (g : Grid) : Bool := s.gridTop g == top
  let uids := s.cores.flatMap fun e => (kvals e.2.waves).filterMap fun w =>
    match kget e.2.blocks w.bslot with | some b => if b.env.top == top then some w.uid else none | none => none
  let gone := s.cores.flatMap fun e => (kvals e.2.blocks).filterMap fun b => if b.env.top == top then some b.cluster else none
  let cores := s.cores.map fun (c, k) =>
    let out (n : Nat) : Bool := match kget k.blocks n with | some b => b.env.top == top | none => false
    (c, { k with blocks := k.blocks.filter (fun e => !(e.2.env.top == top)), waves := k.waves.filter (fun e => !out e.2.bslot),
                 queue := k.queue.filter (fun q => !(uids.contains q.uid && match q.part.home with | .spad _ _ => true | _ => false)),
                 reserve := k.reserve.filter fun i => match kget k.waves i with | some w => !out w.bslot | none => false })
  let s1 := { s with
    cores
    clusters := s.clusters.filter fun e => !gone.contains e.1
    saveOrder := s.saveOrder.filter (fun n => match kget s.regions n with | some r => r.env.top != top | none => false)
    images := s.images.filter (fun e => match kget s.regions e.2.region with | some r => r.env.top != top | none => true)
    pri := s.pri.filter fun e => !uids.contains e.2.uid
    remote := s.remote.filter (fun e => match e.2.owner with | .lane u _ _ _ _ _ => !uids.contains u | _ => true)
    launches := s.launches.map fun ((n, l) : Nat × Launch) =>
      (n, match kget s.regions l.region with | some r => if r.env.top = top then { l with counter := 0 } else l | none => l)
    sorrel := { s.sorrel with audits := s.sorrel.audits.filter (fun e =>
      match kget s.grids e.2.grid with | some g => !ofGrid g | none => false) }
    grids := s.grids.filter fun e => !ofGrid e.2
    regions := s.regions.map fun ((n, r) : Nat × Region) =>
      (n, if r.env.top = top then { r with signal := [], why := 0, sliceAt := none, image := none, restore := false, refused := false }
        else r)
    halts := kdel s.halts top }
  s1.channels.foldl (fun (s : State) ((num, ch) : Nat × Channel) => if ch.context == top && ch.status == 1 then s.endChannel num 4 14 else s) s1

/-- HALTED_PARTITION_DISCARD. -/
def State.discardHalted (s : State) (n : Nat) : State :=
  match kget s.regions n with
  | none => s
  | some r => if s.partitionStopped r.env.top then s.discardPartition r.env.top else s

/-! ### The meanings -/

def execLive (f : IF) (s : State) := issue (Instr.live f).view (encode (.live f)) (liveBody f) false s

def execPreEmptionSignal (region : Nat) (s : State) : Host.Outcome State Fault Refusal := .next (s.signalRegion region)
def execPreEmptionWindowEnd (core region : Nat) (s : State) : Host.Outcome State Fault Refusal :=
  .next (s.endWindow core region)
def execContextSave (region : Nat) (s : State) : Host.Outcome State Fault Refusal := .next (s.saveStep region)
def execSaveComplete (region : Nat) (s : State) : Host.Outcome State Fault Refusal := .next (s.saveDone region)
def execContextRestore (region : Nat) (s : State) : Host.Outcome State Fault Refusal := .next (s.restoreRegion region)
def execHaltedSave (region : Nat) (s : State) : Host.Outcome State Fault Refusal := .next (s.saveHalted region)
def execHaltedPartitionDiscard (region : Nat) (s : State) : Host.Outcome State Fault Refusal := .next (s.discardHalted region)
def execSealedSave (region : Nat) (s : State) : Host.Outcome State Fault Refusal := .next (s.sealRegion region)

end Sys2Proof.Machine
end

