-- ==== Sys2Proof/Machine/Command.lean ====
section
/-!
DEFINITION. The command processor (R409 to R438): packets and their execution order, queue errors, the hardware queue
scheduler, function-level reset and the firmware complexes' heartbeat and takeover.
-/

namespace Sys2Proof.Machine

/-! ### Places in a queue's execution order (R416, R418 to R420) -/

/-- The place after the packet at a place: loops go round, and a buffer's end ends the INDIRECT that called it. -/
def nextPlace : Nat → List Frame → Cursor
  | i, [] => { index := i + 1, frames := [] }
  | i, f :: rest =>
    let p := f.pos + 1
    let (p1, loop1) := match f.loop with
      | some (start, len, left) =>
        if p = start + len then (if 1 < left then (start, some (start, len, left - 1)) else (p, none)) else (p, f.loop)
      | none => (p, none)
    if p1 < f.count then { index := i, frames := { f with pos := p1, loop := loop1 } :: rest } else nextPlace i rest

def Cursor.next (c : Cursor) : Cursor := nextPlace c.index c.frames

/-- The place reached when `n` further packets of the same buffer are passed over: the skip stops at the end of the buffer or
of a LOOP's body (R419). -/
def Cursor.skipTo (c : Cursor) (n : Nat) : Cursor :=
  match c.frames with
  | [] => c.next
  | f :: rest =>
    let stop := match f.loop with | some (start, len, _) => start + len | none => f.count
    nextPlace c.index ({ f with pos := min (f.pos + n) (stop - 1) } :: rest)

/-- The first place of an indirect buffer. -/
def Cursor.enter (c : Cursor) (off count : Nat) (intr : Bool) : Cursor :=
  { c with frames := { off, count, pos := 0, loop := none, intr } :: c.frames }

/-- The first place of a LOOP's body. -/
def Cursor.loop (c : Cursor) (n k : Nat) : Cursor :=
  match c.frames with
  | [] => c.next
  | f :: rest => { c with frames := { f with pos := f.pos + 1, loop := some (f.pos + 1, n, k) } :: rest }

/-! ### Accesses (R410, R411) -/

def State.queue (s : State) (q : Nat) : Option Queue := kget s.queues q

def State.setQueue (s : State) (n : Nat) (q : Queue) : State := { s with queues := kset s.queues n q }

/-- The die of the active complex (R15). -/
def State.activeDie (s : State) : Nat := if s.firmware.activeB then 9 else 8

def allOnes64 : Nat := 2 ^ 64 - 1

/-- An access of the command processor through a capability of a queue: the address within the part, or nothing where a check of
R195 fails. The check of alignment asks for a multiple of the access's size (entry 77 of the log). -/
def State.queueAccess (s : State) (q : Queue) (c : Cap) (need a n : Nat) : Option Nat :=
  if (s.check ⟨q.colour, none⟩ { need, align := n, size := n, stored := none } c a).isNone && !s.isRemote a
      && rangeOf (localOf a) != .device then some (localOf a) else none

/-- An access at an offset of the queue's arena, or a queue error: 3 outside its bounds, 4 a failed check (R424). -/
def State.arena (s : State) (q : Queue) (off n need : Nat) : Except Nat Nat :=
  let a := capCursor q.arena.bits + off
  if !q.arena.covers a n then .error 3
  else match s.queueAccess q q.arena need a n with
    | some x => .ok x
    | none => .error 4

/-- The ring slot of a packet index, for reading and consuming. -/
def State.ringSlot (s : State) (q : Queue) (i : Nat) : Option Nat :=
  s.queueAccess q q.ring (permLoad ||| permStore) (capCursor q.ring.bits + 64 * (i % 2 ^ q.size)) 64

/-- The index block, with its two indices (R411). -/
def State.indexBlock (s : State) (q : Queue) : Option Nat :=
  let access (o : Nat) : Option Nat := s.queueAccess q q.idx (permLoad ||| permStore) (capCursor q.idx.bits + o) 8
  (access 0).bind fun a => (access 64).map fun _ => a

/-- Whether a queue's producers have reserved past its ring (R414). -/
def State.overReserved (s : State) (q : Queue) : Bool :=
  match s.indexBlock q with
  | some ix => q.valid && decide (s.numAt (ix + 64) 8 + 2 ^ q.size < s.numAt ix 8)
  | none => false

/-- The queues whose producers have reserved past the ring, marked: their later packets are undefined (R414). -/
def State.noteQueues (s : State) : State :=
  { s with queues := s.queues.map fun ((n, q) : Nat × Queue) => (n, { q with broken := q.broken || s.overReserved q }) }

/-- A packet's 64 bytes as memory holds them: nothing while a ring packet is not published, or a queue error. The packets of
a ring whose producers have reserved past its end are undefined (R414). -/
def State.readPacket (s : State) (q : Queue) (c : Cursor) : Except Nat (Option (List Byte)) :=
  match c.frames with
  | [] =>
    match s.ringSlot q c.index, s.indexBlock q with
    | some a, some _ =>
      if q.broken then
        .ok (some ((List.range 64).map (Config.freeByte s.tick)))
      else .ok (if (s.byte a).toNat = 0 then none else some (s.bytesAt a 64))
    | _, _ => .error 4
  | f :: _ =>
    match s.arena q (f.off + 64 * f.pos) 64 permLoad with
    | .ok a => .ok (some (s.bytesAt a 64))
    | .error e => .error e

/-- The packet at a place: fetched before (R425), or read now. -/
def State.packetAt (s : State) (q : Queue) (c : Cursor) : Except Nat (Option (List Byte)) :=
  match q.fetched.find? fun e => e.1 == c with
  | some e => .ok (some e.2)
  | none => s.readPacket q c

def packetType (bs : List Byte) : Nat := numIn bs 0 1

/-- Where execution goes after a packet, as far as its bytes tell. -/
def Cursor.after (c : Cursor) (bs : List Byte) : Cursor :=
  if packetType bs = 2 && c.frames.length < 2 then c.enter (numIn bs 8 8) (numIn bs 16 8) ((numIn bs 0 8).testBit 8)
  else if packetType bs = 4 then c.loop (numIn bs 8 8) (numIn bs 16 8)
  else c.next

/-- The packets fetched from a place on, at most `n` of them (R425). -/
def State.fetchAhead (s : State) (q : Queue) : Nat → Cursor → List (Cursor × List Byte)
  | 0, _ => []
  | n + 1, c =>
    match s.packetAt q c with
    | .ok (some bs) => (c, bs) :: s.fetchAhead q n (c.after bs)
    | _ => []

/-- A queue with the packet at its place and up to 16 after it fetched, as many as the part happens to fetch and at least `least`:
those it had stay as they are. -/
def State.prefetch (s : State) (n least : Nat) : State :=
  match s.queue n with
  | none => s
  | some q =>
    if q.slot.isNone then s
    else s.setQueue n { q with fetched := s.fetchAhead q (max least (Config.choice s.tick % 18)) q.cursor }

/-! ### Errors and ends (R415, R424, R427) -/

/-- The record of a queue error (R424), cut to what R456 keeps for a protected queue. -/
def State.queueRecord (s : State) (n : Nat) (q : Queue) (cause index : Nat) : State :=
  let hide := s.confidential q.colour
  s.putRecord [3 + 5 * 2 ^ 8 + s.activeDie * 2 ^ 16 + q.colour * 2 ^ 24, s.dieTime s.activeDie, 0,
    if hide then cause % 256 else cause, 0, 0, if hide then 0 else n, if hide then 0 else index]

/-- A queue off its slot: its fetched packets are gone, its wait time is kept (R428). -/
def State.unmapQueue (s : State) (n : Nat) : State :=
  match s.queue n with
  | none => s
  | some q =>
    let waited := if q.waits = 1 then q.waited + (s.now s.activeDie - q.since) else q.waited
    s.setQueue n { q with slot := none, fetched := [], waited, leaving := false, announced := false }

/-- A queue stopped on an error, off its slot: the packet has had no effect. -/
def State.stopQueue (s : State) (n cause : Nat) : State :=
  match s.queue n with
  | none => s
  | some q => ((s.setQueue n { q with error := true }).unmapQueue n).queueRecord n q cause q.cursor.index

/-- Whether the accesses that consume a queue's ring packet pass their checks (R410, R415). -/
def State.mayConsume (s : State) (q : Queue) : Bool := (s.ringSlot q q.cursor.index).isSome && (s.indexBlock q).isSome

/-- A ring packet consumed (R415). -/
def State.consume (s : State) (q : Queue) (i : Nat) : State :=
  match s.ringSlot q i, s.indexBlock q with
  | some a, some b => (s.storeNum a 8 0).storeNum (b + 64) 8 (i + 1)
  | _, _ => s

/-- The INTR bits of the INDIRECT packets that end where execution moves from one place to another, the innermost first. -/
def endedFrames (old new : Cursor) : List Bool :=
  let gone := if old.index = new.index then old.frames.length - new.frames.length else old.frames.length
  (old.frames.take gone).map (·.intr)

/-- A packet ended, with the INDIRECT packets it ends (R418): execution moves to `c`, each INTR raises the queue's vector, and
the service counter counts each of them, its last value becoming the queue's own. -/
def State.endPacket (s : State) (n : Nat) (c : Cursor) (intr : Bool) : State :=
  match s.queue n with
  | none => s
  | some q =>
    let s1 := if q.cursor.index < c.index then s.consume q q.cursor.index else s
    let ends := intr :: endedFrames q.cursor c
    let served := s1.firmware.service + ends.length
    let q1 := { q with cursor := c, served, waits := 0, waited := 0, lastAt := s1.now s1.activeDie,
                       fetched := q.fetched.filter fun e => e.1 != q.cursor }
    let s2 := { s1.setQueue n q1 with
      firmware := { s1.firmware with service := served }
      msix := ((ends.filter id).map fun _ => (q.func, q.vec)) ++ s1.msix }
    if q.leaving then s2.unmapQueue n else s2.prefetch n 0

/-- What a packet's execution comes to: it ends, with where execution goes and whether its interrupt is raised; it goes on; or
it stops its queue. -/
inductive Ran where
  | done (s : State) (c : Cursor) (intr : Bool)
  | stay (s : State)
  | bad (cause : Nat)
deriving DecidableEq, Repr

/-- The meaning of a packet. -/
abbrev PacketBody := Nat → Queue → List Byte → State → Ran

/-- INTR of a packet. -/
def intrOf (bs : List Byte) : Bool := (numIn bs 0 8).testBit 8

/-- Whether the header and the body from byte `n` on have only zeros where the type uses nothing. -/
def packetClean (bs : List Byte) (n : Nat) : Bool := numIn bs 0 8 / 2 ^ 9 == 0 && numIn bs n (64 - n) == 0

/-- The kind of wait that a packet type belongs to. -/
def waitOf (ty : Nat) : Nat := if ty = 5 then 1 else if ty = 9 then 2 else if ty = 10 then 3 else 0

/-- A packet executed whose bytes have been fetched: it ends, stays, or stops its queue, as it also does where the ring slot it gives
back may not be written (R410, R424). -/
def State.execPacket (s : State) (n : Nat) (q : Queue) (bs : List Byte) (body : PacketBody) : State :=
  match body n q bs s with
  | .done s1 c intr => if q.cursor.index < c.index && !s.mayConsume q then s.stopQueue n 4 else s1.endPacket n c intr
  | .stay s1 => s1
  | .bad cause => s.stopQueue n cause

/-- Execute the next packet of a queue, if its type is one of those `own` takes: it is fetched, and others after it may be while it
executes (R425). A complex that has failed executes nothing. -/
def State.runPacket (s : State) (n : Nat) (own : List Byte → Bool) (body : PacketBody) : State :=
  match s.queue n with
  | none => s
  | some q =>
    if !s.firmware.alive || !q.valid || q.error || q.slot.isNone || q.skip ≠ 0 then s
    else match s.packetAt q q.cursor with
      | .error cause => s.stopQueue n cause
      | .ok none => s
      | .ok (some bs) =>
        if !own bs || (q.waits ≠ 0 && q.waits ≠ waitOf (packetType bs)) then s
        else
          let s1 := s.prefetch n 1
          match s1.queue n with
          | none => s
          | some q1 => s1.execPacket n q1 bs body

def ofType (ty : Nat) (bs : List Byte) : Bool := packetType bs == ty

/-! ### LAUNCH (R28, R417) -/

/-- The number that an RCB's bytes give, whatever else they say. -/
def State.rcbNumber (s : State) (c : Cap) : Nat := s.numAt (localOf (capCursor c.bits)) 4

/-- A refusal's completion (R417). -/
def refuseLaunch (q : Queue) (bs : List Byte) (code : Nat) (s : State) : Ran :=
  let off := numIn bs 16 8
  if off = allOnes64 then .done s q.cursor.next (intrOf bs)
  else match s.arena q off 8 permStore with
    | .error e => .bad e
    | .ok a => .done (s.storeNum a 8 (2 ^ 63 + code)) q.cursor.next (intrOf bs)

/-- LAUNCH: the record is judged, and an accepted one handed to its home distributor with a counter of 1. It waits while that holds
256 pending grids (R397; entry 78 of the log). -/
def launchPacket : PacketBody := fun n q bs s =>
  let rec_ := numIn bs 8 8
  let cpl := numIn bs 16 8
  if !packetClean bs 32 then .bad 2
  else if rec_ % 128 ≠ 0 || (cpl ≠ allOnes64 && (cpl % 8 ≠ 0 || !q.arena.covers (capCursor q.arena.bits + cpl) 8)) then .bad 3
  else match s.arena q rec_ 128 permLoad with
    | .error e => .bad e
    | .ok a =>
      match s.judge (.queue q.colour) (s.bytesAt a 128) ((List.range 8).map fun i => s.tags.contains (a / 16 + i)) with
      | .error code => refuseLaunch q bs code s
      | .ok x =>
        let env := envOf x.path
        if !x.path.any fun r => r.num == s.rcbNumber q.region then refuseLaunch q bs 16 s
        else if s.listFull (homeDie env.partition) then .stay s
        else
          let l : Launch :=
            { queue := n, index := q.cursor.index, counter := 1, home := homeDie env.partition, region := env.region,
              cpl := if cpl = allOnes64 then none else some cpl, cval := numIn bs 24 8, intr := intrOf bs, uids := [],
              regions := [], unruly := false }
          let key := s.nextUid
          let s1 := { s with nextUid := key + 1, launches := kset s.launches key l }
          .done (s1.addGrid x key (x.count = 1)) q.cursor.next (cpl = allOnes64 && intrOf bs)

/-- Whether every store of a launch's waves has been performed at system scope (R417). -/
def State.storesPerformed (s : State) (uids : NSet) : Bool :=
  s.cores.all (fun e => e.2.queue.all (fun p => !uids.contains p.uid) && (kvals e.2.waves).all fun w => !uids.contains w.uid)
    && s.remote.all (fun e => match e.2.owner with | .store u _ _ _ _ _ _ => !uids.contains u | _ => true)

/-- LAUNCH_RETIREMENT (R417): the counter is 0 and the stores are performed; the completion write, or the record of one that
could not be made. -/
def State.retireLaunch (s : State) (key : Nat) : State :=
  match kget s.launches key with
  | none => s
  | some l =>
    if l.counter ≠ 0 || !s.firmware.alive || !s.storesPerformed l.uids then s
    else
      let s1 := ({ s with launches := kdel s.launches key }).dropPriorities l.regions
      match s1.queue l.queue, l.cpl with
      | some q, some off =>
        let s2 := match s1.arena q off 8 permStore with
          | .ok a => s1.storeNum a 8 l.cval
          | .error _ => s1.queueRecord l.queue q (4 + 2 ^ 8) l.index
        if l.intr then { s2 with msix := (q.func, q.vec) :: s2.msix } else s2
      | _, _ => s1

/-! ### INDIRECT, PRED and LOOP (R418 to R420) -/

/-- INDIRECT. -/
def indirectPacket : PacketBody := fun n q bs s =>
  let off := numIn bs 8 8
  let count := numIn bs 16 8
  if !packetClean bs 24 || count = 0 || 65536 < count then .bad 2
  else if off % 64 ≠ 0 || !q.arena.covers (capCursor q.arena.bits + off) (64 * count) then .bad 3
  else if 2 ≤ q.cursor.frames.length then .bad 5
  else .stay (s.setQueue n { q with cursor := q.cursor.enter off count (intrOf bs), lastAt := s.now s.activeDie })

/-- The test of PRED and WAITMEM on an eight-byte word (R413). -/
def wordTest (cmp word mask value : Nat) : Bool :=
  let x := word &&& mask
  match cmp with
  | 0 => x == value
  | 1 => x != value
  | 2 => decide (x < value)
  | _ => decide (value ≤ x)

/-- PRED. In the ring its skip goes on packet by packet, as they are published. -/
def predPacket : PacketBody := fun n q bs s =>
  let addr := numIn bs 8 8
  let count := numIn bs 40 8
  if !packetClean bs 48 || 3 < numIn bs 32 8 || count = 0 || 65535 < count then .bad 2
  else if addr % 8 ≠ 0 then .bad 3
  else match s.arena q addr 8 permLoad with
    | .error e => .bad e
    | .ok a =>
      if wordTest (numIn bs 32 8) (s.numAt a 8) (numIn bs 24 8) (numIn bs 16 8) then .done s q.cursor.next (intrOf bs)
      else match q.cursor.frames with
        | [] => .done (s.setQueue n { q with skip := count }) q.cursor.next (intrOf bs)
        | _ => .done s (q.cursor.skipTo count) (intrOf bs)

/-- A ring packet that a PRED passes over, once it is published. -/
def State.passPacket (s : State) (n : Nat) : State :=
  match s.queue n with
  | none => s
  | some q =>
    if !s.firmware.alive || !q.valid || q.error || q.slot.isNone then s
    else match s.packetAt q q.cursor with
      | .error cause => s.stopQueue n cause
      | .ok none => s
      | .ok (some _) =>
        if !s.mayConsume q then s.stopQueue n 4
        else
        let s1 := s.consume q q.cursor.index
        (s1.setQueue n { q with cursor := q.cursor.next, skip := q.skip - 1, lastAt := s.now s.activeDie,
                                fetched := q.fetched.filter fun e => e.1 != q.cursor })

/-- LOOP. -/
def loopPacketBody : PacketBody := fun _ q bs s =>
  let len := numIn bs 8 8
  let times := numIn bs 16 8
  if !packetClean bs 24 || len = 0 || 16 < len || times = 0 || 2 ^ 32 - 1 < times then .bad 2
  else match q.cursor.frames with
    | [] => .bad 6
    | f :: _ =>
      if f.loop.isSome || f.count < f.pos + 1 + len then .bad 6
      else .done s (q.cursor.loop len times) (intrOf bs)

/-! ### WAITMEM, WRITE, SIGNAL, FETCHFENCE, DRAIN and NOP (R421, R422, R426) -/

/-- WAITMEM: it ends once its test holds. -/
def waitmemPacket : PacketBody := fun n q bs s =>
  let addr := numIn bs 8 8
  if !packetClean bs 48 || 3 < numIn bs 32 8 then .bad 2
  else if addr % 8 ≠ 0 then .bad 3
  else match s.arena q addr 8 permLoad with
    | .error e => .bad e
    | .ok a =>
      if wordTest (numIn bs 32 8) (s.numAt a 8) (numIn bs 24 8) (numIn bs 16 8) then .done s q.cursor.next (intrOf bs)
      else if q.waits = 1 then .stay s
      else .stay (s.setQueue n { q with waits := 1, waited := 0, since := s.now s.activeDie })

/-- WAITMEM_TIMEOUT: queue error 7 (R421). -/
def State.timeoutQueue (s : State) (n : Nat) : State :=
  match s.queue n with
  | none => s
  | some q =>
    match s.packetAt q q.cursor with
    | .ok (some bs) =>
      let limit := numIn bs 40 8
      if !s.firmware.alive || q.error || q.slot.isNone || q.waits ≠ 1 || limit = 0
          || q.waited + (s.now s.activeDie - q.since) < limit * microsecond then s
      else match s.arena q (numIn bs 8 8) 8 permLoad with
        | .error e => s.stopQueue n e
        | .ok a =>
          if wordTest (numIn bs 32 8) (s.numAt a 8) (numIn bs 24 8) (numIn bs 16 8) then s else s.stopQueue n 7
    | _ => s

/-- WRITE: one access of four or eight bytes. -/
def writePacketBody : PacketBody := fun _ q bs s =>
  let addr := numIn bs 8 8
  let size := if numIn bs 24 8 = 0 then 4 else 8
  if !packetClean bs 32 || 1 < numIn bs 24 8 then .bad 2
  else if addr % size ≠ 0 then .bad 3
  else match s.arena q addr size permStore with
    | .error e => .bad e
    | .ok a => .done (s.storeNum a size (numIn bs 16 8)) q.cursor.next (intrOf bs)

/-- SIGNAL. -/
def signalPacket : PacketBody := fun _ q bs s =>
  if !packetClean bs 16 || 2047 < numIn bs 8 8 then .bad 2
  else .done { s with msix := (q.func, numIn bs 8 8) :: s.msix } q.cursor.next (intrOf bs)

/-- FETCHFENCE: what was fetched is fetched again. -/
def fetchfencePacket : PacketBody := fun n q bs s =>
  if !packetClean bs 8 then .bad 2 else .done (s.setQueue n { q with fetched := [] }) q.cursor.next (intrOf bs)

/-- DRAIN: it ends when no LAUNCH of the queue is left to retire. -/
def drainPacket : PacketBody := fun n q bs s =>
  if !packetClean bs 8 then .bad 2
  else if s.launches.any fun e => e.2.queue == n then .stay (s.setQueue n { q with waits := 2 })
  else .done s q.cursor.next (intrOf bs)

/-- NOP, and what no packet is: queue error 1 (R413, R418). -/
def nopPacketBody : PacketBody := fun _ q bs s =>
  if packetType bs ≠ 11 then .bad 1
  else if !packetClean bs 8 then .bad 2
  else .done s q.cursor.next (intrOf bs)

/-! ### REGION (R423) -/

/-- The operation of a REGION packet. -/
def regionOp (bs : List Byte) : Nat := numIn bs 16 1

/-- A REGION packet's fields in order. -/
def regionFields (bs : List Byte) : Bool :=
  let op := numIn bs 16 8
  packetClean bs 40 && regionOp bs ≤ 3 && op / 2 ^ 12 == 0 && (regionOp bs = 3 || op / 2 ^ 8 == 0)
    && (regionOp bs = 1 || regionOp bs = 2 || numIn bs 24 8 == allOnes64)

/-- The region that a REGION packet names: its capability and path, or a queue error. -/
def State.regionNamed (s : State) (q : Queue) (bs : List Byte) : Except Nat (Cap × List Rcb) :=
  let off := numIn bs 8 8
  let cpl := numIn bs 24 8
  if !regionFields bs then .error 2
  else if off % 16 ≠ 0 || (cpl ≠ allOnes64 && (cpl % 8 ≠ 0 || !q.arena.covers (capCursor q.arena.bits + cpl) 8)) then .error 3
  else match s.arena q off 16 permLoad with
    | .error e => .error e
    | .ok a =>
      let c := s.capAt a
      if !c.tag || capOtype c.bits ≠ 5 || capColour c.bits ≠ q.colour then .error 9
      else match s.readPath 8 c with
        | none => .error 9
        | some path => if s.pathValid path then .ok (c, path) else .error 9

/-- REGION SET. It also finds an OP above 3. -/
def regionSetPacket : PacketBody := fun n q bs s =>
  match s.regionNamed q bs with
  | .error e => .bad e
  | .ok (c, path) => .done ((s.noteRegions path).setQueue n { q with regionSet := some c }) q.cursor.next (intrOf bs)

/-- REGION PRIO (R391). -/
def regionPrioPacket : PacketBody := fun _ q bs s =>
  match s.regionNamed q bs with
  | .error e => .bad e
  | .ok (_, path) =>
    let s1 := s.noteRegions path
    let r := match path with | r :: _ => r.num | [] => 0
    .done { s1 with regions := kmod s1.regions r fun x => { x with prioSet := some (numIn bs 17 1 % 16) } }
      q.cursor.next (intrOf bs)

/-- The completion of a SAVE or RESTORE (R423): 0 for success, else a reason of R380. -/
def regionDone (q : Queue) (bs : List Byte) (reason : Nat) (s : State) : Ran :=
  let off := numIn bs 24 8
  if off = allOnes64 then .done s q.cursor.next (intrOf bs)
  else match s.arena q off 8 permStore with
    | .error e => .bad e
    | .ok a => .done (s.storeNum a 8 (if reason = 0 then numIn bs 32 8 else 2 ^ 63 + reason)) q.cursor.next (intrOf bs)

/-- The region whose save or restore a queue waits for. -/
def State.waitedRegion (s : State) (n : Nat) : Option (Nat × Region) := s.regions.find? fun e => e.2.client == some n

/-- REGION SAVE and RESTORE: the request, and once the save engine has answered, the completion. -/
def regionMove (restore : Bool) : PacketBody := fun n q bs s =>
  if q.waits = 3 then
    match s.waitedRegion n with
    | none => regionDone q bs 1 s
    | some (k, r) =>
      match r.answer with
      | none => .stay s
      | some reason =>
        regionDone q bs reason { s with regions := kset s.regions k { r with client := none, answer := none } }
  else match s.regionNamed q bs with
    | .error e => .bad e
    | .ok (_, path) =>
      let s1 := s.noteRegions path
      let k := match path with | r :: _ => r.num | [] => 0
      match kget s1.regions k with
      | none => .stay s
      | some r =>
        let saved := match r.image with
          | some a => (match kget s1.images a with | some x => x.state == 2 | none => false)
          | none => false
        if r.client.isSome || (restore && r.why ≠ 0) || (!restore && s1.restoring k) then .stay s
        else if !restore && saved then regionDone q bs 0 s1
        else
          let r1 := { r with client := some n, answer := none, why := if !restore && r.why < 2 then 2 else r.why }
          .stay (({ s1 with regions := kset s1.regions k r1 }).setQueue n { q with waits := 3, since := s.now s.activeDie })

/-! ### The hardware queue scheduler (R427 to R429, R433) -/

/-- Whether a queue is ready (R427). -/
def State.queueReady (s : State) (q : Queue) : Bool :=
  q.valid && !q.error && (q.doorbell || !q.cursor.frames.isEmpty || q.waits != 0 ||
    match s.readPacket q { index := q.cursor.index, frames := [] } with
    | .ok (some _) => true
    | _ => false)

/-- Whether a mapped queue is idle (R427). -/
def State.queueIdle (s : State) (q : Queue) : Bool :=
  q.waits == 0 && decide (q.lastAt + 64 * microsecond ≤ s.now s.activeDie)
    && decide (q.mappedAt + 64 * microsecond ≤ s.now s.activeDie)

/-- Whether one waiting queue takes a slot before another (R429). -/
def queueBefore (n : Nat) (q : Queue) (m : Nat) (p : Queue) : Bool :=
  p.prio < q.prio || (p.prio == q.prio && (q.served < p.served || (q.served == p.served && n < m)))

/-- Why a mapped queue may give its slot up: 0 idle, 1 waiting in WAITMEM, 2 its region's time slice used up (R428). -/
def State.victimClass (s : State) (q : Queue) : Option Nat :=
  if s.queueIdle q then some 0
  else if q.waits = 1 then some 1
  else match kget s.regions (s.rcbNumber q.region) with
    | some r => if r.slice ≠ 0 && q.mappedAt + r.slice * microsecond ≤ s.now s.activeDie then some 2 else none
    | none => none

/-- The queue that gives its slot up to one of a priority (R428). -/
def State.victimQueue (s : State) (prio : Nat) : Option (Nat × Queue) :=
  (s.queues.foldl (fun (best : Option (Nat × Queue × Nat)) (n, q) =>
    if q.slot.isNone || q.leaving || prio < q.prio then best
    else match s.victimClass q with
      | none => best
      | some k => match best with
        | none => some (n, q, k)
        | some (_, p, j) =>
          if q.prio < p.prio || (q.prio == p.prio && (k < j || (k == j && (q.served < p.served || q.served == p.served))))
          then some (n, q, k) else best) none).map fun (n, q, _) => (n, q)

/-- A queue on a slot. -/
def State.mapQueue (s : State) (n slot : Nat) : State :=
  match s.queue n with
  | none => s
  | some q =>
    let now := s.now s.activeDie
    (s.setQueue n { q with slot := some slot, mappedAt := now, lastAt := now, since := if q.waits = 1 then now else q.since })

def State.freeSlot (s : State) : Option Nat :=
  (List.range 64).find? fun i => !(s.queues.any fun e => e.2.slot == some i)

/-- QUEUE_MAP: a ready queue takes a free slot or a victim's; host-assisted, its readiness is recorded instead. -/
def State.scheduleQueue (s : State) (n : Nat) : State :=
  match s.queue n with
  | none => s
  | some q =>
    if !s.firmware.alive || q.slot.isSome || !s.queueReady q then s
    else if s.cpmode.testBit 0 then
      if q.announced then s
      else (s.setQueue n { q with announced := true }).putRecord
        [4 + 5 * 2 ^ 8 + s.activeDie * 2 ^ 16 + q.colour * 2 ^ 24, s.dieTime s.activeDie, 0, 0, 0, 0, n, 0]
    else if s.queues.any fun (m, p) => m != n && p.slot.isNone && s.queueReady p && queueBefore m p n q then s
    else match s.freeSlot with
      | some i => s.mapQueue n i
      | none =>
        match s.victimQueue q.prio with
        | none => s
        | some (m, p) =>
          if p.waits = 0 || p.waits = 1 then (s.unmapQueue m).mapQueue n (p.slot.getD 0)
          else s.setQueue m { p with leaving := true }

/-- QUEUE_IDLE: a mapped queue found idle forgets its doorbell. -/
def State.findIdle (s : State) (n : Nat) : State :=
  match s.queue n with
  | none => s
  | some q => if q.slot.isSome && s.queueIdle q && s.firmware.alive then s.setQueue n { q with doorbell := false } else s

/-- DOORBELL (R431). -/
def State.doorbell (s : State) (func n : Nat) : State :=
  match s.queue (n % 65536) with
  | some q =>
    if q.valid && q.func = func then s.setQueue (n % 65536) { q with doorbell := true }
    else { s with host := { s.host with dbdrop := kset s.host.dbdrop func ((kgetD s.host.dbdrop func 0 + 1) % 2 ^ 32) } }
  | none => { s with host := { s.host with dbdrop := kset s.host.dbdrop func ((kgetD s.host.dbdrop func 0 + 1) % 2 ^ 32) } }

/-- A host-assisted mapping (R433): the queue takes the slot named, if neither is taken. -/
def State.qmapMap (s : State) (v : Nat) : State :=
  let n := v % 65536
  let slot := field v 16 6
  match s.queue n with
  | none => s
  | some q =>
    if !s.cpmode.testBit 0 || !q.valid || q.slot.isSome || s.queues.any (fun e => e.2.slot == some slot) then s
    else s.mapQueue n slot

/-- A host-assisted unmapping, which waits for the end of a packet in progress. -/
def State.qmapUnmap (s : State) (v : Nat) : State :=
  let n := v % 65536
  match s.queue n with
  | none => s
  | some q =>
    if !s.cpmode.testBit 0 || q.slot.isNone then s
    else if q.waits ≠ 0 then s.setQueue n { q with leaving := true }
    else s.unmapQueue n

/-! ### Function-level reset (R434) -/

/-- The top-level regions that the queues of a function name. -/
def State.topsOf (s : State) (pick : Queue → Bool) : NSet :=
  s.queues.foldl (fun m (_, q) =>
    if !q.valid || !pick q then m
    else match kget s.regions (s.rcbNumber q.rcb) with
      | some r => nins m r.env.top
      | none => m) []

/-- FUNCTION_LEVEL_RESET. -/
def State.resetFunction (s : State) (func : Nat) : State :=
  let mine := s.topsOf fun q => q.func == func
  let others := s.topsOf fun q => q.func != func
  let tops := mine.filter fun t => !others.contains t
  let gone := s.queues.foldl (fun (m : NSet) (n, q) => if q.func = func then nins m n else m) []
  let s1 := gone.foldl (fun s n => (s.unmapQueue n)) s
  let s2 : State := { s1 with
    queues := s1.queues.map fun (n, q) => (n, if q.func = func then { q with valid := false, doorbell := false } else q)
    launches := s1.launches.filter fun e => !(gone.contains e.2.queue && match kget s1.regions e.2.region with
      | some r => tops.contains r.env.top
      | none => false)
    host := { s1.host with dbdrop := kdel s1.host.dbdrop func } }
  let ended := s1.launches.foldl (fun (m : NSet) (_, l) => if gone.contains l.queue then l.regions.foldl nins m else m) []
  tops.foldl (fun s t => s.discardPartition t) (s2.dropPriorities ended)

/-! ### The complexes (R15, R435, R438) -/

/-- Die of the complex that stands by. -/
def State.standbyDie (s : State) : Nat := if s.firmware.activeB then 8 else 9

/-- HEARTBEAT: every 100 µs. -/
def State.beat (s : State) : State :=
  let f := s.firmware
  if f.alive && f.lastBeat + 100 * microsecond ≤ s.now s.standbyDie then
    { s with firmware := { f with lastBeat := s.now s.standbyDie, beats := f.beats + 1 } }
  else s

/-- A queue as the complex of another die takes it over: its packets are fetched again, and the times it has measured go on, on that
die's counter (R5, R437, R438). -/
def Queue.handed (q : Queue) (old new : Nat) : Queue :=
  let moved (t : Nat) : Nat := t + new - old
  { q with fetched := [], since := moved q.since, lastAt := moved q.lastAt, mappedAt := moved q.mappedAt }

/-- The standby becomes active (R437, R438). -/
def State.handOver (s : State) : State :=
  { s with
    firmware := { s.firmware with activeB := !s.firmware.activeB, alive := true }
    queues := s.queues.map fun ((n, q) : Nat × Queue) => (n, q.handed (s.now s.activeDie) (s.now s.standbyDie)) }

/-- FIRMWARE_TAKEOVER: ten heartbeats missed (R438). -/
def State.takeOver (s : State) : State :=
  let f := s.firmware
  if f.standby && !f.alive && f.lastBeat + 1000 * microsecond ≤ s.now s.standbyDie then
    let s1 := s.handOver
    { s1 with firmware := { s1.firmware with standby := false, version := f.other, lastBeat := s.now s.activeDie } }
  else s

/-- ACTIVE_COMPLEX_FAILURE. -/
def State.failComplex (s : State) : State := { s with firmware := { s.firmware with alive := false } }

/-! ### The meanings -/

def execLaunch (queue : Nat) (s : State) : Host.Outcome State Fault Refusal :=
  .next (s.runPacket queue (ofType 1) launchPacket)
def execLaunchRetirement (launch : Nat) (s : State) : Host.Outcome State Fault Refusal := .next (s.retireLaunch launch)
def execIndirect (queue : Nat) (s : State) : Host.Outcome State Fault Refusal :=
  .next (s.runPacket queue (ofType 2) indirectPacket)
def execPred (queue : Nat) (s : State) : Host.Outcome State Fault Refusal :=
  .next (match s.queue queue with
    | some q => if q.skip = 0 then s.runPacket queue (ofType 3) predPacket else s.passPacket queue
    | none => s)
def execLoopPacket (queue : Nat) (s : State) : Host.Outcome State Fault Refusal :=
  .next (s.runPacket queue (ofType 4) loopPacketBody)
def execWaitmem (queue : Nat) (s : State) : Host.Outcome State Fault Refusal :=
  .next (s.runPacket queue (ofType 5) waitmemPacket)
def execWaitmemTimeout (queue : Nat) (s : State) : Host.Outcome State Fault Refusal := .next (s.timeoutQueue queue)
def execWritePacket (queue : Nat) (s : State) : Host.Outcome State Fault Refusal :=
  .next (s.runPacket queue (ofType 6) writePacketBody)
def execSignal (queue : Nat) (s : State) : Host.Outcome State Fault Refusal :=
  .next (s.runPacket queue (ofType 7) signalPacket)
def execFetchfence (queue : Nat) (s : State) : Host.Outcome State Fault Refusal :=
  .next (s.runPacket queue (ofType 8) fetchfencePacket)
def execDrain (queue : Nat) (s : State) : Host.Outcome State Fault Refusal :=
  .next (s.runPacket queue (ofType 9) drainPacket)
def execRegionSet (queue : Nat) (s : State) : Host.Outcome State Fault Refusal :=
  .next (s.runPacket queue (fun bs => ofType 10 bs && (regionOp bs == 0 || 3 < regionOp bs)) regionSetPacket)
def execRegionSave (queue : Nat) (s : State) : Host.Outcome State Fault Refusal :=
  .next (s.runPacket queue (fun bs => ofType 10 bs && regionOp bs == 1) (regionMove false))
def execRegionRestore (queue : Nat) (s : State) : Host.Outcome State Fault Refusal :=
  .next (s.runPacket queue (fun bs => ofType 10 bs && regionOp bs == 2) (regionMove true))
def execRegionPrio (queue : Nat) (s : State) : Host.Outcome State Fault Refusal :=
  .next (s.runPacket queue (fun bs => ofType 10 bs && regionOp bs == 3) regionPrioPacket)
def execNopPacket (queue : Nat) (s : State) : Host.Outcome State Fault Refusal :=
  .next (s.runPacket queue (fun bs => packetType bs == 0 || 11 ≤ packetType bs) nopPacketBody)
def execDoorbell (func : Nat) (value : Dword) (s : State) : Host.Outcome State Fault Refusal :=
  .next (s.doorbell func value.toNat)
def execQueueMap (queue : Nat) (s : State) : Host.Outcome State Fault Refusal := .next (s.scheduleQueue queue)
def execQueueIdle (queue : Nat) (s : State) : Host.Outcome State Fault Refusal := .next (s.findIdle queue)
def execQmapMap (value : Dword) (s : State) : Host.Outcome State Fault Refusal := .next (s.qmapMap value.toNat)
def execQmapUnmap (value : Dword) (s : State) : Host.Outcome State Fault Refusal := .next (s.qmapUnmap value.toNat)
def execCpmodeWrite (value : Dword) (s : State) : Host.Outcome State Fault Refusal :=
  .next { s with cpmode := value.toNat % 32 }
def execFunctionLevelReset (func : Nat) (s : State) : Host.Outcome State Fault Refusal := .next (s.resetFunction func)
def execHeartbeat (s : State) : Host.Outcome State Fault Refusal := .next s.beat
def execFirmwareTakeover (s : State) : Host.Outcome State Fault Refusal := .next s.takeOver
def execActiveComplexFailure (s : State) : Host.Outcome State Fault Refusal := .next s.failComplex

end Sys2Proof.Machine
end

