-- ==== Sys2Proof/Machine/Loess.lean ====
section
/-!
DEFINITION. The switch of the Loess fabric (R331 to R339): flits received, the requests of other devices served under the
tenant table, responses, the link's timers, and fabric launch packets. The payloads are those of entry 20 of the log.
-/

namespace Sys2Proof.Machine

/-! ### The link (R333, R338) -/

/-- The replay window once every flit up to a sequence number is acknowledged; an unknown number acknowledges none. -/
def ackWindow (w : List Flit) (ack : Nat) : List Flit :=
  if w.any fun f => f.seq.toNat == ack then (w.dropWhile fun f => f.seq.toNat != ack).drop 1 else w

/-- A flit that a port may not take: a reserved TYPE, a non-zero reserved field, or more payload than a flit holds. -/
def flitDiscarded (f : Flit) : Bool := f.reserved != 0 || 10 < f.kind.toNat || 208 < f.payload.length

/-- A flit received in order: the port's record of the link, and whether it is to be served. One that fails its CRC, or comes
out of order, is left to be replayed. -/
def State.receive (s : State) (p : Nat) (f : Flit) (kind : Nat) : Bool × State :=
  match kget s.ports p with
  | none => (false, s)
  | some q =>
    if !flitSound f || f.seq.toNat ≠ (q.ack + 1) % 65536 then (false, s)
    else
      let q1 := { q with ack := f.seq.toNat, window := ackWindow q.window f.ack.toNat, lastRx := s.now (portDie p) }
      if flitDiscarded f then (false, ({ s with ports := kset s.ports p { q1 with discarded := q1.discarded + 1 } } : State).pump p)
      else (f.kind.toNat == kind && f.ddev.toNat == s.devid, ({ s with ports := kset s.ports p q1 } : State).pump p)

/-- An acknowledgement that comes by itself (R338). -/
def State.receiveIdle (s : State) (p ack : Nat) : State :=
  State.pump { s with ports := kmod s.ports p fun q =>
    { q with window := ackWindow q.window (ack % 65536), lastRx := s.now (portDie p) } } p

/-- An idle flit once nothing has been sent for 0.5 µs. It is not kept for a replay; its SEQ is not stated. -/
def State.sendIdle (s : State) (p : Nat) : State :=
  match kget s.ports p with
  | none => s
  | some q =>
    if s.now (portDie p) < q.lastTx + microsecond / 2 then s
    else
      let f := flitSealed { flitOf s 0 0 0xFF 0 0 [] 0 0 with
        seq := (Config.freeWord s.tick p 0).setWidth 16, ack := BitVec.ofNat 16 q.ack }
      { s with ports := kset s.ports p { q with sent := f :: q.sent, lastTx := s.now (portDie p) } }

/-- The flits from one after an acknowledged number on sent again. -/
def State.replay (s : State) (p ack : Nat) : State :=
  State.pump { s with ports := kmod s.ports p fun q =>
    let w := ackWindow q.window (ack % 65536)
    { q with window := w, sent := w.reverse ++ q.sent, lastTx := s.now (portDie p) } } p

/-! ### The tenant table and capabilities received (R332, R334) -/

/-- The tenant-table entry of a device and colour. -/
def State.tenant (s : State) (dev col : Nat) : Nat := kgetD s.tenants (256 * dev + col) 0

def tenantColour (e : Nat) : Nat := field e 8 8
def tenantData (e : Nat) : Bool := e.testBit 7
def tenantLaunch (e : Nat) : Bool := e.testBit 6

/-- The entry under which a flit is handled. -/
def State.entryOf (s : State) (f : Flit) : Nat := s.tenant f.sdev.toNat f.col.toNat

/-- Whether a flit's accesses are accepted. -/
def State.accepts (s : State) (f : Flit) : Bool :=
  f.col != 0 && tenantColour (s.entryOf f) != 0 && tenantData (s.entryOf f)

/-- The second payload unit as received, with its tag: a capability takes its OTYPE back, and the local colour. No value keeps its tag
with OTYPE 3. -/
def State.unsealed (s : State) (f : Flit) : List Byte × Bool :=
  let bs := (f.payload.drop 16).take 16
  if !f.ctag.getLsbD 1 then (bs, false)
  else
    let v := BitVec.ofNat 128 (ofBytes bs)
    let v1 := setField (setField v 64 6 (field f.cot.toNat 6 6)) 56 8 (tenantColour (s.entryOf f))
    (toBytes 16 v1.toNat, s.accepts f && field f.cot.toNat 6 6 != 3)

/-! ### Replies -/

/-- The colour of a response: that of the entry, or where it names none the request's own. -/
def State.replyColour (s : State) (f : Flit) : Nat :=
  let col := tenantColour (s.entryOf f)
  if col = 0 then f.col.toNat else col

/-- A response toward the device a flit came from: by a port that reaches it, else by the port it came by. None is sent at colour 0,
which never crosses (R332). -/
def State.reply (s : State) (p : Nat) (f : Flit) (kind : Nat) (payload : List Byte) (ctag : BitVec 13) (cot : BitVec 78) :
    State :=
  if s.replyColour f = 0 then s
  else s.sendFlit ((s.route f.sdev.toNat).getD p)
    (flitOf s f.sdev.toNat (s.replyColour f) 0xFF kind f.rtag.toNat payload ctag cot)

/-- The first unit of a response: its failure code, the poisoned units, and a flit's place among the response's flits. -/
def replyHead (code units place : Nat) : List Byte :=
  toBytes 1 code ++ toBytes 1 units ++ toBytes 1 place ++ toBytes 13 0

/-- The poisoned ones among the 64-byte units that `n` bytes from `a` touch, bit i for the i-th. -/
def State.poisonUnits (s : State) (a n : Nat) : Nat :=
  ((List.range ((a % 64 + n + 63) / 64)).map fun i => if s.poison.contains (a / 64 + i) then 2 ^ i else 0).sum

/-! ### Requests served (R333 to R337) -/

/-- A remote access to local memory: the failure code of the first check that fails (R194, R335). A device register counts as
unmapped. -/
def State.remoteCheck (s : State) (colour cls a n : Nat) : Option Nat :=
  if rangeOf a == .device then some 3 else (s.mapCheck ⟨colour, none⟩ colour cls a n).map failureOf

/-- The name under which a parked request asks for pages. -/
def flitPageUid (f : Flit) : Nat := 2 ^ 65 + f.sdev.toNat * 2 ^ 40 + f.rtag.toNat

/-- The pages of a remote access to the host window. -/
def State.flitPages (s : State) (f : Flit) (a n : Nat) : Paged :=
  if rangeOf a == .host then s.paged (flitPageUid f) none (s.missingPages a n) else .ready

/-- What serving a request comes to: it is answered, or waits for a page. -/
inductive Served where
  | answered (s : State)
  | waits (s : State)
deriving DecidableEq, Repr

/-- A read (R333). -/
def State.serveRead (s : State) (p : Nat) (f : Flit) : Served :=
  let a := numIn f.payload 0 8
  let n := numIn f.payload 8 2
  let fail (s : State) (code : Nat) : Served := .answered (s.reply p f 2 (replyHead code 0 0) 0 0)
  if !s.accepts f then fail s 2
  else match s.remoteCheck (tenantColour (s.entryOf f)) (numIn f.payload 10 1) a n with
    | some code => fail s code
    | none =>
      match s.flitPages f a n with
      | .waits s1 => .waits s1
      | .failed s1 => fail s1 3
      | .ready =>
        let head := replyHead 0 (s.poisonUnits a n) 0
        if numIn f.payload 11 1 = 1 && n = 16 && a % 16 = 0 && s.tags.contains (a / 16) then
          let (v, cot) := fabricSeal (s.capAt a).bits
          .answered (s.reply p f 2 (head ++ toBytes 16 v.toNat) 2 cot)
        else .answered (s.reply p f 2 (head ++ s.bytesAt a n) 0 0)

/-- A write (R333). The units it names poisoned become so (R325). -/
def State.serveWrite (s : State) (p : Nat) (f : Flit) : Served :=
  let a := numIn f.payload 0 8
  let n := numIn f.payload 8 2
  let ack (s : State) (code : Nat) : Served := .answered (s.reply p f 4 (replyHead code 0 0) 0 0)
  if !s.accepts f then ack s 2
  else match s.remoteCheck (tenantColour (s.entryOf f)) (numIn f.payload 10 1) a n with
    | some code => ack s code
    | none =>
      match s.flitPages f a n with
      | .waits s1 => .waits s1
      | .failed s1 => ack s1 3
      | .ready =>
        let (v, tag) := s.unsealed f
        let bs := (f.payload.drop 16).take n
        let s1 :=
          if numIn f.payload 11 1 = 1 && n = 16 && a % 16 = 0 && rangeOf a == .hbm then s.storeCap a v tag
          else s.store a bs
        let units := (List.range ((a % 64 + n + 63) / 64)).filter fun i => (numIn f.payload 12 1).testBit i
        ack { s1 with poison := units.foldl (fun m i => nins m (a / 64 + i)) s1.poison } 0

/-- A line taken into the hot-word cache, the least recently used going back where all 256 are held (R337). -/
def State.heat (s : State) (line : Nat) : State := { s with hot := (line :: s.hot.filter (· != line)).take 256 }

/-- The key of a piece of a request or a response that takes several flits. -/
def pieceKey (f : Flit) (response : Bool) (i : Nat) : Nat :=
  (if response then 2 ^ 64 else 0) + (f.sdev.toNat * 2 ^ 40 + f.rtag.toNat) * 16 + i

/-- A flit of several kept; once all are here, their bytes in order. -/
def State.assemble (s : State) (f : Flit) (response : Bool) (place : Nat) : Option (List Byte) × State :=
  let count := max 1 (place / 16)
  let parts := kset s.partials (pieceKey f response (place % 16)) (f.payload.drop 16)
  let got := (List.range count).map fun i => kget parts (pieceKey f response i)
  if got.any (·.isNone) then (none, { s with partials := parts })
  else (some (got.flatMap fun x => x.getD []),
    { s with partials := (List.range count).foldl (fun m i => kdel m (pieceKey f response i)) parts })

/-- The chain of an atomic's operands (R270). -/
def chainOf (size code count : Nat) (bs : List Byte) : Chain :=
  let step := if code % 16 = 8 then 2 * size else size
  { size, float := code % 16 = 7, signed := code.testBit 4, code := code % 16,
    lanes := (List.range count).map fun i =>
      (i, numIn bs (step * i) size, if code % 16 = 8 then numIn bs (step * i + size) size else 0) }

/-- The flits of an atomic's response. -/
def State.replyOlds (s : State) (p : Nat) (f : Flit) (poison : Bool) (olds : List Byte) : State :=
  let count := max 1 ((olds.length + 191) / 192)
  (List.range count).foldl (fun s i =>
    s.reply p f 6 (replyHead 0 (if poison then 1 else 0) (i + 16 * count) ++ (olds.drop (192 * i)).take 192) 0 0) s

/-- An atomic applied indivisibly in the hot-word cache (R337): HBM only; a poisoned location takes no write. -/
def State.serveAtomic (s0 : State) (p : Nat) (f : Flit) : State :=
  match s0.assemble f false (numIn f.payload 13 1) with
  | (none, s) => s
  | (some bs, s) =>
    let a := numIn f.payload 0 8
    let n := numIn f.payload 8 2
    let fail (code : Nat) : State := s.reply p f 6 (replyHead code 0 16) 0 0
    if !s.accepts f then fail 2
    else if rangeOf a != .hbm then fail 3
    else match s.remoteCheck (tenantColour (s.entryOf f)) (numIn f.payload 10 1) a n with
      | some code => fail code
      | none =>
        let k := chainOf n (numIn f.payload 11 1) (numIn f.payload 12 1) bs
        if s.poisoned a n then s.replyOlds p f true (List.replicate (n * k.lanes.length) 0)
        else
          let (olds, m) := k.run (s.numAt a n)
          ((s.storeNum a n m).heat (a / 64)).replyOlds p f false (olds.flatMap fun x => toBytes n x.2)

/-- A request that came in, or one that waited, served; one that still waits is parked. -/
def State.serve (s : State) (p : Nat) (f : Flit) : State :=
  match if f.kind.toNat = 1 then s.serveRead p f else s.serveWrite p f with
  | .answered s1 => s1
  | .waits s1 => { s1 with parked := s1.parked ++ [(p, f)] }

/-- Every parked request tried again, in the order they came (R474). -/
def State.serveParked (s : State) : State :=
  s.parked.foldl (fun s e => s.serve e.1 e.2) { s with parked := [] }

/-- READ and WRITE. A request of no bytes, or of more than a flit carries, is discarded and counted. -/
def State.takeAccess (s0 : State) (p : Nat) (f : Flit) (kind : Nat) : State :=
  match s0.receive p f kind with
  | (false, s) => s
  | (true, s) =>
    let n := numIn f.payload 8 2
    if n = 0 || 192 < n || f.payload.length ≠ (if kind = 3 then 16 + n else 16) then
      { s with ports := kmod s.ports p fun q => { q with discarded := q.discarded + 1 } }
    else s.serve p f

/-- ATOMIC. -/
def State.takeAtomic (s0 : State) (p : Nat) (f : Flit) : State :=
  match s0.receive p f 5 with
  | (false, s) => s
  | (true, s) =>
    let n := numIn f.payload 8 2
    if (n ≠ 4 && n ≠ 8) || 8 < numIn f.payload 11 1 % 16 || 32 < numIn f.payload 12 1 then
      { s with ports := kmod s.ports p fun q => { q with discarded := q.discarded + 1 } }
    else s.serveAtomic p f

/-! ### Responses (R333, R335) -/

/-- A request's answer. -/
def State.answer (s : State) (rtag : Nat) (a : Answer) : State :=
  { s with remote := kmod s.remote rtag fun r => if r.answer.isNone then { r with answer := some a } else r }

/-- The request that a response returns to; one at colour 0 is refused (R332). -/
def State.requestOf (s : State) (f : Flit) : Option Remote :=
  match kget s.remote f.rtag.toNat with
  | some r => if r.dev = f.sdev.toNat && r.answer.isNone && f.col != 0 then some r else none
  | none => none

/-- READ_RESPONSE: bytes, with a capability's tag where it has one (R334, R469). -/
def State.takeReadResponse (s0 : State) (p : Nat) (f : Flit) : State :=
  match s0.receive p f 2 with
  | (false, s) => s
  | (true, s) =>
    match s.requestOf f with
    | none => s
    | some _ =>
      let (v, tag) := s.unsealed f
      let c := s.sweptCap ⟨BitVec.ofNat 128 (ofBytes v), tag⟩
      s.answer f.rtag.toNat
        { code := numIn f.payload 0 1, data := if f.ctag.getLsbD 1 then v else f.payload.drop 16, tag := c.tag,
          units := numIn f.payload 1 1 }

/-- A store's or RED's response: an acknowledgement, or a failure that is still to arrive at its wave (R224, R335). -/
def State.storeAnswered (s : State) (rtag : Nat) (r : Remote) (a : Answer) : State :=
  match r.owner with
  | .store uid stream serial _ _ _ _ =>
    if a.code = 0 then ({ s with remote := kdel s.remote rtag }).acknowledge uid stream serial else s.answer rtag a
  | _ => s.answer rtag a

/-- WRITE_ACKNOWLEDGEMENT. -/
def State.takeWriteAck (s0 : State) (p : Nat) (f : Flit) : State :=
  match s0.receive p f 4 with
  | (false, s) => s
  | (true, s) =>
    match s.requestOf f with
    | none => s
    | some r => s.storeAnswered f.rtag.toNat r (Answer.failed (numIn f.payload 0 1))

/-- ATOMIC_RESPONSE. -/
def State.takeAtomicResponse (s0 : State) (p : Nat) (f : Flit) : State :=
  match s0.receive p f 6 with
  | (false, s) => s
  | (true, s) =>
    match s.requestOf f with
    | none => s
    | some r =>
      match s.assemble f true (numIn f.payload 2 1) with
      | (none, s1) => s1
      | (some bs, s1) =>
        s1.storeAnswered f.rtag.toNat r
          { code := numIn f.payload 0 1, data := bs, tag := false, units := numIn f.payload 1 1 }

/-- Whether a request is a piece of one store. -/
def Remote.ofStore (r : Remote) (uid serial : Nat) : Bool :=
  match r.owner with | .store u _ n _ _ _ _ => u == uid && n == serial | _ => false

/-- Whether a piece of a store has not come to an end. -/
def State.storeOpen (s : State) (uid serial : Nat) : Bool :=
  (s.cores.any fun e => e.2.queue.any fun q => q.uid == uid && q.serial == serial)
    || s.remote.any fun e => e.2.ofStore uid serial && e.2.answer.isNone

/-- The failures of a store's pieces: device, code, lane and address. -/
def State.storeFailures (s : State) (uid serial : Nat) : List (Nat × Nat × Nat × Nat) :=
  s.remote.filterMap fun e => match e.2.owner, e.2.answer with
    | .store u _ n _ lane _ va, some a => if u == uid && n == serial then some (e.2.dev, a.code, lane, va) else none
    | _, _ => none

/-- The failure of the lowest lane (R336). -/
def lowestFailure : List (Nat × Nat × Nat × Nat) → Option (Nat × Nat × Nat × Nat)
  | [] => none
  | x :: xs => match lowestFailure xs with
    | some y => if y.2.2.1 < x.2.2.1 then some y else some x
    | none => some x

/-- REMOTE_FAULT_ARRIVAL: once every piece of a store has come to an end, its failure reaches its wave as one, that of the lowest
failing lane, and its stream's counter is lowered (R335, R336). Loads and atomics take theirs as their instruction completes. -/
def State.faultArrives (s : State) (rtag code : Nat) : State :=
  match kget s.remote rtag with
  | none => s
  | some r =>
    match r.owner, r.answer with
    | .store uid stream serial pc _ kind _, some a =>
      if a.code = 0 || a.code ≠ code || s.storeOpen uid serial then s
      else match lowestFailure (s.storeFailures uid serial) with
        | none => s
        | some (dev, worst, lane, va) =>
          (({ s with remote := s.remote.filter fun e => !e.2.ofStore uid serial }).remoteFault uid dev worst kind lane pc
            va).acknowledge uid stream serial
    | _, _ => s

/-! ### Timeouts (R338) -/

/-- Whether a port's link has been silent for 5 µs. -/
def State.linkSilent (s : State) (p : Nat) (q : Port) : Bool :=
  !q.failed && !q.reach.isEmpty && decide (q.lastRx + 5 * microsecond ≤ s.now (portDie p))

/-- Whether a flit is a request. -/
def flitIsRequest (f : Flit) : Bool := [1, 3, 5, 7, 8].contains f.kind.toNat

/-- A request of a failed link: sent again by another port that reaches its device, or failed with code 9. -/
def State.resend (s : State) (f : Flit) : State :=
  let dev := f.ddev.toNat
  match s.route dev with
  | some p =>
    let s1 := s.sendFlit p f
    if f.kind.toNat < 7 then
      { s1 with remote := kmod s1.remote f.rtag.toNat fun r => { r with port := p, sentAt := s.now (portDie p) } }
    else s1
  | none =>
    if f.kind.toNat < 7 then s.answer f.rtag.toNat (Answer.failed 9)
    else match s.member f.col.toNat (numIn f.payload 0 2) with
      | some (num, _) => s.failChannel num 9
      | none => s

/-- LINK_TIMEOUT. -/
def State.failLink (s : State) (p : Nat) : State :=
  match kget s.ports p with
  | none => s
  | some q =>
    if !s.linkSilent p q then s
    else
      let s1 := { s with ports := kset s.ports p { q with failed := true, window := [], queued := [] } }
      ((q.window ++ q.queued).filter flitIsRequest).foldl State.resend s1

/-- SWITCH_TIMEOUT: 50 µs without a response since the request left, on a link that is not itself overdue. -/
def State.switchTimeout (s : State) (rtag : Nat) : State :=
  match kget s.remote rtag with
  | none => s
  | some r =>
    let silent := match kget s.ports r.port with | some q => s.linkSilent r.port q | none => false
    let inside := s.ports.any fun e => e.2.queued.any fun f => f.rtag.toNat == rtag && [1, 3, 5].contains f.kind.toNat
    if r.answer.isSome || silent || inside || s.now (portDie r.port) < r.sentAt + 50 * microsecond then s
    else s.answer rtag (Answer.failed 10)

/-! ### Collectives and launches from the fabric (R327, R339) -/

/-- A collective's flit that the tenant table refuses: its member learns it by a control flit with code 2 (R332); a flit that only ends
a member is not answered. -/
def State.refuseGroup (s : State) (p : Nat) (f : Flit) (control : Bool) : State :=
  if control && numIn f.payload 11 5 != 0 then s else s.reply p f 8 (f.payload.take 11 ++ toBytes 5 2) 0 0

/-- COLLECTIVE_DATA and COLLECTIVE_CONTROL (R327, R332). -/
def State.takeCollective (s0 : State) (p : Nat) (f : Flit) (kind : Nat) : State :=
  match s0.receive p f kind with
  | (false, s) => s
  | (true, s) =>
    if s.accepts f then s.groupFlit (tenantColour (s.entryOf f)) (kind == 8) f.payload else s.refuseGroup p f (kind == 8)

/-- The queue that a launch packet reaches. -/
def State.launchTarget (s : State) (f : Flit) : Option (Nat × Queue) :=
  let e := s.entryOf f
  if f.col = 0 || tenantColour e = 0 || !tenantLaunch e || numIn f.payload 0 1 ≠ 1 || f.payload.length ≠ 64 then none
  else match kget s.launchQueues (field e 0 6) with
    | none => none
    | some l =>
      if !l.valid then none
      else match s.queue l.queue with
        | some q => if q.valid then some (l.queue, q) else none
        | none => none

/-- FORERUNNER_LAUNCH: the packet is appended by the producer protocol, or refused (R339, R414). -/
def State.takeLaunch (s0 : State) (p : Nat) (f : Flit) : State :=
  match s0.receive p f 9 with
  | (false, s) => s
  | (true, s) =>
    let refuse (s : State) (outcome : Nat) : State :=
      { (s.reply p f 4 (toBytes 8 outcome ++ toBytes 8 0) 0 0) with launchRefused := s.launchRefused + 1 }
    match s.launchTarget f with
    | none => refuse s 1
    | some (n, q) =>
      match s.indexBlock q with
      | none => refuse (s.stopQueue n 4) 1
      | some b =>
        let w := s.numAt b 8
        if 2 ^ q.size < w + 1 - s.numAt (b + 64) 8 then refuse s 2
        else match s.ringSlot q w with
          | none => refuse (s.stopQueue n 4) 1
          | some a =>
            let s1 := ((s.storeNum b 8 (w + 1)).store (a + 8) (f.payload.drop 8)).store a (f.payload.take 8)
            let s2 := s1.setQueue n { q with doorbell := true }
            s2.reply p f 4 (toBytes 16 0) 0 0

/-- LINK_CONTROL: only the link's own record. -/
def State.takeControl (s : State) (p : Nat) (f : Flit) : State := (s.receive p f 10).2

/-- FLIT_DISCARD: a flit that may not be taken, counted. -/
def State.discardFlit (s : State) (p : Nat) (f : Flit) : State := if flitDiscarded f then (s.receive p f 0).2 else s

/-! ### The meanings -/

def execRead (port : Nat) (flit : Flit) (s : State) : Host.Outcome State Fault Refusal := .next (s.takeAccess port flit 1)
def execReadResponse (port : Nat) (flit : Flit) (s : State) : Host.Outcome State Fault Refusal :=
  .next (s.takeReadResponse port flit)
def execWrite (port : Nat) (flit : Flit) (s : State) : Host.Outcome State Fault Refusal := .next (s.takeAccess port flit 3)
def execWriteAcknowledgement (port : Nat) (flit : Flit) (s : State) : Host.Outcome State Fault Refusal :=
  .next (s.takeWriteAck port flit)
def execAtomic (port : Nat) (flit : Flit) (s : State) : Host.Outcome State Fault Refusal := .next (s.takeAtomic port flit)
def execAtomicResponse (port : Nat) (flit : Flit) (s : State) : Host.Outcome State Fault Refusal :=
  .next (s.takeAtomicResponse port flit)
def execCollectiveData (port : Nat) (flit : Flit) (s : State) : Host.Outcome State Fault Refusal :=
  .next (s.takeCollective port flit 7)
def execCollectiveControl (port : Nat) (flit : Flit) (s : State) : Host.Outcome State Fault Refusal :=
  .next (s.takeCollective port flit 8)
def execForerunnerLaunch (port : Nat) (flit : Flit) (s : State) : Host.Outcome State Fault Refusal :=
  .next (s.takeLaunch port flit)
def execLinkControl (port : Nat) (flit : Flit) (s : State) : Host.Outcome State Fault Refusal :=
  .next (s.takeControl port flit)
def execLoessIdleFlit (port : Nat) (s : State) : Host.Outcome State Fault Refusal := .next (s.sendIdle port)
def execIdleFlitReceipt (port ack : Nat) (s : State) : Host.Outcome State Fault Refusal := .next (s.receiveIdle port ack)
def execFlitDiscard (port : Nat) (flit : Flit) (s : State) : Host.Outcome State Fault Refusal :=
  .next (s.discardFlit port flit)
def execFlitCrcReplay (port ack : Nat) (s : State) : Host.Outcome State Fault Refusal := .next (s.replay port ack)
def execLinkTimeout (port : Nat) (s : State) : Host.Outcome State Fault Refusal := .next (s.failLink port)
def execSwitchTimeout (rtag : Nat) (s : State) : Host.Outcome State Fault Refusal := .next (s.switchTimeout rtag)
def execRemoteFaultArrival (rtag code : Nat) (s : State) : Host.Outcome State Fault Refusal :=
  .next (s.faultArrives rtag code)

end Sys2Proof.Machine
end

