-- ==== Sys2Proof/Machine/Security.lean ====
section
/-!
DEFINITION. The security core (R439 to R455): proposals and their reasons, minting, the tables, attestation, live update of the
firmware complexes and the rollback counters.
-/

namespace Sys2Proof.Machine

/-! ### Granules and colours (R440 to R443) -/

/-- The first granule of the protected region, and the end of HBM. -/
def protectedGranule : Nat := 0x5E0000
def hbmGranules : Nat := 0x600000

def State.colourExists (s : State) (c : Nat) : Bool := (kget s.colours c).isSome

/-- How many granules satisfy a predicate: those with an entry of their own, and the untouched ones of the protected region. The
predicate fails on a free granule. -/
def State.countGranules (s : State) (f : Granule → Bool) : Nat :=
  let own := (s.kaolin.filter fun e => f e.2).length
  let changed := (s.kaolin.filter fun e => protectedGranule ≤ e.1).length
  own + if f (Granule.initial protectedGranule) then hbmGranules - protectedGranule - changed else 0

/-- The last sweeper pass that has completed (R467). -/
def State.passesDone (s : State) : Nat := if s.sweeper.running then s.sweeper.pass - 1 else s.sweeper.pass

/-- The pass that a revocation records (R445). -/
def State.revokePass (s : State) : Nat := if s.sweeper.running then s.sweeper.pass else s.sweeper.pass + 1

/-! ### Proposals (R444, R446) -/

/-- A proposal record's fields. -/
structure Proposal where
  op : Nat
  colour : Nat
  cls : Nat
  home : Nat
  pincg : Nat
  first : Nat
  count : Nat
  words : List Nat
deriving DecidableEq, Repr

def proposalOf (ws : List Dword) : Proposal :=
  let w (i : Nat) : Nat := (ws.getD i 0).toNat
  { op := field (w 0) 0 8, colour := field (w 0) 8 8, cls := field (w 0) 16 2, home := field (w 0) 18 2,
    pincg := field (w 0) 20 8, first := field (w 1) 0 32, count := field (w 1) 32 32,
    words := (List.range 8).map w }

def Proposal.word (p : Proposal) (i : Nat) : Nat := p.words.getD i 0

/-- Whether an operation names granules. -/
def Proposal.granules (p : Proposal) : Bool := 2 ≤ p.op && p.op ≤ 7

/-- The bits of PROP2 to PROP7 that an operation uses. -/
def Proposal.used (p : Proposal) (i : Nat) : Nat :=
  let all := allOnes64
  match p.op with
  | 0 => [0, 0, 1, all].getD i 0
  | 8 => [0, 0, 2 ^ 56 - 1, 2 ^ 48 - 1, 4095 + 63 * 2 ^ 16, all].getD i 0
  | 9 => [0, 0, 3, all, all, all].getD i 0
  | 10 => [0, 0, all, all, all, all, all].getD i 0
  | _ => 0

/-- Reason 1. A report's address that is no host-window address of R445 counts as malformed. -/
def Proposal.malformed (p : Proposal) : Bool :=
  p.word 0 / 2 ^ 28 != 0 || 10 < p.op || p.cls == 3
    || (if p.granules then p.count == 0 || 65536 < p.count else p.word 1 != 0)
    || [2, 3, 4, 5, 6, 7].any (fun i => p.word i &&& p.used i != p.word i)
    || (p.op == 10 && (p.word 6 % 64 != 0 || rangeOf (p.word 6) != .host || rangeOf (p.word 6 + 895) != .host))

/-- What a proposal comes to: a reason with INDEX, or the state it leaves. -/
inductive Verdict where
  | refused (reason index : Nat)
  | accepted (s : State)
deriving DecidableEq, Repr

/-- Whether a granule's STATE or REVOKED breaks an operation's requirement (R445). -/
def stateBad (op : Nat) (g : Granule) : Bool :=
  match op with
  | 2 => g.state != 0
  | 3 => g.state != 1 || g.revoked
  | 4 => g.state != 1 || !g.revoked
  | 5 | 6 => g.state != 1
  | _ => g.state != 3

/-- Whether the granule at an offset of the range fails for a reason (R446). In every LLC slice a pinned granule holds 256 of
1 MiB (R218, R219); each class-2 granule outside the protected region holds one leaf of the pool (R449). -/
def State.granuleFails (s : State) (p : Proposal) (pinned leaves reason i : Nat) : Bool :=
  let g := s.granuleNo (p.first + i)
  match reason with
  | 2 => protectedGranule ≤ p.first + i
  | 3 => stateBad p.op g
  | 4 => p.op != 2 && g.owner != p.colour
  | 5 => !s.colourExists p.colour
  | 6 => (p.op == 2 && p.cls == 0 && s.confidential p.colour) || (p.op == 5 && g.cls != p.cls)
  | 7 => (p.op == 2 || p.op == 5) &&
      ((p.home == 2 && (23 < p.pincg || s.product.off.contains p.pincg)) || (p.home == 1 && decide (4096 < pinned + i + 1)))
  | 8 => p.op == 2 && p.cls == 2 && decide (262144 < leaves + i + 1)
  | _ => (p.op == 4 || p.op == 7) && decide (s.passesDone < g.revpass + 1)

/-- The first reason that applies to a proposal over granules, with the first granule that fails for it. -/
def State.granuleReason (s : State) (p : Proposal) : Option (Nat × Nat) :=
  let outside (n : Nat) : Bool := n < p.first || p.first + p.count ≤ n
  let pinned := (s.kaolin.filter fun e => e.2.home == 1 && e.2.state != 0 && outside e.1).length
  let leaves := (s.kaolin.filter fun e => e.2.cls == 2 && e.2.state != 0 && e.1 < protectedGranule).length
  [2, 3, 4, 5, 6, 7, 8, 9].findSome? fun r =>
    ((List.range p.count).find? fun i => s.granuleFails p pinned leaves r i).map fun i => (r, i)

/-! ### Changes to granules (R445, R447, R448) -/

/-- The hot-word cache without the lines of some granules (R447). -/
def State.coolGranules (s : State) (first count : Nat) : State :=
  { s with hot := s.hot.filter fun l => l / 1024 < first || first + count ≤ l / 1024 }

/-- Granules scrubbed: zeros, no tag, no poison, and class-2 counters begun anew (R448). -/
def State.scrub (s : State) (first count : Nat) : State :=
  let keep (g : Nat) : Bool := g < first || first + count ≤ g
  { s with
    mem := s.mem.filter fun e => keep (e.1 / 65536)
    tags := s.tags.filter fun u => keep (u / 4096)
    poison := s.poison.filter fun u => keep (u / 1024)
    lineCount := s.lineCount.filter fun e => keep (e.1 / 1024) }

/-- VERSION raised by some changes. -/
def Granule.raise (g : Granule) (n : Nat) : Granule := { g with version := (g.version + n) % 2 ^ 32 }

/-- The entries of a proposal's granules changed. -/
def State.changeGranules (s : State) (p : Proposal) (f : Granule → Granule) : State :=
  { s with
    kaolin := (rangeFrom p.first p.count).foldl (fun m n => kset m n (f (kgetD m n (Granule.initial n)))) s.kaolin }

/-- ASSIGN: pending while scrubbed, then owned, which raises VERSION twice. -/
def State.assign (s : State) (p : Proposal) : State :=
  ((s.coolGranules p.first p.count).scrub p.first p.count).changeGranules p fun g =>
    { (g.raise 2) with state := 1, owner := p.colour, cls := p.cls, home := p.home, pincg := p.pincg, revoked := false,
                       revpass := 0 }

/-- REVOKE. -/
def State.revoke (s : State) (p : Proposal) : State :=
  let s1 := (s.coolGranules p.first p.count).changeGranules p fun g =>
    { (g.raise 1) with revoked := true, revpass := s.revokePass }
  { s1 with sweeper := { s1.sweeper with due := true } }

/-- RELEASE and UNQUAR: pending while scrubbed, then free. -/
def State.release (s : State) (p : Proposal) : State :=
  ((s.coolGranules p.first p.count).scrub p.first p.count).changeGranules p fun g =>
    { Granule.free with version := (g.raise 2).version }

/-- ATTR. -/
def State.attr (s : State) (p : Proposal) : State :=
  (s.coolGranules p.first p.count).changeGranules p fun g => { (g.raise 1) with home := p.home, pincg := p.pincg }

/-- QUAR. -/
def State.quarantine (s : State) (p : Proposal) : State :=
  (rangeFrom p.first p.count).foldl (fun s n => s.quarantineGranule n) (s.coolGranules p.first p.count)

/-- A proposal over granules. -/
def State.granuleProposal (apply : State → Proposal → State) (s : State) (p : Proposal) : Verdict :=
  match s.granuleReason p with
  | some (r, i) => .refused r i
  | none => .accepted (apply s p)

/-! ### Colours (R443) -/

/-- CREATE, with a generation drawn at random. -/
def State.createColour (s : State) (p : Proposal) : Verdict :=
  if s.colourExists p.colour then .refused 5 0
  else
    let c : Colour := { gen := Config.drawn s.tick, conf := (p.word 2).testBit 0, funcs := BitVec.ofNat 64 (p.word 3) }
    .accepted { s with colours := kset s.colours p.colour c }

/-- Whether anything still names a colour (R445): a granule, a valid queue, a tenant-table entry, or a launch-queue entry by its
queue. -/
def State.colourUsed (s : State) (c : Nat) : Bool :=
  c == 0 || s.kaolin.any (fun e => e.2.state != 0 && e.2.owner == c)
    || s.queues.any (fun e => e.2.valid && e.2.colour == c)
    || s.tenants.any (fun e => tenantColour e.2 == c)
    || s.launchQueues.any (fun e => e.2.valid && match s.queue e.2.queue with | some q => q.colour == c | none => false)

/-- DESTROY. -/
def State.destroyColour (s : State) (p : Proposal) : Verdict :=
  if !s.colourExists p.colour || s.colourUsed p.colour then .refused 5 0
  else .accepted { s with colours := kdel s.colours p.colour }

/-! ### MINT (R450) -/

/-- The granules that a range of bytes lies in; a range of none lies where it starts. -/
def mintGranules (base len : Nat) : List Nat := granulesOf base (max len 1)

/-- Whether a MINT's destination may be written. -/
def State.mintTo (s : State) (a : Nat) : Bool :=
  let g := s.granule a
  a % 16 == 0 && rangeOf a == .hbm && a / 65536 < protectedGranule && g.state == 1 && g.owner == 0

/-- The class of a minted capability, or the reason it may not be minted. -/
def State.mintClass (s : State) (p : Proposal) (otype base len perms : Nat) : Except Nat Nat :=
  let a := localOf base
  let remote := s.isRemote base
  if 16 ≤ otype then
    if base ≠ 0 || len ≠ 0 || perms &&& (permSeal ||| permUnseal ||| permGlobal) ≠ perms
        || perms &&& (permSeal ||| permUnseal) = 0 then .error 10
    else .ok 0
  else if remote then (if otype ≠ 5 && holds perms permRemote then .ok p.cls else .error 10)
  else if rangeOf a == .host || rangeOf a == .device then
    if rangeOf (a + max len 1 - 1) != rangeOf a || p.cls ≠ 0 || otype = 5 || holds perms permRemote then .error 10 else .ok 0
  else if (mintGranules a len).any (protectedGranule ≤ ·) then .error 2
  else
    let gs := (mintGranules a len).map s.granuleNo
    let cls := match gs with | g :: _ => g.cls | [] => 0
    if gs.any fun g => g.cls ≠ cls then .error 6
    else if holds perms permRemote then .error 10
    else if otype = 5 then
      if base % 256 = 0 && len = 256 && gs.all fun g => g.state = 1 && g.owner = 0 then .ok cls else .error 10
    else if gs.all fun g => g.state = 1 && g.owner = p.colour && !g.revoked then .ok cls
    else .error 10

/-- MINT. -/
def State.mint (s : State) (p : Proposal) : Verdict :=
  let base := p.word 2
  let len := p.word 3
  let perms := field (p.word 4) 0 12
  let otype := field (p.word 4) 16 6
  let dst := localOf (p.word 5)
  let kind := otype == 0 || otype == 2 || otype == 4 || otype == 5 || 16 ≤ otype
  let shape := if kind then s.mintClass p otype base len perms else .error 10
  if shape = .error 2 then .refused 2 0
  else if !s.colourExists p.colour then .refused 5 0
  else match shape, encodeBounds base len with
    | .error r, _ => .refused r 0
    | .ok _, none => .refused 10 0
    | .ok cls, some x =>
      if !x.exact || (holds perms permSystem && p.colour ≠ 0) || !s.mintTo dst then .refused 10 0
      else .accepted (s.storeCapV dst ⟨capMake x.lenm 0 x.exp cls perms otype p.colour base, true⟩)

/-! ### TABLE (R409, R451) -/

/-- Whether 64 bytes hold the four capabilities of a queue descriptor. -/
def State.descriptorOk (s : State) (ctrl a : Nat) : Bool :=
  let colour := field ctrl 40 8
  let size := field ctrl 12 5
  let ours (n : Nat) : Bool := rangeOf n == .hbm && (s.granule n).state == 1 && (s.granule n).owner == 0
  let good (c : Cap) : Bool := c.tag && capColour c.bits == colour
  colour != 0 && s.colourExists colour && 4 ≤ size && size ≤ 16 && a % 16 == 0 && ours a && ours (a + 63)
    && good (s.capAt a) && capOtype (s.capAt a).bits == 5
    && [16, 32, 48].all fun o =>
      let c := s.capAt (a + o)
      good c && capOtype c.bits == 0 && holds (capGrants c.bits) (permLoad ||| permStore)

/-- A queue's descriptor written: ERROR is 0 after it. A queue that was not valid starts at RDIDX in its initial region; one that
was keeps its place (R424). -/
def State.setDescriptor (s : State) (n ctrl a : Nat) : State :=
  let idx := s.capAt (a + 32)
  let rcb := s.capAt a
  let fresh : Queue :=
    { colour := 0, func := 0, vec := 0, prio := 0, size := 0, error := false, valid := false, rcb, ring := rcb, idx,
      arena := rcb, regionSet := none,
      cursor := { index := s.numAt (localOf (capCursor idx.bits) + 64) 8, frames := [] }, served := 0, slot := none,
      waits := 0, waited := 0, since := 0, fetched := [], doorbell := false, mappedAt := 0, lastAt := 0, leaving := false,
      skip := 0, announced := false, broken := false }
  let q := match s.queue n with
    | some q => if q.valid then q else { fresh with served := q.served }
    | none => fresh
  s.setQueue n { q with
    colour := field ctrl 40 8, func := field ctrl 34 6, vec := field ctrl 23 11, prio := field ctrl 19 4,
    size := field ctrl 12 5, error := false, valid := ctrl.testBit 0, rcb, ring := s.capAt (a + 16), idx,
    arena := s.capAt (a + 48) }

/-- TABLE. A queue descriptor with VALID 0 names no capabilities that matter. -/
def State.writeTable (s : State) (p : Proposal) : Verdict :=
  let i := p.word 3
  let v := p.word 4
  match p.word 2 with
  | 0 =>
    if 65536 ≤ i || 65536 ≤ v || p.word 5 ≠ 0 || (tenantColour v ≠ 0 && !s.colourExists (tenantColour v)) then .refused 11 0
    else .accepted { s with tenants := kput s.tenants i v 0 }
  | 1 =>
    if 65536 ≤ i || v / 2 ^ 48 ≠ 0 || field v 17 2 ≠ 0 || field v 2 10 ≠ 0
        || (v.testBit 0 && !s.descriptorOk v (p.word 5)) then .refused 11 0
    else .accepted (s.setDescriptor i v (p.word 5))
  | 2 =>
    if 64 ≤ i || 2 ^ 17 ≤ v || p.word 5 ≠ 0 then .refused 11 0
    else .accepted { s with launchQueues := kset s.launchQueues i { queue := v % 65536, valid := v.testBit 16 } }
  | _ => .refused 11 0

/-- Whether a TABLE proposal must wait: a queue's descriptor is written at a packet boundary, while the queue holds no slot. -/
def State.tableWaits (s : State) (p : Proposal) : Bool :=
  p.op == 9 && p.word 2 == 1 && match s.queue (p.word 3) with
    | some q => q.valid && (q.slot.isSome || (q.waits != 0 && !q.error))
    | none => false

/-! ### ATTEST (R454, R470) -/

/-- The pass bits of the self-test (R470). -/
def Product.selfTest (p : Product) : Nat :=
  ((List.range 82).filter fun b =>
    !p.badUnits.contains b && (b < 24 || 32 ≤ b) && !(56 ≤ b && b < 64) && !(b < 56 && p.fused.contains (b % 32))).foldl
    (fun n b => n + 2 ^ b) 0

/-- The PART field. -/
def Product.part (p : Product) : Nat :=
  (if p.formM then 1 else 0) + (if p.gradeB then 2 ^ 8 else 0) + (p.fused.foldl (fun n g => n + 2 ^ g) 0) * 2 ^ 16
    + p.stepping % 256 * 2 ^ 40

/-- The bytes of a part's hash (R432). -/
def deviceHash : Nat := 0x7A482E11C03D9B564F02A817E6D43C95

/-- Keys, measurements and signatures of a report: `n` bytes whose values the part alone computes, in a field of `size`. -/
def attested (s : State) (off n size : Nat) : List Byte :=
  (rangeFrom off n).map (Config.attestByte s.tick) ++ List.replicate (size - n) 0

/-- A report. -/
def State.report (s : State) (p : Proposal) : List Byte :=
  let conf := s.confidential p.colour
  let owned (cls : Nat) : Nat := s.countGranules fun g => g.state == 1 && g.owner == p.colour && g.cls == cls
  toBytes 8 (1 + 896 * 2 ^ 16) ++ toBytes 8 s.product.serial ++ toBytes 8 s.product.part ++ toBytes 16 deviceHash
    ++ (List.range 4).flatMap (fun i => toBytes 8 (p.word (2 + i)))
    ++ attested s 72 192 192 ++ toBytes 8 (s.product.rollback.getD 0 0) ++ toBytes 8 (s.product.rollback.getD 1 0)
    ++ toBytes 16 s.product.selfTest
    ++ toBytes 8 (p.colour + (if s.colourExists p.colour then 2 ^ 8 else 0) + if conf then 2 ^ 9 else 0)
    ++ [0, 1, 2].flatMap (fun c => toBytes 4 (owned c))
    ++ toBytes 4 (s.countGranules fun g => g.state == 3 && g.owner == p.colour)
    ++ attested s 320 57 64 ++ attested s 384 114 128 ++ attested s 512 57 64 ++ attested s 576 114 128
    ++ List.replicate 64 0 ++ attested s 768 114 128

/-- ATTEST. -/
def State.attest (s : State) (p : Proposal) : Verdict := .accepted (s.store (p.word 6) (s.report p))

/-! ### A proposal taken (R444) -/

/-- PRESULT. -/
def resultWord (reason index : Nat) : Dword := BitVec.ofNat 64 (index * 2 ^ 32 + 2 ^ 8 + reason)

/-- A submitted proposal answered, if its operation is one of those `own` takes: every check is made, and all of it is applied or
none. -/
def State.propose (s : State) (own : Nat → Bool) (apply : State → Proposal → Verdict) : State :=
  let p := proposalOf s.host.props
  if !s.host.submitted || !own p.op || s.tableWaits p then s
  else
    let finish (s : State) (r i : Nat) : State :=
      { s with host := { s.host with submitted := false, presult := resultWord r i } }
    if p.malformed then finish s 1 0
    else match apply s p with
      | .refused r i => finish s r i
      | .accepted s1 => finish s1 0 0

/-! ### Live update and rollback (R437, R452) -/

/-- An update that comes to nothing: the active complex continues. -/
def State.refuseUpdate (s : State) (reason : Nat) : State :=
  { s with
    firmware := { s.firmware with updReq := false, updating := false }
    host := { s.host with presult := if reason = 0 then s.host.presult else resultWord reason 0 } }

/-- LIVE_UPDATE: the staged image is verified and booted, imports the state table, and takes over; what ran before stands by. A
proposal in progress has its answer first. -/
def State.liveUpdate (s : State) : State :=
  let a := s.host.updaddr
  let v := Config.imageVersion a
  if !s.firmware.updReq || !s.firmware.alive || s.host.submitted then s
  else if !Config.imageSigned a then s.refuseUpdate 12
  else if v < s.product.rollback.getD 1 0 then s.refuseUpdate 13
  else if !Config.imageImports a then s.refuseUpdate 0
  else
    let old := s.firmware.version
    let s1 := s.handOver
    { s1 with firmware := { s1.firmware with updReq := false, updating := false, standby := true, version := v, other := old,
                                             lastBeat := s1.now s1.standbyDie } }

/-- ROLLBACK_RAISE: each counter to the version in force of its kind of image. -/
def State.raiseRollback (s : State) : State :=
  if !s.firmware.rollReq then s
  else
    let up (i v : Nat) : Nat := max (s.product.rollback.getD i 0) v
    { s with
      firmware := { s.firmware with rollReq := false }
      product := { s.product with rollback := [up 0 (s.product.versions.getD 0 0), up 1 s.firmware.version] } }

/-! ### The meanings -/

def execCreate (s : State) : Host.Outcome State Fault Refusal :=
  .next (s.propose (fun op => op == 0 || 10 < op) State.createColour)
def execDestroy (s : State) : Host.Outcome State Fault Refusal := .next (s.propose (· == 1) State.destroyColour)
def execAssign (s : State) : Host.Outcome State Fault Refusal :=
  .next (s.propose (· == 2) (State.granuleProposal State.assign))
def execRevoke (s : State) : Host.Outcome State Fault Refusal :=
  .next (s.propose (· == 3) (State.granuleProposal State.revoke))
def execRelease (s : State) : Host.Outcome State Fault Refusal :=
  .next (s.propose (· == 4) (State.granuleProposal State.release))
def execAttr (s : State) : Host.Outcome State Fault Refusal := .next (s.propose (· == 5) (State.granuleProposal State.attr))
def execQuar (s : State) : Host.Outcome State Fault Refusal :=
  .next (s.propose (· == 6) (State.granuleProposal State.quarantine))
def execUnquar (s : State) : Host.Outcome State Fault Refusal :=
  .next (s.propose (· == 7) (State.granuleProposal State.release))
def execMint (s : State) : Host.Outcome State Fault Refusal := .next (s.propose (· == 8) State.mint)
def execTable (s : State) : Host.Outcome State Fault Refusal := .next (s.propose (· == 9) State.writeTable)
def execAttest (s : State) : Host.Outcome State Fault Refusal := .next (s.propose (· == 10) State.attest)
def execLiveUpdate (s : State) : Host.Outcome State Fault Refusal := .next s.liveUpdate
def execRollbackRaise (s : State) : Host.Outcome State Fault Refusal := .next s.raiseRollback

end Sys2Proof.Machine
end

