-- ==== Sys2Proof/Machine/Audit.lean ====
section
/-!
DEFINITION. Sorrel and the sweeper (R457 to R469): re-executions and their comparison, tie-breaks, the suspicion registers, and
the passes that remove capabilities over revoked granules.
-/

namespace Sys2Proof.Machine

/-! ### Re-executions (R462) -/

/-- The cores of a partition that an audit's next execution may stand on. -/
def State.auditCores (s : State) (e : Env) (a : Audit) : List Nat :=
  e.partition.filter fun c =>
    c != a.core0 && !(a.stage == 3 && c == a.core1) && !s.product.off.contains (groupOf c) && !s.sorrel.quar.contains c

/-- An audit ended: its launch's counter falls. -/
def State.endAudit (s : State) (key : Nat) (a : Audit) : State :=
  (({ s with sorrel := { s.sorrel with audits := kdel s.sorrel.audits key } }).lowerCounter a.grid 1).dropGrid a.grid

/-- An audit that no core can carry on: skipped before its first execution, unresolved before the third (R462, R463). -/
def State.giveUpAudit (s : State) (key : Nat) (a : Audit) : State :=
  let q := s.sorrel
  let q1 := if a.stage = 0 then { q with skip := min 65535 (q.skip + 1) } else { q with unres := min 65535 (q.unres + 1) }
  ({ s with sorrel := q1 }).endAudit key a

/-- An audit's execution stood on a core, as a cluster of one block. -/
def State.standAudit (s : State) (key : Nat) (a : Audit) (g : Grid) (r : Region) (c : Nat) : State :=
  let s1 := if s.latchedTo c r.env.colour then s else s.latchCore c r.env.colour
  let uid := s1.nextUid
  let s2 := ({ s1 with nextUid := uid + 1 }).standBlock c a.grid g r.env a.index 0 uid (some key)
  let slot := match (s2.core c).blocks.find? fun e => e.2.audit == some key with | some e => e.1 | none => 0
  { s2 with
    clusters := kset s2.clusters uid { members := [(c, slot)], phase := 0, arrived := [], gone := [] }
    sorrel := { s2.sorrel with audits := kset s2.sorrel.audits key { a with stage := a.stage + 1 } } }

/-- The audits of a region in the order they were queued. -/
def State.auditsOf (s : State) (region : Nat) : KMap Audit :=
  s.sorrel.audits.filter fun e => match kget s.grids e.2.grid with | some g => g.region == region | none => false

/-- AUDIT_REEXECUTION: the first of a region's audits that waits for an execution is placed, while none of them runs one. -/
def State.runAudit (s : State) (region : Nat) : State :=
  match kget s.regions region with
  | none => s
  | some r =>
    let mine := s.auditsOf region
    if r.image.isSome || r.why ≠ 0 || s.sealedAway region || mine.any (fun e => e.2.stage == 1 || e.2.stage == 4) then s
    else match mine.find? fun e => e.2.stage == 0 || e.2.stage == 3 with
      | none => s
      | some (key, a) =>
        match kget s.grids a.grid with
        | none => s
        | some g =>
          let cs := s.auditCores r.env a
          if cs.isEmpty then s.giveUpAudit key a
          else match s.pickCores g.code g.kernel { r.env with partition := cs } true with
            | some (c :: _) => s.standAudit key a g r c
            | _ => s

/-! ### Comparison (R463, R464) -/

/-- Whether an audit's launch has broken an obligation of R458, so that its outcomes are undefined. -/
def State.unruly (s : State) (a : Audit) : Bool :=
  match (kget s.grids a.grid).bind fun g => kget s.launches g.launch with
  | some l => l.unruly
  | none => false

/-- AUDIT_COMPARISON: equal digests pass, and others call for a third execution. Which of the two it is, is undefined for a launch
that has broken its obligations (R458). -/
def State.compareAudit (s : State) (key : Nat) : State :=
  match kget s.sorrel.audits key with
  | none => s
  | some a =>
    if a.stage ≠ 2 then s
    else if if s.unruly a then Config.freeBit s.tick key else a.digest1 = some a.digest0 then
      ((s.moveScore a.core0 0 1).moveScore a.core1 0 1).endAudit key a
    else { s with sorrel := { s.sorrel with audits := kset s.sorrel.audits key { a with stage := 3 } } }

/-- The loss record of a primary that is outvoted: the launch's region and the block (R361, R456). -/
def State.primaryLost (s : State) (a : Audit) : State :=
  match kget s.grids a.grid with
  | none => s
  | some g =>
    let region := match kget s.launches g.launch with | some l => l.region | none => g.region
    let colour := match kget s.regions g.region with | some r => r.env.colour | none => 0
    s.putRecord [2 + 6 * 2 ^ 8 + 9 * 2 ^ 16 + colour * 2 ^ 24, s.dieTime 9, region, 0, 0, 0,
      if s.confidential colour then 0 else a.index, 0]

/-- AUDIT_TIE_BREAK: the third digest outvotes one of the two, or leaves the audit unresolved; which, is undefined for a launch that
has broken its obligations (R458). -/
def State.breakTie (s : State) (key : Nat) : State :=
  match kget s.sorrel.audits key with
  | none => s
  | some a =>
    if a.stage ≠ 5 then s
    else
    let third := Config.choice s.tick % 3
    if if s.unruly a then third = 0 else a.digest2 = some a.digest0 then (s.moveScore a.core1 256 0).endAudit key a
    else if if s.unruly a then third = 1 else a.digest2.isSome && a.digest2 = a.digest1 then
      ((s.moveScore a.core0 256 0).primaryLost a).endAudit key a
    else ({ s with sorrel := { s.sorrel with unres := min 65535 (s.sorrel.unres + 1) } }).endAudit key a

/-- CSCORE_CLR (R465, R466). -/
def State.clearScore (s : State) (core : Nat) (v : Dword) : State :=
  if v.getLsbD 17 then
    { s with sorrel := { s.sorrel with quar := ndel s.sorrel.quar core, scores := kdel s.sorrel.scores core } }
  else s

/-! ### The sweeper (R467, R468) -/

/-- A running command as the sweeper remembers it. -/
def commandKey (num inv : Nat) : Nat := num * 2 ^ 32 + inv

/-- A pass begun: its number, its revoked set, and the commands that run. -/
def State.startPass (s : State) : State :=
  { s with sweeper :=
      { pass := (s.sweeper.pass + 1) % 2 ^ 32, running := true
        revoked := (s.kaolin.filter fun e => e.2.revoked).map (·.1)
        chans := (s.channels.filter fun e => e.2.status == 1).map fun e => commandKey e.1 e.2.inv
        due := false, asked := false, endedAt := s.sweeper.endedAt } }

/-- Whether a pass may start: one was asked for, or a revocation makes one due in hardware mode. -/
def State.passDue (s : State) : Bool :=
  !s.sweeper.running && (s.sweeper.asked || (s.sweeper.due && !s.cpmode.testBit 2))

/-- SWREQ. -/
def State.requestPass (s : State) : State :=
  if s.sweeper.running then { s with sweeper := { s.sweeper with asked := true } } else s.startPass

/-- A capability with its tag cleared where its value satisfies `touch`. -/
def Cap.sweep (touch : BitVec 128 → Bool) (c : Cap) : Cap := ⟨c.bits, c.tag && !touch c.bits⟩

/-- A line of an L1 likewise. -/
def L1Line.sweep (touch : BitVec 128 → Bool) (x : L1Line) : L1Line :=
  { x with tags := (x.tags.zip (List.range x.tags.length)).map fun (t, i) =>
      t && !touch (BitVec.ofNat 128 (numIn x.bytes (16 * i) 16)) }

/-- A core likewise: its waves, its write queue and its L1. -/
def Core.sweep (touch : BitVec 128 → Bool) (k : Core) : Core :=
  { k with
    waves := k.waves.map fun ((n, w) : Nat × Wave) => (n, w.sweepAll touch)
    queue := k.queue.map fun q => { q with part := q.part.sweep touch }
    l1 := k.l1.map fun ((n, x) : Nat × L1Line) => (n, x.sweep touch) }

/-- A queue's capabilities, which the descriptor table holds in HBM, likewise. -/
def Queue.sweep (touch : BitVec 128 → Bool) (q : Queue) : Queue :=
  { q with rcb := q.rcb.sweep touch, ring := q.ring.sweep touch, idx := q.idx.sweep touch, arena := q.arena.sweep touch,
           regionSet := q.regionSet.map fun c => c.sweep touch }

/-- What the distributors hold of a grid likewise. -/
def Grid.sweep (touch : BitVec 128 → Bool) (g : Grid) : Grid :=
  { g with
    args := g.args.sweep touch
    plan := g.plan.map fun p =>
      { p with outs := p.outs.map fun ((i, c) : Nat × Cap) => (i, c.sweep touch), shadow := (p.shadow.1, p.shadow.2.sweep touch),
               ins := p.ins.map fun c => c.sweep touch } }

/-- A parked write of another device likewise: a touching capability is held as plain bytes. -/
def State.sweepParked (s : State) (f : Flit) : Flit :=
  let (bs, t) := s.unsealed f
  if t && s.touchesRevoked (BitVec.ofNat 128 (ofBytes bs)) then { f with payload := f.payload.take 16 ++ bs, ctag := 0 } else f

/-- Every tag of a capability that touches the revoked set cleared, in memory, registers, buffers and images. -/
def State.sweepAll (s : State) : State :=
  let touch := s.touchesRevoked
  let s1 := (kkeys s.images).foldl (fun s a => s.changeImage a fun x =>
    if x.state = 0 then x
    else { x with blocks := x.blocks.map fun b => { b with waves := b.waves.map fun w => w.sweepAll touch } }) s
  { s1 with
    tags := s1.tags.filter fun u => !((s1.granule (16 * u)).state == 1 && touch (s1.capAt (16 * u)).bits)
    cores := s1.cores.map fun ((n, k) : Nat × Core) => (n, k.sweep touch)
    queues := s1.queues.map fun ((n, q) : Nat × Queue) => (n, q.sweep touch)
    grids := s1.grids.map fun ((n, g) : Nat × Grid) => (n, g.sweep touch)
    parked := s1.parked.map fun ((p, f) : Nat × Flit) => (p, s.sweepParked f)
    remote := s1.remote.map fun ((n, r) : Nat × Remote) =>
      (n, { r with answer := r.answer.map fun a => { a with tag := a.tag && !touch (BitVec.ofNat 128 (ofBytes a.data)) } }) }

/-- Whether a piece writes memory of one of some granules. -/
def Part.writesIn (p : Part) (granules : List Nat) : Bool :=
  match p.home with
  | .mem a => granules.any fun g => a < 65536 * g + 65536 && 65536 * g < a + p.span
  | _ => false

/-- Whether a store that has passed its checks, of a wave that may still perform it, has yet to write one of some granules (R197).
An entry in an image is checked again at its restore (R377). -/
def State.storesIn (s : State) (granules : List Nat) : Bool :=
  s.cores.any fun e =>
    e.2.queue.any (fun q => q.part.writesIn granules) ||
      (!s.coreStopped e.1 && e.2.waves.any fun w => w.2.sb.any fun x => x.parts.any fun p => p.writesIn granules)

/-- Whether what a pass waits for has come: the commands that ran at its start have ended, no write is held, and, so that a store
completes before its granule is used again, none is on its way to a granule of the revoked set (R197, R468; entry 71 of the log). -/
def State.passReady (s : State) : Bool :=
  s.sweeper.running
    && s.channels.all (fun e => e.2.status != 1 || !s.sweeper.chans.contains (commandKey e.1 e.2.inv))
    && (s.images.all fun e => e.2.held.isEmpty) && !s.storesIn s.sweeper.revoked

/-- SWEEPER_PASS_COMPLETE: its record is of KIND 6. -/
def State.endPass (s : State) : State :=
  if !s.passReady then s
  else
    let s1 := s.sweepAll
    let s2 := { s1 with sweeper := { s1.sweeper with running := false, revoked := [], chans := [], endedAt := s.now 8 } }
    s2.putRecord [6 + 7 * 2 ^ 8 + 8 * 2 ^ 16, s.dieTime 8, 0, s.sweeper.pass * 2 ^ 32, 0, 0, 0, 0]

/-! ### The meanings -/

def execAuditReexecution (region : Nat) (s : State) : Host.Outcome State Fault Refusal := .next (s.runAudit region)
def execAuditComparison (audit : Nat) (s : State) : Host.Outcome State Fault Refusal := .next (s.compareAudit audit)
def execAuditTieBreak (audit : Nat) (s : State) : Host.Outcome State Fault Refusal := .next (s.breakTie audit)
def execCscoreClr (core : Nat) (value : Dword) (s : State) : Host.Outcome State Fault Refusal :=
  .next (s.clearScore core value)
def execSwreq (s : State) : Host.Outcome State Fault Refusal := .next s.requestPass
def execSweeperPassStart (s : State) : Host.Outcome State Fault Refusal := .next (if s.passDue then s.startPass else s)
def execSweeperPassComplete (s : State) : Host.Outcome State Fault Refusal := .next s.endPass

end Sys2Proof.Machine
end

