-- ==== Sys2Proof/Machine/Generator.lean ====
section
/-!
DEFINITION. The Chervil generator (R170 to R173).
-/

namespace Sys2Proof.Machine

/-- The four words of the generator's state. -/
structure Four where
  x0 : Word
  x1 : Word
  x2 : Word
  x3 : Word
deriving DecidableEq, Repr

def Four.ofBits (b : BitVec 128) : Four :=
  ⟨b.setWidth 32, (b >>> 32).setWidth 32, (b >>> 64).setWidth 32, (b >>> 96).setWidth 32⟩

/-- Word `i` of four. -/
def Four.word (x : Four) (i : Nat) : Word :=
  match i with
  | 0 => x.x0
  | 1 => x.x1
  | 2 => x.x2
  | _ => x.x3

/-- One round of chervil with round number `r` (R171). -/
def chervilRound (k : Four) (x : Four) (r : Nat) : Four :=
  let a := x.x0 + x.x1
  let d := (x.x3 ^^^ a).rotateLeft 13
  let c := x.x2 + d
  let b := (x.x1 ^^^ c).rotateLeft 17
  let a := a + b
  let d := (d ^^^ a).rotateLeft 5
  let c := c + d
  let b := (b ^^^ c).rotateLeft 11
  let rc : Word := BitVec.ofNat 32 (r + 1) * 0xB7E15163
  ⟨a ^^^ (k.word (r % 4) + rc), b ^^^ (k.word ((1 + r) % 4) + rc), c ^^^ (k.word ((2 + r) % 4) + rc),
   d ^^^ (k.word ((3 + r) % 4) + rc)⟩

/-- chervil (R171). -/
def chervil (key ctr : BitVec 128) : Four :=
  let k := Four.ofBits key
  let x := (List.range 10).foldl (chervilRound k) (Four.ofBits ctr)
  ⟨x.x0 + k.x0, x.x1 + k.x1, x.x2 + k.x2, x.x3 + k.x3⟩

/-- Lane `l`'s draw (R170). -/
def Wave.draw (w : Wave) (l : Nat) : Four := chervil w.rngK (w.rngC + BitVec.ofNat 128 l)

def Wave.advance (w : Wave) : Wave := { w with rngC := w.rngC + 32 }

/-- RNG (R173). -/
def rngBody (x : VArgs) : WaveBody := fun c w =>
  .ok (writeGroup c w x.d (2 ^ (x.sub % 4)) false tB32 fun k l => ((w.draw l).word k).toNat).advance

/-- RNGF (R173): an exact value in [0, 1). -/
def rngfBody (x : VArgs) : WaveBody := fun c w =>
  .ok (c.writeTy w x.d false x.ty fun l =>
    let y := w.draw l
    if x.ty = tF64 then fp64.roundTo 0 (.fin false (pairOf y.x0 y.x1 >>> 11).toNat (-53))
    else fp32.roundTo 0 (.fin false (y.x0 >>> 8).toNat (-24))).advance

/-- The 128 bits of a pair of group-wide registers. -/
def Ctx.readPair (c : Ctx) (w : Wave) (n : Nat) : BitVec 128 := c.readG w (n + 1) ++ c.readG w n

def rngadvBody (x : VArgs) : WaveBody := fun c w => .ok { w with rngC := w.rngC + c.readPair w x.a }
def rngldBody (x : VArgs) : WaveBody := fun c w => .ok { w with rngK := c.readPair w x.a, rngC := c.readPair w x.b }

def rngstBody (x : VArgs) : WaveBody := fun _ w =>
  .ok (w.setBank (w.bank.writePair64 x.d (if x.sub = 0 then w.rngC else w.rngK)))

/-- RNGQ (R173). -/
def rngqBody (x : VArgs) : WaveBody := fun c w =>
  .ok (c.writeTy w x.d false tB32 fun l =>
    ((chervil w.rngK (w.rngC + (c.lane w x.b l).setWidth 128)).word x.sub).toNat)

def execRng (f : VF) (s : State) := issueLocal (Instr.rng f).view (encode (.rng f)) (rngBody (f.args .rng false)) s
def execRngf (f : VF) (s : State) := issueLocal (Instr.rngf f).view (encode (.rngf f)) (rngfBody (f.args .rngf false)) s
def execRngadv (f : VF) (s : State) :=
  issueLocal (Instr.rngadv f).view (encode (.rngadv f)) (rngadvBody (f.args .rngadv false)) s
def execRngld (f : VF) (s : State) :=
  issueLocal (Instr.rngld f).view (encode (.rngld f)) (rngldBody (f.args .rngld false)) s
def execRngst (f : VF) (s : State) :=
  issueLocal (Instr.rngst f).view (encode (.rngst f)) (rngstBody (f.args .rngst false)) s
def execRngq (f : VF) (s : State) := issueLocal (Instr.rngq f).view (encode (.rngq f)) (rngqBody (f.args .rngq false)) s

end Sys2Proof.Machine
end

