-- ==== Sys2Proof/Machine/GroupWide.lean ====
section
/-!
DEFINITION. The group-wide class (R57, R129, R168): the vector operations that have a group-wide meaning, once per wave
on g and q registers.
-/

namespace Sys2Proof.Machine

/-- A group-wide source as TYPE has it: all 64 bits, or the low 32 (R129). -/
def Ctx.groupBits (c : Ctx) (w : Wave) (ty n : Nat) : Nat := (c.readG w n).toNat % 2 ^ tyBits ty

/-- Operand B: a register or the extended immediate (R44, R129). -/
def Ctx.groupB (c : Ctx) (w : Wave) (x : VArgs) : Nat :=
  match x.imm with
  | some i => (immWide x.ty i).toNat % 2 ^ tyBits x.ty
  | none => c.groupBits w x.ty x.b

/-- A count, descriptor or exponent: 32 bits untyped (R128). -/
def Ctx.groupCount (c : Ctx) (w : Wave) (x : VArgs) : Nat :=
  match x.imm with
  | some i => i.toNat
  | none => c.groupBits w tB32 x.b

/-- An operation of the class (R129). A 32-bit result clears the high half of its register. -/
def groupBody (x : VArgs) : WaveBody := fun c w =>
  let a := c.groupBits w x.ty x.a
  let b := c.groupB w x
  let z := c.groupBits w x.ty x.c
  .ok (
    match x.op with
    | .icmp => c.writeQ w x.d (intCond x.sub (tyVal x.ty a) (tyVal x.ty b))
    | .fcmp => c.writeQ w x.d (fcmpOf x a b)
    | .fclass => c.writeG w x.d (BitVec.ofNat 64 (classOf x.ty a))
    | _ =>
      if 0x30 ≤ x.op.code then
        c.writeG w x.d (BitVec.ofNat 64 (floatElems x (modeOf w x.round) a b z (c.groupCount w x)))
      else
        c.writeG w x.d (BitVec.ofNat 64 (intOf x.op x.ty x.sub x.sat a b
          (if x.op == .prmb && x.imm.isSome then 0 else z) (c.groupCount w x) (c.groupBits w tB32 x.c))))

/-- The fields of a group-wide form. -/
def GwForm.args : GwForm → VArgs
  | .reg op f => f.args op true
  | .imm op f => f.args op true

/-- CVT of group-wide registers (R145): scalar types only. -/
def cvtGroupBody (x : VArgs) : WaveBody := fun c w =>
  .ok (c.writeG w x.d (BitVec.ofNat 64 (cvtOf x (modeOf w x.round) (c.groupBits w x.cvtSrc x.a) 0)))

def execGroupWideAlu (f : GwForm) (s : State) :=
  issueLocal (Instr.groupWideAlu f).view (encode (.groupWideAlu f)) (groupBody (GwForm.args f)) s

def execCvtGroupWide (f : VF) (s : State) :=
  issueLocal (Instr.cvtGroupWide f).view (encode (.cvtGroupWide f)) (cvtGroupBody (f.args .cvt true)) s

end Sys2Proof.Machine
end

