-- ==== Sys2Proof/Machine/Host.lean ====
section
/-!
DEFINITION. The halt line's arrival (R360, R361), the debugger (R358, R475), page requests (R474), the device registers (R444,
R466, R475), the HBM aperture (R449), power (R479), reset, freeze and power loss (R480, R481).
-/

namespace Sys2Proof.Machine

/-! ### The halt line (R31, R360, R361) -/

/-- Whether an engine serves a partition. -/
def servesPartition (cores : List Nat) : EngineId → Bool
  | .waveCore c | .matrix c => cores.contains c
  | .copy g | .save g => cores.any fun c => groupOf c == g
  | .distributor d => cores.any fun c => dieOf c == d

/-- The waves of a partition that stand on a core. -/
def State.partitionWaves (s : State) (top c : Nat) : KMap Wave :=
  (s.core c).waves.filter fun e => match s.block c e.2.bslot with | some b => b.env.top == top | none => false

/-- The operations in flight of a partition's blocks on a core. -/
def State.flightCount (s : State) (top c : Nat) : Nat :=
  ((kvals (s.core c).blocks).map fun b => if b.env.top == top then b.seqr.flights.length else 0).sum

/-- A core whose latch change the line cuts short, if one was wanted and the line comes in steps 1 to 3, which is a free choice: its latch
and its clean bit are 0 (R24). -/
def State.cutLatch (s : State) (top c : Nat) : State :=
  let wanted := ({ s with halts := kdel s.halts top }).latchWanted c
  if (s.core c).blocks.isEmpty && (s.core c).queue.isEmpty && wanted.isSome && Config.freeBit s.tick (786432 + c) then
    s.setCore c { s.core c with latch := 0, clean := false }
  else s

/-- HALT_LINE_ARRIVAL: an engine of the partition stops and writes its stop record. A copy engine with running channels of the
partition writes one with each as it stops, and a matrix engine stops once its operations in flight have reached their result
points. The record of a core names the colour latched in it: 0 where the line stopped a latch change (R24). -/
def State.haltArrives (s0 : State) (top : Nat) (e : EngineId) : State :=
  match kget s0.halts top, kget s0.regions top with
  | some h, some r =>
    if h.stopped.contains e || !servesPartition r.env.partition e then s0
    else
      let flying := match e with | .matrix c => s0.flightCount top c | _ => 0
      match e with
      | .matrix c =>
        if flying ≠ 0 then
          if (kget h.reached c).isSome then s0
          else { s0 with halts := kset s0.halts top { h with reached := kset h.reached c flying } }
        else
          ({ s0 with halts := kset s0.halts top { h with stopped := h.stopped ++ [e] } }).stopRecord h r top e (s0.core c).latch
            (kgetD h.reached c 0) 0 0
      | .waveCore c =>
        let s := s0.cutLatch top c
        let waves := s.partitionWaves top c
        let handlers := (waves.filter fun x => x.2.level != 0).foldl (fun n x => n + 2 ^ x.1) 0
        ({ s with halts := kset s.halts top { h with stopped := h.stopped ++ [e] } }).stopRecord h r top e (s.core c).latch
          waves.length handlers 0
      | .save _ =>
        (({ s0 with halts := kset s0.halts top { h with stopped := h.stopped ++ [e] } }).abortRestores top).stopRecord h r top e
          r.env.colour 0 0 0
      | .copy g =>
        let s1 := { s0 with halts := kset s0.halts top { h with stopped := h.stopped ++ [e] } }
        if s0.channels.any fun x => x.1 / 16 == g && x.2.status == 1 && x.2.context == top then s1
        else s1.stopRecord h r top e r.env.colour 0 0 0
      | _ =>
        ({ s0 with halts := kset s0.halts top { h with stopped := h.stopped ++ [e] } }).stopRecord h r top e r.env.colour 0 0 0
  | _, _ => s0

/-! ### The debugger (R358, R388, R475) -/

/-- Whether a function's debugger may reach a colour. -/
def State.debugs (s : State) (func colour : Nat) : Bool :=
  match kget s.colours colour with
  | some c => c.funcs.getLsbD func && !(func == 0 && c.conf)
  | none => false

/-- Whether a function's debugger may reach a region. -/
def State.debugsRegion (s : State) (func region : Nat) : Bool :=
  match kget s.regions region with | some r => s.debugs func r.env.colour | none => false

/-- Every resident wave of a region changed. -/
def State.mapRegion (s : State) (region : Nat) (f : Wave → Wave) : State :=
  { s with cores := s.cores.map fun ((c, k) : Nat × Core) =>
      (c, { k with waves := k.waves.map fun ((n, w) : Nat × Wave) =>
        (n, match kget k.blocks w.bslot with | some b => if b.env.region = region then f w else w | none => w) }) }

/-- DEBUGGER_HALT. A wave inside a remote access halts once that is over. While the context is being sealed, and in a sealed
image, the halt is held with the wave, which is recorded at its next boundary (R388). -/
def State.debugHalt (s : State) (func region : Nat) : State :=
  if !s.debugsRegion func region then s
  else if s.sealing region then
    s.mapRegion region fun w => if w.recorded || !w.atBoundary then { w with bkpend := true }
      else { w with recorded := true, bkpend := true }
  else
    let s1 := s.mapRegion region fun w => if w.recorded && !s.restoring region then w else { w with dbgHalt := true }
    (kkeys s1.images).foldl (fun s a => s.changeImage a fun x =>
      if x.isSealed && x.state != 0 then
        { x with blocks := x.blocks.map fun b =>
            if b.block.env.region = region then { b with waves := b.waves.map fun w => { w with bkpend := true } } else b }
      else x) s1

/-- DEBUGGER_RESUME. -/
def State.debugResume (s : State) (func region : Nat) : State :=
  if s.debugsRegion func region then s.mapRegion region fun w => { w with dbgHalt := false } else s

/-- DEBUGGER_ARM and DEBUGGER_DISARM. -/
def State.debugArm (s : State) (func region : Nat) (arm : Bool) : State :=
  if s.debugsRegion func region then
    { s with host := { s.host with armed := if arm then nins s.host.armed region else ndel s.host.armed region } }
  else s

/-- Whether a wave stands halted by a debugger. -/
def Wave.stoppedByDebugger (w : Wave) : Bool :=
  w.dbgHalt && match w.waiting with | .outside _ => false | _ => true

/-- What DBGSEL selects for a function: a halted wave it may reach, with its core and slot. -/
def State.debugged (s : State) (func : Nat) : Option (Nat × Nat × Wave) :=
  let v := (kgetD s.host.dbgsel func 0).toNat
  let c := field v 0 8
  let slot := field v 8 5
  match s.wave c slot with
  | none => none
  | some w =>
    match s.block c w.bslot with
    | some b => if w.stoppedByDebugger && s.debugs func b.env.colour then some (c, slot, w) else none
    | none => none

/-- The bank that holds a vector register of a halted wave: the wave's own, or for an e register its handler's. -/
def Wave.debugBank (w : Wave) (n : Nat) : Option Bank :=
  if n < 640 then some w.base else if n < 672 && w.level ≠ 0 then some w.bank else none

/-- DBGDATA as it reads. -/
def State.debugRead (s : State) (func : Nat) : Dword :=
  let v := (kgetD s.host.dbgsel func 0).toNat
  let n := field v 15 10
  match s.debugged func with
  | none => 0
  | some (_, _, w) =>
    match field v 13 2 with
    | 0 => match w.debugBank n with
      | some b => ((b.reg n).val.lane (field v 25 5)).setWidth 64
      | none => 0
    | 1 => (w.bank.pred n).setWidth 64
    | 2 => w.bank.grp n
    | _ => w.bank.pc.setWidth 64

/-- DBGDATA_WRITE. A spilled register is refilled first. -/
def State.debugWrite (s0 : State) (func : Nat) (x : Dword) : State :=
  let v := (kgetD s0.host.dbgsel func 0).toNat
  let n := field v 15 10
  let lane := field v 25 5
  let s := match s0.debugged func with
    | some (c, slot, w) => if field v 13 2 = 0 && w.spilled.contains n then s0.refill c slot n else s0
    | none => s0
  match s.debugged func with
  | none => s
  | some (c, slot, w) =>
    match field v 13 2 with
    | 0 =>
      let put (b : Bank) : Bank := b.write (Mask.one lane) Mask.all n (.u (lowWord x)) (b.reg n).fmt
      if n < 640 then s.setWave c slot { w with base := put w.base }
      else if n < 672 && w.level ≠ 0 then s.setWave c slot (w.setBank (put w.bank))
      else s
    | 1 => s.setWave c slot (w.setBank (w.bank.writePred Mask.all n (lowWord x)))
    | 2 => s.setWave c slot (w.setBank (w.bank.writeGrp n x))
    | _ => s.setWave c slot (w.setBank { w.bank with pc := lowWord x })

/-- DBGSTAT. -/
def State.debugStat (s : State) (func : Nat) : Dword :=
  let c := field (kgetD s.host.dbgsel func 0).toNat 0 8
  let seen := (s.core c).waves.filter fun e => match s.block c e.2.bslot with
    | some b => s.debugs func b.env.colour
    | none => false
  let halted := (seen.filter fun e => e.2.stoppedByDebugger).foldl (fun n e => n + 2 ^ e.1) 0
  let armed := seen.any fun e => match s.block c e.2.bslot with | some b => s.armedFor b | none => false
  BitVec.ofNat 64 (halted + c * 2 ^ 40 + if armed then 2 ^ 48 else 0)

/-! ### Page requests (R474, R476) -/

/-- The colour of the access that a page request stands for. -/
def State.pageColour (s : State) (r : PageReq) : Nat :=
  match s.findUid r.uid with
  | some (c, _) => (s.core c).latch
  | none =>
    match s.channel (r.uid - 2 ^ 64) with
    | some ch => if 2 ^ 64 ≤ r.uid then ch.colour else 0
    | none =>
      match s.parked.find? fun e => flitPageUid e.2 == r.uid with
      | some e => tenantColour (s.entryOf e.2)
      | none => 0

/-- A page request that failed: its access learns so when it looks, and a record of KIND 7 is written. -/
def State.failPage (s : State) (tag : Nat) (r : PageReq) : State :=
  let colour := s.pageColour r
  let s1 := { s with pri := kset s.pri tag { r with answer := some false } }
  (s1.putRecord [7 + 8 * 2 ^ 8 + 8 * 2 ^ 16 + colour * 2 ^ 24, s.dieTime 8, 0, 0, 0, 0,
    if s.confidential colour then 0 else 4096 * r.page, 0]).serveParked

/-- PAGE_REQUEST_RESPONSE. -/
def State.pageAnswered (s : State) (tag : Nat) (ok : Bool) : State :=
  match kget s.pri tag with
  | none => s
  | some r =>
    if r.answer.isSome then s
    else if ok then ({ s with pri := kdel s.pri tag, hostPresent := nins s.hostPresent r.page }).serveParked
    else s.failPage tag r

/-- PAGE_REQUEST_TIMEOUT: no response for 100 ms. -/
def State.pageTimeout (s : State) (tag : Nat) : State :=
  match kget s.pri tag with
  | none => s
  | some r =>
    if r.answer.isSome || s.now 8 < r.sentAt + 100000 * microsecond then s else s.failPage tag r

/-! ### Power (R479) -/

/-- The grants that share a budget among dies in proportion to their demand, none below 80 W: a die that its share would leave
below that takes 80 W, and the others share the rest. The first number bounds the rounds. -/
def powerShare : Nat → List (Nat × Nat) → Nat → KMap Nat
  | 0, _, _ => []
  | n + 1, dies, watts =>
    let sum := (dies.map (·.2)).sum
    let share (x : Nat) : Nat := if sum = 0 then watts / max 1 dies.length else watts * x / sum
    let low := dies.filter fun d => share d.2 < 80
    if low.isEmpty then dies.foldl (fun m d => kset m d.1 (share d.2)) []
    else low.foldl (fun m d => kset m d.1 80)
      (powerShare n (dies.filter fun d => 80 ≤ share d.2) (watts - 80 * low.length))

/-- Whether host-assisted grants may come into force. -/
def grantsOk (g : List Nat) : Bool := g.sum ≤ 2160 && g.all (80 ≤ ·)

/-- POWER_WINDOW: every 10 µs on die 9. -/
def State.powerWindow (s : State) : State :=
  let h := s.host
  if s.now 9 < h.powerAt + 10 * microsecond then s
  else
    let shares := powerShare 9 ((List.range 8).map fun d => (d, Config.demand d h.window)) 2160
    let next := if s.cpmode.testBit 4 then (if grantsOk h.grants then h.grants else h.inForce)
      else (List.range 8).map fun d => kgetD shares d 80
    { s with host := { h with inForce := next, window := h.window + 1, powerAt := s.now 9 } }

/-! ### Device registers (R431, R444, R466, R475) -/

/-- The offset in the register range that an offset of a function's BAR0 reaches (R473). -/
def barOffset (func off : Nat) : Nat :=
  if func = 0 then off
  else if off < 4096 then 0x110000 + 4096 * func + off
  else if off < 8192 then 0x400000 + 4096 * func + (off - 4096)
  else 2 ^ 26

/-- Whether the part answers (R480). -/
def State.usable (s : State) : Bool := s.host.fail == 0 && s.powered

/-- DEVNO_WRITE. -/
def State.writeDevno (s : State) (func : Nat) (v : Dword) : State :=
  let n := v.toNat % 256
  if !s.usable || func ≠ 0 || n = 0 || n = 255 || s.cores.any fun e => e.2.latch != 0 then s else { s with devid := n }

/-- DBGREQ. -/
def State.debugRequest (s : State) (func : Nat) (v : Nat) : State :=
  let region := field v 0 32
  let s1 := if v.testBit 32 then s.debugHalt func region else s
  let s2 := if v.testBit 33 then s1.debugResume func region else s1
  let s3 := if v.testBit 34 then s2.debugArm func region true else s2
  if v.testBit 35 then s3.debugArm func region false else s3

/-- A write to a register of a function's own pages, at an offset of its page, or to one only the physical function writes. -/
def State.writeRegister (s : State) (func off : Nat) (v : Dword) : State :=
  let n := v.toNat
  let page (base : Nat) : Bool := base + 4096 * func ≤ off && off < base + 4096 * func + 4096
  if page 0x110000 then
    match off % 4096 with
    | 0x00 => s.doorbell func n
    | 0x10 => { s with host := { s.host with apbase := kset s.host.apbase func (field n 32 16 * 2 ^ 32) } }
    | _ => s
  else if page 0x400000 then
    match off % 4096 with
    | 0x00 => s.debugRequest func n
    | 0x10 => { s with host := { s.host with dbgsel := kset s.host.dbgsel func (BitVec.ofNat 64 (n % 2 ^ 30)) } }
    | 0x18 => s.debugWrite func v
    | _ => s
  else if func ≠ 0 then s
  else if 0x200 ≤ off && off < 0x240 && off % 8 = 0 then
    { s with host := { s.host with grants := lmod s.host.grants ((off - 0x200) / 8) fun _ => n % 4096 } }
  else if 0x200000 ≤ off && off < 0x200040 && off % 8 = 0 then
    { s with host := { s.host with props := lmod s.host.props ((off - 0x200000) / 8) fun _ => v } }
  else if 0x300000 ≤ off && off < 0x300000 + 8 * 192 && off % 8 = 0 then s.clearScore ((off - 0x300000) / 8) v
  else match off with
    | 0x10 => s.writeDevno func v
    | 0x100 => { s with ring := { s.ring with base := n / 64 * 64 } }
    | 0x108 => { s with ring := { s.ring with size := n % 32 } }
    | 0x118 => { s with ring := { s.ring with tail := n } }
    | 0x120 => { s with ring := { s.ring with thresh := n % 65536 } }
    | 0x300 => { s with host := { s.host with updaddr := n } }
    | 0x308 => { s with firmware := { s.firmware with
        updReq := s.firmware.updReq || n.testBit 0, updating := s.firmware.updating || n.testBit 0,
        rollReq := s.firmware.rollReq || n.testBit 1 } }
    | 0x100010 => { s with cpmode := n % 32 }
    | 0x100020 => if n.testBit 22 then s.qmapMap n else s.qmapUnmap n
    | 0x200040 => if s.host.submitted then s else { s with host := { s.host with submitted := true, presult := 0 } }
    | 0x301000 => { s with sorrel := { s.sorrel with seed := n % 2 ^ 32 } }
    | 0x302008 => s.requestPass
    | _ => s

/-- DEVICE_REGISTER_WRITE, through a function's BAR0. -/
def State.hostWrite (s : State) (func off : Nat) (v : Dword) : State :=
  if s.usable then s.writeRegister func (barOffset func off) v else s

/-- CSCORE of a core. -/
def State.scoreWord (s : State) (core : Nat) : Dword :=
  BitVec.ofNat 64 (kgetD s.sorrel.scores core 0 + if s.sorrel.quar.contains core then 2 ^ 16 else 0)

/-- What a device register reads as (R431, R444, R466, R475). A register that is only written, or that does not exist, reads 0;
an unusable part answers only STARTUP and PARTID. -/
def State.readRegister (s : State) (func off : Nat) : Dword :=
  let n (x : Nat) : Dword := BitVec.ofNat 64 x
  let page (base : Nat) : Bool := base + 4096 * func ≤ off && off < base + 4096 * func + 4096
  if func = 0 && off = 0 then n s.product.part
  else if func = 0 && off = 8 then n (s.host.stage + s.host.fail * 2 ^ 8)
  else if !s.usable then BitVec.allOnes 64
  else if page 0x110000 then
    match off % 4096 with
    | 0x08 => n (kgetD s.host.dbdrop func 0)
    | 0x10 => n (kgetD s.host.apbase func 0)
    | _ => 0
  else if page 0x400000 then
    match off % 4096 with
    | 0x08 => s.debugStat func
    | 0x10 => kgetD s.host.dbgsel func 0
    | 0x18 => s.debugRead func
    | _ => 0
  else if func ≠ 0 then 0
  else if 0x200 ≤ off && off < 0x240 && off % 8 = 0 then n (s.host.grants.getD ((off - 0x200) / 8) 0)
  else if 0x200000 ≤ off && off < 0x200040 && off % 8 = 0 then s.host.props.getD ((off - 0x200000) / 8) 0
  else if 0x300000 ≤ off && off < 0x300000 + 8 * 192 && off % 8 = 0 then s.scoreWord ((off - 0x300000) / 8)
  else match off with
    | 0x10 => n s.devid
    | 0x100 => n s.ring.base
    | 0x108 => n s.ring.size
    | 0x110 => n s.ring.head
    | 0x118 => n s.ring.tail
    | 0x120 => n s.ring.thresh
    | 0x128 => n s.ring.dropped
    | 0x300 => n s.host.updaddr
    | 0x100000 => n (deviceHash % 2 ^ 64)
    | 0x100008 => n (deviceHash / 2 ^ 64)
    | 0x100010 => n s.cpmode
    | 0x100018 => n ((if s.firmware.activeB then 1 else 0) + (if s.firmware.standby then 2 else 0)
        + (if s.firmware.updating then 4 else 0) + s.firmware.version % 65536 * 2 ^ 16)
    | 0x200048 => s.host.presult
    | 0x301000 => n s.sorrel.seed
    | 0x301008 => n (s.sorrel.inelig % 65536 + s.sorrel.excl % 65536 * 2 ^ 16 + s.sorrel.skip % 65536 * 2 ^ 32
        + s.sorrel.unres % 65536 * 2 ^ 48)
    | 0x302000 => n (s.sweeper.pass + if s.sweeper.running then 2 ^ 32 else 0)
    | _ => 0

/-! ### The aperture (R449, R473) -/

/-- Whether a function reaches every granule of the `n` bytes from a local address. -/
def State.hostReaches (s : State) (func a n : Nat) : Bool :=
  (granulesOf a n).all fun k =>
    let g := s.granuleNo k
    k < hbmGranules && g.state == 1 && g.cls == 0 &&
      if g.owner = 0 then func == 0
      else match kget s.colours g.owner with | some c => c.funcs.getLsbD func | none => false

/-- HOST_APERTURE_ACCESS: a write of the bytes given, or a read of `len` bytes. -/
def State.aperture (s : State) (func off : Nat) (data : Option (List Byte)) (len : Nat) : State :=
  let n := match data with | some bs => bs.length | none => len
  let a := kgetD s.host.apbase func 0 + off
  if n = 0 || 2 ^ 32 < off + n then s
  else if s.usable && s.hostReaches func a n then
    match data with
    | some bs => s.store a bs
    | none => { s with host := { s.host with lastRead := s.bytesAt a n } }
  else
    let h := { s.host with denied := s.host.denied + 1 }
    { s with host := match data with
      | some _ => h
      | none => { h with lastRead := List.replicate n 0xFF } }

/-! ### Reset, freeze and power (R4, R480, R481) -/

/-- Where start-up ends: its stage and FAIL (R470, R475). A part whose complex B alone fails runs without a standby. -/
def Product.startUp (p : Product) : Nat × Nat :=
  let good (i rb : Nat) : Bool := p.goodImages.getD i false && decide (p.rollback.getD rb 0 ≤ p.versions.getD i 0)
  if !good 0 0 then (0, 1)
  else if p.badUnits.any (56 ≤ ·) then (1, 2)
  else if !good 1 1 then (3, 3)
  else (4, 0)

/-- The part after its start-up stages: everything lost but the fuses. What still comes in stays to come. -/
def State.startUp (s : State) : State :=
  let p := s.product
  let (stage, fail) := p.startUp
  { State.reset with
    tick := s.tick
    inputs := s.inputs
    product := p
    colours := [(0, { gen := Config.drawn s.tick, conf := false, funcs := 0 })]
    host := { HostRegs.reset with stage, fail }
    firmware := { Firmware.reset with
      standby := p.goodImages.getD 2 false && decide (p.rollback.getD 1 0 ≤ p.versions.getD 2 0)
      version := p.versions.getD 1 0, other := p.versions.getD 2 0 } }

/-- POWER_LOSS. -/
def State.losePower (s : State) : State :=
  { State.reset with tick := s.tick, inputs := s.inputs, product := s.product, powered := false }

/-- WARM_RESET: not of a frozen part, nor of one without power. -/
def State.warmReset (s : State) : State := if s.frozen || !s.powered then s else s.startUp

/-- FREEZE. -/
def State.freeze (s : State) : State := if s.powered then { s with frozen := true } else s

/-- Whether a frozen part's data instruments read as zero (R481). -/
def State.instrumentsHidden (s : State) : Bool := s.frozen && s.colours.any fun e => e.2.conf

/-- What the test network reads of a value held in a data instrument. -/
def State.instrument (s : State) (x : Nat) : Nat := if s.frozen && !s.instrumentsHidden then x else 0

/-! ### The meanings -/

def execHaltLineArrival (region : Nat) (engine : EngineId) (s : State) : Host.Outcome State Fault Refusal :=
  .next (s.haltArrives region engine)
def execDebuggerHalt (func region : Nat) (s : State) : Host.Outcome State Fault Refusal := .next (s.debugHalt func region)
def execDebuggerResume (func region : Nat) (s : State) : Host.Outcome State Fault Refusal :=
  .next (s.debugResume func region)
def execDebuggerArm (func region : Nat) (s : State) : Host.Outcome State Fault Refusal :=
  .next (s.debugArm func region true)
def execDebuggerDisarm (func region : Nat) (s : State) : Host.Outcome State Fault Refusal :=
  .next (s.debugArm func region false)
def execDbgdataWrite (func : Nat) (value : Dword) (s : State) : Host.Outcome State Fault Refusal :=
  .next (s.debugWrite func value)
def execPageRequestResponse (tag : Nat) (ok : Bool) (s : State) : Host.Outcome State Fault Refusal :=
  .next (s.pageAnswered tag ok)
def execPageRequestTimeout (tag : Nat) (s : State) : Host.Outcome State Fault Refusal := .next (s.pageTimeout tag)
def execPowerWindow (s : State) : Host.Outcome State Fault Refusal := .next s.powerWindow
def execDevnoWrite (func : Nat) (value : Dword) (s : State) : Host.Outcome State Fault Refusal :=
  .next (s.writeDevno func value)
def execDeviceRegisterWrite (func off : Nat) (value : Dword) (s : State) : Host.Outcome State Fault Refusal :=
  .next (s.hostWrite func off value)
def execHostApertureAccess (func off : Nat) (data : Option (List Byte)) (len : Nat) (s : State) :
    Host.Outcome State Fault Refusal := .next (s.aperture func off data len)
def execPowerOnReset (s : State) : Host.Outcome State Fault Refusal := .next s.startUp
def execWarmReset (s : State) : Host.Outcome State Fault Refusal := .next s.warmReset
def execPowerLoss (s : State) : Host.Outcome State Fault Refusal := .next s.losePower
def execFreeze (s : State) : Host.Outcome State Fault Refusal := .next s.freeze
def execFreezeRelease (s : State) : Host.Outcome State Fault Refusal := .next s
def execDieToDieLinkFailure (die io : Nat) (s : State) : Host.Outcome State Fault Refusal :=
  .next (if die < 8 && io < 2 then { s with host := { s.host with deadLinks := nins s.host.deadLinks (2 * die + io) } } else s)

end Sys2Proof.Machine
end

