-- ==== Sys2Proof/Machine/Dispatch.lean ====
section
/-!
DEFINITION. The meaning of every step of the part, one arm per constructor.
-/

namespace Sys2Proof.Machine

def exec (i : Instr) (s : State) : Host.Outcome State Fault Refusal :=
  match i with
  | .iadd f => Sys2Proof.Machine.execIadd f s
  | .iaddImm f => Sys2Proof.Machine.execIaddImm f s
  | .isub f => Sys2Proof.Machine.execIsub f s
  | .isubImm f => Sys2Proof.Machine.execIsubImm f s
  | .imul f => Sys2Proof.Machine.execImul f s
  | .imulImm f => Sys2Proof.Machine.execImulImm f s
  | .imulh f => Sys2Proof.Machine.execImulh f s
  | .imulhImm f => Sys2Proof.Machine.execImulhImm f s
  | .imulw f => Sys2Proof.Machine.execImulw f s
  | .imad f => Sys2Proof.Machine.execImad f s
  | .ilea f => Sys2Proof.Machine.execIlea f s
  | .ileaImm f => Sys2Proof.Machine.execIleaImm f s
  | .imin f => Sys2Proof.Machine.execImin f s
  | .iminImm f => Sys2Proof.Machine.execIminImm f s
  | .imax f => Sys2Proof.Machine.execImax f s
  | .imaxImm f => Sys2Proof.Machine.execImaxImm f s
  | .iabs f => Sys2Proof.Machine.execIabs f s
  | .ineg f => Sys2Proof.Machine.execIneg f s
  | .isad f => Sys2Proof.Machine.execIsad f s
  | .idiv f => Sys2Proof.Machine.execIdiv f s
  | .idivImm f => Sys2Proof.Machine.execIdivImm f s
  | .irem f => Sys2Proof.Machine.execIrem f s
  | .iremImm f => Sys2Proof.Machine.execIremImm f s
  | .icmp f => Sys2Proof.Machine.execIcmp f s
  | .icmpImm f => Sys2Proof.Machine.execIcmpImm f s
  | .andBits f => Sys2Proof.Machine.execAndBits f s
  | .andImm f => Sys2Proof.Machine.execAndImm f s
  | .orBits f => Sys2Proof.Machine.execOrBits f s
  | .orImm f => Sys2Proof.Machine.execOrImm f s
  | .xorBits f => Sys2Proof.Machine.execXorBits f s
  | .xorImm f => Sys2Proof.Machine.execXorImm f s
  | .notBits f => Sys2Proof.Machine.execNotBits f s
  | .bfn3 f => Sys2Proof.Machine.execBfn3 f s
  | .shl f => Sys2Proof.Machine.execShl f s
  | .shlImm f => Sys2Proof.Machine.execShlImm f s
  | .shr f => Sys2Proof.Machine.execShr f s
  | .shrImm f => Sys2Proof.Machine.execShrImm f s
  | .rotl f => Sys2Proof.Machine.execRotl f s
  | .rotlImm f => Sys2Proof.Machine.execRotlImm f s
  | .fshl f => Sys2Proof.Machine.execFshl f s
  | .bfx f => Sys2Proof.Machine.execBfx f s
  | .bfi f => Sys2Proof.Machine.execBfi f s
  | .popc f => Sys2Proof.Machine.execPopc f s
  | .clz f => Sys2Proof.Machine.execClz f s
  | .brev f => Sys2Proof.Machine.execBrev f s
  | .prmb f => Sys2Proof.Machine.execPrmb f s
  | .prmbImm f => Sys2Proof.Machine.execPrmbImm f s
  | .mov f => Sys2Proof.Machine.execMov f s
  | .movImm f => Sys2Proof.Machine.execMovImm f s
  | .movGroupWide f => Sys2Proof.Machine.execMovGroupWide f s
  | .movGroupWideImm f => Sys2Proof.Machine.execMovGroupWideImm f s
  | .sel f => Sys2Proof.Machine.execSel f s
  | .selGroupWide f => Sys2Proof.Machine.execSelGroupWide f s
  | .groupWideAlu f => Sys2Proof.Machine.execGroupWideAlu f s
  | .fadd f => Sys2Proof.Machine.execFadd f s
  | .faddImm f => Sys2Proof.Machine.execFaddImm f s
  | .fsub f => Sys2Proof.Machine.execFsub f s
  | .fsubImm f => Sys2Proof.Machine.execFsubImm f s
  | .fmul f => Sys2Proof.Machine.execFmul f s
  | .fmulImm f => Sys2Proof.Machine.execFmulImm f s
  | .fma f => Sys2Proof.Machine.execFma f s
  | .fmin f => Sys2Proof.Machine.execFmin f s
  | .fminImm f => Sys2Proof.Machine.execFminImm f s
  | .fmax f => Sys2Proof.Machine.execFmax f s
  | .fmaxImm f => Sys2Proof.Machine.execFmaxImm f s
  | .fmed3 f => Sys2Proof.Machine.execFmed3 f s
  | .fcmp f => Sys2Proof.Machine.execFcmp f s
  | .fcmpImm f => Sys2Proof.Machine.execFcmpImm f s
  | .fdiv f => Sys2Proof.Machine.execFdiv f s
  | .frcp f => Sys2Proof.Machine.execFrcp f s
  | .fsqrt f => Sys2Proof.Machine.execFsqrt f s
  | .frsq f => Sys2Proof.Machine.execFrsq f s
  | .fexp2 f => Sys2Proof.Machine.execFexp2 f s
  | .flog2 f => Sys2Proof.Machine.execFlog2 f s
  | .fsin f => Sys2Proof.Machine.execFsin f s
  | .fcos f => Sys2Proof.Machine.execFcos f s
  | .fclass f => Sys2Proof.Machine.execFclass f s
  | .fcps f => Sys2Proof.Machine.execFcps f s
  | .fcpsImm f => Sys2Proof.Machine.execFcpsImm f s
  | .fscl f => Sys2Proof.Machine.execFscl f s
  | .fsclImm f => Sys2Proof.Machine.execFsclImm f s
  | .frnd f => Sys2Proof.Machine.execFrnd f s
  | .cvt f => Sys2Proof.Machine.execCvt f s
  | .cvtGroupWide f => Sys2Proof.Machine.execCvtGroupWide f s
  | .pack f => Sys2Proof.Machine.execPack f s
  | .unpk f => Sys2Proof.Machine.execUnpk f s
  | .qnt f => Sys2Proof.Machine.execQnt f s
  | .dqnt f => Sys2Proof.Machine.execDqnt f s
  | .fdot2 f => Sys2Proof.Machine.execFdot2 f s
  | .idot4 f => Sys2Proof.Machine.execIdot4 f s
  | .ldot f => Sys2Proof.Machine.execLdot f s
  | .shfl f => Sys2Proof.Machine.execShfl f s
  | .shflImm f => Sys2Proof.Machine.execShflImm f s
  | .swz f => Sys2Proof.Machine.execSwz f s
  | .vote f => Sys2Proof.Machine.execVote f s
  | .ballot f => Sys2Proof.Machine.execBallot f s
  | .matchLanes f => Sys2Proof.Machine.execMatchLanes f s
  | .elect f => Sys2Proof.Machine.execElect f s
  | .flane f => Sys2Proof.Machine.execFlane f s
  | .redi f => Sys2Proof.Machine.execRedi f s
  | .redf f => Sys2Proof.Machine.execRedf f s
  | .scani f => Sys2Proof.Machine.execScani f s
  | .scanf f => Sys2Proof.Machine.execScanf f s
  | .scanp f => Sys2Proof.Machine.execScanp f s
  | .cmpct f => Sys2Proof.Machine.execCmpct f s
  | .expnd f => Sys2Proof.Machine.execExpnd f s
  | .rdlane f => Sys2Proof.Machine.execRdlane f s
  | .rdlaneImm f => Sys2Proof.Machine.execRdlaneImm f s
  | .wrlane f => Sys2Proof.Machine.execWrlane f s
  | .wrlaneImm f => Sys2Proof.Machine.execWrlaneImm f s
  | .bcst f => Sys2Proof.Machine.execBcst f s
  | .plop f => Sys2Proof.Machine.execPlop f s
  | .plopGroupWide f => Sys2Proof.Machine.execPlopGroupWide f s
  | .pcnt f => Sys2Proof.Machine.execPcnt f s
  | .p2r f => Sys2Proof.Machine.execP2r f s
  | .movrp f => Sys2Proof.Machine.execMovrp f s
  | .shpq f => Sys2Proof.Machine.execShpq f s
  | .shpx f => Sys2Proof.Machine.execShpx f s
  | .shpc f => Sys2Proof.Machine.execShpc f s
  | .fmtq f => Sys2Proof.Machine.execFmtq f s
  | .fmts f => Sys2Proof.Machine.execFmts f s
  | .near f => Sys2Proof.Machine.execNear f s
  | .actq f => Sys2Proof.Machine.execActq f s
  | .deadq f => Sys2Proof.Machine.execDeadq f s
  | .poisq f => Sys2Proof.Machine.execPoisq f s
  | .ld f => Sys2Proof.Machine.execLd f s
  | .st f => Sys2Proof.Machine.execSt f s
  | .ldc f => Sys2Proof.Machine.execLdc f s
  | .stc f => Sys2Proof.Machine.execStc f s
  | .ldg f => Sys2Proof.Machine.execLdg f s
  | .pref f => Sys2Proof.Machine.execPref f s
  | .cbnd f => Sys2Proof.Machine.execCbnd f s
  | .cadd f => Sys2Proof.Machine.execCadd f s
  | .cset f => Sys2Proof.Machine.execCset f s
  | .cperm f => Sys2Proof.Machine.execCperm f s
  | .cseal f => Sys2Proof.Machine.execCseal f s
  | .cunsl f => Sys2Proof.Machine.execCunsl f s
  | .cget f => Sys2Proof.Machine.execCget f s
  | .ctest f => Sys2Proof.Machine.execCtest f s
  | .cmov f => Sys2Proof.Machine.execCmov f s
  | .lds f => Sys2Proof.Machine.execLds f s
  | .sts f => Sys2Proof.Machine.execSts f s
  | .ldfe f => Sys2Proof.Machine.execLdfe f s
  | .stfe f => Sys2Proof.Machine.execStfe f s
  | .feset f => Sys2Proof.Machine.execFeset f s
  | .feq f => Sys2Proof.Machine.execFeq f s
  | .atoms f => Sys2Proof.Machine.execAtoms f s
  | .cass f => Sys2Proof.Machine.execCass f s
  | .binit f => Sys2Proof.Machine.execBinit f s
  | .arrive f => Sys2Proof.Machine.execArrive f s
  | .arriveAppliedAtHome core idx => Sys2Proof.Machine.execArriveAppliedAtHome core idx s
  | .wait f => Sys2Proof.Machine.execWait f s
  | .trywait f => Sys2Proof.Machine.execTrywait f s
  | .bar f => Sys2Proof.Machine.execBar f s
  | .implicitBarrierComplete core bslot cluster => Sys2Proof.Machine.execImplicitBarrierComplete core bslot cluster s
  | .atom f => Sys2Proof.Machine.execAtom f s
  | .red f => Sys2Proof.Machine.execRed f s
  | .cas f => Sys2Proof.Machine.execCas f s
  | .fence f => Sys2Proof.Machine.execFence f s
  | .spawn f => Sys2Proof.Machine.execSpawn f s
  | .gbar f => Sys2Proof.Machine.execGbar f s
  | .gridBarrierGeneration grid => Sys2Proof.Machine.execGridBarrierGeneration grid s
  | .mfence f => Sys2Proof.Machine.execMfence f s
  | .nbar f => Sys2Proof.Machine.execNbar f s
  | .nbwait f => Sys2Proof.Machine.execNbwait f s
  | .zread f => Sys2Proof.Machine.execZread f s
  | .zwrite f => Sys2Proof.Machine.execZwrite f s
  | .badv f => Sys2Proof.Machine.execBadv f s
  | .bqry f => Sys2Proof.Machine.execBqry f s
  | .rng f => Sys2Proof.Machine.execRng f s
  | .rngf f => Sys2Proof.Machine.execRngf f s
  | .rngadv f => Sys2Proof.Machine.execRngadv f s
  | .rngld f => Sys2Proof.Machine.execRngld f s
  | .rngst f => Sys2Proof.Machine.execRngst f s
  | .rngq f => Sys2Proof.Machine.execRngq f s
  | .bra f => Sys2Proof.Machine.execBra f s
  | .brx f => Sys2Proof.Machine.execBrx f s
  | .call f => Sys2Proof.Machine.execCall f s
  | .callx f => Sys2Proof.Machine.execCallx f s
  | .ret f => Sys2Proof.Machine.execRet f s
  | .exit f => Sys2Proof.Machine.execExit f s
  | .recon f => Sys2Proof.Machine.execRecon f s
  | .loop f => Sys2Proof.Machine.execLoop f s
  | .endl f => Sys2Proof.Machine.execEndl f s
  | .breakLoop f => Sys2Proof.Machine.execBreakLoop f s
  | .jseg f => Sys2Proof.Machine.execJseg f s
  | .segld f => Sys2Proof.Machine.execSegld f s
  | .segmentLoadComplete core code seg => Sys2Proof.Machine.execSegmentLoadComplete core code seg s
  | .segdrop f => Sys2Proof.Machine.execSegdrop f s
  | .segmentDropFree core code seg => Sys2Proof.Machine.execSegmentDropFree core code seg s
  | .segq f => Sys2Proof.Machine.execSegq f s
  | .nop f => Sys2Proof.Machine.execNop f s
  | .yield f => Sys2Proof.Machine.execYield f s
  | .live f => Sys2Proof.Machine.execLive f s
  | .mma f => Sys2Proof.Machine.execMma f s
  | .mmas f => Sys2Proof.Machine.execMmas f s
  | .zld f => Sys2Proof.Machine.execZld f s
  | .zst f => Sys2Proof.Machine.execZst f s
  | .zclr f => Sys2Proof.Machine.execZclr f s
  | .tileOperationResultPoint core bslot => Sys2Proof.Machine.execTileOperationResultPoint core bslot s
  | .bwait f => Sys2Proof.Machine.execBwait f s
  | .bfree f => Sys2Proof.Machine.execBfree f s
  | .bfreeApplied core bslot => Sys2Proof.Machine.execBfreeApplied core bslot s
  | .nbsig f => Sys2Proof.Machine.execNbsig f s
  | .nbsigApplied core bslot => Sys2Proof.Machine.execNbsigApplied core bslot s
  | .nbsw f => Sys2Proof.Machine.execNbsw f s
  | .sloop f => Sys2Proof.Machine.execSloop f s
  | .sendl f => Sys2Proof.Machine.execSendl f s
  | .send f => Sys2Proof.Machine.execSend f s
  | .snop f => Sys2Proof.Machine.execSnop f s
  | .invk f => Sys2Proof.Machine.execInvk f s
  | .chstat f => Sys2Proof.Machine.execChstat f s
  | .chwait f => Sys2Proof.Machine.execChwait f s
  | .chcan f => Sys2Proof.Machine.execChcan f s
  | .cbseal f => Sys2Proof.Machine.execCbseal f s
  | .cbchk f => Sys2Proof.Machine.execCbchk f s
  | .trap f => Sys2Proof.Machine.execTrap f s
  | .bkpt f => Sys2Proof.Machine.execBkpt f s
  | .movw f => Sys2Proof.Machine.execMovw f s
  | .emret f => Sys2Proof.Machine.execEmret f s
  | .tret f => Sys2Proof.Machine.execTret f s
  | .srd f => Sys2Proof.Machine.execSrd f s
  | .swr f => Sys2Proof.Machine.execSwr f s
  | .zemuMark f => Sys2Proof.Machine.execZemuMark f s
  | .zemuRel f => Sys2Proof.Machine.execZemuRel f s
  | .zemuQry f => Sys2Proof.Machine.execZemuQry f s
  | .asynchronousTrapDelivery core slot => Sys2Proof.Machine.execAsynchronousTrapDelivery core slot s
  | .registerRefill core slot reg => Sys2Proof.Machine.execRegisterRefill core slot reg s
  | .missRejectionRetry core slot => Sys2Proof.Machine.execMissRejectionRetry core slot s
  | .reservationQueueIssue core => Sys2Proof.Machine.execReservationQueueIssue core s
  | .l1LineFill core line => Sys2Proof.Machine.execL1LineFill core line s
  | .l1LineAgeInvalidation core line => Sys2Proof.Machine.execL1LineAgeInvalidation core line s
  | .storeLeavesBuffer core slot idx => Sys2Proof.Machine.execStoreLeavesBuffer core slot idx s
  | .storeWrittenAtHome core idx => Sys2Proof.Machine.execStoreWrittenAtHome core idx s
  | .storeAcknowledged idx => Sys2Proof.Machine.execStoreAcknowledged idx s
  | .atomicChainApplied core idx => Sys2Proof.Machine.execAtomicChainApplied core idx s
  | .hotWordWriteback line => Sys2Proof.Machine.execHotWordWriteback line s
  | .blockRetirement core bslot => Sys2Proof.Machine.execBlockRetirement core bslot s
  | .latchChange core colour => Sys2Proof.Machine.execLatchChange core colour s
  | .blockPlacement grid => Sys2Proof.Machine.execBlockPlacement grid s
  | .gridExpansion launch => Sys2Proof.Machine.execGridExpansion launch s
  | .persistentGridPlacement grid => Sys2Proof.Machine.execPersistentGridPlacement grid s
  | .waveBecomesUrgent core slot => Sys2Proof.Machine.execWaveBecomesUrgent core slot s
  | .timeSliceExpiry region => Sys2Proof.Machine.execTimeSliceExpiry region s
  | .preEmptionSignal region => Sys2Proof.Machine.execPreEmptionSignal region s
  | .preEmptionWindowEnd core region => Sys2Proof.Machine.execPreEmptionWindowEnd core region s
  | .contextSave region => Sys2Proof.Machine.execContextSave region s
  | .saveComplete region => Sys2Proof.Machine.execSaveComplete region s
  | .contextRestore region => Sys2Proof.Machine.execContextRestore region s
  | .haltedSave region => Sys2Proof.Machine.execHaltedSave region s
  | .haltedPartitionDiscard region => Sys2Proof.Machine.execHaltedPartitionDiscard region s
  | .sealedSave region => Sys2Proof.Machine.execSealedSave region s
  | .heldChannelWrite group chan => Sys2Proof.Machine.execHeldChannelWrite group chan s
  | .haltLineArrival region engine => Sys2Proof.Machine.execHaltLineArrival region engine s
  | .channelHaltStop group chan => Sys2Proof.Machine.execChannelHaltStop group chan s
  | .debuggerHalt func region => Sys2Proof.Machine.execDebuggerHalt func region s
  | .debuggerResume func region => Sys2Proof.Machine.execDebuggerResume func region s
  | .debuggerArm func region => Sys2Proof.Machine.execDebuggerArm func region s
  | .debuggerDisarm func region => Sys2Proof.Machine.execDebuggerDisarm func region s
  | .dbgdataWrite func value => Sys2Proof.Machine.execDbgdataWrite func value s
  | .channelUnitTransfer group chan => Sys2Proof.Machine.execChannelUnitTransfer group chan s
  | .commandCompletionWrite group chan => Sys2Proof.Machine.execCommandCompletionWrite group chan s
  | .collectiveCancellation colour gid => Sys2Proof.Machine.execCollectiveCancellation colour gid s
  | .loessIdleFlit port => Sys2Proof.Machine.execLoessIdleFlit port s
  | .linkTimeout port => Sys2Proof.Machine.execLinkTimeout port s
  | .switchTimeout rtag => Sys2Proof.Machine.execSwitchTimeout rtag s
  | .groupTimeout group chan => Sys2Proof.Machine.execGroupTimeout group chan s
  | .flitCrcReplay port ack => Sys2Proof.Machine.execFlitCrcReplay port ack s
  | .read port flit => Sys2Proof.Machine.execRead port flit s
  | .readResponse port flit => Sys2Proof.Machine.execReadResponse port flit s
  | .write port flit => Sys2Proof.Machine.execWrite port flit s
  | .writeAcknowledgement port flit => Sys2Proof.Machine.execWriteAcknowledgement port flit s
  | .atomic port flit => Sys2Proof.Machine.execAtomic port flit s
  | .atomicResponse port flit => Sys2Proof.Machine.execAtomicResponse port flit s
  | .collectiveData port flit => Sys2Proof.Machine.execCollectiveData port flit s
  | .collectiveControl port flit => Sys2Proof.Machine.execCollectiveControl port flit s
  | .forerunnerLaunch port flit => Sys2Proof.Machine.execForerunnerLaunch port flit s
  | .linkControl port flit => Sys2Proof.Machine.execLinkControl port flit s
  | .remoteFaultArrival rtag code => Sys2Proof.Machine.execRemoteFaultArrival rtag code s
  | .launch queue => Sys2Proof.Machine.execLaunch queue s
  | .launchRetirement launch => Sys2Proof.Machine.execLaunchRetirement launch s
  | .indirect queue => Sys2Proof.Machine.execIndirect queue s
  | .pred queue => Sys2Proof.Machine.execPred queue s
  | .loopPacket queue => Sys2Proof.Machine.execLoopPacket queue s
  | .waitmem queue => Sys2Proof.Machine.execWaitmem queue s
  | .waitmemTimeout queue => Sys2Proof.Machine.execWaitmemTimeout queue s
  | .writePacket queue => Sys2Proof.Machine.execWritePacket queue s
  | .signal queue => Sys2Proof.Machine.execSignal queue s
  | .fetchfence queue => Sys2Proof.Machine.execFetchfence queue s
  | .drain queue => Sys2Proof.Machine.execDrain queue s
  | .regionSet queue => Sys2Proof.Machine.execRegionSet queue s
  | .regionSave queue => Sys2Proof.Machine.execRegionSave queue s
  | .regionRestore queue => Sys2Proof.Machine.execRegionRestore queue s
  | .regionPrio queue => Sys2Proof.Machine.execRegionPrio queue s
  | .nopPacket queue => Sys2Proof.Machine.execNopPacket queue s
  | .doorbell func value => Sys2Proof.Machine.execDoorbell func value s
  | .queueMap queue => Sys2Proof.Machine.execQueueMap queue s
  | .queueIdle queue => Sys2Proof.Machine.execQueueIdle queue s
  | .qmapMap value => Sys2Proof.Machine.execQmapMap value s
  | .qmapUnmap value => Sys2Proof.Machine.execQmapUnmap value s
  | .cpmodeWrite value => Sys2Proof.Machine.execCpmodeWrite value s
  | .functionLevelReset func => Sys2Proof.Machine.execFunctionLevelReset func s
  | .heartbeat => Sys2Proof.Machine.execHeartbeat s
  | .firmwareTakeover => Sys2Proof.Machine.execFirmwareTakeover s
  | .liveUpdate => Sys2Proof.Machine.execLiveUpdate s
  | .rollbackRaise => Sys2Proof.Machine.execRollbackRaise s
  | .create => Sys2Proof.Machine.execCreate s
  | .destroy => Sys2Proof.Machine.execDestroy s
  | .assign => Sys2Proof.Machine.execAssign s
  | .revoke => Sys2Proof.Machine.execRevoke s
  | .release => Sys2Proof.Machine.execRelease s
  | .attr => Sys2Proof.Machine.execAttr s
  | .quar => Sys2Proof.Machine.execQuar s
  | .unquar => Sys2Proof.Machine.execUnquar s
  | .mint => Sys2Proof.Machine.execMint s
  | .table => Sys2Proof.Machine.execTable s
  | .attest => Sys2Proof.Machine.execAttest s
  | .auditReexecution region => Sys2Proof.Machine.execAuditReexecution region s
  | .auditComparison audit => Sys2Proof.Machine.execAuditComparison audit s
  | .auditTieBreak audit => Sys2Proof.Machine.execAuditTieBreak audit s
  | .cscoreClr core value => Sys2Proof.Machine.execCscoreClr core value s
  | .swreq => Sys2Proof.Machine.execSwreq s
  | .sweeperPassStart => Sys2Proof.Machine.execSweeperPassStart s
  | .sweeperPassComplete => Sys2Proof.Machine.execSweeperPassComplete s
  | .powerWindow => Sys2Proof.Machine.execPowerWindow s
  | .pageRequestResponse tag ok => Sys2Proof.Machine.execPageRequestResponse tag ok s
  | .pageRequestTimeout tag => Sys2Proof.Machine.execPageRequestTimeout tag s
  | .devnoWrite func value => Sys2Proof.Machine.execDevnoWrite func value s
  | .deviceRegisterWrite func off value => Sys2Proof.Machine.execDeviceRegisterWrite func off value s
  | .powerOnReset => Sys2Proof.Machine.execPowerOnReset s
  | .warmReset => Sys2Proof.Machine.execWarmReset s
  | .freeze => Sys2Proof.Machine.execFreeze s
  | .hostApertureAccess func off data len => Sys2Proof.Machine.execHostApertureAccess func off data len s
  | .powerLoss => Sys2Proof.Machine.execPowerLoss s
  | .activeComplexFailure => Sys2Proof.Machine.execActiveComplexFailure s
  | .dieToDieLinkFailure die io => Sys2Proof.Machine.execDieToDieLinkFailure die io s
  | .idleFlitReceipt port ack => Sys2Proof.Machine.execIdleFlitReceipt port ack s
  | .flitDiscard port flit => Sys2Proof.Machine.execFlitDiscard port flit s
  | .uncorrectableError place => Sys2Proof.Machine.execUncorrectableError place s
  | .freezeRelease => Sys2Proof.Machine.execFreezeRelease s

end Sys2Proof.Machine
end

