-- ==== Sys2Proof/Machine/Turns.lean ====
section
/-!
DEFINITION. How a step is prepared and closed: the fetch of the turn's instruction, the events of the part that could come
next, and how one instruction is placed to be fetched next.
-/

namespace Sys2Proof.Machine

/-! ### A turn's instruction -/

/-- What a turn comes to: an instruction or event to run, or nothing more. -/
inductive Prep where
  | run (i : Instr) (s : State)
  | own (e : OwnEvent) (s : State)
  | done (s : State)
deriving DecidableEq, Repr

/-- A wave's turn: its instruction, the fault its fetch raises, or its retirement (R35 to R38, R103). -/
def prepareWave (s : State) (c slot : Nat) : Prep :=
  match s.wave c slot with
  | none => .done s
  | some w =>
    match s.block c w.bslot with
    | none => .done s
    | some b =>
      if !w.runs || s.coreStopped c then .done s
      else match fetchWave s c slot b with
        | .retire => .done (s.retireWave c slot)
        | .fail e s1 => .done (s1.raise { fetchCtx s1 c slot w 0 with act := w.path } .event (0, 0) e)
        | .instr bits s1 =>
          match parse bits with
          | some i => .run i s1
          | none =>
            match s1.wave c slot with
            | some w1 => .done ((s1.enterLine c slot).raise (fetchCtx s1 c slot w1 bits) .event (0, 0) (.emu 1 0))
            | none => .done s1

/-- A sequencer's turn: its instruction, or the trap its fetch raises (R61, R283). -/
def prepareSeqr (s : State) (c bslot : Nat) : Prep :=
  match s.block c bslot with
  | none => .done s
  | some b =>
    if !s.seqrRuns c b then .done s
    else match fetchSeq s c bslot b with
      | .error s1 => .done s1
      | .ok (bits, s1) =>
        match parse bits with
        | some i => .run i s1
        | none => .done ((s1.seqFault c bslot (seqTrap b 1 0 0 bits)).seqLine c bslot)

/-- Whether a part without power, or frozen, takes an event: only one that ends that state does anything (R481). -/
def wakes : Instr → Bool
  | .powerOnReset => true
  | .powerLoss => true
  | _ => false

/-- The next event from outside. It leaves the list of those still to come; an instruction word is no event. -/
def prepareInput (s : State) : Prep :=
  match s.inputs with
  | [] => .done s
  | i :: rest =>
    let s1 := { s with inputs := rest }
    if i.view != .event || ((s.frozen || !s.powered) && !wakes i) then .done s1 else .run i s1

/-- The turn's instruction or event. -/
def prepare (s : State) : Prep :=
  match s.turn with
  | .input => prepareInput s
  | .idle => .done s
  | .wave c slot => if s.frozen || !s.powered then .done s else prepareWave s c slot
  | .seqr c bslot => if s.frozen || !s.powered then .done s else prepareSeqr s c bslot
  | .own e => if s.frozen || !s.powered then .done s else .own e s

/-! ### The events of the part -/

/-- The event that a piece in a core's write queue waits for. -/
def pieceEvent (c i : Nat) (q : QPart) : OwnEvent :=
  match q.part.eff with
  | .arrive _ _ _ _ _ _ _ => .arriveAppliedAtHome c i
  | .chain _ => .atomicChainApplied c i
  | _ => .storeWrittenAtHome c i

/-- The event that a deferral queue waits for. -/
def deferredEvent (c n : Nat) (q : Sequencer) : List OwnEvent :=
  match q.queue with
  | .bfree _ _ _ :: _ => [.bfreeApplied c n]
  | .nbsig _ _ _ _ :: _ => [.nbsigApplied c n]
  | [] => []

/-- The events of a wave. -/
def waveEvents (c n : Nat) (w : Wave) : List OwnEvent :=
  (if w.held.isEmpty then [] else [.asynchronousTrapDelivery c n])
    ++ w.spilled.map (.registerRefill c n ·)
    ++ (match w.waiting with | .miss _ _ _ => [.missRejectionRetry c n] | _ => [])
    ++ (List.range w.sb.length).map (.storeLeavesBuffer c n ·)
    ++ (if 64 ≤ w.passed && !w.urgent then [.waveBecomesUrgent c n] else [])

/-- The events of a block. -/
def blockEvents (c n : Nat) (b : Block) : List OwnEvent :=
  [.implicitBarrierComplete c n false, .implicitBarrierComplete c n true, .blockRetirement c n]
    ++ (if b.seqr.flights.isEmpty then [] else [.tileOperationResultPoint c n]) ++ deferredEvent c n b.seqr

/-- The events of a core. -/
def coreEvents (c : Nat) (k : Core) : List OwnEvent :=
  k.waves.flatMap (fun ((n, w) : Nat × Wave) => waveEvents c n w)
    ++ k.blocks.flatMap (fun ((n, b) : Nat × Block) => blockEvents c n b)
    ++ (k.queue.zip (List.range k.queue.length)).map (fun (q, i) => pieceEvent c i q)
    ++ (if k.reserve.isEmpty then [] else [.reservationQueueIssue c])
    ++ k.misses.map (fun m => .l1LineFill c m.line)
    ++ (kkeys k.l1).map (.l1LineAgeInvalidation c ·)
    ++ (k.segs.filter (·.loading)).map (fun g => .segmentLoadComplete c g.code g.num)
    ++ (k.segs.filter (·.dropPending)).map (fun g => .segmentDropFree c g.code g.num)

/-- The events of a grid: its expansion, its next placement, its barrier. -/
def gridEvents (gk : Nat) (g : Grid) : List OwnEvent :=
  (if g.expanded then [] else [.gridExpansion g.launch])
    ++ [if g.kernel.persistent then .persistentGridPlacement gk else .blockPlacement gk, .gridBarrierGeneration gk]

/-- The latch changes that waiting grids ask for. -/
def State.latchEvents (s : State) : List OwnEvent :=
  let cores := (kvals s.grids).foldl (fun (m : NSet) g => match kget s.regions g.region with
    | some r => r.env.partition.foldl nins m
    | none => m) []
  cores.filterMap fun c => (s.latchWanted c).map fun k => .latchChange c k

/-- The events of a region. -/
def regionEvents (n : Nat) (r : Region) : List OwnEvent :=
  [.timeSliceExpiry n, .preEmptionSignal n, .contextSave n, .saveComplete n, .contextRestore n, .auditReexecution n]
    ++ (kkeys r.signal).map fun c => .preEmptionWindowEnd c n

/-- The engines that serve a partition. -/
def partitionEngines (cores : List Nat) : List EngineId :=
  let groups := cores.foldl (fun (m : NSet) c => nins m (groupOf c)) []
  let dies := cores.foldl (fun (m : NSet) c => nins m (dieOf c)) []
  cores.flatMap (fun c => [EngineId.waveCore c, .matrix c]) ++ groups.flatMap (fun g => [EngineId.copy g, .save g])
    ++ dies.map EngineId.distributor

/-- The arrivals of a halt line that are still to come. -/
def State.haltEvents (s : State) : List OwnEvent :=
  s.halts.flatMap fun ((top, h) : Nat × Halt) => match kget s.regions top with
    | some r => ((partitionEngines r.env.partition).filter fun e => !h.stopped.contains e).map (.haltLineArrival top ·)
    | none => []

/-- The events of a channel; its next unit is one of them when its engine's turn is its own (R315). -/
def State.channelEvents (s : State) (k : Nat) : List OwnEvent :=
  (if s.channelTurn (k / 16) = some (k % 16) then [.channelUnitTransfer (k / 16) (k % 16)] else [])
    ++ [.commandCompletionWrite (k / 16) (k % 16), .heldChannelWrite (k / 16) (k % 16), .channelHaltStop (k / 16) (k % 16),
        .groupTimeout (k / 16) (k % 16)]

/-- The event of a packet by its bytes (R413, R423). -/
def packetEvent (n : Nat) (bs : List Byte) : OwnEvent :=
  match packetType bs with
  | 1 => .launch n
  | 2 => .indirect n
  | 3 => .pred n
  | 4 => .loopPacket n
  | 5 => .waitmem n
  | 6 => .writePacket n
  | 7 => .signal n
  | 8 => .fetchfence n
  | 9 => .drain n
  | 10 => if regionOp bs = 1 then .regionSave n else if regionOp bs = 2 then .regionRestore n
      else if regionOp bs = 3 then .regionPrio n else .regionSet n
  | _ => .nopPacket n

/-- The events of a queue: a packet that cannot be read stops it whatever its type. -/
def State.queueEvents (s : State) (n : Nat) (q : Queue) : List OwnEvent :=
  if q.slot.isNone then [.queueMap n]
  else
    (if q.skip ≠ 0 then [.pred n]
     else match s.packetAt q q.cursor with
      | .ok (some bs) => [packetEvent n bs]
      | .ok none => []
      | .error _ => [.nopPacket n])
      ++ (if q.waits = 1 then [.waitmemTimeout n] else []) ++ [.queueIdle n]

/-- The event of a submitted proposal by its operation (R445). -/
def proposalEvent (op : Nat) : OwnEvent :=
  match op with
  | 1 => .destroy
  | 2 => .assign
  | 3 => .revoke
  | 4 => .release
  | 5 => .attr
  | 6 => .quar
  | 7 => .unquar
  | 8 => .mint
  | 9 => .table
  | 10 => .attest
  | _ => .create

/-- The events of the security core, Sorrel, the sweeper, the complexes and the current arbiter. -/
def State.controllerEvents (s : State) : List OwnEvent :=
  (if s.host.submitted then [proposalEvent (proposalOf s.host.props).op] else [])
    ++ (if s.firmware.updReq then [.liveUpdate] else []) ++ (if s.firmware.rollReq then [.rollbackRaise] else [])
    ++ s.sorrel.audits.flatMap (fun ((k, a) : Nat × Audit) =>
      if a.stage = 2 then [.auditComparison k] else if a.stage = 5 then [.auditTieBreak k] else [])
    ++ (if s.passDue then [.sweeperPassStart] else []) ++ (if s.passReady then [.sweeperPassComplete] else [])
    ++ [.heartbeat, .firmwareTakeover, .powerWindow]

/-- The events of the fabric and of the host link. -/
def State.linkEvents (s : State) : List OwnEvent :=
  (kkeys s.ports).flatMap (fun p => [OwnEvent.loessIdleFlit p, .linkTimeout p])
    ++ s.remote.flatMap (fun ((t, r) : Nat × Remote) => match r.answer with
      | none => [.switchTimeout t]
      | some a => if a.code = 0 then [] else [.remoteFaultArrival t a.code])
    ++ (s.pri.filter fun e => e.2.answer.isNone).map (fun e => .pageRequestTimeout e.1)

/-- The events of the part that could come next. One whose moment has not come leaves the part as it is. -/
def internalEvents (s : State) : List OwnEvent :=
  s.cores.flatMap (fun ((c, k) : Nat × Core) => coreEvents c k)
    ++ (List.range s.acks.length).map .storeAcknowledged
    ++ s.hot.map .hotWordWriteback
    ++ s.grids.flatMap (fun ((n, g) : Nat × Grid) => gridEvents n g)
    ++ s.latchEvents
    ++ s.regions.flatMap (fun ((n, r) : Nat × Region) => regionEvents n r)
    ++ s.haltEvents
    ++ (kkeys s.channels).flatMap s.channelEvents
    ++ s.queues.flatMap (fun ((n, q) : Nat × Queue) => s.queueEvents n q)
    ++ (kkeys s.launches).map .launchRetirement
    ++ s.controllerEvents ++ s.linkEvents

/-- An event of the part: the meaning of the instruction of its name. -/
def runOwn (e : OwnEvent) (s : State) : Host.Outcome State Fault Refusal :=
  match e with
  | .arriveAppliedAtHome core idx => execArriveAppliedAtHome core idx s
  | .implicitBarrierComplete core bslot cluster => execImplicitBarrierComplete core bslot cluster s
  | .gridBarrierGeneration grid => execGridBarrierGeneration grid s
  | .segmentLoadComplete core code seg => execSegmentLoadComplete core code seg s
  | .segmentDropFree core code seg => execSegmentDropFree core code seg s
  | .tileOperationResultPoint core bslot => execTileOperationResultPoint core bslot s
  | .bfreeApplied core bslot => execBfreeApplied core bslot s
  | .nbsigApplied core bslot => execNbsigApplied core bslot s
  | .asynchronousTrapDelivery core slot => execAsynchronousTrapDelivery core slot s
  | .registerRefill core slot reg => execRegisterRefill core slot reg s
  | .missRejectionRetry core slot => execMissRejectionRetry core slot s
  | .reservationQueueIssue core => execReservationQueueIssue core s
  | .l1LineFill core line => execL1LineFill core line s
  | .l1LineAgeInvalidation core line => execL1LineAgeInvalidation core line s
  | .storeLeavesBuffer core slot idx => execStoreLeavesBuffer core slot idx s
  | .storeWrittenAtHome core idx => execStoreWrittenAtHome core idx s
  | .storeAcknowledged idx => execStoreAcknowledged idx s
  | .atomicChainApplied core idx => execAtomicChainApplied core idx s
  | .hotWordWriteback line => execHotWordWriteback line s
  | .blockRetirement core bslot => execBlockRetirement core bslot s
  | .latchChange core colour => execLatchChange core colour s
  | .blockPlacement grid => execBlockPlacement grid s
  | .gridExpansion launch => execGridExpansion launch s
  | .persistentGridPlacement grid => execPersistentGridPlacement grid s
  | .waveBecomesUrgent core slot => execWaveBecomesUrgent core slot s
  | .timeSliceExpiry region => execTimeSliceExpiry region s
  | .preEmptionSignal region => execPreEmptionSignal region s
  | .preEmptionWindowEnd core region => execPreEmptionWindowEnd core region s
  | .contextSave region => execContextSave region s
  | .saveComplete region => execSaveComplete region s
  | .contextRestore region => execContextRestore region s
  | .heldChannelWrite group chan => execHeldChannelWrite group chan s
  | .haltLineArrival region engine => execHaltLineArrival region engine s
  | .channelHaltStop group chan => execChannelHaltStop group chan s
  | .channelUnitTransfer group chan => execChannelUnitTransfer group chan s
  | .commandCompletionWrite group chan => execCommandCompletionWrite group chan s
  | .loessIdleFlit port => execLoessIdleFlit port s
  | .linkTimeout port => execLinkTimeout port s
  | .switchTimeout rtag => execSwitchTimeout rtag s
  | .groupTimeout group chan => execGroupTimeout group chan s
  | .remoteFaultArrival rtag code => execRemoteFaultArrival rtag code s
  | .launch queue => execLaunch queue s
  | .launchRetirement launch => execLaunchRetirement launch s
  | .indirect queue => execIndirect queue s
  | .pred queue => execPred queue s
  | .loopPacket queue => execLoopPacket queue s
  | .waitmem queue => execWaitmem queue s
  | .waitmemTimeout queue => execWaitmemTimeout queue s
  | .writePacket queue => execWritePacket queue s
  | .signal queue => execSignal queue s
  | .fetchfence queue => execFetchfence queue s
  | .drain queue => execDrain queue s
  | .regionSet queue => execRegionSet queue s
  | .regionSave queue => execRegionSave queue s
  | .regionRestore queue => execRegionRestore queue s
  | .regionPrio queue => execRegionPrio queue s
  | .nopPacket queue => execNopPacket queue s
  | .queueMap queue => execQueueMap queue s
  | .queueIdle queue => execQueueIdle queue s
  | .heartbeat => execHeartbeat s
  | .firmwareTakeover => execFirmwareTakeover s
  | .liveUpdate => execLiveUpdate s
  | .rollbackRaise => execRollbackRaise s
  | .create => execCreate s
  | .destroy => execDestroy s
  | .assign => execAssign s
  | .revoke => execRevoke s
  | .release => execRelease s
  | .attr => execAttr s
  | .quar => execQuar s
  | .unquar => execUnquar s
  | .mint => execMint s
  | .table => execTable s
  | .attest => execAttest s
  | .auditReexecution region => execAuditReexecution region s
  | .auditComparison audit => execAuditComparison audit s
  | .auditTieBreak audit => execAuditTieBreak audit s
  | .sweeperPassStart => execSweeperPassStart s
  | .sweeperPassComplete => execSweeperPassComplete s
  | .powerWindow => execPowerWindow s
  | .pageRequestTimeout tag => execPageRequestTimeout tag s

/-! ### Closing a step -/

/-- Whether the scheduler takes wave `a` before wave `b` of the same core, both ready for one port (R405). -/
def State.before (s : State) (c : Nat) (a b : Nat × Wave) : Bool :=
  let prio (w : Wave) : Nat := match s.block c w.bslot with | some x => s.priority x.env.region | none => 0
  if a.2.urgent || b.2.urgent then
    a.2.urgent && (!b.2.urgent || a.2.urgentAt < b.2.urgentAt || (a.2.urgentAt == b.2.urgentAt && a.1 < b.1))
  else prio b.2 < prio a.2 || (prio a.2 == prio b.2 && (a.2.age < b.2.age || (a.2.age == b.2.age && a.1 < b.1)))

/-- The waves and sequencers of a core that could have the turn: of the waves ready for one port, the scheduler's choice (R405);
and those that wait, which look at what they wait for. A wave that is about to become urgent does so first, a held trap that is
due is delivered first (R341), and a wave in a handler that a pre-emption signal has reached is saved first (R359). -/
def coreTurns (s : State) (c : Nat) (k : Core) : List Turn :=
  if s.coreStopped c || k.waves.any fun e => 64 ≤ e.2.passed && !e.2.urgent then []
  else
    let saved (w : Wave) : Bool := (w.level != 0 || w.bkpend) && w.atBoundary &&
      match s.block c w.bslot with | some b => s.signalledOn c b.env.region | none => false
    let offered := k.waves.filter fun e => e.2.runs && !e.2.trapDue && !saved e.2
    let ready := offered.filter fun e => s.ready c e.1 e.2
    let first := ready.filter fun e => ready.all fun o =>
      o.1 == e.1 || s.portAt c o.2 != s.portAt c e.2 || s.before c e o
    let waits := offered.filter fun e => match e.2.waiting with | .none | .retry _ | .granted => false | _ => true
    ((first ++ waits).map fun e => Turn.wave c e.1)
      ++ ((k.blocks.filter fun e => e.2.seqr.status == 2 || e.2.seqr.status == 3).map fun e => Turn.seqr c e.1)

/-- The turns that could come next: streams, the part's own events, and the next event from outside. A part that is frozen, or
without power, has only the last. -/
def candidates (s : State) : List Turn :=
  (if s.frozen || !s.powered then []
   else s.cores.flatMap (fun ((c, k) : Nat × Core) => coreTurns s c k) ++ (internalEvents s).map Turn.own)
    ++ (if s.inputs.isEmpty then [] else [Turn.input])

/-- Operands in flight are looked at again, time passes, the step is counted, and the next turn is chosen. -/
def afterStep (s : State) : State :=
  let s0 := { s.watchFlights.noteImages.noteInputs.noteQueues with loose := false }
  let s1 := { s0 with tick := s.tick + 1, time := if s.frozen || !s.powered then s.time else advanceTime s }
  let cs := candidates s1
  { s1 with turn := if cs.isEmpty then .idle else cs.getD (Config.choice s.tick % cs.length) .idle }

/-- The environment under which a placed instruction runs: every feature permitted, no handler. -/
def placeEnv : Env :=
  { region := 1, top := 1, partition := [0], colour := 1, checked := false, stallCheck := false, localCap := false,
    codeOffset := false, audit := 0, feat := 0xFF, domain := 0, trapEntry := none, emuEntry := none,
    backing := Cap.null, emuArea := Cap.null, sbDepth := 16 }

/-- A line that holds one instruction in its first slot (R34, R35). -/
def oneLine (seg : Nat) (w : Slot) : List Byte :=
  let head (p : Nat) : List Byte := toBytes 4 (seg + 2 ^ 8 + p * 2 ^ 13)
  let body := toBytes 12 w.toNat ++ List.replicate 48 0
  head (lineParity (head 0 ++ body)).toNat ++ body

/-- A code object at address 0 as far as a fetch from its one segment needs it: the offset of the segment table, the entry
of segment 0, and its image at byte 128 (R98, R392). -/
def placeImage (bytes : KMap Byte) : List Host.Cell :=
  (32, 64) :: (64, 128) :: (72, 1) :: bytes.map fun e => (128 + e.1, e.2)

/-- The state with one instruction placed at the pc of the one stream that may run it, and that stream's turn: core 0
latched to colour 1 with a block of one wave, in a handler where only a handler may run the code, or the block's
sequencer for the matrix class (R61). -/
def placeInstr (s : State) (w : Slot) : State :=
  let home := match parse w with | some i => i.view.home | none => .wave
  let image : KMap Byte := ((oneLine 0 w).zip (List.range 64)).foldl (fun m (x, a) => kput m a x 0) []
  let seg : Segment := { code := 0, num := 0, size := 1, slots := [0], loading := false, dropPending := false, after := (0, 0), changed := false,
                         bytes := image }
  let wv := startWave s.nextUid 0 0 4 Cap.null
  let wv1 := if home = .handler then { wv with handlers := [Bank.start 4 Mask.all] } else wv
  let b := startBlock 0 0 0 0 1 0 4 placeEnv 0 1024 4 (startSequencer 4 (if home = .sequencer then 2 else 0))
  let k := { s.core 0 with latch := 1, waves := [(0, wv1)], blocks := [(0, b)], segs := [seg] }
  { s.setCore 0 k with
    mem := placeImage image ++ s.mem.filter fun e => 8320 ≤ e.1
    nextUid := s.nextUid + 1
    clusters := kset s.clusters 0 { members := [(0, 0)], phase := 0, arrived := [], gone := [] }
    turn := if home = .sequencer then .seqr 0 0 else .wave 0 0
    frozen := false, powered := true }

end Sys2Proof.Machine
end

