-- ==== Sys2Proof/Machine/Step.lean ====
section
/-!
DEFINITION. One step of the part: the turn's engine acts, time passes, and the next turn is chosen.
-/

namespace Sys2Proof.Machine

/-- What follows an outcome: a next state has the step closed on it. -/
def closed : Host.Outcome State Fault Refusal → Host.Outcome State Fault Refusal
  | .next s => .next (afterStep s)
  | .fault f => .fault f
  | .refused r => .refused r

/-- One step. A wave or sequencer that has the turn runs the instruction it fetches, an event runs as itself, and after
either time passes and the next turn is chosen. -/
def step (s : State) : Host.Outcome State Fault Refusal :=
  match prepare s with
  | .run i s1 => closed (exec i s1)
  | .own e s1 => closed (runOwn e s1)
  | .done s1 => .next (afterStep s1)

/-- The state with an instruction placed where the next step fetches it: the bits above `nbits` are zero. -/
def State.withFetchWord (s : State) (nbits w : Nat) : State := placeInstr s (BitVec.ofNat 96 (w % 2 ^ nbits))

end Sys2Proof.Machine
end

