-- ==== Sys2Proof/Laws/KMap.lean ====
section
/-!
SUPPORT. The laws of maps and sets: what a lookup after an update gives, and that updates keep the canonical form.
-/

namespace Sys2Proof

variable {α : Type}

/-! ### Lookups -/

@[simp] theorem kget_nil (k : Nat) : kget ([] : KMap α) k = none := rfl

@[simp] theorem kget_kset_self (m : KMap α) (k : Nat) (v : α) : kget (kset m k v) k = some v := by
  induction m with
  | nil => simp [kset, kget]
  | cons e m ih =>
    obtain ⟨k', v'⟩ := e
    simp only [kset]
    split
    · simp [kget]
    · split
      · simp [kget]
      · simp [kget, *]

theorem kget_kset_ne (m : KMap α) {k k' : Nat} (v : α) (h : k' ≠ k) : kget (kset m k v) k' = kget m k' := by
  induction m with
  | nil => simp [kset, kget, Ne.symm h]
  | cons e m ih =>
    obtain ⟨k₁, v₁⟩ := e
    simp only [kset]
    split
    · simp [kget, Ne.symm h]
    · split
      · rename_i h₁
        subst h₁
        simp [kget, Ne.symm h]
      · simp only [kget, ih]

theorem kget_kset (m : KMap α) (k k' : Nat) (v : α) :
    kget (kset m k v) k' = if k' = k then some v else kget m k' := by
  split
  · subst_vars; simp
  · exact kget_kset_ne m v ‹_›

@[simp] theorem kget_kdel_self (m : KMap α) (k : Nat) : kget (kdel m k) k = none := by
  induction m with
  | nil => rfl
  | cons e m ih =>
    obtain ⟨k', v'⟩ := e
    simp only [kdel]
    split
    · exact ih
    · simp [kget, *]

theorem kget_kdel_ne (m : KMap α) {k k' : Nat} (h : k' ≠ k) : kget (kdel m k) k' = kget m k' := by
  induction m with
  | nil => rfl
  | cons e m ih =>
    obtain ⟨k₁, v₁⟩ := e
    simp only [kdel]
    split
    · subst_vars
      simp [kget, Ne.symm h, ih]
    · simp only [kget, ih]

theorem kgetD_kset (m : KMap α) (k k' : Nat) (v d : α) :
    kgetD (kset m k v) k' d = if k' = k then v else kgetD m k' d := by
  unfold kgetD
  rw [kget_kset]
  split <;> rfl

@[simp] theorem kgetD_kset_self (m : KMap α) (k : Nat) (v d : α) : kgetD (kset m k v) k d = v := by
  simp [kgetD_kset]

theorem kgetD_kset_ne (m : KMap α) {k k' : Nat} (v d : α) (h : k' ≠ k) :
    kgetD (kset m k v) k' d = kgetD m k' d := by simp [kgetD_kset, h]

/-- A map in which an absent key stands for `d`, after an update. -/
theorem kgetD_kput [DecidableEq α] (m : KMap α) (k k' : Nat) (v d : α) :
    kgetD (kput m k v d) k' d = if k' = k then v else kgetD m k' d := by
  unfold kput
  by_cases hv : v = d
  · rw [if_pos hv]
    by_cases h : k' = k
    · subst h; simp [kgetD, hv]
    · simp [kgetD, kget_kdel_ne m h, h]
  · rw [if_neg hv, kgetD_kset]

theorem kget_kmod (m : KMap α) (k k' : Nat) (f : α → α) :
    kget (kmod m k f) k' = if k' = k then (kget m k).map f else kget m k' := by
  unfold kmod
  cases hm : kget m k with
  | none =>
    by_cases h : k' = k
    · subst h; simp [hm]
    · simp [h]
  | some v => simp [kget_kset]

@[simp] theorem kset_kset (m : KMap α) (k : Nat) (v v' : α) : kset (kset m k v) k v' = kset m k v' := by
  induction m with
  | nil => simp [kset]
  | cons e m ih =>
    obtain ⟨k₁, v₁⟩ := e
    by_cases h : k < k₁
    · simp [kset, h]
    · by_cases h' : k₁ = k
      · simp [kset, h']
      · simp [kset, h, h', ih]

/-! ### The canonical form -/

theorem kwfFrom_mono {m : KMap α} {lo lo' : Nat} (h : lo' ≤ lo) (hm : kwfFrom lo m = true) : kwfFrom lo' m = true := by
  cases m with
  | nil => rfl
  | cons e m =>
    obtain ⟨k, v⟩ := e
    simp only [kwfFrom, Bool.and_eq_true, decide_eq_true_eq] at hm ⊢
    exact ⟨h.trans hm.1, hm.2⟩

theorem kwfFrom_kset {m : KMap α} {lo k : Nat} (v : α) (hk : lo ≤ k) (hm : kwfFrom lo m = true) :
    kwfFrom lo (kset m k v) = true := by
  induction m generalizing lo with
  | nil => simpa [kset, kwfFrom] using hk
  | cons e m ih =>
    obtain ⟨k', v'⟩ := e
    simp only [kwfFrom, Bool.and_eq_true, decide_eq_true_eq] at hm
    simp only [kset]
    split
    · rename_i h
      simp only [kwfFrom, Bool.and_eq_true, decide_eq_true_eq]
      exact ⟨hk, h, hm.2⟩
    · split
      · rename_i h
        subst h
        simpa [kwfFrom] using hm
      · simp only [kwfFrom, Bool.and_eq_true, decide_eq_true_eq]
        exact ⟨hm.1, ih (by omega) hm.2⟩

theorem kwf_kset {m : KMap α} (k : Nat) (v : α) (hm : kwf m = true) : kwf (kset m k v) = true :=
  kwfFrom_kset v (Nat.zero_le k) hm

theorem kwfFrom_kdel {m : KMap α} {lo : Nat} (k : Nat) (hm : kwfFrom lo m = true) : kwfFrom lo (kdel m k) = true := by
  induction m generalizing lo with
  | nil => rfl
  | cons e m ih =>
    obtain ⟨k', v'⟩ := e
    simp only [kwfFrom, Bool.and_eq_true, decide_eq_true_eq] at hm
    simp only [kdel]
    split
    · exact kwfFrom_mono (by omega) (ih hm.2)
    · simp only [kwfFrom, Bool.and_eq_true, decide_eq_true_eq]
      exact ⟨hm.1, ih hm.2⟩

theorem kwf_kdel {m : KMap α} (k : Nat) (hm : kwf m = true) : kwf (kdel m k) = true := kwfFrom_kdel k hm

theorem kwf_kput [DecidableEq α] {m : KMap α} (k : Nat) (v d : α) (hm : kwf m = true) : kwf (kput m k v d) = true := by
  unfold kput
  split
  · exact kwf_kdel k hm
  · exact kwf_kset k v hm

theorem mem_kset {m : KMap α} {k : Nat} {v : α} {e : Nat × α} (h : e ∈ kset m k v) : e = (k, v) ∨ e ∈ m := by
  induction m with
  | nil => simpa [kset] using h
  | cons e' m ih =>
    obtain ⟨k', v'⟩ := e'
    simp only [kset] at h
    split at h
    · simpa using h
    · split at h
      · rcases List.mem_cons.1 h with h | h
        · exact .inl h
        · exact .inr (List.mem_cons_of_mem _ h)
      · rcases List.mem_cons.1 h with h | h
        · exact .inr (h ▸ List.mem_cons_self)
        · exact (ih h).imp id (List.mem_cons_of_mem _)

theorem mem_kdel {m : KMap α} {k : Nat} {e : Nat × α} (h : e ∈ kdel m k) : e ∈ m := by
  induction m with
  | nil => exact h
  | cons e' m ih =>
    obtain ⟨k', v'⟩ := e'
    simp only [kdel] at h
    split at h
    · exact List.mem_cons_of_mem _ (ih h)
    · rcases List.mem_cons.1 h with h | h
      · exact h ▸ List.mem_cons_self
      · exact List.mem_cons_of_mem _ (ih h)

/-- No entry of a map equals what an absent key stands for, after an update as before it. -/
theorem kput_ne_default [DecidableEq α] {m : KMap α} {d : α} (k : Nat) (v : α) (hm : ∀ e ∈ m, e.2 ≠ d) :
    ∀ e ∈ kput m k v d, e.2 ≠ d := by
  intro e he
  unfold kput at he
  split at he
  · exact hm e (mem_kdel he)
  · rcases mem_kset he with h | h
    · subst h; assumption
    · exact hm e h

/-! ### Sets -/

@[simp] theorem mem_nins (m : NSet) (k x : Nat) : x ∈ nins m k ↔ x = k ∨ x ∈ m := by
  induction m with
  | nil => simp [nins]
  | cons y m ih =>
    simp only [nins]
    split
    · simp
    · split
      · subst_vars; simp
      · simp only [List.mem_cons, ih]; tauto

@[simp] theorem mem_ndel (m : NSet) (k x : Nat) : x ∈ ndel m k ↔ x ≠ k ∧ x ∈ m := by
  induction m with
  | nil => simp [ndel]
  | cons y m ih =>
    simp only [ndel]
    split
    · subst_vars
      rw [ih, List.mem_cons]
      constructor
      · tauto
      · rintro ⟨h, rfl | h'⟩
        · exact absurd rfl h
        · exact ⟨h, h'⟩
    · rename_i hy
      simp only [List.mem_cons, ih]
      constructor
      · rintro (rfl | h)
        · exact ⟨hy, .inl rfl⟩
        · exact ⟨h.1, .inr h.2⟩
      · tauto

/-- Many numbers taken out of a set. -/
theorem mem_foldl_ndel (l m : NSet) (x : Nat) : x ∈ l.foldl ndel m ↔ x ∉ l ∧ x ∈ m := by
  induction l generalizing m with
  | nil => simp
  | cons y l ih =>
    rw [List.foldl_cons, ih, mem_ndel, List.mem_cons]
    tauto

/-- Many numbers put into a set. -/
theorem mem_foldl_nins (l m : NSet) (x : Nat) : x ∈ l.foldl nins m ↔ x ∈ l ∨ x ∈ m := by
  induction l generalizing m with
  | nil => simp
  | cons y l ih =>
    rw [List.foldl_cons, ih, mem_nins, List.mem_cons]
    tauto

@[simp] theorem mem_rangeFrom (lo n x : Nat) : x ∈ rangeFrom lo n ↔ lo ≤ x ∧ x < lo + n := by
  simp only [rangeFrom, List.mem_map, List.mem_range]
  constructor
  · rintro ⟨i, hi, rfl⟩; omega
  · intro h; exact ⟨x - lo, by omega, by omega⟩

/-! ### Lists -/

@[simp] theorem length_lmod (l : List α) (i : Nat) (f : α → α) : (lmod l i f).length = l.length := by
  induction l generalizing i with
  | nil => rfl
  | cons x l ih => cases i <;> simp [lmod, ih]

theorem getElem?_lmod (l : List α) (i j : Nat) (f : α → α) :
    (lmod l i f)[j]? = if j = i then l[j]?.map f else l[j]? := by
  induction l generalizing i j with
  | nil => simp [lmod]
  | cons x l ih =>
    cases i with
    | zero => cases j <;> simp [lmod]
    | succ i => cases j <;> simp [lmod, ih]

end Sys2Proof
end

