-- ==== Sys2Proof/Laws/State.lean ====
section
/-!
SUPPORT. One lemma per field and update of the state: what an update of a core, a wave, a block or a bank leaves and what it
sets.
-/

namespace Sys2Proof.Machine

/-! ### A core written -/

@[simp] theorem setCore_tick (s : State) (c : Nat) (k : Core) : (s.setCore c k).tick = s.tick := rfl
@[simp] theorem setCore_time (s : State) (c : Nat) (k : Core) : (s.setCore c k).time = s.time := rfl
@[simp] theorem setCore_turn (s : State) (c : Nat) (k : Core) : (s.setCore c k).turn = s.turn := rfl
@[simp] theorem setCore_inputs (s : State) (c : Nat) (k : Core) : (s.setCore c k).inputs = s.inputs := rfl
@[simp] theorem setCore_product (s : State) (c : Nat) (k : Core) : (s.setCore c k).product = s.product := rfl
@[simp] theorem setCore_devid (s : State) (c : Nat) (k : Core) : (s.setCore c k).devid = s.devid := rfl
@[simp] theorem setCore_mem (s : State) (c : Nat) (k : Core) : (s.setCore c k).mem = s.mem := rfl
@[simp] theorem setCore_tags (s : State) (c : Nat) (k : Core) : (s.setCore c k).tags = s.tags := rfl
@[simp] theorem setCore_poison (s : State) (c : Nat) (k : Core) : (s.setCore c k).poison = s.poison := rfl
@[simp] theorem setCore_kaolin (s : State) (c : Nat) (k : Core) : (s.setCore c k).kaolin = s.kaolin := rfl
@[simp] theorem setCore_clusters (s : State) (c : Nat) (k : Core) : (s.setCore c k).clusters = s.clusters := rfl
@[simp] theorem setCore_acks (s : State) (c : Nat) (k : Core) : (s.setCore c k).acks = s.acks := rfl
@[simp] theorem setCore_halts (s : State) (c : Nat) (k : Core) : (s.setCore c k).halts = s.halts := rfl
@[simp] theorem setCore_nextUid (s : State) (c : Nat) (k : Core) : (s.setCore c k).nextUid = s.nextUid := rfl
@[simp] theorem setCore_ring (s : State) (c : Nat) (k : Core) : (s.setCore c k).ring = s.ring := rfl
@[simp] theorem setCore_msix (s : State) (c : Nat) (k : Core) : (s.setCore c k).msix = s.msix := rfl
@[simp] theorem setCore_cpmode (s : State) (c : Nat) (k : Core) : (s.setCore c k).cpmode = s.cpmode := rfl
@[simp] theorem setCore_colours (s : State) (c : Nat) (k : Core) : (s.setCore c k).colours = s.colours := rfl
@[simp] theorem setCore_channels (s : State) (c : Nat) (k : Core) : (s.setCore c k).channels = s.channels := rfl
@[simp] theorem setCore_ports (s : State) (c : Nat) (k : Core) : (s.setCore c k).ports = s.ports := rfl
@[simp] theorem setCore_remote (s : State) (c : Nat) (k : Core) : (s.setCore c k).remote = s.remote := rfl
@[simp] theorem setCore_nextTag (s : State) (c : Nat) (k : Core) : (s.setCore c k).nextTag = s.nextTag := rfl
@[simp] theorem setCore_partials (s : State) (c : Nat) (k : Core) : (s.setCore c k).partials = s.partials := rfl
@[simp] theorem setCore_groupFlits (s : State) (c : Nat) (k : Core) : (s.setCore c k).groupFlits = s.groupFlits := rfl
@[simp] theorem setCore_parked (s : State) (c : Nat) (k : Core) : (s.setCore c k).parked = s.parked := rfl
@[simp] theorem setCore_launchRefused (s : State) (c : Nat) (k : Core) : (s.setCore c k).launchRefused = s.launchRefused := rfl
@[simp] theorem setCore_hot (s : State) (c : Nat) (k : Core) : (s.setCore c k).hot = s.hot := rfl
@[simp] theorem setCore_served (s : State) (c : Nat) (k : Core) : (s.setCore c k).served = s.served := rfl
@[simp] theorem setCore_saveOrder (s : State) (c : Nat) (k : Core) : (s.setCore c k).saveOrder = s.saveOrder := rfl
@[simp] theorem setCore_loose (s : State) (c : Nat) (k : Core) : (s.setCore c k).loose = s.loose := rfl
@[simp] theorem setCore_tenants (s : State) (c : Nat) (k : Core) : (s.setCore c k).tenants = s.tenants := rfl
@[simp] theorem setCore_hostPresent (s : State) (c : Nat) (k : Core) : (s.setCore c k).hostPresent = s.hostPresent := rfl
@[simp] theorem setCore_pri (s : State) (c : Nat) (k : Core) : (s.setCore c k).pri = s.pri := rfl
@[simp] theorem setCore_regions (s : State) (c : Nat) (k : Core) : (s.setCore c k).regions = s.regions := rfl
@[simp] theorem setCore_grids (s : State) (c : Nat) (k : Core) : (s.setCore c k).grids = s.grids := rfl
@[simp] theorem setCore_launches (s : State) (c : Nat) (k : Core) : (s.setCore c k).launches = s.launches := rfl
@[simp] theorem setCore_images (s : State) (c : Nat) (k : Core) : (s.setCore c k).images = s.images := rfl
@[simp] theorem setCore_queues (s : State) (c : Nat) (k : Core) : (s.setCore c k).queues = s.queues := rfl
@[simp] theorem setCore_firmware (s : State) (c : Nat) (k : Core) : (s.setCore c k).firmware = s.firmware := rfl
@[simp] theorem setCore_launchQueues (s : State) (c : Nat) (k : Core) : (s.setCore c k).launchQueues = s.launchQueues := rfl
@[simp] theorem setCore_sorrel (s : State) (c : Nat) (k : Core) : (s.setCore c k).sorrel = s.sorrel := rfl
@[simp] theorem setCore_sweeper (s : State) (c : Nat) (k : Core) : (s.setCore c k).sweeper = s.sweeper := rfl
@[simp] theorem setCore_host (s : State) (c : Nat) (k : Core) : (s.setCore c k).host = s.host := rfl
@[simp] theorem setCore_lineCount (s : State) (c : Nat) (k : Core) : (s.setCore c k).lineCount = s.lineCount := rfl
@[simp] theorem setCore_frozen (s : State) (c : Nat) (k : Core) : (s.setCore c k).frozen = s.frozen := rfl
@[simp] theorem setCore_powered (s : State) (c : Nat) (k : Core) : (s.setCore c k).powered = s.powered := rfl

@[simp] theorem core_setCore_self (s : State) (c : Nat) (k : Core) : (s.setCore c k).core c = k := by
  simp [State.core, State.setCore]

theorem core_setCore_ne (s : State) {c c' : Nat} (k : Core) (h : c' ≠ c) : (s.setCore c k).core c' = s.core c' := by
  simp [State.core, State.setCore, kgetD_kset_ne _ _ _ h]

/-! ### A wave written -/

@[simp] theorem setWave_tick (s : State) (c w : Nat) (x : Wave) : (s.setWave c w x).tick = s.tick := rfl
@[simp] theorem setWave_time (s : State) (c w : Nat) (x : Wave) : (s.setWave c w x).time = s.time := rfl
@[simp] theorem setWave_turn (s : State) (c w : Nat) (x : Wave) : (s.setWave c w x).turn = s.turn := rfl
@[simp] theorem setWave_inputs (s : State) (c w : Nat) (x : Wave) : (s.setWave c w x).inputs = s.inputs := rfl
@[simp] theorem setWave_product (s : State) (c w : Nat) (x : Wave) : (s.setWave c w x).product = s.product := rfl
@[simp] theorem setWave_devid (s : State) (c w : Nat) (x : Wave) : (s.setWave c w x).devid = s.devid := rfl
@[simp] theorem setWave_mem (s : State) (c w : Nat) (x : Wave) : (s.setWave c w x).mem = s.mem := rfl
@[simp] theorem setWave_tags (s : State) (c w : Nat) (x : Wave) : (s.setWave c w x).tags = s.tags := rfl
@[simp] theorem setWave_poison (s : State) (c w : Nat) (x : Wave) : (s.setWave c w x).poison = s.poison := rfl
@[simp] theorem setWave_kaolin (s : State) (c w : Nat) (x : Wave) : (s.setWave c w x).kaolin = s.kaolin := rfl
@[simp] theorem setWave_clusters (s : State) (c w : Nat) (x : Wave) : (s.setWave c w x).clusters = s.clusters := rfl
@[simp] theorem setWave_acks (s : State) (c w : Nat) (x : Wave) : (s.setWave c w x).acks = s.acks := rfl
@[simp] theorem setWave_halts (s : State) (c w : Nat) (x : Wave) : (s.setWave c w x).halts = s.halts := rfl
@[simp] theorem setWave_nextUid (s : State) (c w : Nat) (x : Wave) : (s.setWave c w x).nextUid = s.nextUid := rfl
@[simp] theorem setWave_ring (s : State) (c w : Nat) (x : Wave) : (s.setWave c w x).ring = s.ring := rfl
@[simp] theorem setWave_msix (s : State) (c w : Nat) (x : Wave) : (s.setWave c w x).msix = s.msix := rfl
@[simp] theorem setWave_cpmode (s : State) (c w : Nat) (x : Wave) : (s.setWave c w x).cpmode = s.cpmode := rfl
@[simp] theorem setWave_colours (s : State) (c w : Nat) (x : Wave) : (s.setWave c w x).colours = s.colours := rfl
@[simp] theorem setWave_channels (s : State) (c w : Nat) (x : Wave) : (s.setWave c w x).channels = s.channels := rfl
@[simp] theorem setWave_ports (s : State) (c w : Nat) (x : Wave) : (s.setWave c w x).ports = s.ports := rfl
@[simp] theorem setWave_remote (s : State) (c w : Nat) (x : Wave) : (s.setWave c w x).remote = s.remote := rfl
@[simp] theorem setWave_nextTag (s : State) (c w : Nat) (x : Wave) : (s.setWave c w x).nextTag = s.nextTag := rfl
@[simp] theorem setWave_partials (s : State) (c w : Nat) (x : Wave) : (s.setWave c w x).partials = s.partials := rfl
@[simp] theorem setWave_groupFlits (s : State) (c w : Nat) (x : Wave) : (s.setWave c w x).groupFlits = s.groupFlits := rfl
@[simp] theorem setWave_parked (s : State) (c w : Nat) (x : Wave) : (s.setWave c w x).parked = s.parked := rfl
@[simp] theorem setWave_launchRefused (s : State) (c w : Nat) (x : Wave) : (s.setWave c w x).launchRefused = s.launchRefused := rfl
@[simp] theorem setWave_hot (s : State) (c w : Nat) (x : Wave) : (s.setWave c w x).hot = s.hot := rfl
@[simp] theorem setWave_served (s : State) (c w : Nat) (x : Wave) : (s.setWave c w x).served = s.served := rfl
@[simp] theorem setWave_saveOrder (s : State) (c w : Nat) (x : Wave) : (s.setWave c w x).saveOrder = s.saveOrder := rfl
@[simp] theorem setWave_loose (s : State) (c w : Nat) (x : Wave) : (s.setWave c w x).loose = s.loose := rfl
@[simp] theorem setWave_tenants (s : State) (c w : Nat) (x : Wave) : (s.setWave c w x).tenants = s.tenants := rfl
@[simp] theorem setWave_hostPresent (s : State) (c w : Nat) (x : Wave) : (s.setWave c w x).hostPresent = s.hostPresent := rfl
@[simp] theorem setWave_pri (s : State) (c w : Nat) (x : Wave) : (s.setWave c w x).pri = s.pri := rfl
@[simp] theorem setWave_regions (s : State) (c w : Nat) (x : Wave) : (s.setWave c w x).regions = s.regions := rfl
@[simp] theorem setWave_grids (s : State) (c w : Nat) (x : Wave) : (s.setWave c w x).grids = s.grids := rfl
@[simp] theorem setWave_launches (s : State) (c w : Nat) (x : Wave) : (s.setWave c w x).launches = s.launches := rfl
@[simp] theorem setWave_images (s : State) (c w : Nat) (x : Wave) : (s.setWave c w x).images = s.images := rfl
@[simp] theorem setWave_queues (s : State) (c w : Nat) (x : Wave) : (s.setWave c w x).queues = s.queues := rfl
@[simp] theorem setWave_firmware (s : State) (c w : Nat) (x : Wave) : (s.setWave c w x).firmware = s.firmware := rfl
@[simp] theorem setWave_launchQueues (s : State) (c w : Nat) (x : Wave) : (s.setWave c w x).launchQueues = s.launchQueues := rfl
@[simp] theorem setWave_sorrel (s : State) (c w : Nat) (x : Wave) : (s.setWave c w x).sorrel = s.sorrel := rfl
@[simp] theorem setWave_sweeper (s : State) (c w : Nat) (x : Wave) : (s.setWave c w x).sweeper = s.sweeper := rfl
@[simp] theorem setWave_host (s : State) (c w : Nat) (x : Wave) : (s.setWave c w x).host = s.host := rfl
@[simp] theorem setWave_lineCount (s : State) (c w : Nat) (x : Wave) : (s.setWave c w x).lineCount = s.lineCount := rfl
@[simp] theorem setWave_frozen (s : State) (c w : Nat) (x : Wave) : (s.setWave c w x).frozen = s.frozen := rfl
@[simp] theorem setWave_powered (s : State) (c w : Nat) (x : Wave) : (s.setWave c w x).powered = s.powered := rfl

@[simp] theorem core_setWave_latch (s : State) (c w : Nat) (x : Wave) :
    ((s.setWave c w x).core c).latch = (s.core c).latch := by simp [State.setWave]
@[simp] theorem core_setWave_clean (s : State) (c w : Nat) (x : Wave) :
    ((s.setWave c w x).core c).clean = (s.core c).clean := by simp [State.setWave]
@[simp] theorem core_setWave_blocks (s : State) (c w : Nat) (x : Wave) :
    ((s.setWave c w x).core c).blocks = (s.core c).blocks := by simp [State.setWave]
@[simp] theorem core_setWave_segs (s : State) (c w : Nat) (x : Wave) :
    ((s.setWave c w x).core c).segs = (s.core c).segs := by simp [State.setWave]
@[simp] theorem core_setWave_queue (s : State) (c w : Nat) (x : Wave) :
    ((s.setWave c w x).core c).queue = (s.core c).queue := by simp [State.setWave]
@[simp] theorem core_setWave_l1 (s : State) (c w : Nat) (x : Wave) :
    ((s.setWave c w x).core c).l1 = (s.core c).l1 := by simp [State.setWave]
@[simp] theorem core_setWave_misses (s : State) (c w : Nat) (x : Wave) :
    ((s.setWave c w x).core c).misses = (s.core c).misses := by simp [State.setWave]
@[simp] theorem core_setWave_reserve (s : State) (c w : Nat) (x : Wave) :
    ((s.setWave c w x).core c).reserve = (s.core c).reserve := by simp [State.setWave]
@[simp] theorem core_setWave_parref (s : State) (c w : Nat) (x : Wave) :
    ((s.setWave c w x).core c).parref = (s.core c).parref := by simp [State.setWave]
@[simp] theorem core_setWave_votes (s : State) (c w : Nat) (x : Wave) :
    ((s.setWave c w x).core c).votes = (s.core c).votes := by simp [State.setWave]
@[simp] theorem core_setWave_lastArray (s : State) (c w : Nat) (x : Wave) :
    ((s.setWave c w x).core c).lastArray = (s.core c).lastArray := by simp [State.setWave]
@[simp] theorem core_setWave_lastPort (s : State) (c w : Nat) (x : Wave) :
    ((s.setWave c w x).core c).lastPort = (s.core c).lastPort := by simp [State.setWave]
@[simp] theorem core_setWave_upsets (s : State) (c w : Nat) (x : Wave) :
    ((s.setWave c w x).core c).upsets = (s.core c).upsets := by simp [State.setWave]

@[simp] theorem core_setWave_waves (s : State) (c w : Nat) (x : Wave) :
    ((s.setWave c w x).core c).waves = kset (s.core c).waves w x := by simp [State.setWave]

theorem core_setWave_ne (s : State) {c c' : Nat} (w : Nat) (x : Wave) (h : c' ≠ c) :
    (s.setWave c w x).core c' = s.core c' := by simp [State.setWave, core_setCore_ne _ _ h]

@[simp] theorem wave_setWave_self (s : State) (c w : Nat) (x : Wave) : (s.setWave c w x).wave c w = some x := by
  simp [State.wave]

theorem wave_setWave_ne (s : State) (c : Nat) {w w' : Nat} (x : Wave) (h : w' ≠ w) :
    (s.setWave c w x).wave c w' = s.wave c w' := by simp [State.wave, kget_kset_ne _ _ h]

@[simp] theorem block_setWave (s : State) (c w : Nat) (x : Wave) (c' b : Nat) :
    (s.setWave c w x).block c' b = s.block c' b := by
  by_cases h : c' = c
  · subst h; simp [State.block]
  · simp [State.block, core_setWave_ne _ _ _ h]

@[simp] theorem setWave_setWave (s : State) (c w : Nat) (x y : Wave) :
    (s.setWave c w x).setWave c w y = s.setWave c w y := by
  simp [State.setWave, State.setCore, State.core, kset_kset]

theorem modWave_of (s : State) (c w : Nat) (f : Wave → Wave) {x : Wave} (h : s.wave c w = some x) :
    s.modWave c w f = s.setWave c w (f x) := by simp [State.modWave, h]

/-! ### A block written -/

@[simp] theorem setBlock_tick (s : State) (c b : Nat) (x : Block) : (s.setBlock c b x).tick = s.tick := rfl
@[simp] theorem setBlock_time (s : State) (c b : Nat) (x : Block) : (s.setBlock c b x).time = s.time := rfl
@[simp] theorem setBlock_turn (s : State) (c b : Nat) (x : Block) : (s.setBlock c b x).turn = s.turn := rfl
@[simp] theorem setBlock_inputs (s : State) (c b : Nat) (x : Block) : (s.setBlock c b x).inputs = s.inputs := rfl
@[simp] theorem setBlock_product (s : State) (c b : Nat) (x : Block) : (s.setBlock c b x).product = s.product := rfl
@[simp] theorem setBlock_devid (s : State) (c b : Nat) (x : Block) : (s.setBlock c b x).devid = s.devid := rfl
@[simp] theorem setBlock_mem (s : State) (c b : Nat) (x : Block) : (s.setBlock c b x).mem = s.mem := rfl
@[simp] theorem setBlock_tags (s : State) (c b : Nat) (x : Block) : (s.setBlock c b x).tags = s.tags := rfl
@[simp] theorem setBlock_poison (s : State) (c b : Nat) (x : Block) : (s.setBlock c b x).poison = s.poison := rfl
@[simp] theorem setBlock_kaolin (s : State) (c b : Nat) (x : Block) : (s.setBlock c b x).kaolin = s.kaolin := rfl
@[simp] theorem setBlock_clusters (s : State) (c b : Nat) (x : Block) : (s.setBlock c b x).clusters = s.clusters := rfl
@[simp] theorem setBlock_acks (s : State) (c b : Nat) (x : Block) : (s.setBlock c b x).acks = s.acks := rfl
@[simp] theorem setBlock_halts (s : State) (c b : Nat) (x : Block) : (s.setBlock c b x).halts = s.halts := rfl
@[simp] theorem setBlock_nextUid (s : State) (c b : Nat) (x : Block) : (s.setBlock c b x).nextUid = s.nextUid := rfl
@[simp] theorem setBlock_ring (s : State) (c b : Nat) (x : Block) : (s.setBlock c b x).ring = s.ring := rfl
@[simp] theorem setBlock_msix (s : State) (c b : Nat) (x : Block) : (s.setBlock c b x).msix = s.msix := rfl
@[simp] theorem setBlock_cpmode (s : State) (c b : Nat) (x : Block) : (s.setBlock c b x).cpmode = s.cpmode := rfl
@[simp] theorem setBlock_colours (s : State) (c b : Nat) (x : Block) : (s.setBlock c b x).colours = s.colours := rfl
@[simp] theorem setBlock_channels (s : State) (c b : Nat) (x : Block) : (s.setBlock c b x).channels = s.channels := rfl
@[simp] theorem setBlock_ports (s : State) (c b : Nat) (x : Block) : (s.setBlock c b x).ports = s.ports := rfl
@[simp] theorem setBlock_remote (s : State) (c b : Nat) (x : Block) : (s.setBlock c b x).remote = s.remote := rfl
@[simp] theorem setBlock_nextTag (s : State) (c b : Nat) (x : Block) : (s.setBlock c b x).nextTag = s.nextTag := rfl
@[simp] theorem setBlock_partials (s : State) (c b : Nat) (x : Block) : (s.setBlock c b x).partials = s.partials := rfl
@[simp] theorem setBlock_groupFlits (s : State) (c b : Nat) (x : Block) : (s.setBlock c b x).groupFlits = s.groupFlits := rfl
@[simp] theorem setBlock_parked (s : State) (c b : Nat) (x : Block) : (s.setBlock c b x).parked = s.parked := rfl
@[simp] theorem setBlock_launchRefused (s : State) (c b : Nat) (x : Block) : (s.setBlock c b x).launchRefused = s.launchRefused := rfl
@[simp] theorem setBlock_hot (s : State) (c b : Nat) (x : Block) : (s.setBlock c b x).hot = s.hot := rfl
@[simp] theorem setBlock_served (s : State) (c b : Nat) (x : Block) : (s.setBlock c b x).served = s.served := rfl
@[simp] theorem setBlock_saveOrder (s : State) (c b : Nat) (x : Block) : (s.setBlock c b x).saveOrder = s.saveOrder := rfl
@[simp] theorem setBlock_loose (s : State) (c b : Nat) (x : Block) : (s.setBlock c b x).loose = s.loose := rfl
@[simp] theorem setBlock_tenants (s : State) (c b : Nat) (x : Block) : (s.setBlock c b x).tenants = s.tenants := rfl
@[simp] theorem setBlock_hostPresent (s : State) (c b : Nat) (x : Block) : (s.setBlock c b x).hostPresent = s.hostPresent := rfl
@[simp] theorem setBlock_pri (s : State) (c b : Nat) (x : Block) : (s.setBlock c b x).pri = s.pri := rfl
@[simp] theorem setBlock_regions (s : State) (c b : Nat) (x : Block) : (s.setBlock c b x).regions = s.regions := rfl
@[simp] theorem setBlock_grids (s : State) (c b : Nat) (x : Block) : (s.setBlock c b x).grids = s.grids := rfl
@[simp] theorem setBlock_launches (s : State) (c b : Nat) (x : Block) : (s.setBlock c b x).launches = s.launches := rfl
@[simp] theorem setBlock_images (s : State) (c b : Nat) (x : Block) : (s.setBlock c b x).images = s.images := rfl
@[simp] theorem setBlock_queues (s : State) (c b : Nat) (x : Block) : (s.setBlock c b x).queues = s.queues := rfl
@[simp] theorem setBlock_firmware (s : State) (c b : Nat) (x : Block) : (s.setBlock c b x).firmware = s.firmware := rfl
@[simp] theorem setBlock_launchQueues (s : State) (c b : Nat) (x : Block) : (s.setBlock c b x).launchQueues = s.launchQueues := rfl
@[simp] theorem setBlock_sorrel (s : State) (c b : Nat) (x : Block) : (s.setBlock c b x).sorrel = s.sorrel := rfl
@[simp] theorem setBlock_sweeper (s : State) (c b : Nat) (x : Block) : (s.setBlock c b x).sweeper = s.sweeper := rfl
@[simp] theorem setBlock_host (s : State) (c b : Nat) (x : Block) : (s.setBlock c b x).host = s.host := rfl
@[simp] theorem setBlock_lineCount (s : State) (c b : Nat) (x : Block) : (s.setBlock c b x).lineCount = s.lineCount := rfl
@[simp] theorem setBlock_frozen (s : State) (c b : Nat) (x : Block) : (s.setBlock c b x).frozen = s.frozen := rfl
@[simp] theorem setBlock_powered (s : State) (c b : Nat) (x : Block) : (s.setBlock c b x).powered = s.powered := rfl

@[simp] theorem core_setBlock_latch (s : State) (c b : Nat) (x : Block) :
    ((s.setBlock c b x).core c).latch = (s.core c).latch := by simp [State.setBlock]
@[simp] theorem core_setBlock_clean (s : State) (c b : Nat) (x : Block) :
    ((s.setBlock c b x).core c).clean = (s.core c).clean := by simp [State.setBlock]
@[simp] theorem core_setBlock_waves (s : State) (c b : Nat) (x : Block) :
    ((s.setBlock c b x).core c).waves = (s.core c).waves := by simp [State.setBlock]
@[simp] theorem core_setBlock_segs (s : State) (c b : Nat) (x : Block) :
    ((s.setBlock c b x).core c).segs = (s.core c).segs := by simp [State.setBlock]
@[simp] theorem core_setBlock_queue (s : State) (c b : Nat) (x : Block) :
    ((s.setBlock c b x).core c).queue = (s.core c).queue := by simp [State.setBlock]
@[simp] theorem core_setBlock_l1 (s : State) (c b : Nat) (x : Block) :
    ((s.setBlock c b x).core c).l1 = (s.core c).l1 := by simp [State.setBlock]
@[simp] theorem core_setBlock_misses (s : State) (c b : Nat) (x : Block) :
    ((s.setBlock c b x).core c).misses = (s.core c).misses := by simp [State.setBlock]
@[simp] theorem core_setBlock_reserve (s : State) (c b : Nat) (x : Block) :
    ((s.setBlock c b x).core c).reserve = (s.core c).reserve := by simp [State.setBlock]
@[simp] theorem core_setBlock_parref (s : State) (c b : Nat) (x : Block) :
    ((s.setBlock c b x).core c).parref = (s.core c).parref := by simp [State.setBlock]
@[simp] theorem core_setBlock_votes (s : State) (c b : Nat) (x : Block) :
    ((s.setBlock c b x).core c).votes = (s.core c).votes := by simp [State.setBlock]
@[simp] theorem core_setBlock_lastArray (s : State) (c b : Nat) (x : Block) :
    ((s.setBlock c b x).core c).lastArray = (s.core c).lastArray := by simp [State.setBlock]
@[simp] theorem core_setBlock_lastPort (s : State) (c b : Nat) (x : Block) :
    ((s.setBlock c b x).core c).lastPort = (s.core c).lastPort := by simp [State.setBlock]
@[simp] theorem core_setBlock_upsets (s : State) (c b : Nat) (x : Block) :
    ((s.setBlock c b x).core c).upsets = (s.core c).upsets := by simp [State.setBlock]

theorem core_setBlock_ne (s : State) {c c' : Nat} (b : Nat) (x : Block) (h : c' ≠ c) :
    (s.setBlock c b x).core c' = s.core c' := by simp [State.setBlock, core_setCore_ne _ _ h]

@[simp] theorem block_setBlock_self (s : State) (c b : Nat) (x : Block) : (s.setBlock c b x).block c b = some x := by
  simp [State.block, State.setBlock]

@[simp] theorem wave_setBlock (s : State) (c b : Nat) (x : Block) (c' w : Nat) :
    (s.setBlock c b x).wave c' w = s.wave c' w := by
  by_cases h : c' = c
  · subst h; simp [State.wave]
  · simp [State.wave, core_setBlock_ne _ _ _ h]

theorem modBlock_of (s : State) (c b : Nat) (f : Block → Block) {x : Block} (h : s.block c b = some x) :
    s.modBlock c b f = s.setBlock c b (f x) := by simp [State.modBlock, h]

/-! ### A wave's bank written -/

@[simp] theorem bank_setBank (w : Wave) (b : Bank) : (w.setBank b).bank = b := by
  cases h : w.handlers <;> simp [Wave.setBank, Wave.bank, h]

@[simp] theorem level_setBank (w : Wave) (b : Bank) : (w.setBank b).level = w.level := by
  cases h : w.handlers <;> simp [Wave.setBank, Wave.level, h]

@[simp] theorem setBank_bank (w : Wave) : w.setBank w.bank = w := by
  cases w with | mk uid bslot wblk base handlers => cases handlers <;> rfl

@[simp] theorem setBank_setBank (w : Wave) (b b' : Bank) : (w.setBank b).setBank b' = w.setBank b' := by
  cases h : w.handlers <;> simp [Wave.setBank, h]


@[simp] theorem setBank_uid (w : Wave) (b : Bank) : (w.setBank b).uid = w.uid := by
  unfold Wave.setBank; split <;> rfl
@[simp] theorem setBank_bslot (w : Wave) (b : Bank) : (w.setBank b).bslot = w.bslot := by
  unfold Wave.setBank; split <;> rfl
@[simp] theorem setBank_wblk (w : Wave) (b : Bank) : (w.setBank b).wblk = w.wblk := by
  unfold Wave.setBank; split <;> rfl
@[simp] theorem setBank_level1 (w : Wave) (b : Bank) : (w.setBank b).level1 = w.level1 := by
  unfold Wave.setBank; split <;> rfl
@[simp] theorem setBank_level2 (w : Wave) (b : Bank) : (w.setBank b).level2 = w.level2 := by
  unfold Wave.setBank; split <;> rfl
@[simp] theorem setBank_dead (w : Wave) (b : Bank) : (w.setBank b).dead = w.dead := by
  unfold Wave.setBank; split <;> rfl
@[simp] theorem setBank_exited (w : Wave) (b : Bank) : (w.setBank b).exited = w.exited := by
  unfold Wave.setBank; split <;> rfl
@[simp] theorem setBank_pois (w : Wave) (b : Bank) : (w.setBank b).pois = w.pois := by
  unfold Wave.setBank; split <;> rfl
@[simp] theorem setBank_nearBase (w : Wave) (b : Bank) : (w.setBank b).nearBase = w.nearBase := by
  unfold Wave.setBank; split <;> rfl
@[simp] theorem setBank_nearMap (w : Wave) (b : Bank) : (w.setBank b).nearMap = w.nearMap := by
  unfold Wave.setBank; split <;> rfl
@[simp] theorem setBank_roundMode (w : Wave) (b : Bank) : (w.setBank b).roundMode = w.roundMode := by
  unfold Wave.setBank; split <;> rfl
@[simp] theorem setBank_spills (w : Wave) (b : Bank) : (w.setBank b).spills = w.spills := by
  unfold Wave.setBank; split <;> rfl
@[simp] theorem setBank_spilled (w : Wave) (b : Bank) : (w.setBank b).spilled = w.spilled := by
  unfold Wave.setBank; split <;> rfl
@[simp] theorem setBank_lastIssue (w : Wave) (b : Bank) : (w.setBank b).lastIssue = w.lastIssue := by
  unfold Wave.setBank; split <;> rfl
@[simp] theorem setBank_unfenced (w : Wave) (b : Bank) : (w.setBank b).unfenced = w.unfenced := by
  unfold Wave.setBank; split <;> rfl
@[simp] theorem setBank_unsent (w : Wave) (b : Bank) : (w.setBank b).unsent = w.unsent := by
  unfold Wave.setBank; split <;> rfl
@[simp] theorem setBank_deep (w : Wave) (b : Bank) : (w.setBank b).deep = w.deep := by
  unfold Wave.setBank; split <;> rfl
@[simp] theorem setBank_placed (w : Wave) (b : Bank) : (w.setBank b).placed = w.placed := by
  unfold Wave.setBank; split <;> rfl
@[simp] theorem setBank_fences (w : Wave) (b : Bank) : (w.setBank b).fences = w.fences := by
  unfold Wave.setBank; split <;> rfl
@[simp] theorem setBank_urgentAt (w : Wave) (b : Bank) : (w.setBank b).urgentAt = w.urgentAt := by
  unfold Wave.setBank; split <;> rfl
@[simp] theorem setBank_sb (w : Wave) (b : Bank) : (w.setBank b).sb = w.sb := by
  unfold Wave.setBank; split <;> rfl
@[simp] theorem setBank_nextSerial (w : Wave) (b : Bank) : (w.setBank b).nextSerial = w.nextSerial := by
  unfold Wave.setBank; split <;> rfl
@[simp] theorem setBank_unack (w : Wave) (b : Bank) : (w.setBank b).unack = w.unack := by
  unfold Wave.setBank; split <;> rfl
@[simp] theorem setBank_missrej (w : Wave) (b : Bank) : (w.setBank b).missrej = w.missrej := by
  unfold Wave.setBank; split <;> rfl
@[simp] theorem setBank_aggmrg (w : Wave) (b : Bank) : (w.setBank b).aggmrg = w.aggmrg := by
  unfold Wave.setBank; split <;> rfl
@[simp] theorem setBank_capflt (w : Wave) (b : Bank) : (w.setBank b).capflt = w.capflt := by
  unfold Wave.setBank; split <;> rfl
@[simp] theorem setBank_capfpc (w : Wave) (b : Bank) : (w.setBank b).capfpc = w.capfpc := by
  unfold Wave.setBank; split <;> rfl
@[simp] theorem setBank_capfva (w : Wave) (b : Bank) : (w.setBank b).capfva = w.capfva := by
  unfold Wave.setBank; split <;> rfl
@[simp] theorem setBank_spflt (w : Wave) (b : Bank) : (w.setBank b).spflt = w.spflt := by
  unfold Wave.setBank; split <;> rfl
@[simp] theorem setBank_spfpc (w : Wave) (b : Bank) : (w.setBank b).spfpc = w.spfpc := by
  unfold Wave.setBank; split <;> rfl
@[simp] theorem setBank_spfoff (w : Wave) (b : Bank) : (w.setBank b).spfoff = w.spfoff := by
  unfold Wave.setBank; split <;> rfl
@[simp] theorem setBank_rmtflt (w : Wave) (b : Bank) : (w.setBank b).rmtflt = w.rmtflt := by
  unfold Wave.setBank; split <;> rfl
@[simp] theorem setBank_rmtfpc (w : Wave) (b : Bank) : (w.setBank b).rmtfpc = w.rmtfpc := by
  unfold Wave.setBank; split <;> rfl
@[simp] theorem setBank_rmtfva (w : Wave) (b : Bank) : (w.setBank b).rmtfva = w.rmtfva := by
  unfold Wave.setBank; split <;> rfl
@[simp] theorem setBank_rngK (w : Wave) (b : Bank) : (w.setBank b).rngK = w.rngK := by
  unfold Wave.setBank; split <;> rfl
@[simp] theorem setBank_rngC (w : Wave) (b : Bank) : (w.setBank b).rngC = w.rngC := by
  unfold Wave.setBank; split <;> rfl
@[simp] theorem setBank_producers (w : Wave) (b : Bank) : (w.setBank b).producers = w.producers := by
  unfold Wave.setBank; split <;> rfl
@[simp] theorem setBank_early (w : Wave) (b : Bank) : (w.setBank b).early = w.early := by
  unfold Wave.setBank; split <;> rfl
@[simp] theorem setBank_waiting (w : Wave) (b : Bank) : (w.setBank b).waiting = w.waiting := by
  unfold Wave.setBank; split <;> rfl
@[simp] theorem setBank_fe (w : Wave) (b : Bank) : (w.setBank b).fe = w.fe := by
  unfold Wave.setBank; split <;> rfl
@[simp] theorem setBank_barWait (w : Wave) (b : Bank) : (w.setBank b).barWait = w.barWait := by
  unfold Wave.setBank; split <;> rfl
@[simp] theorem setBank_gbarWait (w : Wave) (b : Bank) : (w.setBank b).gbarWait = w.gbarWait := by
  unfold Wave.setBank; split <;> rfl
@[simp] theorem setBank_held (w : Wave) (b : Bank) : (w.setBank b).held = w.held := by
  unfold Wave.setBank; split <;> rfl
@[simp] theorem setBank_errors (w : Wave) (b : Bank) : (w.setBank b).errors = w.errors := by
  unfold Wave.setBank; split <;> rfl
@[simp] theorem setBank_lines (w : Wave) (b : Bank) : (w.setBank b).lines = w.lines := by
  unfold Wave.setBank; split <;> rfl
@[simp] theorem setBank_urgent (w : Wave) (b : Bank) : (w.setBank b).urgent = w.urgent := by
  unfold Wave.setBank; split <;> rfl
@[simp] theorem setBank_passed (w : Wave) (b : Bank) : (w.setBank b).passed = w.passed := by
  unfold Wave.setBank; split <;> rfl
@[simp] theorem setBank_dbgHalt (w : Wave) (b : Bank) : (w.setBank b).dbgHalt = w.dbgHalt := by
  unfold Wave.setBank; split <;> rfl
@[simp] theorem setBank_recorded (w : Wave) (b : Bank) : (w.setBank b).recorded = w.recorded := by
  unfold Wave.setBank; split <;> rfl
@[simp] theorem setBank_liveEntry (w : Wave) (b : Bank) : (w.setBank b).liveEntry = w.liveEntry := by
  unfold Wave.setBank; split <;> rfl
@[simp] theorem setBank_bkpend (w : Wave) (b : Bank) : (w.setBank b).bkpend = w.bkpend := by
  unfold Wave.setBank; split <;> rfl
@[simp] theorem setBank_age (w : Wave) (b : Bank) : (w.setBank b).age = w.age := by
  unfold Wave.setBank; split <;> rfl

@[simp] theorem setBank_live (w : Wave) (b : Bank) : (w.setBank b).live = w.live := by simp [Wave.live]

/-! ### The registers of a bank written -/

@[simp] theorem setTags_pc (b : Bank) (q : Nat) (m : Mask) : (b.setTags q m).pc = b.pc := rfl
@[simp] theorem setTags_mask (b : Bank) (q : Nat) (m : Mask) : (b.setTags q m).mask = b.mask := rfl
@[simp] theorem setTags_rpc (b : Bank) (q : Nat) (m : Mask) : (b.setTags q m).rpc = b.rpc := rfl
@[simp] theorem setTags_ctl (b : Bank) (q : Nat) (m : Mask) : (b.setTags q m).ctl = b.ctl := rfl
@[simp] theorem setTags_loops (b : Bank) (q : Nat) (m : Mask) : (b.setTags q m).loops = b.loops := rfl
@[simp] theorem setTags_v (b : Bank) (q : Nat) (m : Mask) : (b.setTags q m).v = b.v := rfl
@[simp] theorem setTags_p (b : Bank) (q : Nat) (m : Mask) : (b.setTags q m).p = b.p := rfl
@[simp] theorem setTags_g (b : Bank) (q : Nat) (m : Mask) : (b.setTags q m).g = b.g := rfl
@[simp] theorem setTags_gtags (b : Bank) (q : Nat) (m : Mask) : (b.setTags q m).gtags = b.gtags := rfl
@[simp] theorem setTags_q (b : Bank) (q : Nat) (m : Mask) : (b.setTags q m).q = b.q := rfl

@[simp] theorem write_pc (b : Bank) (act live : Mask) (d : Nat) (x : VVal) (fmt : Nat) :
    (b.write act live d x fmt).pc = b.pc := by
  unfold Bank.write
  split
  · rfl
  · dsimp only
    split
    · rfl
    · split <;> rfl
@[simp] theorem write_mask (b : Bank) (act live : Mask) (d : Nat) (x : VVal) (fmt : Nat) :
    (b.write act live d x fmt).mask = b.mask := by
  unfold Bank.write
  split
  · rfl
  · dsimp only
    split
    · rfl
    · split <;> rfl
@[simp] theorem write_rpc (b : Bank) (act live : Mask) (d : Nat) (x : VVal) (fmt : Nat) :
    (b.write act live d x fmt).rpc = b.rpc := by
  unfold Bank.write
  split
  · rfl
  · dsimp only
    split
    · rfl
    · split <;> rfl
@[simp] theorem write_ctl (b : Bank) (act live : Mask) (d : Nat) (x : VVal) (fmt : Nat) :
    (b.write act live d x fmt).ctl = b.ctl := by
  unfold Bank.write
  split
  · rfl
  · dsimp only
    split
    · rfl
    · split <;> rfl
@[simp] theorem write_loops (b : Bank) (act live : Mask) (d : Nat) (x : VVal) (fmt : Nat) :
    (b.write act live d x fmt).loops = b.loops := by
  unfold Bank.write
  split
  · rfl
  · dsimp only
    split
    · rfl
    · split <;> rfl
@[simp] theorem write_p (b : Bank) (act live : Mask) (d : Nat) (x : VVal) (fmt : Nat) :
    (b.write act live d x fmt).p = b.p := by
  unfold Bank.write
  split
  · rfl
  · dsimp only
    split
    · rfl
    · split <;> rfl
@[simp] theorem write_g (b : Bank) (act live : Mask) (d : Nat) (x : VVal) (fmt : Nat) :
    (b.write act live d x fmt).g = b.g := by
  unfold Bank.write
  split
  · rfl
  · dsimp only
    split
    · rfl
    · split <;> rfl
@[simp] theorem write_gtags (b : Bank) (act live : Mask) (d : Nat) (x : VVal) (fmt : Nat) :
    (b.write act live d x fmt).gtags = b.gtags := by
  unfold Bank.write
  split
  · rfl
  · dsimp only
    split
    · rfl
    · split <;> rfl
@[simp] theorem write_q (b : Bank) (act live : Mask) (d : Nat) (x : VVal) (fmt : Nat) :
    (b.write act live d x fmt).q = b.q := by
  unfold Bank.write
  split
  · rfl
  · dsimp only
    split
    · rfl
    · split <;> rfl

@[simp] theorem writePred_pc (b : Bank) (act : Mask) (d : Nat) (m : Mask) :
    (b.writePred act d m).pc = b.pc := by unfold Bank.writePred; split <;> rfl
@[simp] theorem writePred_mask (b : Bank) (act : Mask) (d : Nat) (m : Mask) :
    (b.writePred act d m).mask = b.mask := by unfold Bank.writePred; split <;> rfl
@[simp] theorem writePred_rpc (b : Bank) (act : Mask) (d : Nat) (m : Mask) :
    (b.writePred act d m).rpc = b.rpc := by unfold Bank.writePred; split <;> rfl
@[simp] theorem writePred_ctl (b : Bank) (act : Mask) (d : Nat) (m : Mask) :
    (b.writePred act d m).ctl = b.ctl := by unfold Bank.writePred; split <;> rfl
@[simp] theorem writePred_loops (b : Bank) (act : Mask) (d : Nat) (m : Mask) :
    (b.writePred act d m).loops = b.loops := by unfold Bank.writePred; split <;> rfl
@[simp] theorem writePred_v (b : Bank) (act : Mask) (d : Nat) (m : Mask) :
    (b.writePred act d m).v = b.v := by unfold Bank.writePred; split <;> rfl
@[simp] theorem writePred_vtags (b : Bank) (act : Mask) (d : Nat) (m : Mask) :
    (b.writePred act d m).vtags = b.vtags := by unfold Bank.writePred; split <;> rfl
@[simp] theorem writePred_g (b : Bank) (act : Mask) (d : Nat) (m : Mask) :
    (b.writePred act d m).g = b.g := by unfold Bank.writePred; split <;> rfl
@[simp] theorem writePred_gtags (b : Bank) (act : Mask) (d : Nat) (m : Mask) :
    (b.writePred act d m).gtags = b.gtags := by unfold Bank.writePred; split <;> rfl
@[simp] theorem writePred_q (b : Bank) (act : Mask) (d : Nat) (m : Mask) :
    (b.writePred act d m).q = b.q := by unfold Bank.writePred; split <;> rfl

@[simp] theorem writeGrp_pc (b : Bank) (d : Nat) (x : Dword) : (b.writeGrp d x).pc = b.pc := rfl
@[simp] theorem writeGrp_mask (b : Bank) (d : Nat) (x : Dword) : (b.writeGrp d x).mask = b.mask := rfl
@[simp] theorem writeGrp_rpc (b : Bank) (d : Nat) (x : Dword) : (b.writeGrp d x).rpc = b.rpc := rfl
@[simp] theorem writeGrp_ctl (b : Bank) (d : Nat) (x : Dword) : (b.writeGrp d x).ctl = b.ctl := rfl
@[simp] theorem writeGrp_loops (b : Bank) (d : Nat) (x : Dword) : (b.writeGrp d x).loops = b.loops := rfl
@[simp] theorem writeGrp_v (b : Bank) (d : Nat) (x : Dword) : (b.writeGrp d x).v = b.v := rfl
@[simp] theorem writeGrp_vtags (b : Bank) (d : Nat) (x : Dword) : (b.writeGrp d x).vtags = b.vtags := rfl
@[simp] theorem writeGrp_p (b : Bank) (d : Nat) (x : Dword) : (b.writeGrp d x).p = b.p := rfl
@[simp] theorem writeGrp_q (b : Bank) (d : Nat) (x : Dword) : (b.writeGrp d x).q = b.q := rfl

@[simp] theorem writeQ_pc (b : Bank) (d : Nat) (x : Bool) : (b.writeQ d x).pc = b.pc := rfl
@[simp] theorem writeQ_mask (b : Bank) (d : Nat) (x : Bool) : (b.writeQ d x).mask = b.mask := rfl
@[simp] theorem writeQ_rpc (b : Bank) (d : Nat) (x : Bool) : (b.writeQ d x).rpc = b.rpc := rfl
@[simp] theorem writeQ_ctl (b : Bank) (d : Nat) (x : Bool) : (b.writeQ d x).ctl = b.ctl := rfl
@[simp] theorem writeQ_loops (b : Bank) (d : Nat) (x : Bool) : (b.writeQ d x).loops = b.loops := rfl
@[simp] theorem writeQ_v (b : Bank) (d : Nat) (x : Bool) : (b.writeQ d x).v = b.v := rfl
@[simp] theorem writeQ_vtags (b : Bank) (d : Nat) (x : Bool) : (b.writeQ d x).vtags = b.vtags := rfl
@[simp] theorem writeQ_p (b : Bank) (d : Nat) (x : Bool) : (b.writeQ d x).p = b.p := rfl
@[simp] theorem writeQ_g (b : Bank) (d : Nat) (x : Bool) : (b.writeQ d x).g = b.g := rfl
@[simp] theorem writeQ_gtags (b : Bank) (d : Nat) (x : Bool) : (b.writeQ d x).gtags = b.gtags := rfl

end Sys2Proof.Machine
end

