-- ==== Sys2Proof/Laws/Memory.lean ====
section
/-!
SUPPORT. The laws of memory: reading after writing, the canonical form, and what a store to the part's memory changes.
-/

namespace Sys2Proof.Machine

/-! ### Bytes -/

@[simp] theorem Memory.read_write (m : List Host.Cell) (a a' : Nat) (x : Byte) :
    Memory.read (Memory.write m a x) a' = if a' = a then x else Memory.read m a' :=
  kgetD_kput m a a' x 0

theorem Memory.wf_iff (m : List Host.Cell) : Memory.wf m = true ↔ kwf m = true ∧ ∀ e ∈ m, e.2 ≠ 0 := by
  simp [Memory.wf]

/-- A byte written keeps the canonical form. -/
theorem Memory.wf_write {m : List Host.Cell} (a : Nat) (x : Byte) (h : Memory.wf m = true) :
    Memory.wf (Memory.write m a x) = true := by
  rw [Memory.wf_iff] at h ⊢
  exact ⟨kwf_kput a x 0 h.1, kput_ne_default a x h.2⟩

/-- Bytes written keep the canonical form. -/
theorem Memory.wf_writeAll {m : List Host.Cell} (a : Nat) (bs : List Byte) (h : Memory.wf m = true) :
    Memory.wf (Memory.writeAll m a bs) = true := by
  induction bs generalizing m a with
  | nil => exact h
  | cons x bs ih => exact ih (a + 1) (Memory.wf_write a x h)

/-- Reading after writing: the byte written inside, the old one outside. -/
theorem Memory.read_writeAll (m : List Host.Cell) (a : Nat) (bs : List Byte) (a' : Nat) :
    Memory.read (Memory.writeAll m a bs) a' =
      if a ≤ a' ∧ a' < a + bs.length then bs.getD (a' - a) 0 else Memory.read m a' := by
  induction bs generalizing m a with
  | nil => simp only [Memory.writeAll, List.length_nil]; rw [if_neg (by omega)]
  | cons x bs ih =>
    rw [Memory.writeAll, ih, Memory.read_write]
    by_cases h : a' = a
    · subst h
      rw [if_neg (by omega), if_pos rfl, if_pos (by simp)]
      simp
    · by_cases h' : a + 1 ≤ a' ∧ a' < a + 1 + bs.length
      · rw [if_pos h', if_pos (by simp only [List.length_cons]; omega)]
        have : a' - a = (a' - (a + 1)) + 1 := by omega
        simp [this]
      · rw [if_neg h', if_neg h, if_neg (by simp only [List.length_cons]; omega)]

/-- The memory of the part after reset is in canonical form. -/
theorem Memory.wf_reset : Memory.wf State.reset.mem = true := rfl

/-! ### The write counters (R449) -/

@[simp] theorem quarantineGranule_mem (s : State) (n : Nat) : (s.quarantineGranule n).mem = s.mem := rfl
@[simp] theorem quarantineGranule_tags (s : State) (n : Nat) : (s.quarantineGranule n).tags = s.tags := rfl
@[simp] theorem quarantineGranule_poison (s : State) (n : Nat) : (s.quarantineGranule n).poison = s.poison := rfl
@[simp] theorem quarantineGranule_cores (s : State) (n : Nat) : (s.quarantineGranule n).cores = s.cores := rfl

/-- A property of states that quarantining a granule and counting a line keep is kept by the count of a write. -/
theorem countWrite_keeps (P : State → Prop) (hq : ∀ s n, P s → P (s.quarantineGranule n))
    (hl : ∀ s m, P s → P { s with lineCount := m }) (s : State) (a n : Nat) (h : P s) : P (s.countWrite a n) := by
  unfold State.countWrite
  split
  · exact h
  · rename_i hc
    clear hc
    generalize rangeFrom (a / 64) ((a + n - 1) / 64 - a / 64 + 1) = l
    induction l generalizing s with
    | nil => exact h
    | cons x l ih =>
      rw [List.foldl_cons]
      apply ih
      dsimp only
      split
      · exact h
      · split
        · exact hq _ _ h
        · exact hl _ _ h

@[simp] theorem countWrite_mem (s : State) (a n : Nat) : (s.countWrite a n).mem = s.mem :=
  countWrite_keeps (fun t => t.mem = s.mem) (fun _ _ h => h) (fun _ _ h => h) s a n rfl
@[simp] theorem countWrite_tags (s : State) (a n : Nat) : (s.countWrite a n).tags = s.tags :=
  countWrite_keeps (fun t => t.tags = s.tags) (fun _ _ h => h) (fun _ _ h => h) s a n rfl
@[simp] theorem countWrite_poison (s : State) (a n : Nat) : (s.countWrite a n).poison = s.poison :=
  countWrite_keeps (fun t => t.poison = s.poison) (fun _ _ h => h) (fun _ _ h => h) s a n rfl
@[simp] theorem countWrite_cores (s : State) (a n : Nat) : (s.countWrite a n).cores = s.cores :=
  countWrite_keeps (fun t => t.cores = s.cores) (fun _ _ h => h) (fun _ _ h => h) s a n rfl

/-! ### Stores -/

theorem store_mem (s : State) (a : Nat) (bs : List Byte) : (s.store a bs).mem = Memory.writeAll s.mem a bs := by
  simp [State.store]

/-- What a byte reads as after a store (R189). -/
theorem byte_store (s : State) (a : Nat) (bs : List Byte) (a' : Nat) :
    (s.store a bs).byte a' = if a ≤ a' ∧ a' < a + bs.length then bs.getD (a' - a) 0 else s.byte a' := by
  simp only [State.byte, store_mem, Memory.read_writeAll]

/-- The tag units an ordinary store touches lose their tags, and no other does (R189). -/
theorem tags_store (s : State) (a : Nat) (bs : List Byte) (u : Nat) :
    u ∈ (s.store a bs).tags ↔ u ∉ tagUnits a bs.length ∧ u ∈ s.tags := by
  simp [State.store, mem_foldl_ndel]

@[simp] theorem store_cores (s : State) (a : Nat) (bs : List Byte) : (s.store a bs).cores = s.cores := by
  simp [State.store]

/-- A store keeps memory's canonical form. -/
theorem wf_store (s : State) (a : Nat) (bs : List Byte) (h : Memory.wf s.mem = true) :
    Memory.wf (s.store a bs).mem = true := by
  rw [store_mem]; exact Memory.wf_writeAll a bs h

theorem storeCap_mem (s : State) (a : Nat) (bs : List Byte) (t : Bool) :
    (s.storeCap a bs t).mem = Memory.writeAll s.mem a bs := by
  unfold State.storeCap; dsimp only; split <;> exact store_mem s a bs

/-- A store of a capability keeps memory's canonical form. -/
theorem wf_storeCap (s : State) (a : Nat) (bs : List Byte) (t : Bool) (h : Memory.wf s.mem = true) :
    Memory.wf (s.storeCap a bs t).mem = true := by
  rw [storeCap_mem]; exact Memory.wf_writeAll a bs h

theorem wf_storeNum (s : State) (a n x : Nat) (h : Memory.wf s.mem = true) :
    Memory.wf (s.storeNum a n x).mem = true := wf_store s a _ h

theorem wf_storeCapV (s : State) (a : Nat) (c : Cap) (h : Memory.wf s.mem = true) :
    Memory.wf (s.storeCapV a c).mem = true := wf_storeCap s a _ _ h

end Sys2Proof.Machine
end

