-- ==== Sys2Proof/Laws/Encoding.lean ====
section
/-!
SUPPORT. The fields of a packed word: one lemma per field of each format, and that parsing a packed word gives the record back.
-/

namespace Sys2Proof

/-! ### Slices of a word built by appending -/

theorem slice_high {a b lo n : Nat} {x : BitVec a} {y : BitVec b} {z : BitVec n} (h : Nat.ble b lo = true)
    (hx : x.extractLsb' (lo - b) n = z) : (x ++ y).extractLsb' lo n = z := by
  have hb := Nat.le_of_ble_eq_true h
  rw [← hx]
  apply BitVec.eq_of_getLsbD_eq
  intro i hi
  simp only [BitVec.getLsbD_extractLsb', hi, decide_true, Bool.true_and, BitVec.getLsbD_append]
  rw [if_neg (by omega)]
  congr 1
  omega

theorem slice_low {a b : Nat} {x : BitVec a} {y : BitVec b} : (x ++ y).extractLsb' 0 b = y := by
  apply BitVec.eq_of_getLsbD_eq
  intro i hi
  simp [BitVec.getLsbD_append, hi]

theorem slice_all {a : Nat} {x : BitVec a} : x.extractLsb' 0 a = x := by simp

theorem bit_high {a b i : Nat} {x : BitVec a} {y : BitVec b} {z : Bool} (h : Nat.ble b i = true)
    (hx : x.getLsbD (i - b) = z) : (x ++ y).getLsbD i = z := by
  have hb := Nat.le_of_ble_eq_true h
  rw [BitVec.getLsbD_append, if_neg (by omega), hx]

theorem bit_low {a : Nat} {x : BitVec a} {z : Bool} : (x ++ BitVec.ofBool z).getLsbD 0 = z := by
  rw [BitVec.getLsbD_append, if_pos (by decide)]
  simp

theorem bit_all {z : Bool} : (BitVec.ofBool z).getLsbD 0 = z := by simp

/-- A slice of a slice. -/
theorem slice_slice {w : Slot} {c : BitVec 16} (h : w.extractLsb' 40 16 = c) (lo n : Nat) (hl : lo + n ≤ 16) :
    w.extractLsb' (40 + lo) n = c.extractLsb' lo n := by
  rw [← h]
  apply BitVec.eq_of_getLsbD_eq
  intro i hi
  simp only [BitVec.getLsbD_extractLsb', hi, decide_true, Bool.true_and]
  rw [decide_eq_true (by omega), Bool.true_and, Nat.add_assoc]

theorem bit_slice {w : Slot} {c : BitVec 16} (h : w.extractLsb' 40 16 = c) (i : Nat) (hi : i < 16) :
    w.getLsbD (40 + i) = c.getLsbD i := by
  rw [← h, BitVec.getLsbD_extractLsb']
  simp [hi]

/-! ### The common fields (R40) -/

theorem Common.rsv_pack (c : Common) : c.pack.extractLsb' 14 2 = c.rsv :=
  slice_high rfl <| slice_high rfl <| slice_high rfl <| slice_high rfl <| slice_high rfl <| slice_all
theorem Common.pin_pack (c : Common) : c.pack.getLsbD 13 = c.pin :=
  bit_high rfl <| bit_high rfl <| bit_high rfl <| bit_high rfl <| bit_low
theorem Common.yld_pack (c : Common) : c.pack.getLsbD 12 = c.yld :=
  bit_high rfl <| bit_high rfl <| bit_high rfl <| bit_low
theorem Common.stall_pack (c : Common) : c.pack.extractLsb' 8 4 = c.stall :=
  slice_high rfl <| slice_high rfl <| slice_low
theorem Common.gn_pack (c : Common) : c.pack.getLsbD 7 = c.gn :=
  bit_high rfl <| bit_low
theorem Common.gp_pack (c : Common) : c.pack.extractLsb' 0 7 = c.gp :=
  slice_low

/-- The common fields of a word whose bits 55 to 40 hold them. -/
theorem Common.parse_of {w : Slot} {c : Common} (h : w.extractLsb' 40 16 = c.pack) : Common.parse w = c := by
  have hgp : w.extractLsb' 40 7 = c.gp := (slice_slice h 0 7 (Nat.le_of_ble_eq_true rfl)).trans c.gp_pack
  have hgn : w.getLsbD 47 = c.gn := (bit_slice h 7 (Nat.le_of_ble_eq_true rfl)).trans c.gn_pack
  have hstall : w.extractLsb' 48 4 = c.stall := (slice_slice h 8 4 (Nat.le_of_ble_eq_true rfl)).trans c.stall_pack
  have hyld : w.getLsbD 52 = c.yld := (bit_slice h 12 (Nat.le_of_ble_eq_true rfl)).trans c.yld_pack
  have hpin : w.getLsbD 53 = c.pin := (bit_slice h 13 (Nat.le_of_ble_eq_true rfl)).trans c.pin_pack
  have hrsv : w.extractLsb' 54 2 = c.rsv := (slice_slice h 14 2 (Nat.le_of_ble_eq_true rfl)).trans c.rsv_pack
  simp only [Common.parse, hgp, hgn, hstall, hyld, hpin, hrsv]

/-! ### The V format (R43) -/

theorem VF.rsv_pack (code : Nat) (f : VF) : (f.pack code).extractLsb' 87 9 = f.rsv :=
  slice_high rfl <| slice_high rfl <| slice_high rfl <| slice_high rfl <| slice_high rfl <| slice_high rfl <| slice_high rfl <| slice_high rfl <| slice_high rfl <| slice_high rfl <| slice_high rfl <| slice_high rfl <| slice_all
theorem VF.sub_pack (code : Nat) (f : VF) : (f.pack code).extractLsb' 79 8 = f.sub :=
  slice_high rfl <| slice_high rfl <| slice_high rfl <| slice_high rfl <| slice_high rfl <| slice_high rfl <| slice_high rfl <| slice_high rfl <| slice_high rfl <| slice_high rfl <| slice_high rfl <| slice_low
theorem VF.abs_pack (code : Nat) (f : VF) : (f.pack code).extractLsb' 77 2 = f.abs :=
  slice_high rfl <| slice_high rfl <| slice_high rfl <| slice_high rfl <| slice_high rfl <| slice_high rfl <| slice_high rfl <| slice_high rfl <| slice_high rfl <| slice_high rfl <| slice_low
theorem VF.neg_pack (code : Nat) (f : VF) : (f.pack code).extractLsb' 74 3 = f.neg :=
  slice_high rfl <| slice_high rfl <| slice_high rfl <| slice_high rfl <| slice_high rfl <| slice_high rfl <| slice_high rfl <| slice_high rfl <| slice_high rfl <| slice_low
theorem VF.sat_pack (code : Nat) (f : VF) : (f.pack code).getLsbD 73 = f.sat :=
  bit_high rfl <| bit_high rfl <| bit_high rfl <| bit_high rfl <| bit_high rfl <| bit_high rfl <| bit_high rfl <| bit_high rfl <| bit_low
theorem VF.round_pack (code : Nat) (f : VF) : (f.pack code).extractLsb' 70 3 = f.round :=
  slice_high rfl <| slice_high rfl <| slice_high rfl <| slice_high rfl <| slice_high rfl <| slice_high rfl <| slice_high rfl <| slice_low
theorem VF.ty_pack (code : Nat) (f : VF) : (f.pack code).extractLsb' 66 4 = f.ty :=
  slice_high rfl <| slice_high rfl <| slice_high rfl <| slice_high rfl <| slice_high rfl <| slice_high rfl <| slice_low
theorem VF.c_pack (code : Nat) (f : VF) : (f.pack code).extractLsb' 56 10 = f.c :=
  slice_high rfl <| slice_high rfl <| slice_high rfl <| slice_high rfl <| slice_high rfl <| slice_low
theorem VF.com_pack (code : Nat) (f : VF) : (f.pack code).extractLsb' 40 16 = f.com.pack :=
  slice_high rfl <| slice_high rfl <| slice_high rfl <| slice_high rfl <| slice_low
theorem VF.b_pack (code : Nat) (f : VF) : (f.pack code).extractLsb' 30 10 = f.b :=
  slice_high rfl <| slice_high rfl <| slice_high rfl <| slice_low
theorem VF.a_pack (code : Nat) (f : VF) : (f.pack code).extractLsb' 20 10 = f.a :=
  slice_high rfl <| slice_high rfl <| slice_low
theorem VF.d_pack (code : Nat) (f : VF) : (f.pack code).extractLsb' 10 10 = f.d :=
  slice_high rfl <| slice_low
theorem VF.code_pack (code : Nat) (f : VF) : (f.pack code).extractLsb' 0 10 = BitVec.ofNat 10 code :=
  slice_low

theorem VF.parse_pack (code : Nat) (f : VF) : VF.parse (f.pack code) = f := by
  simp only [VF.parse, Common.parse_of (VF.com_pack code f), VF.rsv_pack, VF.sub_pack, VF.abs_pack, VF.neg_pack, VF.sat_pack, VF.round_pack, VF.ty_pack, VF.c_pack, VF.b_pack, VF.a_pack, VF.d_pack]

theorem VF.opOf_pack (code : Nat) (f : VF) : opOf (f.pack code) = code % 1024 := by
  have h : opOf (f.pack code) = ((f.pack code).extractLsb' 0 10).toNat := by simp [opOf, BitVec.extractLsb'_toNat]
  rw [h, VF.code_pack, BitVec.toNat_ofNat]

/-- A packed word is parsed by its code alone. -/
theorem parse_VF (code : Nat) (f : VF) : parse (f.pack code) = parseCode (code % 1024) (f.pack code) := by
  rw [parse, VF.opOf_pack]

/-! ### The I format (R44) -/

theorem IF.flags_pack (code : Nat) (f : IF) : (f.pack code).extractLsb' 92 4 = f.flags :=
  slice_high rfl <| slice_high rfl <| slice_high rfl <| slice_high rfl <| slice_high rfl <| slice_high rfl <| slice_high rfl <| slice_all
theorem IF.ty_pack (code : Nat) (f : IF) : (f.pack code).extractLsb' 88 4 = f.ty :=
  slice_high rfl <| slice_high rfl <| slice_high rfl <| slice_high rfl <| slice_high rfl <| slice_high rfl <| slice_low
theorem IF.imm_pack (code : Nat) (f : IF) : (f.pack code).extractLsb' 56 32 = f.imm :=
  slice_high rfl <| slice_high rfl <| slice_high rfl <| slice_high rfl <| slice_high rfl <| slice_low
theorem IF.com_pack (code : Nat) (f : IF) : (f.pack code).extractLsb' 40 16 = f.com.pack :=
  slice_high rfl <| slice_high rfl <| slice_high rfl <| slice_high rfl <| slice_low
theorem IF.sub_pack (code : Nat) (f : IF) : (f.pack code).extractLsb' 30 10 = f.sub :=
  slice_high rfl <| slice_high rfl <| slice_high rfl <| slice_low
theorem IF.a_pack (code : Nat) (f : IF) : (f.pack code).extractLsb' 20 10 = f.a :=
  slice_high rfl <| slice_high rfl <| slice_low
theorem IF.d_pack (code : Nat) (f : IF) : (f.pack code).extractLsb' 10 10 = f.d :=
  slice_high rfl <| slice_low
theorem IF.code_pack (code : Nat) (f : IF) : (f.pack code).extractLsb' 0 10 = BitVec.ofNat 10 code :=
  slice_low

theorem IF.parse_pack (code : Nat) (f : IF) : IF.parse (f.pack code) = f := by
  simp only [IF.parse, Common.parse_of (IF.com_pack code f), IF.flags_pack, IF.ty_pack, IF.imm_pack, IF.sub_pack, IF.a_pack, IF.d_pack]

theorem IF.opOf_pack (code : Nat) (f : IF) : opOf (f.pack code) = code % 1024 := by
  have h : opOf (f.pack code) = ((f.pack code).extractLsb' 0 10).toNat := by simp [opOf, BitVec.extractLsb'_toNat]
  rw [h, IF.code_pack, BitVec.toNat_ofNat]

/-- A packed word is parsed by its code alone. -/
theorem parse_IF (code : Nat) (f : IF) : parse (f.pack code) = parseCode (code % 1024) (f.pack code) := by
  rw [parse, IF.opOf_pack]

/-! ### The M format (R45) -/

theorem MF.cache_pack (code : Nat) (f : MF) : (f.pack code).extractLsb' 92 4 = f.cache :=
  slice_high rfl <| slice_high rfl <| slice_high rfl <| slice_high rfl <| slice_high rfl <| slice_high rfl <| slice_high rfl <| slice_high rfl <| slice_high rfl <| slice_high rfl <| slice_all
theorem MF.order_pack (code : Nat) (f : MF) : (f.pack code).extractLsb' 90 2 = f.order :=
  slice_high rfl <| slice_high rfl <| slice_high rfl <| slice_high rfl <| slice_high rfl <| slice_high rfl <| slice_high rfl <| slice_high rfl <| slice_high rfl <| slice_low
theorem MF.stream_pack (code : Nat) (f : MF) : (f.pack code).extractLsb' 87 3 = f.stream :=
  slice_high rfl <| slice_high rfl <| slice_high rfl <| slice_high rfl <| slice_high rfl <| slice_high rfl <| slice_high rfl <| slice_high rfl <| slice_low
theorem MF.scope_pack (code : Nat) (f : MF) : (f.pack code).extractLsb' 84 3 = f.scope :=
  slice_high rfl <| slice_high rfl <| slice_high rfl <| slice_high rfl <| slice_high rfl <| slice_high rfl <| slice_high rfl <| slice_low
theorem MF.size_pack (code : Nat) (f : MF) : (f.pack code).extractLsb' 80 4 = f.size :=
  slice_high rfl <| slice_high rfl <| slice_high rfl <| slice_high rfl <| slice_high rfl <| slice_high rfl <| slice_low
theorem MF.offset_pack (code : Nat) (f : MF) : (f.pack code).extractLsb' 56 24 = f.offset :=
  slice_high rfl <| slice_high rfl <| slice_high rfl <| slice_high rfl <| slice_high rfl <| slice_low
theorem MF.com_pack (code : Nat) (f : MF) : (f.pack code).extractLsb' 40 16 = f.com.pack :=
  slice_high rfl <| slice_high rfl <| slice_high rfl <| slice_high rfl <| slice_low
theorem MF.b_pack (code : Nat) (f : MF) : (f.pack code).extractLsb' 30 10 = f.b :=
  slice_high rfl <| slice_high rfl <| slice_high rfl <| slice_low
theorem MF.a_pack (code : Nat) (f : MF) : (f.pack code).extractLsb' 20 10 = f.a :=
  slice_high rfl <| slice_high rfl <| slice_low
theorem MF.d_pack (code : Nat) (f : MF) : (f.pack code).extractLsb' 10 10 = f.d :=
  slice_high rfl <| slice_low
theorem MF.code_pack (code : Nat) (f : MF) : (f.pack code).extractLsb' 0 10 = BitVec.ofNat 10 code :=
  slice_low

theorem MF.parse_pack (code : Nat) (f : MF) : MF.parse (f.pack code) = f := by
  simp only [MF.parse, Common.parse_of (MF.com_pack code f), MF.cache_pack, MF.order_pack, MF.stream_pack, MF.scope_pack, MF.size_pack, MF.offset_pack, MF.b_pack, MF.a_pack, MF.d_pack]

theorem MF.opOf_pack (code : Nat) (f : MF) : opOf (f.pack code) = code % 1024 := by
  have h : opOf (f.pack code) = ((f.pack code).extractLsb' 0 10).toNat := by simp [opOf, BitVec.extractLsb'_toNat]
  rw [h, MF.code_pack, BitVec.toNat_ofNat]

/-- A packed word is parsed by its code alone. -/
theorem parse_MF (code : Nat) (f : MF) : parse (f.pack code) = parseCode (code % 1024) (f.pack code) := by
  rw [parse, MF.opOf_pack]

/-! ### The B format (R46) -/

theorem BF.sub_pack (code : Nat) (f : BF) : (f.pack code).extractLsb' 88 8 = f.sub :=
  slice_high rfl <| slice_high rfl <| slice_high rfl <| slice_high rfl <| slice_all
theorem BF.reconv_pack (code : Nat) (f : BF) : (f.pack code).extractLsb' 56 32 = f.reconv :=
  slice_high rfl <| slice_high rfl <| slice_high rfl <| slice_low
theorem BF.com_pack (code : Nat) (f : BF) : (f.pack code).extractLsb' 40 16 = f.com.pack :=
  slice_high rfl <| slice_high rfl <| slice_low
theorem BF.target_pack (code : Nat) (f : BF) : (f.pack code).extractLsb' 10 30 = f.target :=
  slice_high rfl <| slice_low
theorem BF.code_pack (code : Nat) (f : BF) : (f.pack code).extractLsb' 0 10 = BitVec.ofNat 10 code :=
  slice_low

theorem BF.parse_pack (code : Nat) (f : BF) : BF.parse (f.pack code) = f := by
  simp only [BF.parse, Common.parse_of (BF.com_pack code f), BF.sub_pack, BF.reconv_pack, BF.target_pack]

theorem BF.opOf_pack (code : Nat) (f : BF) : opOf (f.pack code) = code % 1024 := by
  have h : opOf (f.pack code) = ((f.pack code).extractLsb' 0 10).toNat := by simp [opOf, BitVec.extractLsb'_toNat]
  rw [h, BF.code_pack, BitVec.toNat_ofNat]

/-- A packed word is parsed by its code alone. -/
theorem parse_BF (code : Nat) (f : BF) : parse (f.pack code) = parseCode (code % 1024) (f.pack code) := by
  rw [parse, BF.opOf_pack]

/-! ### The X format (R47) -/

theorem XF.rsvHigh_pack (code : Nat) (f : XF) : (f.pack code).getLsbD 95 = f.rsvHigh :=
  bit_high rfl <| bit_high rfl <| bit_high rfl <| bit_high rfl <| bit_high rfl <| bit_high rfl <| bit_high rfl <| bit_high rfl <| bit_high rfl <| bit_high rfl <| bit_high rfl <| bit_high rfl <| bit_high rfl <| bit_high rfl <| bit_high rfl <| bit_high rfl <| bit_all
theorem XF.wv_pack (code : Nat) (f : XF) : (f.pack code).extractLsb' 90 5 = f.wv :=
  slice_high rfl <| slice_high rfl <| slice_high rfl <| slice_high rfl <| slice_high rfl <| slice_high rfl <| slice_high rfl <| slice_high rfl <| slice_high rfl <| slice_high rfl <| slice_high rfl <| slice_high rfl <| slice_high rfl <| slice_high rfl <| slice_high rfl <| slice_low
theorem XF.vb_pack (code : Nat) (f : XF) : (f.pack code).extractLsb' 80 10 = f.vb :=
  slice_high rfl <| slice_high rfl <| slice_high rfl <| slice_high rfl <| slice_high rfl <| slice_high rfl <| slice_high rfl <| slice_high rfl <| slice_high rfl <| slice_high rfl <| slice_high rfl <| slice_high rfl <| slice_high rfl <| slice_high rfl <| slice_low
theorem XF.va_pack (code : Nat) (f : XF) : (f.pack code).extractLsb' 70 10 = f.va :=
  slice_high rfl <| slice_high rfl <| slice_high rfl <| slice_high rfl <| slice_high rfl <| slice_high rfl <| slice_high rfl <| slice_high rfl <| slice_high rfl <| slice_high rfl <| slice_high rfl <| slice_high rfl <| slice_high rfl <| slice_low
theorem XF.fmt_pack (code : Nat) (f : XF) : (f.pack code).extractLsb' 66 4 = f.fmt :=
  slice_high rfl <| slice_high rfl <| slice_high rfl <| slice_high rfl <| slice_high rfl <| slice_high rfl <| slice_high rfl <| slice_high rfl <| slice_high rfl <| slice_high rfl <| slice_high rfl <| slice_high rfl <| slice_low
theorem XF.gs_pack (code : Nat) (f : XF) : (f.pack code).extractLsb' 61 5 = f.gs :=
  slice_high rfl <| slice_high rfl <| slice_high rfl <| slice_high rfl <| slice_high rfl <| slice_high rfl <| slice_high rfl <| slice_high rfl <| slice_high rfl <| slice_high rfl <| slice_high rfl <| slice_low
theorem XF.gb_pack (code : Nat) (f : XF) : (f.pack code).extractLsb' 56 5 = f.gb :=
  slice_high rfl <| slice_high rfl <| slice_high rfl <| slice_high rfl <| slice_high rfl <| slice_high rfl <| slice_high rfl <| slice_high rfl <| slice_high rfl <| slice_high rfl <| slice_low
theorem XF.com_pack (code : Nat) (f : XF) : (f.pack code).extractLsb' 40 16 = f.com.pack :=
  slice_high rfl <| slice_high rfl <| slice_high rfl <| slice_high rfl <| slice_high rfl <| slice_high rfl <| slice_high rfl <| slice_high rfl <| slice_high rfl <| slice_low
theorem XF.rsvLow_pack (code : Nat) (f : XF) : (f.pack code).extractLsb' 38 2 = f.rsvLow :=
  slice_high rfl <| slice_high rfl <| slice_high rfl <| slice_high rfl <| slice_high rfl <| slice_high rfl <| slice_high rfl <| slice_high rfl <| slice_low
theorem XF.ga_pack (code : Nat) (f : XF) : (f.pack code).extractLsb' 33 5 = f.ga :=
  slice_high rfl <| slice_high rfl <| slice_high rfl <| slice_high rfl <| slice_high rfl <| slice_high rfl <| slice_high rfl <| slice_low
theorem XF.bsrc_pack (code : Nat) (f : XF) : (f.pack code).extractLsb' 31 2 = f.bsrc :=
  slice_high rfl <| slice_high rfl <| slice_high rfl <| slice_high rfl <| slice_high rfl <| slice_high rfl <| slice_low
theorem XF.asrc_pack (code : Nat) (f : XF) : (f.pack code).extractLsb' 29 2 = f.asrc :=
  slice_high rfl <| slice_high rfl <| slice_high rfl <| slice_high rfl <| slice_high rfl <| slice_low
theorem XF.bufO_pack (code : Nat) (f : XF) : (f.pack code).extractLsb' 25 4 = f.bufO :=
  slice_high rfl <| slice_high rfl <| slice_high rfl <| slice_high rfl <| slice_low
theorem XF.bufB_pack (code : Nat) (f : XF) : (f.pack code).extractLsb' 21 4 = f.bufB :=
  slice_high rfl <| slice_high rfl <| slice_high rfl <| slice_low
theorem XF.bufA_pack (code : Nat) (f : XF) : (f.pack code).extractLsb' 17 4 = f.bufA :=
  slice_high rfl <| slice_high rfl <| slice_low
theorem XF.tile_pack (code : Nat) (f : XF) : (f.pack code).extractLsb' 10 7 = f.tile :=
  slice_high rfl <| slice_low
theorem XF.code_pack (code : Nat) (f : XF) : (f.pack code).extractLsb' 0 10 = BitVec.ofNat 10 code :=
  slice_low

theorem XF.parse_pack (code : Nat) (f : XF) : XF.parse (f.pack code) = f := by
  simp only [XF.parse, Common.parse_of (XF.com_pack code f), XF.rsvHigh_pack, XF.wv_pack, XF.vb_pack, XF.va_pack, XF.fmt_pack, XF.gs_pack, XF.gb_pack, XF.rsvLow_pack, XF.ga_pack, XF.bsrc_pack, XF.asrc_pack, XF.bufO_pack, XF.bufB_pack, XF.bufA_pack, XF.tile_pack]

theorem XF.opOf_pack (code : Nat) (f : XF) : opOf (f.pack code) = code % 1024 := by
  have h : opOf (f.pack code) = ((f.pack code).extractLsb' 0 10).toNat := by simp [opOf, BitVec.extractLsb'_toNat]
  rw [h, XF.code_pack, BitVec.toNat_ofNat]

/-- A packed word is parsed by its code alone. -/
theorem parse_XF (code : Nat) (f : XF) : parse (f.pack code) = parseCode (code % 1024) (f.pack code) := by
  rw [parse, XF.opOf_pack]

/-! ### The S format (R48) -/

theorem SF.rsv_pack (code : Nat) (f : SF) : (f.pack code).extractLsb' 72 24 = f.rsv :=
  slice_high rfl <| slice_high rfl <| slice_high rfl <| slice_high rfl <| slice_high rfl <| slice_high rfl <| slice_all
theorem SF.sysreg_pack (code : Nat) (f : SF) : (f.pack code).extractLsb' 56 16 = f.sysreg :=
  slice_high rfl <| slice_high rfl <| slice_high rfl <| slice_high rfl <| slice_high rfl <| slice_low
theorem SF.com_pack (code : Nat) (f : SF) : (f.pack code).extractLsb' 40 16 = f.com.pack :=
  slice_high rfl <| slice_high rfl <| slice_high rfl <| slice_high rfl <| slice_low
theorem SF.sub_pack (code : Nat) (f : SF) : (f.pack code).extractLsb' 30 10 = f.sub :=
  slice_high rfl <| slice_high rfl <| slice_high rfl <| slice_low
theorem SF.a_pack (code : Nat) (f : SF) : (f.pack code).extractLsb' 20 10 = f.a :=
  slice_high rfl <| slice_high rfl <| slice_low
theorem SF.d_pack (code : Nat) (f : SF) : (f.pack code).extractLsb' 10 10 = f.d :=
  slice_high rfl <| slice_low
theorem SF.code_pack (code : Nat) (f : SF) : (f.pack code).extractLsb' 0 10 = BitVec.ofNat 10 code :=
  slice_low

theorem SF.parse_pack (code : Nat) (f : SF) : SF.parse (f.pack code) = f := by
  simp only [SF.parse, Common.parse_of (SF.com_pack code f), SF.rsv_pack, SF.sysreg_pack, SF.sub_pack, SF.a_pack, SF.d_pack]

theorem SF.opOf_pack (code : Nat) (f : SF) : opOf (f.pack code) = code % 1024 := by
  have h : opOf (f.pack code) = ((f.pack code).extractLsb' 0 10).toNat := by simp [opOf, BitVec.extractLsb'_toNat]
  rw [h, SF.code_pack, BitVec.toNat_ofNat]

/-- A packed word is parsed by its code alone. -/
theorem parse_SF (code : Nat) (f : SF) : parse (f.pack code) = parseCode (code % 1024) (f.pack code) := by
  rw [parse, SF.opOf_pack]

end Sys2Proof
end

