-- ==== Sys2Proof/Laws/PerInstr.lean ====
section
/-!
SUPPORT. One lemma per constructor: a well-formed instruction decodes from its own word (R39 to R60).
-/

namespace Sys2Proof.Laws

/-- What the family says of an instruction: where it is well formed, its word decodes to it. -/
def Encoding.Statement (i : Instr) : Prop := i.wf = true → decode (encode i) = .ok i

/-- A word that parses to a well-formed instruction decodes to it. -/
theorem Encoding.of_parse {i : Instr} (h : parse (encode i) = some i) : Encoding.Statement i := fun hw => by
  simp only [Instr.wf, Bool.and_eq_true] at hw
  simp [decode, h, hw.2]

theorem Encoding.rowOk_of_wf {i : Instr} (h : i.wf = true) : i.rowOk = true := by
  simp only [Instr.wf, Bool.and_eq_true] at h
  exact h.1

theorem Encoding.iadd (f : VF) : Encoding.Statement (.iadd f) :=
  of_parse ((parse_VF _ f).trans (congrArg (some ∘ Instr.iadd) (VF.parse_pack _ f)))

theorem Encoding.iaddImm (f : IF) : Encoding.Statement (.iaddImm f) :=
  of_parse ((parse_IF _ f).trans (congrArg (some ∘ Instr.iaddImm) (IF.parse_pack _ f)))

theorem Encoding.isub (f : VF) : Encoding.Statement (.isub f) :=
  of_parse ((parse_VF _ f).trans (congrArg (some ∘ Instr.isub) (VF.parse_pack _ f)))

theorem Encoding.isubImm (f : IF) : Encoding.Statement (.isubImm f) :=
  of_parse ((parse_IF _ f).trans (congrArg (some ∘ Instr.isubImm) (IF.parse_pack _ f)))

theorem Encoding.imul (f : VF) : Encoding.Statement (.imul f) :=
  of_parse ((parse_VF _ f).trans (congrArg (some ∘ Instr.imul) (VF.parse_pack _ f)))

theorem Encoding.imulImm (f : IF) : Encoding.Statement (.imulImm f) :=
  of_parse ((parse_IF _ f).trans (congrArg (some ∘ Instr.imulImm) (IF.parse_pack _ f)))

theorem Encoding.imulh (f : VF) : Encoding.Statement (.imulh f) :=
  of_parse ((parse_VF _ f).trans (congrArg (some ∘ Instr.imulh) (VF.parse_pack _ f)))

theorem Encoding.imulhImm (f : IF) : Encoding.Statement (.imulhImm f) :=
  of_parse ((parse_IF _ f).trans (congrArg (some ∘ Instr.imulhImm) (IF.parse_pack _ f)))

theorem Encoding.imulw (f : VF) : Encoding.Statement (.imulw f) :=
  of_parse ((parse_VF _ f).trans (congrArg (some ∘ Instr.imulw) (VF.parse_pack _ f)))

theorem Encoding.imad (f : VF) : Encoding.Statement (.imad f) :=
  of_parse ((parse_VF _ f).trans (congrArg (some ∘ Instr.imad) (VF.parse_pack _ f)))

theorem Encoding.ilea (f : VF) : Encoding.Statement (.ilea f) :=
  of_parse ((parse_VF _ f).trans (congrArg (some ∘ Instr.ilea) (VF.parse_pack _ f)))

theorem Encoding.ileaImm (f : IF) : Encoding.Statement (.ileaImm f) :=
  of_parse ((parse_IF _ f).trans (congrArg (some ∘ Instr.ileaImm) (IF.parse_pack _ f)))

theorem Encoding.imin (f : VF) : Encoding.Statement (.imin f) :=
  of_parse ((parse_VF _ f).trans (congrArg (some ∘ Instr.imin) (VF.parse_pack _ f)))

theorem Encoding.iminImm (f : IF) : Encoding.Statement (.iminImm f) :=
  of_parse ((parse_IF _ f).trans (congrArg (some ∘ Instr.iminImm) (IF.parse_pack _ f)))

theorem Encoding.imax (f : VF) : Encoding.Statement (.imax f) :=
  of_parse ((parse_VF _ f).trans (congrArg (some ∘ Instr.imax) (VF.parse_pack _ f)))

theorem Encoding.imaxImm (f : IF) : Encoding.Statement (.imaxImm f) :=
  of_parse ((parse_IF _ f).trans (congrArg (some ∘ Instr.imaxImm) (IF.parse_pack _ f)))

theorem Encoding.iabs (f : VF) : Encoding.Statement (.iabs f) :=
  of_parse ((parse_VF _ f).trans (congrArg (some ∘ Instr.iabs) (VF.parse_pack _ f)))

theorem Encoding.ineg (f : VF) : Encoding.Statement (.ineg f) :=
  of_parse ((parse_VF _ f).trans (congrArg (some ∘ Instr.ineg) (VF.parse_pack _ f)))

theorem Encoding.isad (f : VF) : Encoding.Statement (.isad f) :=
  of_parse ((parse_VF _ f).trans (congrArg (some ∘ Instr.isad) (VF.parse_pack _ f)))

theorem Encoding.idiv (f : VF) : Encoding.Statement (.idiv f) :=
  of_parse ((parse_VF _ f).trans (congrArg (some ∘ Instr.idiv) (VF.parse_pack _ f)))

theorem Encoding.idivImm (f : IF) : Encoding.Statement (.idivImm f) :=
  of_parse ((parse_IF _ f).trans (congrArg (some ∘ Instr.idivImm) (IF.parse_pack _ f)))

theorem Encoding.irem (f : VF) : Encoding.Statement (.irem f) :=
  of_parse ((parse_VF _ f).trans (congrArg (some ∘ Instr.irem) (VF.parse_pack _ f)))

theorem Encoding.iremImm (f : IF) : Encoding.Statement (.iremImm f) :=
  of_parse ((parse_IF _ f).trans (congrArg (some ∘ Instr.iremImm) (IF.parse_pack _ f)))

theorem Encoding.icmp (f : VF) : Encoding.Statement (.icmp f) :=
  of_parse ((parse_VF _ f).trans (congrArg (some ∘ Instr.icmp) (VF.parse_pack _ f)))

theorem Encoding.icmpImm (f : IF) : Encoding.Statement (.icmpImm f) :=
  of_parse ((parse_IF _ f).trans (congrArg (some ∘ Instr.icmpImm) (IF.parse_pack _ f)))

theorem Encoding.andBits (f : VF) : Encoding.Statement (.andBits f) :=
  of_parse ((parse_VF _ f).trans (congrArg (some ∘ Instr.andBits) (VF.parse_pack _ f)))

theorem Encoding.andImm (f : IF) : Encoding.Statement (.andImm f) :=
  of_parse ((parse_IF _ f).trans (congrArg (some ∘ Instr.andImm) (IF.parse_pack _ f)))

theorem Encoding.orBits (f : VF) : Encoding.Statement (.orBits f) :=
  of_parse ((parse_VF _ f).trans (congrArg (some ∘ Instr.orBits) (VF.parse_pack _ f)))

theorem Encoding.orImm (f : IF) : Encoding.Statement (.orImm f) :=
  of_parse ((parse_IF _ f).trans (congrArg (some ∘ Instr.orImm) (IF.parse_pack _ f)))

theorem Encoding.xorBits (f : VF) : Encoding.Statement (.xorBits f) :=
  of_parse ((parse_VF _ f).trans (congrArg (some ∘ Instr.xorBits) (VF.parse_pack _ f)))

theorem Encoding.xorImm (f : IF) : Encoding.Statement (.xorImm f) :=
  of_parse ((parse_IF _ f).trans (congrArg (some ∘ Instr.xorImm) (IF.parse_pack _ f)))

theorem Encoding.notBits (f : VF) : Encoding.Statement (.notBits f) :=
  of_parse ((parse_VF _ f).trans (congrArg (some ∘ Instr.notBits) (VF.parse_pack _ f)))

theorem Encoding.bfn3 (f : VF) : Encoding.Statement (.bfn3 f) :=
  of_parse ((parse_VF _ f).trans (congrArg (some ∘ Instr.bfn3) (VF.parse_pack _ f)))

theorem Encoding.shl (f : VF) : Encoding.Statement (.shl f) :=
  of_parse ((parse_VF _ f).trans (congrArg (some ∘ Instr.shl) (VF.parse_pack _ f)))

theorem Encoding.shlImm (f : IF) : Encoding.Statement (.shlImm f) :=
  of_parse ((parse_IF _ f).trans (congrArg (some ∘ Instr.shlImm) (IF.parse_pack _ f)))

theorem Encoding.shr (f : VF) : Encoding.Statement (.shr f) :=
  of_parse ((parse_VF _ f).trans (congrArg (some ∘ Instr.shr) (VF.parse_pack _ f)))

theorem Encoding.shrImm (f : IF) : Encoding.Statement (.shrImm f) :=
  of_parse ((parse_IF _ f).trans (congrArg (some ∘ Instr.shrImm) (IF.parse_pack _ f)))

theorem Encoding.rotl (f : VF) : Encoding.Statement (.rotl f) :=
  of_parse ((parse_VF _ f).trans (congrArg (some ∘ Instr.rotl) (VF.parse_pack _ f)))

theorem Encoding.rotlImm (f : IF) : Encoding.Statement (.rotlImm f) :=
  of_parse ((parse_IF _ f).trans (congrArg (some ∘ Instr.rotlImm) (IF.parse_pack _ f)))

theorem Encoding.fshl (f : VF) : Encoding.Statement (.fshl f) :=
  of_parse ((parse_VF _ f).trans (congrArg (some ∘ Instr.fshl) (VF.parse_pack _ f)))

theorem Encoding.bfx (f : VF) : Encoding.Statement (.bfx f) :=
  of_parse ((parse_VF _ f).trans (congrArg (some ∘ Instr.bfx) (VF.parse_pack _ f)))

theorem Encoding.bfi (f : VF) : Encoding.Statement (.bfi f) :=
  of_parse ((parse_VF _ f).trans (congrArg (some ∘ Instr.bfi) (VF.parse_pack _ f)))

theorem Encoding.popc (f : VF) : Encoding.Statement (.popc f) :=
  of_parse ((parse_VF _ f).trans (congrArg (some ∘ Instr.popc) (VF.parse_pack _ f)))

theorem Encoding.clz (f : VF) : Encoding.Statement (.clz f) :=
  of_parse ((parse_VF _ f).trans (congrArg (some ∘ Instr.clz) (VF.parse_pack _ f)))

theorem Encoding.brev (f : VF) : Encoding.Statement (.brev f) :=
  of_parse ((parse_VF _ f).trans (congrArg (some ∘ Instr.brev) (VF.parse_pack _ f)))

theorem Encoding.prmb (f : VF) : Encoding.Statement (.prmb f) :=
  of_parse ((parse_VF _ f).trans (congrArg (some ∘ Instr.prmb) (VF.parse_pack _ f)))

theorem Encoding.prmbImm (f : IF) : Encoding.Statement (.prmbImm f) :=
  of_parse ((parse_IF _ f).trans (congrArg (some ∘ Instr.prmbImm) (IF.parse_pack _ f)))

theorem Encoding.mov (f : VF) : Encoding.Statement (.mov f) :=
  of_parse ((parse_VF _ f).trans (congrArg (some ∘ Instr.mov) (VF.parse_pack _ f)))

theorem Encoding.movImm (f : IF) : Encoding.Statement (.movImm f) :=
  of_parse ((parse_IF _ f).trans (congrArg (some ∘ Instr.movImm) (IF.parse_pack _ f)))

theorem Encoding.movGroupWide (f : VF) : Encoding.Statement (.movGroupWide f) :=
  of_parse ((parse_VF _ f).trans (congrArg (some ∘ Instr.movGroupWide) (VF.parse_pack _ f)))

theorem Encoding.movGroupWideImm (f : IF) : Encoding.Statement (.movGroupWideImm f) :=
  of_parse ((parse_IF _ f).trans (congrArg (some ∘ Instr.movGroupWideImm) (IF.parse_pack _ f)))

theorem Encoding.sel (f : VF) : Encoding.Statement (.sel f) :=
  of_parse ((parse_VF _ f).trans (congrArg (some ∘ Instr.sel) (VF.parse_pack _ f)))

theorem Encoding.selGroupWide (f : VF) : Encoding.Statement (.selGroupWide f) :=
  of_parse ((parse_VF _ f).trans (congrArg (some ∘ Instr.selGroupWide) (VF.parse_pack _ f)))

theorem parseCode_group_reg (op : Op) (w : Slot) (h : op.inGroupAlu = true) :
    parseCode ((0x100 + op.code) % 1024) w = some (.groupWideAlu (.reg op (VF.parse w))) := by
  cases op <;> first | rfl | exact Bool.noConfusion (show false = true from h)

theorem parseCode_group_imm (op : Op) (w : Slot) (h : op.inGroupAlu = true) (hi : op.hasImm = true) :
    parseCode ((0x180 + op.code) % 1024) w = some (.groupWideAlu (.imm op (IF.parse w))) := by
  cases op <;> first
    | rfl
    | exact Bool.noConfusion (show false = true from h)
    | exact Bool.noConfusion (show false = true from hi)

theorem Encoding.groupWideAlu (x : GwForm) : Encoding.Statement (.groupWideAlu x) := fun h => by
  have hr := Encoding.rowOk_of_wf h
  refine of_parse ?_ h
  match x with
  | .reg op f =>
    refine (parse_VF _ f).trans ((parseCode_group_reg op _ hr).trans ?_)
    rw [VF.parse_pack]
  | .imm op f =>
    simp only [Instr.rowOk, Bool.and_eq_true] at hr
    refine (parse_IF _ f).trans ((parseCode_group_imm op _ hr.1 hr.2).trans ?_)
    rw [IF.parse_pack]

theorem Encoding.fadd (f : VF) : Encoding.Statement (.fadd f) :=
  of_parse ((parse_VF _ f).trans (congrArg (some ∘ Instr.fadd) (VF.parse_pack _ f)))

theorem Encoding.faddImm (f : IF) : Encoding.Statement (.faddImm f) :=
  of_parse ((parse_IF _ f).trans (congrArg (some ∘ Instr.faddImm) (IF.parse_pack _ f)))

theorem Encoding.fsub (f : VF) : Encoding.Statement (.fsub f) :=
  of_parse ((parse_VF _ f).trans (congrArg (some ∘ Instr.fsub) (VF.parse_pack _ f)))

theorem Encoding.fsubImm (f : IF) : Encoding.Statement (.fsubImm f) :=
  of_parse ((parse_IF _ f).trans (congrArg (some ∘ Instr.fsubImm) (IF.parse_pack _ f)))

theorem Encoding.fmul (f : VF) : Encoding.Statement (.fmul f) :=
  of_parse ((parse_VF _ f).trans (congrArg (some ∘ Instr.fmul) (VF.parse_pack _ f)))

theorem Encoding.fmulImm (f : IF) : Encoding.Statement (.fmulImm f) :=
  of_parse ((parse_IF _ f).trans (congrArg (some ∘ Instr.fmulImm) (IF.parse_pack _ f)))

theorem Encoding.fma (f : VF) : Encoding.Statement (.fma f) :=
  of_parse ((parse_VF _ f).trans (congrArg (some ∘ Instr.fma) (VF.parse_pack _ f)))

theorem Encoding.fmin (f : VF) : Encoding.Statement (.fmin f) :=
  of_parse ((parse_VF _ f).trans (congrArg (some ∘ Instr.fmin) (VF.parse_pack _ f)))

theorem Encoding.fminImm (f : IF) : Encoding.Statement (.fminImm f) :=
  of_parse ((parse_IF _ f).trans (congrArg (some ∘ Instr.fminImm) (IF.parse_pack _ f)))

theorem Encoding.fmax (f : VF) : Encoding.Statement (.fmax f) :=
  of_parse ((parse_VF _ f).trans (congrArg (some ∘ Instr.fmax) (VF.parse_pack _ f)))

theorem Encoding.fmaxImm (f : IF) : Encoding.Statement (.fmaxImm f) :=
  of_parse ((parse_IF _ f).trans (congrArg (some ∘ Instr.fmaxImm) (IF.parse_pack _ f)))

theorem Encoding.fmed3 (f : VF) : Encoding.Statement (.fmed3 f) :=
  of_parse ((parse_VF _ f).trans (congrArg (some ∘ Instr.fmed3) (VF.parse_pack _ f)))

theorem Encoding.fcmp (f : VF) : Encoding.Statement (.fcmp f) :=
  of_parse ((parse_VF _ f).trans (congrArg (some ∘ Instr.fcmp) (VF.parse_pack _ f)))

theorem Encoding.fcmpImm (f : IF) : Encoding.Statement (.fcmpImm f) :=
  of_parse ((parse_IF _ f).trans (congrArg (some ∘ Instr.fcmpImm) (IF.parse_pack _ f)))

theorem Encoding.fdiv (f : VF) : Encoding.Statement (.fdiv f) :=
  of_parse ((parse_VF _ f).trans (congrArg (some ∘ Instr.fdiv) (VF.parse_pack _ f)))

theorem Encoding.frcp (f : VF) : Encoding.Statement (.frcp f) :=
  of_parse ((parse_VF _ f).trans (congrArg (some ∘ Instr.frcp) (VF.parse_pack _ f)))

theorem Encoding.fsqrt (f : VF) : Encoding.Statement (.fsqrt f) :=
  of_parse ((parse_VF _ f).trans (congrArg (some ∘ Instr.fsqrt) (VF.parse_pack _ f)))

theorem Encoding.frsq (f : VF) : Encoding.Statement (.frsq f) :=
  of_parse ((parse_VF _ f).trans (congrArg (some ∘ Instr.frsq) (VF.parse_pack _ f)))

theorem Encoding.fexp2 (f : VF) : Encoding.Statement (.fexp2 f) :=
  of_parse ((parse_VF _ f).trans (congrArg (some ∘ Instr.fexp2) (VF.parse_pack _ f)))

theorem Encoding.flog2 (f : VF) : Encoding.Statement (.flog2 f) :=
  of_parse ((parse_VF _ f).trans (congrArg (some ∘ Instr.flog2) (VF.parse_pack _ f)))

theorem Encoding.fsin (f : VF) : Encoding.Statement (.fsin f) :=
  of_parse ((parse_VF _ f).trans (congrArg (some ∘ Instr.fsin) (VF.parse_pack _ f)))

theorem Encoding.fcos (f : VF) : Encoding.Statement (.fcos f) :=
  of_parse ((parse_VF _ f).trans (congrArg (some ∘ Instr.fcos) (VF.parse_pack _ f)))

theorem Encoding.fclass (f : VF) : Encoding.Statement (.fclass f) :=
  of_parse ((parse_VF _ f).trans (congrArg (some ∘ Instr.fclass) (VF.parse_pack _ f)))

theorem Encoding.fcps (f : VF) : Encoding.Statement (.fcps f) :=
  of_parse ((parse_VF _ f).trans (congrArg (some ∘ Instr.fcps) (VF.parse_pack _ f)))

theorem Encoding.fcpsImm (f : IF) : Encoding.Statement (.fcpsImm f) :=
  of_parse ((parse_IF _ f).trans (congrArg (some ∘ Instr.fcpsImm) (IF.parse_pack _ f)))

theorem Encoding.fscl (f : VF) : Encoding.Statement (.fscl f) :=
  of_parse ((parse_VF _ f).trans (congrArg (some ∘ Instr.fscl) (VF.parse_pack _ f)))

theorem Encoding.fsclImm (f : IF) : Encoding.Statement (.fsclImm f) :=
  of_parse ((parse_IF _ f).trans (congrArg (some ∘ Instr.fsclImm) (IF.parse_pack _ f)))

theorem Encoding.frnd (f : VF) : Encoding.Statement (.frnd f) :=
  of_parse ((parse_VF _ f).trans (congrArg (some ∘ Instr.frnd) (VF.parse_pack _ f)))

theorem Encoding.cvt (f : VF) : Encoding.Statement (.cvt f) :=
  of_parse ((parse_VF _ f).trans (congrArg (some ∘ Instr.cvt) (VF.parse_pack _ f)))

theorem Encoding.cvtGroupWide (f : VF) : Encoding.Statement (.cvtGroupWide f) :=
  of_parse ((parse_VF _ f).trans (congrArg (some ∘ Instr.cvtGroupWide) (VF.parse_pack _ f)))

theorem Encoding.pack (f : VF) : Encoding.Statement (.pack f) :=
  of_parse ((parse_VF _ f).trans (congrArg (some ∘ Instr.pack) (VF.parse_pack _ f)))

theorem Encoding.unpk (f : VF) : Encoding.Statement (.unpk f) :=
  of_parse ((parse_VF _ f).trans (congrArg (some ∘ Instr.unpk) (VF.parse_pack _ f)))

theorem Encoding.qnt (f : VF) : Encoding.Statement (.qnt f) :=
  of_parse ((parse_VF _ f).trans (congrArg (some ∘ Instr.qnt) (VF.parse_pack _ f)))

theorem Encoding.dqnt (f : VF) : Encoding.Statement (.dqnt f) :=
  of_parse ((parse_VF _ f).trans (congrArg (some ∘ Instr.dqnt) (VF.parse_pack _ f)))

theorem Encoding.fdot2 (f : VF) : Encoding.Statement (.fdot2 f) :=
  of_parse ((parse_VF _ f).trans (congrArg (some ∘ Instr.fdot2) (VF.parse_pack _ f)))

theorem Encoding.idot4 (f : VF) : Encoding.Statement (.idot4 f) :=
  of_parse ((parse_VF _ f).trans (congrArg (some ∘ Instr.idot4) (VF.parse_pack _ f)))

theorem Encoding.ldot (f : VF) : Encoding.Statement (.ldot f) :=
  of_parse ((parse_VF _ f).trans (congrArg (some ∘ Instr.ldot) (VF.parse_pack _ f)))

theorem Encoding.shfl (f : VF) : Encoding.Statement (.shfl f) :=
  of_parse ((parse_VF _ f).trans (congrArg (some ∘ Instr.shfl) (VF.parse_pack _ f)))

theorem Encoding.shflImm (f : IF) : Encoding.Statement (.shflImm f) :=
  of_parse ((parse_IF _ f).trans (congrArg (some ∘ Instr.shflImm) (IF.parse_pack _ f)))

theorem Encoding.swz (f : VF) : Encoding.Statement (.swz f) :=
  of_parse ((parse_VF _ f).trans (congrArg (some ∘ Instr.swz) (VF.parse_pack _ f)))

theorem Encoding.vote (f : VF) : Encoding.Statement (.vote f) :=
  of_parse ((parse_VF _ f).trans (congrArg (some ∘ Instr.vote) (VF.parse_pack _ f)))

theorem Encoding.ballot (f : VF) : Encoding.Statement (.ballot f) :=
  of_parse ((parse_VF _ f).trans (congrArg (some ∘ Instr.ballot) (VF.parse_pack _ f)))

theorem Encoding.matchLanes (f : VF) : Encoding.Statement (.matchLanes f) :=
  of_parse ((parse_VF _ f).trans (congrArg (some ∘ Instr.matchLanes) (VF.parse_pack _ f)))

theorem Encoding.elect (f : VF) : Encoding.Statement (.elect f) :=
  of_parse ((parse_VF _ f).trans (congrArg (some ∘ Instr.elect) (VF.parse_pack _ f)))

theorem Encoding.flane (f : VF) : Encoding.Statement (.flane f) :=
  of_parse ((parse_VF _ f).trans (congrArg (some ∘ Instr.flane) (VF.parse_pack _ f)))

theorem Encoding.redi (f : VF) : Encoding.Statement (.redi f) :=
  of_parse ((parse_VF _ f).trans (congrArg (some ∘ Instr.redi) (VF.parse_pack _ f)))

theorem Encoding.redf (f : VF) : Encoding.Statement (.redf f) :=
  of_parse ((parse_VF _ f).trans (congrArg (some ∘ Instr.redf) (VF.parse_pack _ f)))

theorem Encoding.scani (f : VF) : Encoding.Statement (.scani f) :=
  of_parse ((parse_VF _ f).trans (congrArg (some ∘ Instr.scani) (VF.parse_pack _ f)))

theorem Encoding.scanf (f : VF) : Encoding.Statement (.scanf f) :=
  of_parse ((parse_VF _ f).trans (congrArg (some ∘ Instr.scanf) (VF.parse_pack _ f)))

theorem Encoding.scanp (f : VF) : Encoding.Statement (.scanp f) :=
  of_parse ((parse_VF _ f).trans (congrArg (some ∘ Instr.scanp) (VF.parse_pack _ f)))

theorem Encoding.cmpct (f : VF) : Encoding.Statement (.cmpct f) :=
  of_parse ((parse_VF _ f).trans (congrArg (some ∘ Instr.cmpct) (VF.parse_pack _ f)))

theorem Encoding.expnd (f : VF) : Encoding.Statement (.expnd f) :=
  of_parse ((parse_VF _ f).trans (congrArg (some ∘ Instr.expnd) (VF.parse_pack _ f)))

theorem Encoding.rdlane (f : VF) : Encoding.Statement (.rdlane f) :=
  of_parse ((parse_VF _ f).trans (congrArg (some ∘ Instr.rdlane) (VF.parse_pack _ f)))

theorem Encoding.rdlaneImm (f : IF) : Encoding.Statement (.rdlaneImm f) :=
  of_parse ((parse_IF _ f).trans (congrArg (some ∘ Instr.rdlaneImm) (IF.parse_pack _ f)))

theorem Encoding.wrlane (f : VF) : Encoding.Statement (.wrlane f) :=
  of_parse ((parse_VF _ f).trans (congrArg (some ∘ Instr.wrlane) (VF.parse_pack _ f)))

theorem Encoding.wrlaneImm (f : IF) : Encoding.Statement (.wrlaneImm f) :=
  of_parse ((parse_IF _ f).trans (congrArg (some ∘ Instr.wrlaneImm) (IF.parse_pack _ f)))

theorem Encoding.bcst (f : VF) : Encoding.Statement (.bcst f) :=
  of_parse ((parse_VF _ f).trans (congrArg (some ∘ Instr.bcst) (VF.parse_pack _ f)))

theorem Encoding.plop (f : VF) : Encoding.Statement (.plop f) :=
  of_parse ((parse_VF _ f).trans (congrArg (some ∘ Instr.plop) (VF.parse_pack _ f)))

theorem Encoding.plopGroupWide (f : VF) : Encoding.Statement (.plopGroupWide f) :=
  of_parse ((parse_VF _ f).trans (congrArg (some ∘ Instr.plopGroupWide) (VF.parse_pack _ f)))

theorem Encoding.pcnt (f : VF) : Encoding.Statement (.pcnt f) :=
  of_parse ((parse_VF _ f).trans (congrArg (some ∘ Instr.pcnt) (VF.parse_pack _ f)))

theorem Encoding.p2r (f : VF) : Encoding.Statement (.p2r f) :=
  of_parse ((parse_VF _ f).trans (congrArg (some ∘ Instr.p2r) (VF.parse_pack _ f)))

theorem Encoding.movrp (f : VF) : Encoding.Statement (.movrp f) :=
  of_parse ((parse_VF _ f).trans (congrArg (some ∘ Instr.movrp) (VF.parse_pack _ f)))

theorem Encoding.shpq (f : VF) : Encoding.Statement (.shpq f) :=
  of_parse ((parse_VF _ f).trans (congrArg (some ∘ Instr.shpq) (VF.parse_pack _ f)))

theorem Encoding.shpx (f : VF) : Encoding.Statement (.shpx f) :=
  of_parse ((parse_VF _ f).trans (congrArg (some ∘ Instr.shpx) (VF.parse_pack _ f)))

theorem Encoding.shpc (f : VF) : Encoding.Statement (.shpc f) :=
  of_parse ((parse_VF _ f).trans (congrArg (some ∘ Instr.shpc) (VF.parse_pack _ f)))

theorem Encoding.fmtq (f : VF) : Encoding.Statement (.fmtq f) :=
  of_parse ((parse_VF _ f).trans (congrArg (some ∘ Instr.fmtq) (VF.parse_pack _ f)))

theorem Encoding.fmts (f : VF) : Encoding.Statement (.fmts f) :=
  of_parse ((parse_VF _ f).trans (congrArg (some ∘ Instr.fmts) (VF.parse_pack _ f)))

theorem Encoding.near (f : VF) : Encoding.Statement (.near f) :=
  of_parse ((parse_VF _ f).trans (congrArg (some ∘ Instr.near) (VF.parse_pack _ f)))

theorem Encoding.actq (f : VF) : Encoding.Statement (.actq f) :=
  of_parse ((parse_VF _ f).trans (congrArg (some ∘ Instr.actq) (VF.parse_pack _ f)))

theorem Encoding.deadq (f : VF) : Encoding.Statement (.deadq f) :=
  of_parse ((parse_VF _ f).trans (congrArg (some ∘ Instr.deadq) (VF.parse_pack _ f)))

theorem Encoding.poisq (f : VF) : Encoding.Statement (.poisq f) :=
  of_parse ((parse_VF _ f).trans (congrArg (some ∘ Instr.poisq) (VF.parse_pack _ f)))

theorem Encoding.ld (f : MF) : Encoding.Statement (.ld f) :=
  of_parse ((parse_MF _ f).trans (congrArg (some ∘ Instr.ld) (MF.parse_pack _ f)))

theorem Encoding.st (f : MF) : Encoding.Statement (.st f) :=
  of_parse ((parse_MF _ f).trans (congrArg (some ∘ Instr.st) (MF.parse_pack _ f)))

theorem Encoding.ldc (f : MF) : Encoding.Statement (.ldc f) :=
  of_parse ((parse_MF _ f).trans (congrArg (some ∘ Instr.ldc) (MF.parse_pack _ f)))

theorem Encoding.stc (f : MF) : Encoding.Statement (.stc f) :=
  of_parse ((parse_MF _ f).trans (congrArg (some ∘ Instr.stc) (MF.parse_pack _ f)))

theorem Encoding.ldg (f : MF) : Encoding.Statement (.ldg f) :=
  of_parse ((parse_MF _ f).trans (congrArg (some ∘ Instr.ldg) (MF.parse_pack _ f)))

theorem Encoding.pref (f : MF) : Encoding.Statement (.pref f) :=
  of_parse ((parse_MF _ f).trans (congrArg (some ∘ Instr.pref) (MF.parse_pack _ f)))

theorem Encoding.cbnd (f : VF) : Encoding.Statement (.cbnd f) :=
  of_parse ((parse_VF _ f).trans (congrArg (some ∘ Instr.cbnd) (VF.parse_pack _ f)))

theorem Encoding.cadd (f : VF) : Encoding.Statement (.cadd f) :=
  of_parse ((parse_VF _ f).trans (congrArg (some ∘ Instr.cadd) (VF.parse_pack _ f)))

theorem Encoding.cset (f : VF) : Encoding.Statement (.cset f) :=
  of_parse ((parse_VF _ f).trans (congrArg (some ∘ Instr.cset) (VF.parse_pack _ f)))

theorem Encoding.cperm (f : VF) : Encoding.Statement (.cperm f) :=
  of_parse ((parse_VF _ f).trans (congrArg (some ∘ Instr.cperm) (VF.parse_pack _ f)))

theorem Encoding.cseal (f : VF) : Encoding.Statement (.cseal f) :=
  of_parse ((parse_VF _ f).trans (congrArg (some ∘ Instr.cseal) (VF.parse_pack _ f)))

theorem Encoding.cunsl (f : VF) : Encoding.Statement (.cunsl f) :=
  of_parse ((parse_VF _ f).trans (congrArg (some ∘ Instr.cunsl) (VF.parse_pack _ f)))

theorem Encoding.cget (f : VF) : Encoding.Statement (.cget f) :=
  of_parse ((parse_VF _ f).trans (congrArg (some ∘ Instr.cget) (VF.parse_pack _ f)))

theorem Encoding.ctest (f : VF) : Encoding.Statement (.ctest f) :=
  of_parse ((parse_VF _ f).trans (congrArg (some ∘ Instr.ctest) (VF.parse_pack _ f)))

theorem Encoding.cmov (f : VF) : Encoding.Statement (.cmov f) :=
  of_parse ((parse_VF _ f).trans (congrArg (some ∘ Instr.cmov) (VF.parse_pack _ f)))

theorem Encoding.lds (f : MF) : Encoding.Statement (.lds f) :=
  of_parse ((parse_MF _ f).trans (congrArg (some ∘ Instr.lds) (MF.parse_pack _ f)))

theorem Encoding.sts (f : MF) : Encoding.Statement (.sts f) :=
  of_parse ((parse_MF _ f).trans (congrArg (some ∘ Instr.sts) (MF.parse_pack _ f)))

theorem Encoding.ldfe (f : MF) : Encoding.Statement (.ldfe f) :=
  of_parse ((parse_MF _ f).trans (congrArg (some ∘ Instr.ldfe) (MF.parse_pack _ f)))

theorem Encoding.stfe (f : MF) : Encoding.Statement (.stfe f) :=
  of_parse ((parse_MF _ f).trans (congrArg (some ∘ Instr.stfe) (MF.parse_pack _ f)))

theorem Encoding.feset (f : MF) : Encoding.Statement (.feset f) :=
  of_parse ((parse_MF _ f).trans (congrArg (some ∘ Instr.feset) (MF.parse_pack _ f)))

theorem Encoding.feq (f : MF) : Encoding.Statement (.feq f) :=
  of_parse ((parse_MF _ f).trans (congrArg (some ∘ Instr.feq) (MF.parse_pack _ f)))

theorem Encoding.atoms (f : MF) : Encoding.Statement (.atoms f) :=
  of_parse ((parse_MF _ f).trans (congrArg (some ∘ Instr.atoms) (MF.parse_pack _ f)))

theorem Encoding.cass (f : MF) : Encoding.Statement (.cass f) :=
  of_parse ((parse_MF _ f).trans (congrArg (some ∘ Instr.cass) (MF.parse_pack _ f)))

theorem Encoding.binit (f : MF) : Encoding.Statement (.binit f) :=
  of_parse ((parse_MF _ f).trans (congrArg (some ∘ Instr.binit) (MF.parse_pack _ f)))

theorem Encoding.arrive (f : VF) : Encoding.Statement (.arrive f) :=
  of_parse ((parse_VF _ f).trans (congrArg (some ∘ Instr.arrive) (VF.parse_pack _ f)))

theorem Encoding.arriveAppliedAtHome (core idx : Nat) : Encoding.Statement (.arriveAppliedAtHome core idx) := nofun

theorem Encoding.wait (f : VF) : Encoding.Statement (.wait f) :=
  of_parse ((parse_VF _ f).trans (congrArg (some ∘ Instr.wait) (VF.parse_pack _ f)))

theorem Encoding.trywait (f : VF) : Encoding.Statement (.trywait f) :=
  of_parse ((parse_VF _ f).trans (congrArg (some ∘ Instr.trywait) (VF.parse_pack _ f)))

theorem Encoding.bar (f : VF) : Encoding.Statement (.bar f) :=
  of_parse ((parse_VF _ f).trans (congrArg (some ∘ Instr.bar) (VF.parse_pack _ f)))

theorem Encoding.implicitBarrierComplete (core bslot : Nat) (cluster : Bool) : Encoding.Statement (.implicitBarrierComplete core bslot cluster) := nofun

theorem Encoding.atom (f : MF) : Encoding.Statement (.atom f) :=
  of_parse ((parse_MF _ f).trans (congrArg (some ∘ Instr.atom) (MF.parse_pack _ f)))

theorem Encoding.red (f : MF) : Encoding.Statement (.red f) :=
  of_parse ((parse_MF _ f).trans (congrArg (some ∘ Instr.red) (MF.parse_pack _ f)))

theorem Encoding.cas (f : MF) : Encoding.Statement (.cas f) :=
  of_parse ((parse_MF _ f).trans (congrArg (some ∘ Instr.cas) (MF.parse_pack _ f)))

theorem Encoding.fence (f : MF) : Encoding.Statement (.fence f) :=
  of_parse ((parse_MF _ f).trans (congrArg (some ∘ Instr.fence) (MF.parse_pack _ f)))

theorem Encoding.spawn (f : MF) : Encoding.Statement (.spawn f) :=
  of_parse ((parse_MF _ f).trans (congrArg (some ∘ Instr.spawn) (MF.parse_pack _ f)))

theorem Encoding.gbar (f : VF) : Encoding.Statement (.gbar f) :=
  of_parse ((parse_VF _ f).trans (congrArg (some ∘ Instr.gbar) (VF.parse_pack _ f)))

theorem Encoding.gridBarrierGeneration (grid : Nat) : Encoding.Statement (.gridBarrierGeneration grid) := nofun

theorem Encoding.mfence (f : VF) : Encoding.Statement (.mfence f) :=
  of_parse ((parse_VF _ f).trans (congrArg (some ∘ Instr.mfence) (VF.parse_pack _ f)))

theorem Encoding.nbar (f : VF) : Encoding.Statement (.nbar f) :=
  of_parse ((parse_VF _ f).trans (congrArg (some ∘ Instr.nbar) (VF.parse_pack _ f)))

theorem Encoding.nbwait (f : VF) : Encoding.Statement (.nbwait f) :=
  of_parse ((parse_VF _ f).trans (congrArg (some ∘ Instr.nbwait) (VF.parse_pack _ f)))

theorem Encoding.zread (f : VF) : Encoding.Statement (.zread f) :=
  of_parse ((parse_VF _ f).trans (congrArg (some ∘ Instr.zread) (VF.parse_pack _ f)))

theorem Encoding.zwrite (f : VF) : Encoding.Statement (.zwrite f) :=
  of_parse ((parse_VF _ f).trans (congrArg (some ∘ Instr.zwrite) (VF.parse_pack _ f)))

theorem Encoding.badv (f : VF) : Encoding.Statement (.badv f) :=
  of_parse ((parse_VF _ f).trans (congrArg (some ∘ Instr.badv) (VF.parse_pack _ f)))

theorem Encoding.bqry (f : VF) : Encoding.Statement (.bqry f) :=
  of_parse ((parse_VF _ f).trans (congrArg (some ∘ Instr.bqry) (VF.parse_pack _ f)))

theorem Encoding.rng (f : VF) : Encoding.Statement (.rng f) :=
  of_parse ((parse_VF _ f).trans (congrArg (some ∘ Instr.rng) (VF.parse_pack _ f)))

theorem Encoding.rngf (f : VF) : Encoding.Statement (.rngf f) :=
  of_parse ((parse_VF _ f).trans (congrArg (some ∘ Instr.rngf) (VF.parse_pack _ f)))

theorem Encoding.rngadv (f : VF) : Encoding.Statement (.rngadv f) :=
  of_parse ((parse_VF _ f).trans (congrArg (some ∘ Instr.rngadv) (VF.parse_pack _ f)))

theorem Encoding.rngld (f : VF) : Encoding.Statement (.rngld f) :=
  of_parse ((parse_VF _ f).trans (congrArg (some ∘ Instr.rngld) (VF.parse_pack _ f)))

theorem Encoding.rngst (f : VF) : Encoding.Statement (.rngst f) :=
  of_parse ((parse_VF _ f).trans (congrArg (some ∘ Instr.rngst) (VF.parse_pack _ f)))

theorem Encoding.rngq (f : VF) : Encoding.Statement (.rngq f) :=
  of_parse ((parse_VF _ f).trans (congrArg (some ∘ Instr.rngq) (VF.parse_pack _ f)))

theorem Encoding.bra (f : BF) : Encoding.Statement (.bra f) :=
  of_parse ((parse_BF _ f).trans (congrArg (some ∘ Instr.bra) (BF.parse_pack _ f)))

theorem Encoding.brx (f : VF) : Encoding.Statement (.brx f) :=
  of_parse ((parse_VF _ f).trans (congrArg (some ∘ Instr.brx) (VF.parse_pack _ f)))

theorem Encoding.call (f : BF) : Encoding.Statement (.call f) :=
  of_parse ((parse_BF _ f).trans (congrArg (some ∘ Instr.call) (BF.parse_pack _ f)))

theorem Encoding.callx (f : VF) : Encoding.Statement (.callx f) :=
  of_parse ((parse_VF _ f).trans (congrArg (some ∘ Instr.callx) (VF.parse_pack _ f)))

theorem Encoding.ret (f : BF) : Encoding.Statement (.ret f) :=
  of_parse ((parse_BF _ f).trans (congrArg (some ∘ Instr.ret) (BF.parse_pack _ f)))

theorem Encoding.exit (f : BF) : Encoding.Statement (.exit f) :=
  of_parse ((parse_BF _ f).trans (congrArg (some ∘ Instr.exit) (BF.parse_pack _ f)))

theorem Encoding.recon (f : BF) : Encoding.Statement (.recon f) :=
  of_parse ((parse_BF _ f).trans (congrArg (some ∘ Instr.recon) (BF.parse_pack _ f)))

theorem Encoding.loop (f : BF) : Encoding.Statement (.loop f) :=
  of_parse ((parse_BF _ f).trans (congrArg (some ∘ Instr.loop) (BF.parse_pack _ f)))

theorem Encoding.endl (f : BF) : Encoding.Statement (.endl f) :=
  of_parse ((parse_BF _ f).trans (congrArg (some ∘ Instr.endl) (BF.parse_pack _ f)))

theorem Encoding.breakLoop (f : BF) : Encoding.Statement (.breakLoop f) :=
  of_parse ((parse_BF _ f).trans (congrArg (some ∘ Instr.breakLoop) (BF.parse_pack _ f)))

theorem Encoding.jseg (f : IF) : Encoding.Statement (.jseg f) :=
  of_parse ((parse_IF _ f).trans (congrArg (some ∘ Instr.jseg) (IF.parse_pack _ f)))

theorem Encoding.segld (f : IF) : Encoding.Statement (.segld f) :=
  of_parse ((parse_IF _ f).trans (congrArg (some ∘ Instr.segld) (IF.parse_pack _ f)))

theorem Encoding.segmentLoadComplete (core code seg : Nat) : Encoding.Statement (.segmentLoadComplete core code seg) := nofun

theorem Encoding.segdrop (f : IF) : Encoding.Statement (.segdrop f) :=
  of_parse ((parse_IF _ f).trans (congrArg (some ∘ Instr.segdrop) (IF.parse_pack _ f)))

theorem Encoding.segmentDropFree (core code seg : Nat) : Encoding.Statement (.segmentDropFree core code seg) := nofun

theorem Encoding.segq (f : IF) : Encoding.Statement (.segq f) :=
  of_parse ((parse_IF _ f).trans (congrArg (some ∘ Instr.segq) (IF.parse_pack _ f)))

theorem Encoding.nop (f : VF) : Encoding.Statement (.nop f) :=
  of_parse ((parse_VF _ f).trans (congrArg (some ∘ Instr.nop) (VF.parse_pack _ f)))

theorem Encoding.yield (f : VF) : Encoding.Statement (.yield f) :=
  of_parse ((parse_VF _ f).trans (congrArg (some ∘ Instr.yield) (VF.parse_pack _ f)))

theorem Encoding.live (f : IF) : Encoding.Statement (.live f) :=
  of_parse ((parse_IF _ f).trans (congrArg (some ∘ Instr.live) (IF.parse_pack _ f)))

theorem Encoding.mma (f : XF) : Encoding.Statement (.mma f) :=
  of_parse ((parse_XF _ f).trans (congrArg (some ∘ Instr.mma) (XF.parse_pack _ f)))

theorem Encoding.mmas (f : XF) : Encoding.Statement (.mmas f) :=
  of_parse ((parse_XF _ f).trans (congrArg (some ∘ Instr.mmas) (XF.parse_pack _ f)))

theorem Encoding.zld (f : XF) : Encoding.Statement (.zld f) :=
  of_parse ((parse_XF _ f).trans (congrArg (some ∘ Instr.zld) (XF.parse_pack _ f)))

theorem Encoding.zst (f : XF) : Encoding.Statement (.zst f) :=
  of_parse ((parse_XF _ f).trans (congrArg (some ∘ Instr.zst) (XF.parse_pack _ f)))

theorem Encoding.zclr (f : XF) : Encoding.Statement (.zclr f) :=
  of_parse ((parse_XF _ f).trans (congrArg (some ∘ Instr.zclr) (XF.parse_pack _ f)))

theorem Encoding.tileOperationResultPoint (core bslot : Nat) : Encoding.Statement (.tileOperationResultPoint core bslot) := nofun

theorem Encoding.bwait (f : XF) : Encoding.Statement (.bwait f) :=
  of_parse ((parse_XF _ f).trans (congrArg (some ∘ Instr.bwait) (XF.parse_pack _ f)))

theorem Encoding.bfree (f : XF) : Encoding.Statement (.bfree f) :=
  of_parse ((parse_XF _ f).trans (congrArg (some ∘ Instr.bfree) (XF.parse_pack _ f)))

theorem Encoding.bfreeApplied (core bslot : Nat) : Encoding.Statement (.bfreeApplied core bslot) := nofun

theorem Encoding.nbsig (f : XF) : Encoding.Statement (.nbsig f) :=
  of_parse ((parse_XF _ f).trans (congrArg (some ∘ Instr.nbsig) (XF.parse_pack _ f)))

theorem Encoding.nbsigApplied (core bslot : Nat) : Encoding.Statement (.nbsigApplied core bslot) := nofun

theorem Encoding.nbsw (f : XF) : Encoding.Statement (.nbsw f) :=
  of_parse ((parse_XF _ f).trans (congrArg (some ∘ Instr.nbsw) (XF.parse_pack _ f)))

theorem Encoding.sloop (f : XF) : Encoding.Statement (.sloop f) :=
  of_parse ((parse_XF _ f).trans (congrArg (some ∘ Instr.sloop) (XF.parse_pack _ f)))

theorem Encoding.sendl (f : XF) : Encoding.Statement (.sendl f) :=
  of_parse ((parse_XF _ f).trans (congrArg (some ∘ Instr.sendl) (XF.parse_pack _ f)))

theorem Encoding.send (f : XF) : Encoding.Statement (.send f) :=
  of_parse ((parse_XF _ f).trans (congrArg (some ∘ Instr.send) (XF.parse_pack _ f)))

theorem Encoding.snop (f : XF) : Encoding.Statement (.snop f) :=
  of_parse ((parse_XF _ f).trans (congrArg (some ∘ Instr.snop) (XF.parse_pack _ f)))

theorem Encoding.invk (f : VF) : Encoding.Statement (.invk f) :=
  of_parse ((parse_VF _ f).trans (congrArg (some ∘ Instr.invk) (VF.parse_pack _ f)))

theorem Encoding.chstat (f : VF) : Encoding.Statement (.chstat f) :=
  of_parse ((parse_VF _ f).trans (congrArg (some ∘ Instr.chstat) (VF.parse_pack _ f)))

theorem Encoding.chwait (f : VF) : Encoding.Statement (.chwait f) :=
  of_parse ((parse_VF _ f).trans (congrArg (some ∘ Instr.chwait) (VF.parse_pack _ f)))

theorem Encoding.chcan (f : VF) : Encoding.Statement (.chcan f) :=
  of_parse ((parse_VF _ f).trans (congrArg (some ∘ Instr.chcan) (VF.parse_pack _ f)))

theorem Encoding.cbseal (f : VF) : Encoding.Statement (.cbseal f) :=
  of_parse ((parse_VF _ f).trans (congrArg (some ∘ Instr.cbseal) (VF.parse_pack _ f)))

theorem Encoding.cbchk (f : VF) : Encoding.Statement (.cbchk f) :=
  of_parse ((parse_VF _ f).trans (congrArg (some ∘ Instr.cbchk) (VF.parse_pack _ f)))

theorem Encoding.trap (f : IF) : Encoding.Statement (.trap f) :=
  of_parse ((parse_IF _ f).trans (congrArg (some ∘ Instr.trap) (IF.parse_pack _ f)))

theorem Encoding.bkpt (f : IF) : Encoding.Statement (.bkpt f) :=
  of_parse ((parse_IF _ f).trans (congrArg (some ∘ Instr.bkpt) (IF.parse_pack _ f)))

theorem Encoding.movw (f : VF) : Encoding.Statement (.movw f) :=
  of_parse ((parse_VF _ f).trans (congrArg (some ∘ Instr.movw) (VF.parse_pack _ f)))

theorem Encoding.emret (f : VF) : Encoding.Statement (.emret f) :=
  of_parse ((parse_VF _ f).trans (congrArg (some ∘ Instr.emret) (VF.parse_pack _ f)))

theorem Encoding.tret (f : VF) : Encoding.Statement (.tret f) :=
  of_parse ((parse_VF _ f).trans (congrArg (some ∘ Instr.tret) (VF.parse_pack _ f)))

theorem Encoding.srd (f : SF) : Encoding.Statement (.srd f) :=
  of_parse ((parse_SF _ f).trans (congrArg (some ∘ Instr.srd) (SF.parse_pack _ f)))

theorem Encoding.swr (f : SF) : Encoding.Statement (.swr f) :=
  of_parse ((parse_SF _ f).trans (congrArg (some ∘ Instr.swr) (SF.parse_pack _ f)))

theorem Encoding.zemuMark (f : VF) : Encoding.Statement (.zemuMark f) := fun h => by
  have hs : f.sub = 0#8 := by simpa [Instr.rowOk] using Encoding.rowOk_of_wf h
  refine of_parse ((parse_VF _ f).trans ?_) h
  show some (parseZemu (f.pack 0x3A7)) = _
  simp [parseZemu, VF.parse_pack, hs]

theorem Encoding.zemuRel (f : VF) : Encoding.Statement (.zemuRel f) := fun h => by
  have hs : f.sub = 1#8 := by simpa [Instr.rowOk] using Encoding.rowOk_of_wf h
  refine of_parse ((parse_VF _ f).trans ?_) h
  show some (parseZemu (f.pack 0x3A7)) = _
  simp [parseZemu, VF.parse_pack, hs]

theorem Encoding.zemuQry (f : VF) : Encoding.Statement (.zemuQry f) := fun h => by
  have hs : f.sub = 2#8 := by simpa [Instr.rowOk] using Encoding.rowOk_of_wf h
  refine of_parse ((parse_VF _ f).trans ?_) h
  show some (parseZemu (f.pack 0x3A7)) = _
  simp [parseZemu, VF.parse_pack, hs]

theorem Encoding.asynchronousTrapDelivery (core slot : Nat) : Encoding.Statement (.asynchronousTrapDelivery core slot) := nofun

theorem Encoding.registerRefill (core slot reg : Nat) : Encoding.Statement (.registerRefill core slot reg) := nofun

theorem Encoding.missRejectionRetry (core slot : Nat) : Encoding.Statement (.missRejectionRetry core slot) := nofun

theorem Encoding.reservationQueueIssue (core : Nat) : Encoding.Statement (.reservationQueueIssue core) := nofun

theorem Encoding.l1LineFill (core line : Nat) : Encoding.Statement (.l1LineFill core line) := nofun

theorem Encoding.l1LineAgeInvalidation (core line : Nat) : Encoding.Statement (.l1LineAgeInvalidation core line) := nofun

theorem Encoding.storeLeavesBuffer (core slot idx : Nat) : Encoding.Statement (.storeLeavesBuffer core slot idx) := nofun

theorem Encoding.storeWrittenAtHome (core idx : Nat) : Encoding.Statement (.storeWrittenAtHome core idx) := nofun

theorem Encoding.storeAcknowledged (idx : Nat) : Encoding.Statement (.storeAcknowledged idx) := nofun

theorem Encoding.atomicChainApplied (core idx : Nat) : Encoding.Statement (.atomicChainApplied core idx) := nofun

theorem Encoding.hotWordWriteback (line : Nat) : Encoding.Statement (.hotWordWriteback line) := nofun

theorem Encoding.blockRetirement (core bslot : Nat) : Encoding.Statement (.blockRetirement core bslot) := nofun

theorem Encoding.latchChange (core colour : Nat) : Encoding.Statement (.latchChange core colour) := nofun

theorem Encoding.blockPlacement (grid : Nat) : Encoding.Statement (.blockPlacement grid) := nofun

theorem Encoding.gridExpansion (launch : Nat) : Encoding.Statement (.gridExpansion launch) := nofun

theorem Encoding.persistentGridPlacement (grid : Nat) : Encoding.Statement (.persistentGridPlacement grid) := nofun

theorem Encoding.waveBecomesUrgent (core slot : Nat) : Encoding.Statement (.waveBecomesUrgent core slot) := nofun

theorem Encoding.timeSliceExpiry (region : Nat) : Encoding.Statement (.timeSliceExpiry region) := nofun

theorem Encoding.preEmptionSignal (region : Nat) : Encoding.Statement (.preEmptionSignal region) := nofun

theorem Encoding.preEmptionWindowEnd (core region : Nat) : Encoding.Statement (.preEmptionWindowEnd core region) := nofun

theorem Encoding.contextSave (region : Nat) : Encoding.Statement (.contextSave region) := nofun

theorem Encoding.saveComplete (region : Nat) : Encoding.Statement (.saveComplete region) := nofun

theorem Encoding.contextRestore (region : Nat) : Encoding.Statement (.contextRestore region) := nofun

theorem Encoding.haltedSave (region : Nat) : Encoding.Statement (.haltedSave region) := nofun

theorem Encoding.haltedPartitionDiscard (region : Nat) : Encoding.Statement (.haltedPartitionDiscard region) := nofun

theorem Encoding.sealedSave (region : Nat) : Encoding.Statement (.sealedSave region) := nofun

theorem Encoding.heldChannelWrite (group chan : Nat) : Encoding.Statement (.heldChannelWrite group chan) := nofun

theorem Encoding.haltLineArrival (region : Nat) (engine : EngineId) : Encoding.Statement (.haltLineArrival region engine) := nofun

theorem Encoding.channelHaltStop (group chan : Nat) : Encoding.Statement (.channelHaltStop group chan) := nofun

theorem Encoding.debuggerHalt (func region : Nat) : Encoding.Statement (.debuggerHalt func region) := nofun

theorem Encoding.debuggerResume (func region : Nat) : Encoding.Statement (.debuggerResume func region) := nofun

theorem Encoding.debuggerArm (func region : Nat) : Encoding.Statement (.debuggerArm func region) := nofun

theorem Encoding.debuggerDisarm (func region : Nat) : Encoding.Statement (.debuggerDisarm func region) := nofun

theorem Encoding.dbgdataWrite (func : Nat) (value : Dword) : Encoding.Statement (.dbgdataWrite func value) := nofun

theorem Encoding.channelUnitTransfer (group chan : Nat) : Encoding.Statement (.channelUnitTransfer group chan) := nofun

theorem Encoding.commandCompletionWrite (group chan : Nat) : Encoding.Statement (.commandCompletionWrite group chan) := nofun

theorem Encoding.collectiveCancellation (colour gid : Nat) : Encoding.Statement (.collectiveCancellation colour gid) := nofun

theorem Encoding.loessIdleFlit (port : Nat) : Encoding.Statement (.loessIdleFlit port) := nofun

theorem Encoding.linkTimeout (port : Nat) : Encoding.Statement (.linkTimeout port) := nofun

theorem Encoding.switchTimeout (rtag : Nat) : Encoding.Statement (.switchTimeout rtag) := nofun

theorem Encoding.groupTimeout (group chan : Nat) : Encoding.Statement (.groupTimeout group chan) := nofun

theorem Encoding.flitCrcReplay (port ack : Nat) : Encoding.Statement (.flitCrcReplay port ack) := nofun

theorem Encoding.read (port : Nat) (flit : Flit) : Encoding.Statement (.read port flit) := nofun

theorem Encoding.readResponse (port : Nat) (flit : Flit) : Encoding.Statement (.readResponse port flit) := nofun

theorem Encoding.write (port : Nat) (flit : Flit) : Encoding.Statement (.write port flit) := nofun

theorem Encoding.writeAcknowledgement (port : Nat) (flit : Flit) : Encoding.Statement (.writeAcknowledgement port flit) := nofun

theorem Encoding.atomic (port : Nat) (flit : Flit) : Encoding.Statement (.atomic port flit) := nofun

theorem Encoding.atomicResponse (port : Nat) (flit : Flit) : Encoding.Statement (.atomicResponse port flit) := nofun

theorem Encoding.collectiveData (port : Nat) (flit : Flit) : Encoding.Statement (.collectiveData port flit) := nofun

theorem Encoding.collectiveControl (port : Nat) (flit : Flit) : Encoding.Statement (.collectiveControl port flit) := nofun

theorem Encoding.forerunnerLaunch (port : Nat) (flit : Flit) : Encoding.Statement (.forerunnerLaunch port flit) := nofun

theorem Encoding.linkControl (port : Nat) (flit : Flit) : Encoding.Statement (.linkControl port flit) := nofun

theorem Encoding.remoteFaultArrival (rtag code : Nat) : Encoding.Statement (.remoteFaultArrival rtag code) := nofun

theorem Encoding.launch (queue : Nat) : Encoding.Statement (.launch queue) := nofun

theorem Encoding.launchRetirement (launch : Nat) : Encoding.Statement (.launchRetirement launch) := nofun

theorem Encoding.indirect (queue : Nat) : Encoding.Statement (.indirect queue) := nofun

theorem Encoding.pred (queue : Nat) : Encoding.Statement (.pred queue) := nofun

theorem Encoding.loopPacket (queue : Nat) : Encoding.Statement (.loopPacket queue) := nofun

theorem Encoding.waitmem (queue : Nat) : Encoding.Statement (.waitmem queue) := nofun

theorem Encoding.waitmemTimeout (queue : Nat) : Encoding.Statement (.waitmemTimeout queue) := nofun

theorem Encoding.writePacket (queue : Nat) : Encoding.Statement (.writePacket queue) := nofun

theorem Encoding.signal (queue : Nat) : Encoding.Statement (.signal queue) := nofun

theorem Encoding.fetchfence (queue : Nat) : Encoding.Statement (.fetchfence queue) := nofun

theorem Encoding.drain (queue : Nat) : Encoding.Statement (.drain queue) := nofun

theorem Encoding.regionSet (queue : Nat) : Encoding.Statement (.regionSet queue) := nofun

theorem Encoding.regionSave (queue : Nat) : Encoding.Statement (.regionSave queue) := nofun

theorem Encoding.regionRestore (queue : Nat) : Encoding.Statement (.regionRestore queue) := nofun

theorem Encoding.regionPrio (queue : Nat) : Encoding.Statement (.regionPrio queue) := nofun

theorem Encoding.nopPacket (queue : Nat) : Encoding.Statement (.nopPacket queue) := nofun

theorem Encoding.doorbell (func : Nat) (value : Dword) : Encoding.Statement (.doorbell func value) := nofun

theorem Encoding.queueMap (queue : Nat) : Encoding.Statement (.queueMap queue) := nofun

theorem Encoding.queueIdle (queue : Nat) : Encoding.Statement (.queueIdle queue) := nofun

theorem Encoding.qmapMap (value : Dword) : Encoding.Statement (.qmapMap value) := nofun

theorem Encoding.qmapUnmap (value : Dword) : Encoding.Statement (.qmapUnmap value) := nofun

theorem Encoding.cpmodeWrite (value : Dword) : Encoding.Statement (.cpmodeWrite value) := nofun

theorem Encoding.functionLevelReset (func : Nat) : Encoding.Statement (.functionLevelReset func) := nofun

theorem Encoding.heartbeat : Encoding.Statement .heartbeat := nofun

theorem Encoding.firmwareTakeover : Encoding.Statement .firmwareTakeover := nofun

theorem Encoding.liveUpdate : Encoding.Statement .liveUpdate := nofun

theorem Encoding.rollbackRaise : Encoding.Statement .rollbackRaise := nofun

theorem Encoding.create : Encoding.Statement .create := nofun

theorem Encoding.destroy : Encoding.Statement .destroy := nofun

theorem Encoding.assign : Encoding.Statement .assign := nofun

theorem Encoding.revoke : Encoding.Statement .revoke := nofun

theorem Encoding.release : Encoding.Statement .release := nofun

theorem Encoding.attr : Encoding.Statement .attr := nofun

theorem Encoding.quar : Encoding.Statement .quar := nofun

theorem Encoding.unquar : Encoding.Statement .unquar := nofun

theorem Encoding.mint : Encoding.Statement .mint := nofun

theorem Encoding.table : Encoding.Statement .table := nofun

theorem Encoding.attest : Encoding.Statement .attest := nofun

theorem Encoding.auditReexecution (region : Nat) : Encoding.Statement (.auditReexecution region) := nofun

theorem Encoding.auditComparison (audit : Nat) : Encoding.Statement (.auditComparison audit) := nofun

theorem Encoding.auditTieBreak (audit : Nat) : Encoding.Statement (.auditTieBreak audit) := nofun

theorem Encoding.cscoreClr (core : Nat) (value : Dword) : Encoding.Statement (.cscoreClr core value) := nofun

theorem Encoding.swreq : Encoding.Statement .swreq := nofun

theorem Encoding.sweeperPassStart : Encoding.Statement .sweeperPassStart := nofun

theorem Encoding.sweeperPassComplete : Encoding.Statement .sweeperPassComplete := nofun

theorem Encoding.powerWindow : Encoding.Statement .powerWindow := nofun

theorem Encoding.pageRequestResponse (tag : Nat) (ok : Bool) : Encoding.Statement (.pageRequestResponse tag ok) := nofun

theorem Encoding.pageRequestTimeout (tag : Nat) : Encoding.Statement (.pageRequestTimeout tag) := nofun

theorem Encoding.devnoWrite (func : Nat) (value : Dword) : Encoding.Statement (.devnoWrite func value) := nofun

theorem Encoding.deviceRegisterWrite (func off : Nat) (value : Dword) : Encoding.Statement (.deviceRegisterWrite func off value) := nofun

theorem Encoding.powerOnReset : Encoding.Statement .powerOnReset := nofun

theorem Encoding.warmReset : Encoding.Statement .warmReset := nofun

theorem Encoding.freeze : Encoding.Statement .freeze := nofun

theorem Encoding.hostApertureAccess (func off : Nat) (data : Option (List Byte)) (len : Nat) : Encoding.Statement (.hostApertureAccess func off data len) := nofun

theorem Encoding.powerLoss : Encoding.Statement .powerLoss := nofun

theorem Encoding.activeComplexFailure : Encoding.Statement .activeComplexFailure := nofun

theorem Encoding.dieToDieLinkFailure (die io : Nat) : Encoding.Statement (.dieToDieLinkFailure die io) := nofun

theorem Encoding.idleFlitReceipt (port ack : Nat) : Encoding.Statement (.idleFlitReceipt port ack) := nofun

theorem Encoding.flitDiscard (port : Nat) (flit : Flit) : Encoding.Statement (.flitDiscard port flit) := nofun

theorem Encoding.uncorrectableError (place : ErrorPlace) : Encoding.Statement (.uncorrectableError place) := nofun

theorem Encoding.freezeRelease : Encoding.Statement .freezeRelease := nofun

end Sys2Proof.Laws
end

