-- ==== Sys2Proof/Laws/Lanes.lean ====
section
/-!
SUPPORT. The laws of masks and lane vectors: what a mask or vector built lane by lane holds in each lane.
-/

namespace Sys2Proof

theorem mem_laneList (l : Nat) : l ∈ laneList ↔ l < 32 := by
  simp only [laneList, List.mem_cons, List.not_mem_nil, or_false]
  omega

theorem laneList_eq : laneList = List.range 32 := by decide

/-- Lane `l` of a vector built lane by lane. -/
@[simp] theorem Lanes.at_of (f : Nat → Word) {l : Nat} (h : l < 32) : (Lanes.of f).at l = f l := by
  simp [Lanes.at, Lanes.of, laneList_eq, List.getD, h]

theorem Lanes.at_splat (x : Word) {l : Nat} (h : l < 32) : (Lanes.splat x).at l = x := Lanes.at_of _ h

theorem Lanes.at_merge (m : Mask) (x y : Lanes) {l : Nat} (h : l < 32) :
    (Lanes.merge m x y).at l = if m.getLsbD l then x.at l else y.at l := Lanes.at_of _ h

theorem Mask.getLsbD_one (l i : Nat) (h : l < 32) : (Mask.one l).getLsbD i = decide (i = l) := by
  simp only [Mask.one, BitVec.getLsbD_shiftLeft, BitVec.getLsbD_one]
  by_cases hi : i = l
  · subst hi; simp [h]
  · by_cases hlt : i < l
    · simp [hlt, hi]
    · have : i - l ≠ 0 := by omega
      simp [this, hi]

/-- Bit `i` of a mask gathered over a list of lanes. -/
theorem Mask.getLsbD_gather (f : Nat → Bool) (ls : List Nat) (hl : ∀ l ∈ ls, l < 32) (m : Mask) (i : Nat) :
    (ls.foldl (fun m l => if f l then m ||| (1#32 <<< l) else m) m).getLsbD i = (m.getLsbD i || (ls.contains i && f i)) := by
  induction ls generalizing m with
  | nil => simp
  | cons x ls ih =>
    have hx := hl x List.mem_cons_self
    rw [List.foldl_cons, ih (fun l h => hl l (List.mem_cons_of_mem _ h))]
    by_cases hf : f x = true
    · have := Mask.getLsbD_one x i hx
      simp only [Mask.one] at this
      by_cases hi : i = x
      · subst hi; simp [hf, this]
      · simp [hf, this, hi]
    · by_cases hi : i = x
      · subst hi; simp [hf]
      · simp [hf, hi]

/-- Lane `l` of a mask built lane by lane. -/
@[simp] theorem Mask.getLsbD_of (f : Nat → Bool) {l : Nat} (h : l < 32) : (Mask.of f).getLsbD l = f l := by
  unfold Mask.of
  rw [Mask.getLsbD_gather f laneList (fun l h => (mem_laneList l).1 h)]
  simp [laneList_eq, h]

theorem Mask.mem_lanes (m : Mask) (l : Nat) : l ∈ m.lanes ↔ l < 32 ∧ m.getLsbD l = true := by
  simp [Mask.lanes, mem_laneList]

/-- Two masks with the same lanes are one. -/
theorem Mask.ext {a b : Mask} (h : ∀ l, l < 32 → a.getLsbD l = b.getLsbD l) : a = b :=
  BitVec.eq_of_getLsbD_eq fun i hi => h i hi

end Sys2Proof
end

