-- ==== Sys2Proof/Safety.lean ====
section
/-!
DEFINITION. The terms in which claims are stated: a safe step, a wave in which an instruction executes normally, and where
the wave stands after it.
-/

namespace Sys2Proof.Machine

/-- A state from which the next step neither faults nor is refused. -/
def Safe (s : State) : Prop := ∃ t, step s = .next t

/-! ### An instruction of a wave that nothing holds up -/

/-- The context in which instruction `i` executes in a wave: its place, its active lanes, its address and its bits. -/
def ctxFor (i : Instr) (s : State) (core slot : Nat) (w : Wave) : Ctx := ctxOf s core slot w i.view (encode i)

/-- Instruction `i` executes normally in the wave whose turn it is. It has no defect of R62 in that stream, it names no
register with an outstanding result (R95) and none that is spilled (R84), its sources have formats it accepts (R83), no error
or upset meets it (R176, R181, R362), its line's block has its sequencer past its start (R283), and no sweeper pass runs
(R469). -/
structure Ready (i : Instr) (s : State) (core slot : Nat) (w : Wave) (b : Block) : Prop where
  turn : s.turn = .wave core slot
  wave : s.wave core slot = some w
  block : s.block core w.bslot = some b
  started : b.seqr.status ≠ 1
  fate : waveFate s core b w i.view = none
  board : scoreboardWait w (s.core core).queue i.view = false
  spilled : w.spilled = []
  errors : w.errors = []
  upsets : (s.core core).upsets = []
  gaps : w.producers = []
  early : w.early = []
  formats : formatBad w i.view = false
  sweep : s.sweeper.running = false

/-- The address of the next instruction in sequential fetch (R38). -/
def nextPc (s : State) (core : Nat) (b : Block) (w : Wave) : IAddr := (s.core core).nextValid b.code w.bank.pc

/-- No entry of the control stack is popped when the wave goes on at `x` (R103). -/
def NoPop (w : Wave) (x : IAddr) : Prop := w.bank.ctl = [] ∨ (w.bank.rpc ≠ some x ∧ w.path ≠ 0)

/-- The wave after an instruction whose effect on it is `w`, going on at `x` (R38, R95). -/
def Wave.moved (w : Wave) (c : Ctx) (v : View) (x : IAddr) : Wave :=
  (w.issued c v true w.level).setBank { w.bank with pc := x, mask := w.path }

/-- Nothing holds `i` up, a lane is active, and no pop follows. -/
structure Runs (i : Instr) (s : State) (core slot : Nat) (w : Wave) (b : Block) : Prop extends Ready i s core slot w b where
  active : (ctxFor i s core slot w).act ≠ 0
  straight : NoPop w (nextPc s core b w)

/-- `i` completes: but for its own wave the part is left as `s2` says, and the wave as `w2` says, gone on to the next
instruction. A core without room for the registers then held spills some (R84). -/
def CompletesAt (i : Instr) (s : State) (core slot : Nat) (w : Wave) (b : Block) (s2 : State) (w2 : Wave) : Prop :=
  exec i s = .next ((s2.setWave core slot (w2.moved (ctxFor i s core slot w) i.view (nextPc s2 core b w))).settleChunks core slot)

/-- `i` completes with no effect outside its wave, which `w2` gives. -/
def Completes (i : Instr) (s : State) (core slot : Nat) (w : Wave) (b : Block) (w2 : Wave) : Prop :=
  CompletesAt i s core slot w b s w2

/-- `i` completes, leaving the part as `s2` but for its own wave, which `w2` gives with the address it goes on at: wherever the
pops of R103 at that address proceed, to `s3`, the step ends there. -/
def Leads (i : Instr) (s : State) (core slot : Nat) (w : Wave) (b : Block) (s2 : State) (w2 : Wave) : Prop :=
  ∀ s3, (s2.setWave core slot (w2.issued (ctxFor i s core slot w) i.view true w.level)).settlePath core slot b.code = .ok s3 →
    exec i s = .next (s3.settleChunks core slot)

/-- The wave with its address at `x`. -/
def Wave.atPc (w : Wave) (x : IAddr) : Wave := w.setBank { w.bank with pc := x }

/-! ### What an instruction has written -/

/-- Lane `l` of vector register `n`. -/
def Wave.lane (w : Wave) (n l : Nat) : Word := (w.bank.reg n).val.lane l

/-- Lane `l` of a value of TYPE `ty` at register `n`: one register, or an even-odd pair (R52). -/
def Wave.value (w : Wave) (ty n l : Nat) : Nat :=
  if wide ty then (pairOf (w.lane n l) (w.lane (n + 1) l)).toNat else (w.lane n l).toNat

/-- `w1` is `w` but for the vector registers `regs`: every other register keeps its lanes and its format, every quad that
holds none of them its tags, and everything else of the wave its value. -/
structure OnlyVec (w w1 : Wave) (regs : List Nat) : Prop where
  rest : w1 = w.setBank { w.bank with v := w1.bank.v, vtags := w1.bank.vtags }
  kept : ∀ n, n ∉ regs → (∀ l, l < 32 → w1.lane n l = w.lane n l) ∧ (w1.bank.reg n).fmt = (w.bank.reg n).fmt
  tags : ∀ q, (∀ n ∈ regs, n / 4 ≠ q) → w1.bank.tagsOf q = w.bank.tagsOf q

/-- The registers a destination of `k` registers names; 1023 names none (R51). -/
def destRegs (d k : Nat) : List Nat := if d = 1023 then [] else rangeFrom d k

/-- The format of a register after a write of format `new` by the active lanes to one of format `old` (R83). -/
def Ctx.tagged (c : Ctx) (old new : Nat) : Nat := if c.act &&& c.live = c.live ∨ old = new then new else 0

/-- `w1` is `w` with one result of TYPE `ty` written to `d`: the active lanes hold `f`, and the other live lanes what they
held (R81); the format is the TYPE's, or Raw after a partial write to another (R83); a partial write leaves the register
general (R81), and the lanes written have no tag (R190). -/
structure Wrote (c : Ctx) (w w1 : Wave) (d ty : Nat) (f : Nat → Nat) : Prop where
  only : OnlyVec w w1 (destRegs d (tyRegs ty))
  active : d ≠ 1023 → ∀ l, l < 32 → c.act.getLsbD l = true → w1.value ty d l = f l % 2 ^ tyBits ty
  others : d ≠ 1023 → ∀ l, l < 32 → c.live.getLsbD l = true → c.act.getLsbD l = false → w1.value ty d l = w.value ty d l
  format : d ≠ 1023 → (w1.bank.reg d).fmt = c.tagged (w.bank.reg d).fmt (resultFmt ty)
  formatHi : d ≠ 1023 → wide ty = true → (w1.bank.reg (d + 1)).fmt = c.tagged (w.bank.reg (d + 1)).fmt (resultFmtHi ty)
  general : d ≠ 1023 → c.act &&& c.live ≠ c.live → (w1.bank.reg d).val.isG = true
  cleared : d ≠ 1023 → ∀ l, c.act.getLsbD l = true → (w1.bank.tagsOf (d / 4)).getLsbD l = false

/-- `i`, wherever nothing holds it up and `P` holds, completes with one vector result of TYPE `ty` in `d`, and `post` done to
its wave after. -/
def WritesVecIf (i : Instr) (P : Ctx → Wave → Prop) (d ty : Nat) (f : Ctx → Wave → Nat → Nat) (post : Ctx → Wave → Wave → Wave) :
    Prop :=
  ∀ s core slot w b, Runs i s core slot w b → P (ctxFor i s core slot w) w → ∃ w1,
    Completes i s core slot w b (post (ctxFor i s core slot w) w w1) ∧
      Wrote (ctxFor i s core slot w) w w1 d ty (f (ctxFor i s core slot w) w)

/-- The same with no condition of its own. -/
def WritesVecAnd (i : Instr) (d ty : Nat) (f : Ctx → Wave → Nat → Nat) (post : Ctx → Wave → Wave → Wave) : Prop :=
  WritesVecIf i (fun _ _ => True) d ty f post

/-- `i`, wherever nothing holds it up, completes with one vector result of TYPE `ty` in `d`. -/
def WritesVec (i : Instr) (d ty : Nat) (f : Ctx → Wave → Nat → Nat) : Prop := WritesVecAnd i d ty f fun _ _ w1 => w1

/-- `w1` is `w` but for the predicates `regs`. -/
structure OnlyPred (w w1 : Wave) (regs : List Nat) : Prop where
  rest : w1 = w.setBank { w.bank with p := w1.bank.p }
  kept : ∀ n, n ∉ regs → w1.bank.pred n = w.bank.pred n

/-- `i`, wherever nothing holds it up, completes with predicate `d` written: the active lanes hold `f` and every other lane
what it held; number 1023 discards (R53). -/
def WritesPred (i : Instr) (d : Nat) (f : Ctx → Wave → Nat → Bool) : Prop :=
  ∀ s core slot w b, Runs i s core slot w b → ∃ w1, Completes i s core slot w b w1 ∧ OnlyPred w w1 (destRegs d 1) ∧
    (d ≠ 1023 → ∀ l, l < 32 → (w1.bank.pred d).getLsbD l =
      if (ctxFor i s core slot w).act.getLsbD l then f (ctxFor i s core slot w) w l else (w.bank.pred d).getLsbD l)

/-- `w1` is `w` with `x` in group-wide register `d`, whose pair then has no tag (R190). -/
structure WroteGrp (w w1 : Wave) (d : Nat) (x : Dword) : Prop where
  rest : w1 = w.setBank { w.bank with g := w1.bank.g, gtags := w1.bank.gtags }
  value : w1.bank.grp d = x
  kept : ∀ n, n ≠ d → w1.bank.grp n = w.bank.grp n
  tags : ∀ n, n ∈ w1.bank.gtags ↔ n ≠ d / 2 * 2 ∧ n ∈ w.bank.gtags

/-- `i`, wherever nothing holds it up, completes with group-wide register `d` written, and `post` done to its wave after. -/
def WritesGrpAnd (i : Instr) (d : Nat) (f : Ctx → Wave → Dword) (post : Ctx → Wave → Wave → Wave) : Prop :=
  ∀ s core slot w b, Runs i s core slot w b → ∃ w1,
    Completes i s core slot w b (post (ctxFor i s core slot w) w w1) ∧ WroteGrp w w1 d (f (ctxFor i s core slot w) w)

def WritesGrp (i : Instr) (d : Nat) (f : Ctx → Wave → Dword) : Prop := WritesGrpAnd i d f fun _ _ w1 => w1

/-- `i`, wherever nothing holds it up, completes with group-wide predicate `d` written and nothing else of its wave. -/
def WritesQ (i : Instr) (d : Nat) (f : Ctx → Wave → Bool) : Prop :=
  ∀ s core slot w b, Runs i s core slot w b → ∃ w1, Completes i s core slot w b w1 ∧
    w1 = w.setBank { w.bank with q := w1.bank.q } ∧ w1.bank.qp d = f (ctxFor i s core slot w) w ∧
    ∀ n, n ≠ d → w1.bank.qp n = w.bank.qp n

/-- Lane `l` of the quad from register `n` as a capability (R185). -/
def Wave.cap (w : Wave) (n l : Nat) : Cap :=
  ⟨w.lane (n + 3) l ++ w.lane (n + 2) l ++ w.lane (n + 1) l ++ w.lane n l, (w.bank.tagsOf (n / 4)).getLsbD l⟩

/-- Every uniform quad has one tag for all its lanes (R82). -/
def Bank.OneTag (b : Bank) : Prop := ∀ q, (b.reg (4 * q)).val.isU = true → b.tagsOf q = 0 ∨ b.tagsOf q = Mask.all

/-- `i`, wherever nothing holds it up, completes with a capability in each active lane of quad `d`; the other live lanes of
the quad keep theirs. A uniform quad read has one tag. -/
def WritesCaps (i : Instr) (d : Nat) (f : Ctx → Wave → Nat → Cap) : Prop :=
  ∀ s core slot w b, Runs i s core slot w b → w.bank.OneTag → ∃ w1, Completes i s core slot w b w1 ∧
    OnlyVec w w1 (destRegs d 4) ∧
    (d ≠ 1023 → ∀ l, l < 32 → (ctxFor i s core slot w).live.getLsbD l = true →
      w1.cap d l = if (ctxFor i s core slot w).act.getLsbD l then f (ctxFor i s core slot w) w l else w.cap d l)

/-- `i`, wherever nothing holds it up and `P` holds, completes with the value `f k` of TYPE `ty` in each of the `n` single
registers from `d`, and `post` done to its wave after. -/
def WritesRegs (i : Instr) (P : Ctx → Wave → Prop) (d n ty : Nat) (f : Ctx → Wave → Nat → Nat → Nat) (post : Wave → Wave) : Prop :=
  ∀ s core slot w b, Runs i s core slot w b → P (ctxFor i s core slot w) w → ∃ w1, Completes i s core slot w b (post w1) ∧
    OnlyVec w w1 (destRegs d n) ∧
    (d ≠ 1023 → ∀ k l, k < n → l < 32 → (ctxFor i s core slot w).live.getLsbD l = true →
      w1.value ty (d + k) l = if (ctxFor i s core slot w).act.getLsbD l then
        f (ctxFor i s core slot w) w k l % 2 ^ tyBits ty else w.value ty (d + k) l)

/-- `w1` is `w` with capability `x` in the pair of group-wide registers from `d` (R185, R190). -/
structure WrotePair (w w1 : Wave) (d : Nat) (x : Cap) : Prop where
  rest : w1 = w.setBank { w.bank with g := w1.bank.g, gtags := w1.bank.gtags }
  value : w1.bank.pairCap d = x
  kept : ∀ n, n ≠ d → n ≠ d + 1 → w1.bank.grp n = w.bank.grp n
  tags : ∀ n, n ≠ d → (n ∈ w1.bank.gtags ↔ n ∈ w.bank.gtags)

/-- `i`, wherever nothing holds it up and `P` holds, completes with a capability in pair `d`, and `post` done to its wave after. -/
def WritesPair (i : Instr) (P : Ctx → Wave → Prop) (d : Nat) (f : Ctx → Wave → Cap) (post : Wave → Wave) : Prop :=
  ∀ s core slot w b, Runs i s core slot w b → P (ctxFor i s core slot w) w → ∃ w1,
    Completes i s core slot w b (post w1) ∧ WrotePair w w1 d (f (ctxFor i s core slot w) w)

/-- `i`, wherever nothing holds it up, completes with the effect `f` on its wave and no other. -/
def Changes (i : Instr) (f : Ctx → Wave → Wave) : Prop :=
  ∀ s core slot w b, Runs i s core slot w b → Completes i s core slot w b (f (ctxFor i s core slot w) w)

/-! ### Operands as the rules name them -/

/-- `val(A, l)`: operand A of a lane in the TYPE's signedness (R126, R129). -/
def valA (x : VArgs) (c : Ctx) (w : Wave) (l : Nat) : Int := tyVal x.ty (c.bits w x.ty x.a l)
/-- `val(B, l)`: operand B of a lane, a register or the immediate (R128). -/
def valB (x : VArgs) (c : Ctx) (w : Wave) (l : Nat) : Int := tyVal x.ty (c.bitsB w x l)
/-- `val(C, l)`. -/
def valC (x : VArgs) (c : Ctx) (w : Wave) (l : Nat) : Int := tyVal x.ty (c.bits w x.ty x.c l)

/-- An integer result: the exact `g` of the operands, clamped with SAT and else kept to the TYPE's width (R127, R131). -/
def arith (x : VArgs) (sat : Bool) (g : Int → Int → Int → Int) (c : Ctx) (w : Wave) (l : Nat) : Nat :=
  finish x.ty sat (g (valA x c w l) (valB x c w l) (valC x c w l))

/-- A result on the bits of A, B and C and the TYPE's width (R135). -/
def bitwise (x : VArgs) (g : Nat → Nat → Nat → Nat → Nat) (c : Ctx) (w : Wave) (l : Nat) : Nat :=
  g (tyBits x.ty) (c.bits w x.ty x.a l) (c.bitsB w x l) (c.bits w x.ty x.c l)

/-- A result on the bits of A and C and the untyped count or descriptor of B (R128, R135, R136). -/
def counted (x : VArgs) (g : Nat → Nat → Nat → Nat → Nat) (c : Ctx) (w : Wave) (l : Nat) : Nat :=
  g (tyBits x.ty) (c.bits w x.ty x.a l) (c.countB w x l) (c.bits w x.ty x.c l)

/-- A floating result, element by element on the modified bits of the sources (R126, R137). -/
def floating (x : VArgs) (g : FFmt → Nat → Nat → Nat → Nat → Nat) (c : Ctx) (w : Wave) (l : Nat) : Nat :=
  let f := fmtOf x.ty
  let one (a b z : Nat) : Nat :=
    g f (modeOf w x.round) (modBits f (x.neg.testBit 0) (x.abs.testBit 0) a) (modBits f (x.neg.testBit 1) (x.abs.testBit 1) b)
      (modBits f (x.neg.testBit 2) false z)
  let a := c.bits w x.ty x.a l
  let b := c.bitsB w x l
  let z := c.bits w x.ty x.c l
  if f.width = 16 then one (elem a 16 0) (elem b 16 0) (elem z 16 0) + 2 ^ 16 * one (elem a 16 1) (elem b 16 1) (elem z 16 1)
  else one a b z

/-- A floating result rounded once (R117, R138), with SAT clamped to [+0, 1.0] (R127). -/
def rounded (x : VArgs) (sat : Bool) (g : Nat → FVal → FVal → FVal → FVal) : Ctx → Wave → Nat → Nat :=
  floating x fun f mode a b z =>
    let r := f.roundTo mode (g mode (f.value a) (f.value b) (f.value z))
    if sat then clampUnit f r else r

/-! ### Memory -/

/-- The accesses `reqs` stay in the part's own memory and out of the host window, and none waits for an earlier atomic of a wave of
the core (R228, R229, R271). -/
structure Here (s : State) (core : Nat) (w : Wave) (n : Nat) (reqs : List LaneReq) : Prop where
  home : ∀ r ∈ reqs, s.isRemote r.va = false ∧ rangeOf (localOf r.va) ≠ .host
  order : s.chainPending core w n reqs = false

/-- The lines of local accesses of `n` bytes that are to be fetched into the L1: none with the cache bypass (R216, R222). -/
def State.wanted (s : State) (core n : Nat) (f : MF) (reqs : List LaneReq) : List Nat :=
  if f.cache.toNat % 4 = 2 then [] else s.missing core n reqs

/-- The core has a miss entry free for each line of `lines` that has none, and no wave waits for entries (R222). -/
def State.MissRoom (s : State) (core : Nat) (lines : List Nat) : Prop :=
  ((s.core core).unasked lines).length ≤ 256 - (s.core core).misses.length ∧ (s.core core).reserve = []

/-- The state with lines asked for. -/
def State.asked (s : State) (core : Nat) (lines : List Nat) : State :=
  s.setCore core { s.core core with misses := (s.core core).misses ++ lines.map fun l => ⟨l, false⟩ }

/-- What a lane's load finds: the newest of the wave's own pieces, the L1 and memory (R229). -/
def State.found (s : State) (core : Nat) (w : Wave) (f : MF) (r : LaneReq) : LaneVal :=
  s.loadLocal core (s.newestParts core w) (f.cache.toNat % 4 = 2) r (sizeBytes f.size.toNat)

/-- The state after an acquire, where an instruction is one (R231). -/
def State.acquired (s : State) (core : Nat) (f : MF) : State := if acquires f then s.acquire core f.scope.toNat else s

/-- The state after a load of `n` bytes at `reqs` but for what it wrote: `lines` are asked for, older L1 lines that the home has served
past are dropped, an acquire has its effect, and an audited block's reads are noted (R222, R228, R231, R458). -/
def State.loaded (s : State) (core bslot n : Nat) (f : MF) (lines : List Nat) (reqs : List LaneReq) : State :=
  (((s.asked core ((s.core core).unasked lines)).passedBy core n (f.cache.toNat % 4 = 2) reqs).acquired core f).noteReads core bslot
    (reqs.flatMap fun r => rangeFrom r.va n)

/-- The format of each register a load of SIZE `sz` writes (R45). -/
def loadFmt (sz k : Nat) : Nat := if sz = 15 then (if k = 0 then resultFmt tF64 else resultFmtHi tF64) else sizeFmt sz

/-- `w1` is `w` with loaded values `f` of SIZE `sz` in the registers from `d`: each register of an active lane holds its 32 bits of
the lane's value, every other live lane what it held; the formats are the SIZE's and the lanes written have no tag (R45, R81, R83,
R190, R210). -/
structure Loaded (c : Ctx) (w w1 : Wave) (d sz : Nat) (f : Nat → Nat) : Prop where
  only : OnlyVec w w1 (destRegs d (sizeRegs sz))
  value : d ≠ 1023 → ∀ k l, k < sizeRegs sz → l < 32 → c.live.getLsbD l = true →
    w1.lane (d + k) l = if c.act.getLsbD l then BitVec.ofNat 32 (field (f l) (32 * k) 32) else w.lane (d + k) l
  format : d ≠ 1023 → ∀ k, k < sizeRegs sz → (w1.bank.reg (d + k)).fmt = c.tagged (w.bank.reg (d + k)).fmt (loadFmt sz k)
  cleared : d ≠ 1023 → ∀ l, c.act.getLsbD l = true → (w1.bank.tagsOf (d / 4)).getLsbD l = false

/-- The wave with a store in its buffer: the entry takes the next place of the wave's order, waits for what its fences and its own
release at `scope` name, and is counted in its stream (R223, R224, R230, R377). -/
def Wave.stored (w : Wave) (c : Ctx) (s : State) (stream kind : Nat) (rel : Bool) (scope : Nat) (info : StoreInfo)
    (parts : List Part) : Wave :=
  { w with
    sb := w.sb ++ [{ serial := w.nextSerial, place := (w.placed + 1) % 2 ^ 32, stream, colour := (s.core c.core).latch, pc := c.pc, kind,
                     parts, info, gates := s.gatesOf w rel scope }]
    nextSerial := w.nextSerial + 1
    placed := (w.placed + 1) % 2 ^ 32
    unfenced := padWrites parts ++ w.unfenced
    unack := lmod w.unack stream (· + 1) }

/-- The wave's store buffer takes a store of stream `stream`: an entry is free and fewer than 64 stores of the stream are
unacknowledged (R223, R224). -/
structure StoreRoom (w : Wave) (b : Block) (stream : Nat) : Prop where
  room : w.sb.length < b.env.sbDepth
  count : w.unack.getD stream 0 < 64

/-- The state with a change made to the block and word that each access names (R252). -/
def State.atWords (s : State) (b : Block) (reqs : List PadReq) (f : PadReq → Block → Block) : State :=
  reqs.foldl (fun s r => match s.rankBlock b r.rank with
    | some (tc, tb, t) => s.setBlock tc tb (f r t)
    | none => s) s

/-- The words the accesses name are `full`, or empty, no operation waits at their blocks, no lane's word has an error, and no two
accesses name one word unless `many` (R253, R254). -/
structure AtOnce (s : State) (b : Block) (reqs : List PadReq) (full many : Bool) : Prop where
  words : ∀ r ∈ reqs, ∀ tc tb t, s.rankBlock b r.rank = some (tc, tb, t) →
    t.isFull (r.off.toNat / 4) = full ∧ t.padBad r.off.toNat 4 = false ∧ t.fe = []
  one : many = true ∨ (reqs.map fun r => ((s.rankBlock b r.rank).map fun p => (p.1, p.2.1), r.off)).Nodup

/-! ### The matrix sequencer -/

/-- Instruction `i` executes normally in the sequencer whose turn it is: it has not ended, it has no defect of R61 and
R63 there, and no error meets it (R286). -/
structure SeqReady (i : Instr) (s : State) (core bslot : Nat) (b : Block) : Prop where
  turn : s.turn = .seqr core bslot
  block : s.block core bslot = some b
  fate : seqFate s core b i.view = none
  sound : b.seqr.error = false
  going : b.seqr.status ≠ 5

/-- The sequencer gone on to its next instruction. -/
def Sequencer.moved (q : Sequencer) (k : Core) (code : Nat) : Sequencer :=
  { q with line := some (lineOf q.pc), pc := k.nextValid code q.pc, status := 2 }

/-- The sequencer gone to `x`. -/
def Sequencer.sent (q : Sequencer) (x : IAddr) : Sequencer := { q with line := some (lineOf q.pc), pc := x, status := 2 }

/-- `i` completes, leaving the part as it was but for its block, which is `b1` after. -/
def SeqCompletes (i : Instr) (s : State) (core bslot : Nat) (b1 : Block) : Prop :=
  exec i s = .next (s.setBlock core bslot b1)

/-- Tile operation `op` is at its turn to fire: the sequencer has nothing due before it, fewer than four operations are in flight, the
buffers it names are ready, the resource is free and it is the block's turn (R285). -/
structure MayFire (op : Op) (f : XF) (s : State) (core bslot : Nat) (b : Block) : Prop where
  settled : b.seqBehind (s.now (dieOf core)) = false
  room : b.seqr.flights.length < 4
  buffers : buffersReady b (matUses op f) = true
  free : ((s.seqLine core bslot).core core).resourceHeld (usesArray op) (s.now (dieOf core)) = false
  turn : (s.seqLine core bslot).hasTurn core bslot (usesArray op) = true

/-- The sequencer stopped at its instruction by a trap that its block's wave `w` holds, its record in sr.mflt where it is a matrix
fault (R286). -/
def State.seqStopped (s : State) (core bslot : Nat) (b : Block) (slot : Nat) (w : Wave) (code sub : Nat) (inst : Slot) : State :=
  (s.setBlock core bslot { b with
    seqr := { b.seqr with line := some (lineOf b.seqr.pc), status := 4, trap := none }
    mflt := if code = 20 then mfltWord sub b.seqr.pc else b.mflt }).setWave core slot
      { w with held := w.held ++ [seqTrap b code sub 0 inst] }

/-- Tile operation `i`, where it is at its turn: if the checks of R300 pass and no register it reads is spilled (R280), it joins the
flights with what it has read, and the sequencer goes on; a check that fails stops the sequencer with its trap, held by the block's
lowest-numbered live wave, or with its halting fault (R286). -/
def Fires (i : Instr) (op : Op) (f : XF) : Prop :=
  ∀ s core bslot b, SeqReady i s core bslot b → MayFire op f s core bslot b →
    let s1 := s.seqLine core bslot
    let k := s.core core
    (fireStop op f core bslot b s1 = none → (s1.operandReads core bslot b op f).flatMap (s1.sourceSpilled core bslot) = [] →
      exec i s = .next ((s.setCore core (if usesArray op then { k with lastArray := bslot } else { k with lastPort := bslot })).setBlock
        core bslot { b with seqr := { b.seqr.moved k b.code with
          flights := b.seqr.flights ++ [fireFlight op f core bslot b s1]
          last := b.seqr.next
          next := if b.seqr.next + 1 = 2 ^ 32 then 1 else b.seqr.next + 1 } })) ∧
    (∀ code sub slot w, fireStop op f core bslot b s1 = some (.fault code sub) → s.lowestWave core bslot = some (slot, w) →
      exec i s = .next (s.seqStopped core bslot b slot w code sub (encode i))) ∧
    (∀ code, fireStop op f core bslot b s1 = some (.halt code) → exec i s = .next (s1.haltSeq core bslot code))

/-- Whether a source of an operation in flight is in registers. -/
def Flight.inRegs (f : Flight) (k : Nat) : Bool := match f.srcs[k]? with | some m => m.wave.isSome | none => false

/-! ### Traps -/

/-- The wave with the line of its address noted as its latest (R36). -/
def Wave.onLine (w : Wave) : Wave := { w with lines := lmod w.lines w.level fun _ => some (lineOf w.bank.pc) }

/-- Instruction `i` takes the trap of code `code` and sub-code `sub` with information `info` and no window: its wave enters the
handler at `h`, at the next level, and nothing else changes (R36, R341, R342, R345). -/
def Enters (i : Instr) (s : State) (core slot : Nat) (w : Wave) (b : Block) (code sub : Nat) (info : Dword) (h : IAddr) : Prop :=
  exec i s = .next (s.setWave core slot (w.onLine.enter
    { code, sub, fieldNum := 0, seq := false, async := false, info, inst := encode i, act := (ctxFor i s core slot w).act,
      tpc := w.bank.pc, windows := [(0, 0), (0, 0), (0, 0), (0, 0)], feDone := 0 } h (s.sweptCap b.env.emuArea)))

/-- The wave after a return from its handler to `x` by instruction `i` (R352). -/
def Wave.returned (w : Wave) (i : Instr) (s : State) (core slot : Nat) (x : IAddr) : Wave :=
  (w.leave x).issued (ctxFor i s core slot w) i.view true w.level

/-- Two states of a wave on one path: the same address, masks, stacks of control and nesting level. -/
structure SamePath (w w' : Wave) : Prop where
  pc : w'.bank.pc = w.bank.pc
  mask : w'.bank.mask = w.bank.mask
  rpc : w'.bank.rpc = w.bank.rpc
  ctl : w'.bank.ctl = w.bank.ctl
  level : w'.level = w.level
  dead : w'.dead = w.dead
  exited : w'.exited = w.exited
  spilled : w'.spilled = w.spilled

/-! ### The fabric and the queues -/

/-- Flit `f` of TYPE `kind` comes to port `p`, whose record is `q`, in order and for this device, and may be taken (R333). -/
structure Arrives (s : State) (p : Nat) (q : Port) (f : Flit) (kind : Nat) : Prop where
  port : kget s.ports p = some q
  crc : flitSound f = true
  order : f.seq.toNat = (q.ack + 1) % 65536
  type : f.kind.toNat = kind
  known : kind ≤ 10
  size : f.payload.length ≤ 208
  fields : f.reserved = 0
  here : f.ddev.toNat = s.devid

/-- The state with flit `f` taken by the link of port `p`: what it acknowledges leaves the replay window, flits that wait for room there
are sent, and it is itself the last received (R333, R338). -/
def State.took (s : State) (p : Nat) (q : Port) (f : Flit) : State :=
  let q1 := { q with ack := f.seq.toNat, window := ackWindow q.window f.ack.toNat, lastRx := s.now (portDie p) }
  ({ s with ports := kset s.ports p q1 } : State).pump p

/-- A response of TYPE `kind` to the request `f`: its device, its RTAG, the colour of the tenant table's entry (R333). -/
def State.response (s : State) (f : Flit) (kind : Nat) (payload : List Byte) (ctag : BitVec 13) (cot : BitVec 78) : Flit :=
  flitOf s f.sdev.toNat (s.replyColour f) 0xFF kind f.rtag.toNat payload ctag cot

/-- Packet `bs` of TYPE `ty` is the next of queue `n`, which is mapped, has no error, passes over no packet and waits for nothing but
what such a packet waits for; its complex runs, and the ring slot that its end gives back may be written (R410, R415, R416). -/
structure Packet (s : State) (n : Nat) (q : Queue) (ty : Nat) (bs : List Byte) : Prop where
  queue : s.queue n = some q
  alive : s.firmware.alive = true
  valid : q.valid = true
  sound : q.error = false
  mapped : q.slot ≠ none
  next : q.skip = 0
  read : s.packetAt q q.cursor = .ok (some bs)
  type : packetType bs = ty
  waits : q.waits = 0 ∨ q.waits = waitOf ty
  gives : s.mayConsume q = true

/-- Queue `q` as it stands while its packet executes: that packet has been fetched, and as many after it as the part happens to fetch
(R425). -/
def State.fetching (s : State) (q : Queue) : Queue :=
  { q with fetched := s.fetchAhead q (max 1 (Config.choice s.tick % 18)) q.cursor }

/-- The state as a packet of queue `n`, which is `q`, begins to execute (R425). -/
def State.begun (s : State) (n : Nat) (q : Queue) : State := s.setQueue n (s.fetching q)

/-- The proposal in PROP0 to PROP7 is submitted, its fields are in order, and it need not wait (R444, R446). -/
structure Submitted (s : State) (p : Proposal) : Prop where
  submitted : s.host.submitted = true
  words : p = proposalOf s.host.props
  sound : p.malformed = false
  free : s.tableWaits p = false

/-- The state with the proposal answered in PRESULT (R444). -/
def State.replied (s : State) (reason index : Nat) : State :=
  { s with host := { s.host with submitted := false, presult := resultWord reason index } }

/-- Instruction `i` answers a submitted proposal of operation `op` over granules: the first reason that applies, with its granule, or
else all of `f` applied (R444 to R446). -/
def Proposes (i : Instr) (op : Nat) (f : State → Proposal → State) : Prop :=
  ∀ s p, Submitted s p → p.op = op →
    (∀ r k, s.granuleReason p = some (r, k) → exec i s = .next (s.replied r k)) ∧
    (s.granuleReason p = none → exec i s = .next ((f s p).replied 0 0))

/-- Proposal `p` changes each of its granules as `g` says, and no other; and where `wipe` holds it leaves each of their bytes zero, with
no tag and no poison (R445, R448). -/
structure GranuleChange (s t : State) (p : Proposal) (wipe : Bool) (g : Granule → Granule) : Prop where
  mine : ∀ n, p.first ≤ n → n < p.first + p.count → t.granuleNo n = g (s.granuleNo n)
  others : ∀ n, ¬(p.first ≤ n ∧ n < p.first + p.count) → t.granuleNo n = s.granuleNo n
  bytes : ∀ a, t.byte a = if wipe = true ∧ p.first ≤ a / 65536 ∧ a / 65536 < p.first + p.count then 0 else s.byte a
  tags : ∀ u, u ∈ t.tags ↔ u ∈ s.tags ∧ ¬(wipe = true ∧ p.first ≤ u / 4096 ∧ u / 4096 < p.first + p.count)
  poison : ∀ u, u ∈ t.poison ↔ u ∈ s.poison ∧ ¬(wipe = true ∧ p.first ≤ u / 1024 ∧ u / 1024 < p.first + p.count)
  cold : ∀ l ∈ t.hot, ¬(p.first ≤ l / 1024 ∧ l / 1024 < p.first + p.count)
  cores : t.cores = s.cores

/-! ### Turns -/

/-- The turn can be taken: there is none, or it is one that could come next. -/
def State.TurnLegal (s : State) : Prop := s.turn = .idle ∨ s.turn ∈ candidates s

end Sys2Proof.Machine
end

