-- ==== Sys2Proof/Laws/Issue.lean ====
section
/-!
SUPPORT. What issuing an instruction comes to where nothing holds it up: one lemma for every meaning of a wave.
-/

namespace Sys2Proof.Machine

@[simp] theorem SamePath.refl (w : Wave) : SamePath w w := ⟨rfl, rfl, rfl, rfl, rfl, rfl, rfl, rfl⟩

theorem SamePath.trans {w w1 w2 : Wave} (h : SamePath w w1) (h' : SamePath w1 w2) : SamePath w w2 :=
  ⟨h'.pc.trans h.pc, h'.mask.trans h.mask, h'.rpc.trans h.rpc, h'.ctl.trans h.ctl, h'.level.trans h.level, h'.dead.trans h.dead,
    h'.exited.trans h.exited, h'.spilled.trans h.spilled⟩

theorem live_of {w w' : Wave} (h : SamePath w w') : w'.live = w.live := by simp [Wave.live, h.dead, h.exited]

theorem path_of {w w' : Wave} (h : SamePath w w') : w'.path = w.path := by simp [Wave.path, live_of h, h.mask]

/-- A wave with other registers is on the same path. -/
theorem SamePath.setBank {w : Wave} {b : Bank} (hp : b.pc = w.bank.pc) (hm : b.mask = w.bank.mask)
    (hr : b.rpc = w.bank.rpc) (hc : b.ctl = w.bank.ctl) : SamePath w (w.setBank b) :=
  ⟨by simp [hp], by simp [hm], by simp [hr], by simp [hc], by simp, by simp, by simp, by simp⟩

/-! ### The pops of a path that goes straight on (R103) -/

theorem pops_noPop {w : Wave} (k : Core) (code : Nat) (h : NoPop w w.bank.pc) :
    w.pops k code = .ok { w.bank with mask := w.path } false [] := by
  unfold Wave.pops
  cases hc : w.bank.ctl with
  | nil => simp [popAt, hc, Wave.path]
  | cons e rest =>
    obtain h | ⟨h₁, h₂⟩ := h
    · simp [hc] at h
    · have : (decide (some w.bank.pc = w.bank.rpc) || decide (w.bank.mask &&& w.live = 0)) = false := by
        have h₃ : w.bank.mask &&& w.live ≠ 0 := h₂
        simpa [Ne.symm h₁] using h₃
      simp only [popAt, this, Bool.false_eq_true, if_false, hc, Wave.path]

theorem settlePath_noPop {s : State} {c slot : Nat} {w : Wave} (code : Nat) (hw : s.wave c slot = some w)
    (h : NoPop w w.bank.pc) :
    s.settlePath c slot code = .ok (s.setWave c slot (w.setBank { w.bank with mask := w.path })) := by
  simp [State.settlePath, hw, pops_noPop _ _ h]

/-! ### The completion of an instruction -/

@[simp] theorem issued_bank (w : Wave) (c : Ctx) (v : View) (p : Bool) (n : Nat) : (w.issued c v p n).bank = w.bank := rfl
@[simp] theorem issued_level (w : Wave) (c : Ctx) (v : View) (p : Bool) (n : Nat) : (w.issued c v p n).level = w.level := rfl
@[simp] theorem issued_live (w : Wave) (c : Ctx) (v : View) (p : Bool) (n : Nat) : (w.issued c v p n).live = w.live := rfl
@[simp] theorem issued_path (w : Wave) (c : Ctx) (v : View) (p : Bool) (n : Nat) : (w.issued c v p n).path = w.path := rfl

theorem issued_setBank (w : Wave) (b : Bank) (c : Ctx) (v : View) (p : Bool) (n : Nat) :
    (w.setBank b).issued c v p n = (w.issued c v p n).setBank b := by
  cases w with | mk uid bslot wblk base handlers => cases handlers <;> rfl

theorem path_setBank (w : Wave) (b : Bank) : (w.setBank b).path = b.mask &&& w.live := by simp [Wave.path]

/-- An instruction whose effect leaves its wave at `w` on the same path completes: the pc moves on (R38). -/
theorem complete_next {c : Ctx} {v : View} {code : Nat} {s0 s1 : State} {w0 w : Wave}
    (h0 : s0.wave c.core c.slot = some w0) (h1 : s1.wave c.core c.slot = some w) (hl : w.level = w0.level)
    (hs : s1.sweeper.running = false)
    (hp : NoPop w ((s1.core c.core).nextValid code c.pc)) :
    complete c v code false true s0 s1 =
      (s1.setWave c.core c.slot (w.moved c v ((s1.core c.core).nextValid code c.pc))).settleChunks c.core c.slot := by
  have hset : ∀ x : Wave, NoPop x x.bank.pc → ∀ s : State,
      (s.setWave c.core c.slot x).settlePath c.core c.slot code =
        .ok ((s.setWave c.core c.slot x).setWave c.core c.slot (x.setBank { x.bank with mask := x.path })) :=
    fun x hx s => settlePath_noPop code (wave_setWave_self s _ _ x) hx
  have hn : NoPop ((w.setBank { w.bank with pc := (s1.core c.core).nextValid code c.pc }).issued c v true w.level)
      (((w.setBank { w.bank with pc := (s1.core c.core).nextValid code c.pc }).issued c v true w.level).bank.pc) := by
    simpa [NoPop, path_setBank, Wave.path] using hp
  unfold complete
  simp only [h1, h0, hs, Bool.and_false, Bool.false_eq_true, if_false, ← hl, level_setBank, ne_eq, not_true_eq_false, hset _ hn, setWave_setWave]
  congr 2
  simp [Wave.moved, issued_setBank, Wave.path]

/-! ### An instruction that nothing holds up -/

theorem ready_ctx_act {i : Instr} {s : State} {core slot : Nat} {w : Wave} : (ctxFor i s core slot w).core = core ∧
    (ctxFor i s core slot w).slot = slot ∧ (ctxFor i s core slot w).pc = w.bank.pc := ⟨rfl, rfl, rfl⟩

theorem settleTwice_nil (c : Ctx) (v : View) (w0 w1 : Wave) : settleTwice c [] v w0 w1 = w1 := by
  simp [settleTwice]

theorem dropSpilled_nil {w : Wave} (c : Ctx) (v : View) (h : w.spilled = []) : w.dropSpilled c v = w := by
  simp [Wave.dropSpilled, h]

theorem tooEarly_nil {w : Wave} (h : w.producers = []) (regs : List (Nat × Nat)) : tooEarly w.producers regs = [] := by
  simp [tooEarly, h]

theorem needsRefill_nil {c : Ctx} {w : Wave} {v : View} (h : w.spilled = []) : needsRefill c w v = none := by
  simp [needsRefill, h]

theorem errorEffect_nil {c : Ctx} {w : Wave} {v : View} (h : w.errors = []) : errorEffect c w v = (0, none) := by
  simp [errorEffect, h]

/-- With no producer outstanding no guard predicate is read too early. -/
theorem guardEarly_nil {w : Wave} (b : Block) (v : View) (h : w.producers = []) : w.guardEarly b v = w := by
  simp [Wave.guardEarly, h]

/-- Without an upset an instruction is issued as its lanes stand. -/
theorem issueVoted_nil {s : State} {core slot : Nat} {w : Wave} {b : Block} (v : View) (inst : Slot) (body : Body) (always : Bool)
    (h : (s.core core).upsets = []) :
    issueVoted v inst body always core slot b w s = issueActive v body always (ctxOf s core slot w v inst) b w s := by
  simp [issueVoted, h]

theorem kills_zero (m : Mask) : (0#32 &&& m) = 0#32 := by simp

/-- Where nothing holds an instruction up, issuing it comes to its effect. -/
theorem issueWave_ready {i : Instr} {s : State} {core slot : Nat} {w : Wave} {b : Block} (h : Ready i s core slot w b)
    (body : Body) (always : Bool) :
    issueWave i.view (encode i) body always core slot b w s =
      issueActive i.view body always (ctxFor i s core slot w) b w s := by
  simp only [issueWave, guardEarly_nil b i.view h.gaps, h.started, if_false, h.fate, h.board, Bool.false_eq_true,
    needsRefill_nil h.spilled, errorEffect_nil h.errors, issueVoted_nil _ _ _ _ h.upsets]
  simp [ctxFor]

/-- The effect of an instruction that has an active lane, where nothing holds it up. -/
theorem issueActive_ready {i : Instr} {s : State} {core slot : Nat} {w : Wave} {b : Block} (h : Ready i s core slot w b)
    (body : Body) (always : Bool) (hact : (ctxFor i s core slot w).act ≠ 0 ∨ always = true) :
    issueActive i.view body always (ctxFor i s core slot w) b w s =
      match body (ctxFor i s core slot w) w s with
      | .next s2 =>
        complete (ctxFor i s core slot w) i.view b.code false true s
          (s2.modWave core slot fun x => x.dropSpilled (ctxFor i s core slot w) i.view)
      | .jumped s2 => complete (ctxFor i s core slot w) i.view b.code true true s s2
      | .stay k s2 =>
        (s2.modWave core slot fun x =>
          { x with waiting := k, early := [], errors := [], passed := if k.holds then 0 else x.passed,
                   urgent := !k.holds && x.urgent }).enterLine core slot
      | .fail e => (s.enterLine core slot).raise (ctxFor i s core slot w) i.view (tileWindow b w i.view) e
      | .failIn e s2 => (s2.enterLine core slot).raise (ctxFor i s core slot w) i.view (tileWindow b w i.view) e := by
  have hw : { w with early := [], errors := [] } = w := by
    have := h.early
    have := h.errors
    cases w
    simp_all
  have h1 : ¬ ((ctxFor i s core slot w).act = 0 ∧ always = false) := by
    rintro ⟨h1, h2⟩
    rcases hact with h' | h'
    · exact h' h1
    · simp [h2] at h'
  unfold issueActive
  simp only [tooEarly_nil h.gaps, List.head?_nil, ite_self, List.map_nil, List.isEmpty_nil, if_true, h.formats,
    Bool.and_false, Bool.false_eq_true, if_false, Bool.and_eq_true, Bool.not_eq_true', decide_eq_true_eq, h1, h.errors, List.flatMap_nil,
    hw, Bool.and_self, settleTwice_nil]
  rfl

end Sys2Proof.Machine
end

