-- ==== Sys2Proof/Laws/Registers.lean ====
section
/-!
SUPPORT. What a register write does: one lemma per write for the lanes it sets, and that it changes nothing else.
-/

namespace Sys2Proof.Machine

/-! ### Values -/

theorem VVal.at_lanes (x : VVal) {l : Nat} (h : l < 32) : x.lanes.at l = x.lane l := by
  cases x <;> simp [VVal.lanes, VVal.lane, h]

theorem VVal.lane_norm (x : VVal) (l : Nat) : x.norm.lane l = x.lane l := by
  unfold VVal.norm
  split <;> simp [VVal.lane]

theorem lane_shaped {u : Bool} {f : Nat → Word} (hu : u = true → ∀ l, l < 32 → f l = f 0) {l : Nat} (h : l < 32) :
    (shaped u f).lane l = f l := by
  unfold shaped
  cases hc : u
  · simp [VVal.lane, h]
  · simp [VVal.lane, hu hc l h]

/-! ### A write of one vector register (R81) -/

/-- The registers of a bank after a write: the destination, register 0 of its quad, which may be expanded, and the rest. -/
theorem reg_write (b : Bank) (act live : Mask) {d : Nat} (x : VVal) (fmt n : Nat) (hd : d ≠ 1023) :
    (b.write act live d x fmt).reg n =
      if n = d then
        (if act &&& live = live then
          ⟨match x.norm with | .g y => .g (Lanes.merge act y (b.reg d).val.lanes) | y => y, fmt⟩
        else ⟨.g (Lanes.merge act x.lanes (b.reg d).val.lanes), if (b.reg d).fmt = fmt then fmt else 0⟩)
      else if n = d / 4 * 4 ∧ act &&& live ≠ live ∧ (b.reg n).val.isU = true then ⟨.g (b.reg n).val.lanes, (b.reg n).fmt⟩
      else b.reg n := by
  unfold Bank.write
  rw [if_neg hd]
  by_cases hf : act &&& live = live
  · simp only [hf, if_true, Bank.reg, Bank.setTags]
    rw [kgetD_kset]
    by_cases hn : n = d
    · cases x.norm <;> simp only [hn, if_true]
    · simp [hn]
  · simp only [hf, if_false, Bank.reg, Bank.setTags]
    rw [kgetD_kset]
    by_cases hn : n = d
    · simp [hn]
    · simp only [hn, if_false, ne_eq, not_false_eq_true, true_and]
      have hq : 4 * (d / 4) = d / 4 * 4 := Nat.mul_comm _ _
      by_cases h4 : d % 4 = 0
      · have : d / 4 * 4 = d := by omega
        simp [h4, this, hn]
      · by_cases hu : (kgetD b.v (4 * (d / 4)) VReg.zero).val.isU = true
        · by_cases hnq : n = d / 4 * 4
          · simp only [ne_eq, h4, not_false_eq_true, hq, hnq]
            simp [hf, ← hq, hu]
          · have : n ≠ 4 * (d / 4) := by omega
            simp [h4, hu, kgetD_kset, this, hnq]
        · by_cases hnq : n = d / 4 * 4
          · have hu' : (kgetD b.v (d / 4 * 4) VReg.zero).val.isU = false := by simpa [← hq] using hu
            simp [h4, hu, hnq, hu']
          · simp [h4, hu, hnq]

/-- An active lane of the destination. -/
theorem lane_write_active (b : Bank) (act live : Mask) {d : Nat} (x : VVal) (fmt : Nat) (hd : d ≠ 1023) {l : Nat}
    (hl : l < 32) (ha : act.getLsbD l = true) : ((b.write act live d x fmt).reg d).val.lane l = x.lane l := by
  rw [reg_write b act live x fmt d hd, if_pos rfl]
  split
  · have h := VVal.lane_norm x l
    rcases hx : x.norm with y | ⟨y, z⟩ | y
    · simpa [hx] using h
    · simpa [hx] using h
    · rw [hx] at h
      simp only [VVal.lane] at h ⊢
      rw [Lanes.at_merge _ _ _ hl, if_pos ha, h]
  · show (Lanes.merge act x.lanes (b.reg d).val.lanes).at l = _
    rw [Lanes.at_merge _ _ _ hl, if_pos ha, VVal.at_lanes x hl]

/-- A live lane of the destination that is not active. -/
theorem lane_write_other (b : Bank) (act live : Mask) {d : Nat} (x : VVal) (fmt : Nat) (hd : d ≠ 1023) {l : Nat}
    (hl : l < 32) (hv : live.getLsbD l = true) (ha : act.getLsbD l = false) :
    ((b.write act live d x fmt).reg d).val.lane l = (b.reg d).val.lane l := by
  rw [reg_write b act live x fmt d hd, if_pos rfl]
  split
  · rename_i h
    have := congrArg (fun m => m.getLsbD l) h
    simp [ha, hv] at this
  · show (Lanes.merge act x.lanes (b.reg d).val.lanes).at l = _
    rw [Lanes.at_merge _ _ _ hl, if_neg (by simp [ha]), VVal.at_lanes _ hl]

/-- The format of the destination (R83). -/
theorem fmt_write (b : Bank) (act live : Mask) {d : Nat} (x : VVal) (fmt : Nat) (hd : d ≠ 1023) :
    ((b.write act live d x fmt).reg d).fmt = if act &&& live = live ∨ (b.reg d).fmt = fmt then fmt else 0 := by
  rw [reg_write b act live x fmt d hd, if_pos rfl]
  by_cases h : act &&& live = live <;> simp [h]

/-- A partial write leaves its destination general (R81). -/
theorem isG_write (b : Bank) (act live : Mask) {d : Nat} (x : VVal) (fmt : Nat) (hd : d ≠ 1023) (h : act &&& live ≠ live) :
    ((b.write act live d x fmt).reg d).val.isG = true := by
  rw [reg_write b act live x fmt d hd, if_pos rfl, if_neg h]
  rfl

/-- A write clears the tags of its quad in the lanes it writes (R190). -/
theorem tag_write (b : Bank) (act live : Mask) {d : Nat} (x : VVal) (fmt : Nat) (hd : d ≠ 1023) {l : Nat}
    (ha : act.getLsbD l = true) : ((b.write act live d x fmt).tagsOf (d / 4)).getLsbD l = false := by
  unfold Bank.write
  rw [if_neg hd]
  by_cases hf : act &&& live = live
  · simp only [hf, if_true, Bank.setTags, Bank.tagsOf]
    rw [kgetD_kput, if_pos rfl]
    repeat' split
    all_goals simp [ha]
  · simp only [hf, if_false, Bank.setTags, Bank.tagsOf]
    rw [kgetD_kput, if_pos rfl]
    simp [ha]

/-- Every other register keeps its lanes and its format. -/
theorem lane_write_ne (b : Bank) (act live : Mask) {d : Nat} (x : VVal) (fmt : Nat) {n : Nat} (hn : n ≠ d) :
    (∀ l, l < 32 → ((b.write act live d x fmt).reg n).val.lane l = (b.reg n).val.lane l) ∧
      ((b.write act live d x fmt).reg n).fmt = (b.reg n).fmt := by
  by_cases hd : d = 1023
  · simp [Bank.write, hd]
  · rw [reg_write b act live x fmt n hd, if_neg hn]
    split
    · exact ⟨fun l hl => VVal.at_lanes _ hl, rfl⟩
    · exact ⟨fun _ _ => rfl, rfl⟩

/-- A write leaves the tags of every other quad. -/
theorem tagsOf_write (b : Bank) (act live : Mask) (d : Nat) (x : VVal) (fmt : Nat) {q : Nat} (hq : d / 4 ≠ q) :
    (b.write act live d x fmt).tagsOf q = b.tagsOf q := by
  unfold Bank.write
  split
  · rfl
  · by_cases hf : act &&& live = live
    · simp [hf, Bank.setTags, Bank.tagsOf, kgetD_kput, Ne.symm hq]
    · simp only [hf, Bank.setTags, Bank.tagsOf, if_false]
      rw [kgetD_kput, if_neg (Ne.symm hq)]
      split <;> rfl

theorem write_1023 (b : Bank) (act live : Mask) (x : VVal) (fmt : Nat) : b.write act live 1023 x fmt = b := by
  simp [Bank.write]

/-- A write touches vector registers and tags only. -/
theorem write_rest (b : Bank) (act live : Mask) (d : Nat) (x : VVal) (fmt : Nat) :
    b.write act live d x fmt =
      { b with v := (b.write act live d x fmt).v, vtags := (b.write act live d x fmt).vtags } := by
  cases h : b.write act live d x fmt
  have h1 := write_pc b act live d x fmt
  have h2 := write_mask b act live d x fmt
  have h3 := write_rpc b act live d x fmt
  have h4 := write_ctl b act live d x fmt
  have h5 := write_loops b act live d x fmt
  have h6 := write_p b act live d x fmt
  have h7 := write_g b act live d x fmt
  have h8 := write_gtags b act live d x fmt
  have h9 := write_q b act live d x fmt
  rw [h] at h1 h2 h3 h4 h5 h6 h7 h8 h9
  simp only at h1 h2 h3 h4 h5 h6 h7 h8 h9
  subst h1 h2 h3 h4 h5 h6 h7 h8 h9
  rfl

/-! ### OnlyVec -/

theorem OnlyVec.refl (w : Wave) (rs : List Nat) : OnlyVec w w rs :=
  ⟨(setBank_bank w).symm, fun _ _ => ⟨fun _ _ => rfl, rfl⟩, fun _ _ => rfl⟩

theorem OnlyVec.trans {w w1 w2 : Wave} {rs : List Nat} (h : OnlyVec w w1 rs) (h' : OnlyVec w1 w2 rs) : OnlyVec w w2 rs := by
  refine ⟨?_, fun n hn => ?_, fun q hq => (h'.tags q hq).trans (h.tags q hq)⟩
  · have e := h'.rest
    have e1 : w1.bank = { w.bank with v := w1.bank.v, vtags := w1.bank.vtags } := by
      have := congrArg Wave.bank h.rest
      rwa [bank_setBank] at this
    rw [e1] at e
    rw [e]
    conv_lhs => rw [h.rest]
    simp [setBank_setBank]
  · have a := h.kept n hn
    have b := h'.kept n hn
    exact ⟨fun l hl => (b.1 l hl).trans (a.1 l hl), b.2.trans a.2⟩

theorem OnlyVec.mono {w w1 : Wave} {rs rs' : List Nat} (h : OnlyVec w w1 rs) (hs : ∀ n ∈ rs, n ∈ rs') : OnlyVec w w1 rs' :=
  ⟨h.rest, fun n hn => h.kept n fun hm => hn (hs n hm), fun q hq => h.tags q fun n hn => hq n (hs n hn)⟩

theorem OnlyVec.samePath {w w1 : Wave} {rs : List Nat} (h : OnlyVec w w1 rs) : SamePath w w1 := by
  rw [h.rest]
  exact SamePath.setBank rfl rfl rfl rfl

theorem onlyVec_write (c : Ctx) (w : Wave) (d : Nat) (x : VVal) (fmt : Nat) : OnlyVec w (c.write w d x fmt) (destRegs d 1) := by
  refine ⟨?_, fun n hn => ?_, fun q hq => ?_⟩
  · simp only [Ctx.write, bank_setBank]
    rw [← write_rest]
  · simp only [Ctx.write, Wave.lane, bank_setBank]
    by_cases hd : d = 1023
    · subst hd; simp [write_1023]
    · refine lane_write_ne _ _ _ _ _ fun h => hn ?_
      simp [destRegs, hd, h]
  · simp only [Ctx.write, bank_setBank]
    by_cases hd : d = 1023
    · subst hd; simp [write_1023]
    · exact tagsOf_write _ _ _ _ _ _ (hq d (by simp [destRegs, hd]))

/-! ### Results of one or two registers -/

theorem tyRegs_eq (ty : Nat) : tyRegs ty = if wide ty then 2 else 1 := rfl

/-- The write of a result of 32 bits. -/
theorem wrote_write (c : Ctx) (w : Wave) (d ty : Nat) (x : VVal) (fmt : Nat) (f : Nat → Nat) (hw : wide ty = false)
    (hf : fmt = resultFmt ty) (hx : ∀ l, l < 32 → c.act.getLsbD l = true → x.lane l = BitVec.ofNat 32 (f l)) :
    Wrote c w (c.write w d x fmt) d ty f := by
  refine ⟨by simpa [tyRegs_eq, hw] using onlyVec_write c w d x fmt, fun hd l hl ha => ?_, fun hd l hl hv ha => ?_, fun hd => ?_,
    fun _ h => by simp [hw] at h, fun hd h => ?_, fun hd l ha => ?_⟩
  · simp only [Wave.value, hw, Bool.false_eq_true, if_false, Wave.lane, Ctx.write, bank_setBank, tyBits]
    rw [lane_write_active _ _ _ _ _ hd hl ha, hx l hl ha, BitVec.toNat_ofNat]
  · simp only [Wave.value, hw, Bool.false_eq_true, if_false, Wave.lane, Ctx.write, bank_setBank]
    rw [lane_write_other _ _ _ _ _ hd hl hv ha]
  · simp only [Ctx.write, bank_setBank, Ctx.tagged, ← hf]
    exact fmt_write _ _ _ _ _ hd
  · simp only [Ctx.write, bank_setBank]
    exact isG_write _ _ _ _ _ hd h
  · simp only [Ctx.write, bank_setBank]
    exact tag_write _ _ _ _ _ hd ha

theorem toNat_pairOf (x : Nat) : (pairOf (lowWord (BitVec.ofNat 64 x)) (highWord (BitVec.ofNat 64 x))).toNat = x % 2 ^ 64 := by
  have h : pairOf (lowWord (BitVec.ofNat 64 x)) (highWord (BitVec.ofNat 64 x)) = BitVec.ofNat 64 x := by
    apply BitVec.eq_of_getLsbD_eq
    intro i hi
    simp only [pairOf, lowWord, highWord, BitVec.getLsbD_append, BitVec.getLsbD_setWidth, BitVec.getLsbD_ushiftRight]
    by_cases h : i < 32
    · simp [h]
    · have : i - 32 < 32 := by omega
      have e : 32 + (i - 32) = i := by omega
      simp [h, this, e]
  rw [h, BitVec.toNat_ofNat]

theorem onlyVec_writePair (c : Ctx) (w : Wave) (d : Nat) (x y : VVal) (fx fy : Nat) :
    OnlyVec w (w.setBank (w.bank.writePair c.act c.live d x y fx fy)) (destRegs d 2) := by
  by_cases hd : d = 1023
  · simp only [hd, Bank.writePair, if_true, setBank_bank]
    exact OnlyVec.refl _ _
  · have h1 := onlyVec_write c w d x fx
    have h2 := onlyVec_write c (c.write w d x fx) (d + 1) y fy
    have e : c.write (c.write w d x fx) (d + 1) y fy = w.setBank (w.bank.writePair c.act c.live d x y fx fy) := by
      simp [Ctx.write, Bank.writePair, hd, setBank_setBank]
    rw [e] at h2
    refine (h1.mono ?_).trans (h2.mono ?_) <;> intro n hn <;> simp only [destRegs] at * <;> split at hn <;>
      simp_all [mem_rangeFrom] <;> omega

/-- The lanes of a pair after a write of it. -/
theorem lane_writePair (c : Ctx) (w : Wave) (d : Nat) (x y : VVal) (fx fy : Nat) (hd : d ≠ 1023) (hd' : d + 1 ≠ 1023)
    {l : Nat} (hl : l < 32) :
    let w1 := w.setBank (w.bank.writePair c.act c.live d x y fx fy)
    (c.act.getLsbD l = true → w1.lane d l = x.lane l ∧ w1.lane (d + 1) l = y.lane l) ∧
      (c.live.getLsbD l = true → c.act.getLsbD l = false →
        w1.lane d l = w.lane d l ∧ w1.lane (d + 1) l = w.lane (d + 1) l) := by
  intro w1
  have hn : d ≠ d + 1 := by omega
  have e : w1.bank = (w.bank.write c.act c.live d x fx).write c.act c.live (d + 1) y fy := by
    simp [w1, Bank.writePair, hd]
  simp only [Wave.lane, e]
  refine ⟨fun ha => ⟨?_, ?_⟩, fun hv ha => ⟨?_, ?_⟩⟩
  · rw [(lane_write_ne _ _ _ _ _ hn).1 l hl, lane_write_active _ _ _ _ _ hd hl ha]
  · rw [lane_write_active _ _ _ _ _ hd' hl ha]
  · rw [(lane_write_ne _ _ _ _ _ hn).1 l hl, lane_write_other _ _ _ _ _ hd hl hv ha]
  · rw [lane_write_other _ _ _ _ _ hd' hl hv ha, (lane_write_ne _ _ _ _ _ hn.symm).1 l hl]

/-- The write of a result of any TYPE, where a uniform result is the same in every lane. -/
theorem wrote_writeTy (c : Ctx) (w : Wave) (d : Nat) (u : Bool) (ty : Nat) (f : Nat → Nat) (hd : d + 1 ≠ 1023)
    (hu : u = true → ∀ l, l < 32 → f l = f 0) : Wrote c w (c.writeTy w d u ty f) d ty f := by
  unfold Ctx.writeTy
  split
  · rename_i hw
    unfold Ctx.write64
    refine ⟨by simpa [tyRegs_eq, hw] using onlyVec_writePair c w d _ _ _ _, fun h l hl ha => ?_, fun h l hl hv ha => ?_,
      fun h => ?_, fun h _ => ?_, fun h hp => ?_, fun h l ha => ?_⟩
    · have := (lane_writePair c w d (shaped u fun l => lowWord (BitVec.ofNat 64 (f l)))
        (shaped u fun l => highWord (BitVec.ofNat 64 (f l))) (resultFmt ty) (resultFmtHi ty) h hd hl).1 ha
      simp only [Wave.value, hw, if_true, this, tyBits]
      rw [lane_shaped (fun hu' l hl => by rw [hu hu' l hl]) hl, lane_shaped (fun hu' l hl => by rw [hu hu' l hl]) hl, toNat_pairOf]
    · have := (lane_writePair c w d (shaped u fun l => lowWord (BitVec.ofNat 64 (f l)))
        (shaped u fun l => highWord (BitVec.ofNat 64 (f l))) (resultFmt ty) (resultFmtHi ty) h hd hl).2 hv ha
      simp only [Wave.value, hw, if_true, this]
    · simp only [Bank.writePair, h, if_false, bank_setBank, Ctx.tagged]
      rw [(lane_write_ne _ _ _ _ _ (by omega : d ≠ d + 1)).2, fmt_write _ _ _ _ _ h]
    · simp only [Bank.writePair, h, if_false, bank_setBank, Ctx.tagged]
      rw [fmt_write _ _ _ _ _ hd, (lane_write_ne _ _ _ _ _ (by omega : d + 1 ≠ d)).2]
    · simp only [Bank.writePair, h, if_false, bank_setBank]
      rw [reg_write _ _ _ _ _ _ hd, if_neg (by omega)]
      have hg := isG_write w.bank c.act c.live (shaped u fun l => lowWord (BitVec.ofNat 64 (f l))) (resultFmt ty) h hp
      split
      · rfl
      · exact hg
    · simp only [Bank.writePair, h, if_false, bank_setBank]
      by_cases hq : (d + 1) / 4 = d / 4
      · rw [← hq]
        exact tag_write _ _ _ _ _ hd ha
      · rw [tagsOf_write _ _ _ _ _ _ hq]
        exact tag_write _ _ _ _ _ h ha
  · rename_i hw
    exact wrote_write c w d ty _ _ f (by simpa using hw) rfl fun l hl _ => lane_shaped (fun hu' l hl => by rw [hu hu' l hl]) hl

end Sys2Proof.Machine
end

