-- ==== Sys2Proof/Laws/Complete.lean ====
section
/-!
SUPPORT. What completing comes to: an instruction that nothing holds up, whose effect leaves its wave on its path, completes
with that effect; and what such an instruction's operands then are.
-/

namespace Sys2Proof.Machine

/-- The next address depends on the resident segments alone. -/
theorem nextValid_congr {k k' : Core} (h : k'.segs = k.segs) (code : Nat) (pc : IAddr) :
    k'.nextValid code pc = k.nextValid code pc := by
  simp [Core.nextValid, Core.segment, h]

theorem NoPop.samePath {w w' : Wave} {x : IAddr} (h : NoPop w x) (hp : SamePath w w') : NoPop w' x := by
  simpa [NoPop, hp.ctl, hp.rpc, path_of hp] using h

theorem moved_dropSpilled {w : Wave} (c : Ctx) (v : View) (h : w.spilled = []) : w.dropSpilled c v = w := by
  simp [Wave.dropSpilled, h]

/-- An instruction with something to do, whose effect leaves its wave at `w2` with nothing to pop, completes. -/
theorem ready_completes {i : Instr} {s : State} {core slot : Nat} {w : Wave} {b : Block} (h : Ready i s core slot w b)
    (body : Body) (always : Bool) (hact : (ctxFor i s core slot w).act ≠ 0 ∨ always = true) {s2 : State} {w2 : Wave}
    (hb : body (ctxFor i s core slot w) w s = .next s2) (hw : s2.wave core slot = some w2) (hl : w2.level = w.level)
    (hsp : w2.spilled = []) (hp : NoPop w2 (nextPc s2 core b w)) (hs : s2.sweeper.running = false) :
    issue i.view (encode i) body always s = .next ((s2.setWave core slot
      (w2.moved (ctxFor i s core slot w) i.view (nextPc s2 core b w))).settleChunks core slot) := by
  unfold issue
  simp only [h.turn, h.wave, h.block]
  rw [issueWave_ready h, issueActive_ready h _ _ hact, hb]
  have hm : (s2.modWave core slot fun x => x.dropSpilled (ctxFor i s core slot w) i.view) = s2.setWave core slot w2 := by
    rw [modWave_of _ _ _ _ hw, moved_dropSpilled _ _ hsp]
  have hx : ((s2.setWave core slot w2).core core).nextValid b.code w.bank.pc = nextPc s2 core b w :=
    nextValid_congr (by simp) _ _
  simp only [hm]
  refine congrArg Host.Outcome.next ?_
  refine (complete_next (c := ctxFor i s core slot w) (s1 := s2.setWave core slot w2) (w0 := w) (w := w2) h.wave
    (wave_setWave_self _ _ _ _) hl (by simpa using hs) ?_).trans ?_
  · exact (show _ = _ from hx) ▸ hp
  · rw [show ((s2.setWave core slot w2).core (ctxFor i s core slot w).core).nextValid b.code (ctxFor i s core slot w).pc
      = nextPc s2 core b w from hx]
    exact congrArg (·.settleChunks core slot) (setWave_setWave _ _ _ _ _)

/-- An instruction whose effect leaves its wave at `w2`, on its path, completes. -/
theorem issue_completes {i : Instr} {s : State} {core slot : Nat} {w : Wave} {b : Block} (h : Runs i s core slot w b)
    (body : Body) (always : Bool) {s2 : State} {w2 : Wave}
    (hb : body (ctxFor i s core slot w) w s = .next s2) (hw : s2.wave core slot = some w2) (hp : SamePath w w2)
    (hk : (s2.core core).segs = (s.core core).segs) (hs : s2.sweeper.running = false) :
    issue i.view (encode i) body always s = .next ((s2.setWave core slot
      (w2.moved (ctxFor i s core slot w) i.view (nextPc s2 core b w))).settleChunks core slot) := by
  refine ready_completes h.toReady body always (.inl h.active) hb hw hp.level (by rw [hp.spilled, h.spilled]) ?_ hs
  have : nextPc s2 core b w = nextPc s core b w := nextValid_congr hk _ _
  exact this ▸ h.straight.samePath hp

/-- An instruction whose effect leaves its wave at `w2`, to go on at the next address, leads there. -/
theorem leads_next {i : Instr} {s : State} {core slot : Nat} {w : Wave} {b : Block} (h : Ready i s core slot w b)
    (body : Body) (always : Bool) (hact : (ctxFor i s core slot w).act ≠ 0 ∨ always = true) {s2 : State} {w2 : Wave}
    (hb : body (ctxFor i s core slot w) w s = .next s2) (hw : s2.wave core slot = some w2) (hl : w2.level = w.level)
    (hsp : w2.spilled = []) (hs : s2.sweeper.running = false) {s3 : State}
    (h3 : (s2.setWave core slot ((w2.atPc (nextPc s2 core b w)).issued (ctxFor i s core slot w) i.view true w.level)).settlePath
      core slot b.code = .ok s3) :
    issue i.view (encode i) body always s = .next (s3.settleChunks core slot) := by
  unfold issue
  simp only [h.turn, h.wave, h.block]
  rw [issueWave_ready h, issueActive_ready h _ _ hact, hb]
  have hm : (s2.modWave core slot fun x => x.dropSpilled (ctxFor i s core slot w) i.view) = s2.setWave core slot w2 := by
    rw [modWave_of _ _ _ _ hw, moved_dropSpilled _ _ hsp]
  have hx : ((s2.setWave core slot w2).core core).nextValid b.code w.bank.pc = nextPc s2 core b w :=
    nextValid_congr (by simp) _ _
  simp only [hm]
  refine congrArg Host.Outcome.next ?_
  unfold complete
  simp only [ctxFor, ctxOf, wave_setWave_self, h.wave, Bool.true_and, setWave_sweeper, hs, Bool.false_eq_true, if_false, hx,
    setWave_setWave]
  simp only [Wave.atPc, ctxFor, ctxOf] at h3
  simp only [level_setBank, hl, ne_eq, not_true_eq_false, if_false, h3]

/-- An instruction that sets its wave's address, leaving it at `w2`, leads there. -/
theorem leads_jump {i : Instr} {s : State} {core slot : Nat} {w : Wave} {b : Block} (h : Ready i s core slot w b)
    (body : Body) (always : Bool) (hact : (ctxFor i s core slot w).act ≠ 0 ∨ always = true) {s2 : State} {w2 : Wave}
    (hb : body (ctxFor i s core slot w) w s = .jumped s2) (hw : s2.wave core slot = some w2) (hl : w2.level = w.level)
    (hs : s2.sweeper.running = false) {s3 : State}
    (h3 : (s2.setWave core slot (w2.issued (ctxFor i s core slot w) i.view true w.level)).settlePath core slot b.code = .ok s3) :
    issue i.view (encode i) body always s = .next (s3.settleChunks core slot) := by
  unfold issue
  simp only [h.turn, h.wave, h.block]
  rw [issueWave_ready h, issueActive_ready h _ _ hact, hb]
  refine congrArg Host.Outcome.next ?_
  unfold complete
  simp only [ctxFor, ctxOf] at h3 ⊢
  simp only [hw, h.wave, Bool.true_and, hs, Bool.false_eq_true, if_false, if_true, hl, ne_eq, not_true_eq_false, h3]

/-- An instruction of its wave alone, whose effect is `w1`, completes. -/
theorem issueLocal_completes {i : Instr} {s : State} {core slot : Nat} {w : Wave} {b : Block} (h : Runs i s core slot w b)
    (f : WaveBody) {w1 : Wave} (hf : f (ctxFor i s core slot w) w = .ok w1) (hp : SamePath w w1) :
    issueLocal i.view (encode i) f s = .next ((s.setWave core slot
      (w1.moved (ctxFor i s core slot w) i.view (nextPc s core b w))).settleChunks core slot) := by
  have hx : nextPc (s.setWave core slot w1) core b w = nextPc s core b w := nextValid_congr (by simp) _ _
  have := issue_completes h (onWave f) false (s2 := s.setWave core slot w1) (w2 := w1)
    (by simp only [onWave, hf]; rfl) (by simp) hp (by simp) (by simpa using h.sweep)
  simpa [issueLocal, hx] using this

/-- Completion of an instruction whose meaning is that of its wave alone. -/
theorem completes_local {i : Instr} {s : State} {core slot : Nat} {w : Wave} {b : Block} {f : WaveBody} {w1 : Wave}
    (he : exec i s = issueLocal i.view (encode i) f s) (h : Runs i s core slot w b)
    (hf : f (ctxFor i s core slot w) w = .ok w1) (hp : SamePath w w1) : Completes i s core slot w b w1 :=
  he.trans (issueLocal_completes h f hf hp)

/-! ### What an encoding without a defect is -/

theorem fate_none {v : View} {x : FateCtx} (h : v.fate x = none) :
    v.undefined = false ∧ v.wrongStream x.stream = false ∧ v.reserved = false ∧ v.badOperands x.stream = [] := by
  unfold View.fate at h
  by_cases h1 : v.undefined = true
  · simp [h1] at h
  by_cases h2 : v.wrongStream x.stream = true
  · simp [h1, h2] at h
  by_cases h3 : v.gradeOff x.gradeB = true
  · simp [h1, h2, h3] at h
  by_cases h4 : v.masked x.mask = true
  · simp [h1, h2, h3, h4] at h
  by_cases h5 : v.reserved = true
  · simp [h1, h2, h3, h4, h5] at h
  refine ⟨by simpa using h1, by simpa using h2, by simpa using h5, ?_⟩
  simp only [h1, h2, h3, h4, h5, if_false] at h
  cases hb : v.badOperands x.stream with
  | nil => rfl
  | cons a l => simp [hb] at h

/-- The stream of a wave's own code or of a handler. -/
def Wave.stream (w : Wave) : Stream := if w.level = 0 then .wave else .handler

theorem ready_fate {i : Instr} {s : State} {core slot : Nat} {w : Wave} {b : Block} (h : Ready i s core slot w b) :
    i.view.undefined = false ∧ i.view.wrongStream w.stream = false ∧ i.view.reserved = false ∧
      i.view.badOperands w.stream = [] := by
  have hf := h.fate
  unfold waveFate at hf
  simp only at hf
  split at hf
  · split at hf <;> cases hf
  · cases hf
  · rename_i hn
    exact fate_none hn

/-- Every operand of an instruction that nothing holds up names what its kind asks for. -/
theorem ready_operands {i : Instr} {s : State} {core slot : Nat} {w : Wave} {b : Block} (h : Ready i s core slot w b)
    (o : Operand) (ho : o ∈ i.view.operands) : o.ok (w.stream == .handler) = true := by
  have hb := (ready_fate h).2.2.2
  cases hv : i.view with
  | matrix op f => simp [hv, View.operands] at ho
  | event => simp [hv, View.operands] at ho
  | _ =>
    simp only [View.badOperands, hv, List.append_eq_nil_iff, List.map_eq_nil_iff, List.filter_eq_nil_iff,
      Bool.not_eq_true', Bool.not_eq_false] at hb
    exact hb.1.1 o (hv ▸ ho)

/-- A pair written by an instruction that nothing holds up is even and not 1022. -/
theorem vec_dst_ok {hh : Bool} {n k : Nat} {fl : Field} {r : Role} {t : Option Nat} (h : Operand.ok hh ⟨fl, .vec k, n, r, t⟩ = true)
    (hr : r ≠ .src) : n = 1023 ∨ (n % k = 0 ∧ n + k ≤ 672) := by
  simp only [Operand.ok, beq_iff_eq] at h
  split at h
  · exact .inl ‹_›
  · split at h
    · cases r <;> simp_all
    · simp only [Bool.and_eq_true, beq_iff_eq, vecNamed] at h
      refine .inr ⟨h.1, ?_⟩
      cases hh <;> simp at h <;> omega

theorem dst_not_1022 {hh : Bool} {n k : Nat} {fl : Field} {r : Role} {t : Option Nat}
    (h : Operand.ok hh ⟨fl, .vec k, n, r, t⟩ = true) (hr : r ≠ .src := by decide) : n + 1 ≠ 1023 := by
  rcases vec_dst_ok h hr with h | h <;> omega

end Sys2Proof.Machine
end

