-- ==== Sys2Proof/Laws/Vector.lean ====
section
/-!
SUPPORT. Instructions that write a vector register of one TYPE: one lemma that takes a meaning to what it leaves in each lane,
whatever the shape of the result.
-/

namespace Sys2Proof.Machine

/-! ### Uniform operands (R80) -/

theorem lane_of_isU (c : Ctx) (w : Wave) (n : Nat) (h : (c.readV w n).val.isU = true) (l : Nat) : c.lane w n l = c.lane w n 0 := by
  unfold Ctx.lane
  cases hv : (c.readV w n).val <;> simp_all [VVal.isU, VVal.lane]

theorem allU_of_uniform {c : Ctx} {w : Wave} {ops : List Operand} (hu : c.uniform w ops = true) {fl : Field} {k n : Nat}
    {r : Role} {t : Option Nat} (hm : (⟨fl, .vec k, n, r, t⟩ : Operand) ∈ ops) (hr : r ≠ .dst) : c.allU w n k = true := by
  have := List.all_eq_true.mp hu _ hm
  cases r <;> simp_all

theorem lane_of_allU {c : Ctx} {w : Wave} {n : Nat} (h : c.allU w n 1 = true) (l : Nat) : c.lane w n l = c.lane w n 0 := by
  have : n ∈ regSpan n 1 := by unfold regSpan; split <;> simp
  exact lane_of_isU c w n (List.all_eq_true.mp h _ this) l

theorem lane64_of_allU {c : Ctx} {w : Wave} {n : Nat} (h : c.allU w n 2 = true) (hn : n = 1023 ∨ n < 1016) (l : Nat) :
    c.lane64 w n l = c.lane64 w n 0 := by
  unfold Ctx.lane64
  split
  · rfl
  · have hs : regSpan n 2 = [n, n + 1] := by
      unfold regSpan
      rw [if_neg (by omega)]
      rfl
    have h2 := List.all_eq_true.mp h
    rw [hs] at h2
    rw [lane_of_isU c w n (h2 n (by simp)) l, lane_of_isU c w (n + 1) (h2 (n + 1) (by simp)) l]

/-- A vector source of two registers is named by a pair or by 1023. -/
theorem pair_src_ok {hh : Bool} {fl : Field} {n : Nat} {r : Role} {t : Option Nat}
    (h : Operand.ok hh ⟨fl, .vec 2, n, r, t⟩ = true) : n = 1023 ∨ n < 1016 := by
  simp only [Operand.ok] at h
  by_cases h1 : n = 1023
  · exact .inl h1
  · by_cases h2 : 1016 ≤ n
    · simp [h1, h2] at h
    · exact .inr (by omega)

theorem bits_of_uniform {c : Ctx} {w : Wave} {ops : List Operand} (hu : c.uniform w ops = true) {hh : Bool}
    (hok : ∀ o ∈ ops, o.ok hh = true) {fl : Field} {n ty : Nat} {r : Role} {t : Option Nat}
    (hm : (⟨fl, .vec (tyRegs ty), n, r, t⟩ : Operand) ∈ ops) (hr : r ≠ .dst) (l : Nat) : c.bits w ty n l = c.bits w ty n 0 := by
  have ha := allU_of_uniform hu hm hr
  have ho := hok _ hm
  unfold Ctx.bits
  by_cases hw : wide ty = true
  · simp only [hw, if_true, tyRegs] at ha ho ⊢
    rw [lane64_of_allU ha (pair_src_ok ho) l]
  · simp only [hw, Bool.false_eq_true, if_false, tyRegs] at ha ⊢
    rw [lane_of_allU ha l]

theorem operands_vector {x : VArgs} (hg : x.gw = false) (hm : x.op ≠ .movw) : x.operands = x.vectorOperands := by
  unfold VArgs.operands
  rw [hg, if_neg (by simpa using hm)]
  rfl

section
variable {x : VArgs} {c : Ctx} {w : Wave} {hh : Bool} (hok : ∀ o ∈ x.vectorOperands, o.ok hh = true)
  (hu : c.uniform w x.vectorOperands = true) (l : Nat)
include hok hu

/-- What a uniform instruction reads of operand A as its TYPE. -/
theorem uniformA (t : Option Nat) (hm : (⟨.a, .vec (tyRegs x.ty), x.a, .src, t⟩ : Operand) ∈ x.vectorOperands) :
    c.bits w x.ty x.a l = c.bits w x.ty x.a 0 := bits_of_uniform hu hok hm (by decide) l

/-- What it reads of operand C as its TYPE. -/
theorem uniformC (t : Option Nat) (hm : (⟨.c, .vec (tyRegs x.ty), x.c, .src, t⟩ : Operand) ∈ x.vectorOperands) :
    c.bits w x.ty x.c l = c.bits w x.ty x.c 0 := bits_of_uniform hu hok hm (by decide) l

/-- What it reads of operand B as its TYPE. -/
theorem uniformB (t : Option Nat) (hm : ∀ o ∈ x.ob (.vec (tyRegs x.ty)) t, o ∈ x.vectorOperands) :
    c.bitsB w x l = c.bitsB w x 0 := by
  unfold Ctx.bitsB
  cases hi : x.imm with
  | some i => rfl
  | none => exact bits_of_uniform hu hok (hm ⟨.b, .vec (tyRegs x.ty), x.b, .src, t⟩ (by simp [VArgs.ob, hi])) (by decide) l

omit hok

/-- What it reads of a single register. -/
theorem uniformOne {fl : Field} {n : Nat} (t : Option Nat) (hm : (⟨fl, .vec 1, n, .src, t⟩ : Operand) ∈ x.vectorOperands) :
    c.lane w n l = c.lane w n 0 := lane_of_allU (allU_of_uniform hu hm (by decide)) l

/-- What it reads of operand B as a count. -/
theorem uniformCount (t : Option Nat) (hm : ∀ o ∈ x.ob (.vec 1) t, o ∈ x.vectorOperands) :
    c.countB w x l = c.countB w x 0 := by
  unfold Ctx.countB
  cases hi : x.imm with
  | some i => rfl
  | none =>
    have := uniformOne hu l (fl := .b) (n := x.b) t (hm ⟨.b, .vec 1, x.b, .src, t⟩ (by simp [VArgs.ob, hi]))
    simp [this]

end

/-! ### One result of one TYPE -/

/-- An instruction whose effect is one write of a TYPE where `P` holds, with more done to its wave after it. -/
theorem writesVecIf_of {i : Instr} {x : VArgs} {body : WaveBody} {P : Ctx → Wave → Prop} {d ty : Nat} {u : Ctx → Wave → Bool}
    {g f : Ctx → Wave → Nat → Nat} {post : Ctx → Wave → Wave → Wave} (hv : i.view = .alu x)
    (he : ∀ s, exec i s = issueLocal i.view (encode i) body s)
    (hb : ∀ c w, P c w → body c w = .ok (post c w (c.writeTy w d (u c w) ty (g c w))))
    (hp : ∀ c w w1, SamePath w1 (post c w w1))
    (hd : ∃ fl k r t, (⟨fl, .vec k, d, r, t⟩ : Operand) ∈ x.operands ∧ r ≠ .src)
    (hu : ∀ c w hh, (∀ o ∈ x.operands, o.ok hh = true) → (View.alu x).undefined = false → w.early = [] → u c w = true →
      ∀ l, l < 32 → g c w l = g c w 0)
    (hf : ∀ c w hh, (∀ o ∈ x.operands, o.ok hh = true) → ∀ l, l < 32 → c.act.getLsbD l = true → g c w l = f c w l) :
    WritesVecIf i P d ty f post := by
  intro s core slot w b h hP
  have hok : ∀ o ∈ x.operands, o.ok (w.stream == .handler) = true :=
    fun o hm => ready_operands h.toReady o (by rw [hv]; exact hm)
  have hdef := (ready_fate h.toReady).1
  rw [hv] at hdef
  obtain ⟨fl, k, r, t, hm, hr⟩ := hd
  have hd' : d + 1 ≠ 1023 := dst_not_1022 (hok _ hm) hr
  have hw := wrote_writeTy (ctxFor i s core slot w) w d (u (ctxFor i s core slot w) w) ty (g (ctxFor i s core slot w) w) hd'
    fun hu' l hl => hu _ _ _ hok hdef h.early hu' l hl
  refine ⟨_, completes_local (he s) h (hb _ _ hP) ((hw.only.samePath).trans (hp _ _ _)), hw.only, fun hn l hl ha => ?_, hw.others,
    hw.format, hw.formatHi, hw.general, hw.cleared⟩
  rw [hw.active hn l hl ha, hf _ _ _ hok l hl ha]

end Sys2Proof.Machine
end

