-- ==== Sys2Proof/Laws/Results.lean ====
section
/-!
SUPPORT. The other results an instruction of a wave can have: predicates, group-wide registers and predicates, quads with their
tags, and groups of registers.
-/

namespace Sys2Proof.Machine

/-! ### Predicates (R53) -/

theorem pred_writePred (b : Bank) (act : Mask) (d : Nat) (m : Mask) (n : Nat) (hd : d ≠ 1023) :
    (b.writePred act d m).pred n = if n = d then (m &&& act) ||| (b.pred d &&& ~~~act) else b.pred n := by
  unfold Bank.writePred Bank.pred
  rw [if_neg hd]
  by_cases hn : n = d
  · subst hn
    rw [if_neg hd, if_pos rfl]
    exact (kgetD_kput _ _ _ _ _).trans (if_pos rfl)
  · rw [if_neg hn]
    split
    · rfl
    · exact (kgetD_kput _ _ _ _ _).trans (if_neg hn)

theorem onlyPred_writeP (c : Ctx) (w : Wave) (d : Nat) (m : Mask) : OnlyPred w (c.writeP w d m) (destRegs d 1) := by
  unfold Ctx.writeP
  by_cases hd : d = 1023
  · subst hd
    simp only [Bank.writePred, if_true, setBank_bank]
    exact ⟨(setBank_bank w).symm, fun _ _ => rfl⟩
  · refine ⟨?_, fun n hn => ?_⟩
    · simp [Bank.writePred, hd]
    · rw [bank_setBank, pred_writePred _ _ _ _ _ hd, if_neg]
      rintro rfl
      exact hn (by simp [destRegs, hd])

theorem OnlyPred.samePath {w w1 : Wave} {rs : List Nat} (h : OnlyPred w w1 rs) : SamePath w w1 := by
  rw [h.rest]
  exact SamePath.setBank rfl rfl rfl rfl

/-- An instruction whose effect is one predicate. -/
theorem writesPred_of {i : Instr} {body : WaveBody} {d : Nat} {m : Ctx → Wave → Mask} {f : Ctx → Wave → Nat → Bool}
    (he : ∀ s, exec i s = issueLocal i.view (encode i) body s) (hb : ∀ c w, body c w = .ok (c.writeP w d (m c w)))
    (hf : ∀ c w l, l < 32 → c.act.getLsbD l = true → (m c w).getLsbD l = f c w l) : WritesPred i d f := by
  intro s core slot w b h
  have ho := onlyPred_writeP (ctxFor i s core slot w) w d (m (ctxFor i s core slot w) w)
  refine ⟨_, completes_local (he s) h (hb _ _) ho.samePath, ho, fun hd l hl => ?_⟩
  simp only [Ctx.writeP, bank_setBank]
  rw [pred_writePred _ _ _ _ _ hd, if_pos rfl]
  simp only [BitVec.getLsbD_or, BitVec.getLsbD_and, BitVec.getLsbD_not, hl, decide_true, Bool.true_and]
  cases ha : (ctxFor i s core slot w).act.getLsbD l
  · simp
  · simp [hf _ _ _ hl ha]

/-! ### Group-wide registers and predicates (R129, R190) -/

theorem wroteGrp_writeG (c : Ctx) (w : Wave) (d : Nat) (x : Dword) : WroteGrp w (c.writeG w d x) d x := by
  unfold Ctx.writeG
  refine ⟨by simp [Bank.writeGrp], ?_, fun n hn => ?_, fun n => ?_⟩
  · simp only [bank_setBank, Bank.grp, Bank.writeGrp]
    exact (kgetD_kput _ _ _ _ _).trans (if_pos rfl)
  · simp only [bank_setBank, Bank.grp, Bank.writeGrp]
    exact (kgetD_kput _ _ _ _ _).trans (if_neg hn)
  · simp [bank_setBank, Bank.writeGrp, mem_ndel]

theorem WroteGrp.samePath {w w1 : Wave} {d : Nat} {x : Dword} (h : WroteGrp w w1 d x) : SamePath w w1 := by
  rw [h.rest]
  exact SamePath.setBank rfl rfl rfl rfl

/-- An instruction whose effect is one group-wide register. -/
theorem writesGrpAnd_of {i : Instr} {body : WaveBody} {d : Nat} {f : Ctx → Wave → Dword} {post : Ctx → Wave → Wave → Wave}
    (he : ∀ s, exec i s = issueLocal i.view (encode i) body s) (hb : ∀ c w, body c w = .ok (post c w (c.writeG w d (f c w))))
    (hp : ∀ c w w1, SamePath w1 (post c w w1)) : WritesGrpAnd i d f post := by
  intro s core slot w b h
  have ho := wroteGrp_writeG (ctxFor i s core slot w) w d (f (ctxFor i s core slot w) w)
  exact ⟨_, completes_local (he s) h (hb _ _) (ho.samePath.trans (hp _ _ _)), ho⟩

/-- An instruction whose effect is one group-wide predicate. -/
theorem writesQ_of {i : Instr} {body : WaveBody} {d : Nat} {f : Ctx → Wave → Bool}
    (he : ∀ s, exec i s = issueLocal i.view (encode i) body s) (hb : ∀ c w, body c w = .ok (c.writeQ w d (f c w))) :
    WritesQ i d f := by
  intro s core slot w b h
  refine ⟨_, completes_local (he s) h (hb _ _) ?_, ?_, ?_, fun n hn => ?_⟩
  · exact SamePath.setBank rfl rfl rfl rfl
  · simp [Ctx.writeQ, Bank.writeQ]
  · simp only [Ctx.writeQ, bank_setBank, Bank.qp, Bank.writeQ]
    cases f (ctxFor i s core slot w) w <;> simp
  · simp only [Ctx.writeQ, bank_setBank, Bank.qp, Bank.writeQ]
    cases f (ctxFor i s core slot w) w <;> simp [hn]

/-! ### Quads with their tags (R190) -/

theorem tagsOf_setTags (b : Bank) (q q' : Nat) (m : Mask) : (b.setTags q m).tagsOf q' = if q' = q then m else b.tagsOf q' :=
  kgetD_kput _ _ _ _ _

theorem reg_setTags (b : Bank) (q n : Nat) (m : Mask) : (b.setTags q m).reg n = b.reg n := rfl

theorem onlyVec_setTags (w : Wave) (q : Nat) (m : Mask) {rs : List Nat} (h : ∃ n ∈ rs, n / 4 = q) :
    OnlyVec w (w.setBank (w.bank.setTags q m)) rs := by
  refine ⟨by simp [Bank.setTags], fun n _ => ?_, fun q' hq => ?_⟩
  · simp [Wave.lane, bank_setBank, reg_setTags]
  · rw [bank_setBank, tagsOf_setTags, if_neg]
    rintro rfl
    obtain ⟨n, hn, rfl⟩ := h
    exact hq n hn rfl

/-- The four writes of a quad, before its tags are set. -/
def Bank.fourWrites (b : Bank) (act live : Mask) (d : Nat) (x0 x1 x2 x3 : VVal) : Bank :=
  (((b.write act live d x0 13).write act live (d + 1) x1 13).write act live (d + 2) x2 13).write act live (d + 3) x3 13

/-- The tags of a quad after a write of tags `tags` by the lanes of `act` to the bank of its four writes (R82, R190). -/
def Bank.quadTags (b1 : Bank) (act : Mask) (d : Nat) (tags : Mask) : Mask :=
  let t := (b1.tagsOf (d / 4) &&& ~~~act) ||| (tags &&& act)
  if (b1.reg d).val.isU then (if t &&& act = 0 then 0 else Mask.all) else t

theorem writeQuad_eq (b : Bank) (act live : Mask) (d : Nat) (x0 x1 x2 x3 : VVal) (tags : Mask) (hd : d ≠ 1023) :
    b.writeQuad act live d x0 x1 x2 x3 tags = (b.fourWrites act live d x0 x1 x2 x3).setTags (d / 4)
      ((b.fourWrites act live d x0 x1 x2 x3).quadTags act d tags) := by
  unfold Bank.writeQuad
  rw [if_neg hd]
  rfl

theorem onlyVec_fourWrites (c : Ctx) (w : Wave) (d : Nat) (x0 x1 x2 x3 : VVal) (hd : d + 3 < 1023) :
    OnlyVec w (w.setBank (w.bank.fourWrites c.act c.live d x0 x1 x2 x3)) (rangeFrom d 4) := by
  have h0 := onlyVec_write c w d x0 13
  have h1 := onlyVec_write c (c.write w d x0 13) (d + 1) x1 13
  have h2 := onlyVec_write c (c.write (c.write w d x0 13) (d + 1) x1 13) (d + 2) x2 13
  have h3 := onlyVec_write c (c.write (c.write (c.write w d x0 13) (d + 1) x1 13) (d + 2) x2 13) (d + 3) x3 13
  have e : c.write (c.write (c.write (c.write w d x0 13) (d + 1) x1 13) (d + 2) x2 13) (d + 3) x3 13 =
      w.setBank (w.bank.fourWrites c.act c.live d x0 x1 x2 x3) := by
    simp [Ctx.write, setBank_setBank, Bank.fourWrites]
  rw [e] at h3
  have mono : ∀ k, k < 4 → ∀ n ∈ destRegs (d + k) 1, n ∈ rangeFrom d 4 := by
    intro k hk n hn
    simp only [destRegs, show d + k ≠ 1023 by omega, if_false, mem_rangeFrom] at hn ⊢
    omega
  exact (((h0.mono (mono 0 (by omega))).trans (h1.mono (mono 1 (by omega)))).trans (h2.mono (mono 2 (by omega)))).trans
    (h3.mono (mono 3 (by omega)))

section
variable (b : Bank) (act live : Mask) {d : Nat} (x0 x1 x2 x3 : VVal) (hd : d + 3 < 1023)
include hd

theorem fourWrites_active {l : Nat} (hl : l < 32) (ha : act.getLsbD l = true) :
    ((b.fourWrites act live d x0 x1 x2 x3).reg d).val.lane l = x0.lane l ∧
      ((b.fourWrites act live d x0 x1 x2 x3).reg (d + 1)).val.lane l = x1.lane l ∧
      ((b.fourWrites act live d x0 x1 x2 x3).reg (d + 2)).val.lane l = x2.lane l ∧
      ((b.fourWrites act live d x0 x1 x2 x3).reg (d + 3)).val.lane l = x3.lane l := by
  unfold Bank.fourWrites
  refine ⟨?_, ?_, ?_, ?_⟩
  · rw [(lane_write_ne _ _ _ _ _ (by omega : d ≠ d + 3)).1 l hl, (lane_write_ne _ _ _ _ _ (by omega : d ≠ d + 2)).1 l hl,
      (lane_write_ne _ _ _ _ _ (by omega : d ≠ d + 1)).1 l hl, lane_write_active _ _ _ _ _ (by omega) hl ha]
  · rw [(lane_write_ne _ _ _ _ _ (by omega : d + 1 ≠ d + 3)).1 l hl, (lane_write_ne _ _ _ _ _ (by omega : d + 1 ≠ d + 2)).1 l hl,
      lane_write_active _ _ _ _ _ (by omega) hl ha]
  · rw [(lane_write_ne _ _ _ _ _ (by omega : d + 2 ≠ d + 3)).1 l hl, lane_write_active _ _ _ _ _ (by omega) hl ha]
  · rw [lane_write_active _ _ _ _ _ (by omega) hl ha]

theorem fourWrites_other {l : Nat} (hl : l < 32) (hv : live.getLsbD l = true) (ha : act.getLsbD l = false) (n : Nat) :
    ((b.fourWrites act live d x0 x1 x2 x3).reg n).val.lane l = (b.reg n).val.lane l := by
  have step : ∀ (b : Bank) (j : Nat) (x : VVal), j ≠ 1023 → ((b.write act live j x 13).reg n).val.lane l = (b.reg n).val.lane l := by
    intro b j x hj
    by_cases hn : n = j
    · subst hn; exact lane_write_other _ _ _ _ _ hj hl hv ha
    · exact (lane_write_ne _ _ _ _ _ hn).1 l hl
  unfold Bank.fourWrites
  rw [step _ _ _ (by omega), step _ _ _ (by omega), step _ _ _ (by omega), step _ _ _ (by omega)]

/-- The quad's first register is uniform only after a full write of a uniform value. -/
theorem fourWrites_isU (h : ((b.fourWrites act live d x0 x1 x2 x3).reg d).val.isU = true) :
    act &&& live = live ∧ x0.norm.isU = true := by
  unfold Bank.fourWrites at h
  by_cases hf : act &&& live = live
  · refine ⟨hf, ?_⟩
    rw [reg_write _ _ _ _ _ _ (by omega), if_neg (by omega), if_neg (by simp [hf]), reg_write _ _ _ _ _ _ (by omega),
      if_neg (by omega), if_neg (by simp [hf]), reg_write _ _ _ _ _ _ (by omega), if_neg (by omega), if_neg (by simp [hf]),
      reg_write _ _ _ _ _ _ (by omega), if_pos rfl, if_pos hf] at h
    revert h
    cases x0.norm <;> simp [VVal.isU]
  · exfalso
    have keep : ∀ (b : Bank) (j : Nat) (y : VVal), d ≠ j → j ≠ 1023 → (b.reg d).val.isG = true →
        ((b.write act live j y 13).reg d).val.isG = true := by
      intro b j y hj hne hb
      rw [reg_write _ _ _ _ _ _ hne, if_neg hj]
      split
      · rfl
      · exact hb
    have h3 := keep _ (d + 3) x3 (by omega) (by omega) (keep _ (d + 2) x2 (by omega) (by omega)
      (keep _ (d + 1) x1 (by omega) (by omega) (isG_write b act live x0 13 (by omega) hf)))
    revert h h3
    generalize (Bank.reg _ d).val = v
    cases v <;> simp [VVal.isU, VVal.isG]

end

/-- The tags four partial writes leave in a lane they do not write. -/
theorem tag_write_other (b : Bank) (act live : Mask) (d : Nat) (x : VVal) (fmt q : Nat) {l : Nat} (hv : live.getLsbD l = true)
    (ha : act.getLsbD l = false) : ((b.write act live d x fmt).tagsOf q).getLsbD l = (b.tagsOf q).getLsbD l := by
  unfold Bank.write
  split
  · rfl
  · have hf : ¬ act &&& live = live := by
      intro h
      have := congrArg (fun m => m.getLsbD l) h
      simp [ha, hv] at this
    simp only [hf, if_false, Bank.setTags, Bank.tagsOf]
    rw [kgetD_kput]
    split
    · rename_i hq
      subst hq
      have : l < 32 := by
        by_contra hl
        simp [BitVec.getLsbD_of_ge live l (by omega)] at hv
      simp only [BitVec.getLsbD_and, BitVec.getLsbD_not, ha, this, decide_true, Bool.not_false, Bool.and_self, Bool.and_true]
    · split <;> rfl

theorem Mask.lowest_mem {m : Mask} (h : m ≠ 0) : ∃ l, m.lowest = some l ∧ l < 32 ∧ m.getLsbD l = true := by
  have : m.lanes ≠ [] := by
    intro hn
    apply h
    apply BitVec.eq_of_getLsbD_eq
    intro i hi
    have : i ∉ m.lanes := by simp [hn]
    rw [Mask.mem_lanes] at this
    have h2 : ¬ m.getLsbD i = true := fun hc => this ⟨hi, hc⟩
    simpa using h2
  obtain ⟨l, ls, hl⟩ := List.exists_cons_of_ne_nil this
  refine ⟨l, by simp [Mask.lowest, hl], ?_⟩
  exact (Mask.mem_lanes m l).mp (by simp [hl])

theorem isU_shaped {u : Bool} {f : Nat → Word} (h : (shaped u f).norm.isU = true) : u = true := by
  cases u
  · simp [shaped, VVal.norm, VVal.isU] at h
  · rfl

theorem quad_of_words (x : BitVec 128) :
    (x >>> (32 * 3)).setWidth 32 ++ (x >>> (32 * 2)).setWidth 32 ++ (x >>> (32 * 1)).setWidth 32 ++
      (x >>> (32 * 0)).setWidth 32 = x := by
  apply BitVec.eq_of_getLsbD_eq
  intro i hi
  simp only [BitVec.getLsbD_append, BitVec.getLsbD_setWidth, BitVec.getLsbD_ushiftRight]
  by_cases h1 : i < 32
  · simp [h1]
  · by_cases h2 : i - 32 < 32
    · simp [h1, h2, show 32 + (i - 32) = i by omega]
    · by_cases h3 : i - 32 - 32 < 32
      · simp [h1, h2, h3, show 64 + (i - 32 - 32) = i by omega]
      · simp [h1, h2, h3, show 96 + (i - 32 - 32 - 32) = i by omega, show i - 32 - 32 - 32 < 32 by omega]

/-- A write of capabilities to a quad: the lanes it writes and those it does not. -/
theorem caps_writeQuad (c : Ctx) (w : Wave) (d : Nat) (u : Bool) (x : Nat → Cap) (hd : d + 3 < 1023) (hact : c.act ≠ 0)
    (hu : u = true → ∀ l, l < 32 → x l = x 0) :
    OnlyVec w (c.writeQuad w d u x) (rangeFrom d 4) ∧ ∀ l, l < 32 → c.live.getLsbD l = true →
      (c.writeQuad w d u x).cap d l = if c.act.getLsbD l then x l else w.cap d l := by
  have hov := onlyVec_fourWrites c w d (shaped u fun l => ((x l).bits >>> (32 * 0)).setWidth 32)
    (shaped u fun l => ((x l).bits >>> (32 * 1)).setWidth 32) (shaped u fun l => ((x l).bits >>> (32 * 2)).setWidth 32)
    (shaped u fun l => ((x l).bits >>> (32 * 3)).setWidth 32) hd
  obtain ⟨lo, hlo, hlo32, hloa⟩ := Mask.lowest_mem hact
  have hlow : c.lowest = lo := by simp [Ctx.lowest, hlo]
  have hlane : ∀ k l, l < 32 → (shaped u fun l => ((x l).bits >>> (32 * k)).setWidth 32).lane l =
      ((x l).bits >>> (32 * k)).setWidth 32 := fun k l hl => lane_shaped (fun hu' l hl => by rw [hu hu' l hl]) hl
  have htag : ∀ l, l < 32 → (if u = true then if (x c.lowest).tag = true then Mask.all else 0
      else Mask.of fun l => (x l).tag).getLsbD l = (x l).tag := by
    intro l hl
    cases hu' : u
    · simpa using Mask.getLsbD_of (fun l => (x l).tag) hl
    · rw [hlow, hu hu' l hl, hu hu' lo hlo32]
      cases h0 : (x 0).tag
      · simp
      · rw [if_pos rfl, if_pos rfl]
        exact BitVec.getLsbD_allOnes.trans (by simp [hl])
  unfold Ctx.writeQuad
  simp only [writeQuad_eq _ _ _ _ _ _ _ _ _ (show d ≠ 1023 by omega)]
  have hm : ∀ m, OnlyVec w (w.setBank ((w.bank.fourWrites c.act c.live d (shaped u fun l => ((x l).bits >>> (32 * 0)).setWidth 32)
      (shaped u fun l => ((x l).bits >>> (32 * 1)).setWidth 32) (shaped u fun l => ((x l).bits >>> (32 * 2)).setWidth 32)
      (shaped u fun l => ((x l).bits >>> (32 * 3)).setWidth 32)).setTags (d / 4) m)) (rangeFrom d 4) := fun m =>
    hov.trans (by simpa [setBank_setBank] using onlyVec_setTags (w.setBank _) (d / 4) m (rs := rangeFrom d 4) ⟨d, by simp, rfl⟩)
  refine ⟨hm _, fun l hl hv => ?_⟩
  have act1 := @fourWrites_active w.bank c.act c.live d (shaped u fun l => ((x l).bits >>> (32 * 0)).setWidth 32)
    (shaped u fun l => ((x l).bits >>> (32 * 1)).setWidth 32) (shaped u fun l => ((x l).bits >>> (32 * 2)).setWidth 32)
    (shaped u fun l => ((x l).bits >>> (32 * 3)).setWidth 32) hd l hl
  have oth1 := @fourWrites_other w.bank c.act c.live d (shaped u fun l => ((x l).bits >>> (32 * 0)).setWidth 32)
    (shaped u fun l => ((x l).bits >>> (32 * 1)).setWidth 32) (shaped u fun l => ((x l).bits >>> (32 * 2)).setWidth 32)
    (shaped u fun l => ((x l).bits >>> (32 * 3)).setWidth 32) hd l hl hv
  have tag1 : c.act.getLsbD l = false → ((w.bank.fourWrites c.act c.live d (shaped u fun l => ((x l).bits >>> (32 * 0)).setWidth 32)
      (shaped u fun l => ((x l).bits >>> (32 * 1)).setWidth 32) (shaped u fun l => ((x l).bits >>> (32 * 2)).setWidth 32)
      (shaped u fun l => ((x l).bits >>> (32 * 3)).setWidth 32)).tagsOf (d / 4)).getLsbD l = (w.bank.tagsOf (d / 4)).getLsbD l := by
    intro ha
    unfold Bank.fourWrites
    rw [tag_write_other _ _ _ _ _ _ _ hv ha, tag_write_other _ _ _ _ _ _ _ hv ha, tag_write_other _ _ _ _ _ _ _ hv ha,
      tag_write_other _ _ _ _ _ _ _ hv ha]
  have isU1 := @fourWrites_isU w.bank c.act c.live d (shaped u fun l => ((x l).bits >>> (32 * 0)).setWidth 32)
    (shaped u fun l => ((x l).bits >>> (32 * 1)).setWidth 32) (shaped u fun l => ((x l).bits >>> (32 * 2)).setWidth 32)
    (shaped u fun l => ((x l).bits >>> (32 * 3)).setWidth 32) hd
  simp only [Wave.cap, Wave.lane, bank_setBank, reg_setTags, tagsOf_setTags, if_true]
  revert act1 oth1 tag1 isU1
  generalize w.bank.fourWrites c.act c.live d (shaped u fun l => ((x l).bits >>> (32 * 0)).setWidth 32)
      (shaped u fun l => ((x l).bits >>> (32 * 1)).setWidth 32) (shaped u fun l => ((x l).bits >>> (32 * 2)).setWidth 32)
      (shaped u fun l => ((x l).bits >>> (32 * 3)).setWidth 32) = b1
  intro act1 oth1 tag1 isU1
  cases ha : c.act.getLsbD l
  · have hnu : ¬ (b1.reg d).val.isU = true := by
      intro h
      have := congrArg (fun m => m.getLsbD l) (isU1 h).1
      simp [ha, hv] at this
    rw [oth1 ha, oth1 ha, oth1 ha, oth1 ha]
    simp only [Bool.false_eq_true, if_false]
    congr 1
    rw [← tag1 ha]
    simp only [Bank.quadTags, hnu, if_false, Bool.false_eq_true, BitVec.getLsbD_or, BitVec.getLsbD_and, BitVec.getLsbD_not, ha,
      hl, decide_true, Bool.not_false, Bool.and_true, Bool.and_false, Bool.or_false]
  · obtain ⟨h0, h1, h2, h3⟩ := act1 ha
    rw [h0, h1, h2, h3, hlane 0 l hl, hlane 1 l hl, hlane 2 l hl, hlane 3 l hl, quad_of_words]
    simp only [if_true]
    congr 1
    revert htag
    generalize (if u = true then if (x c.lowest).tag = true then Mask.all else 0 else Mask.of fun l => (x l).tag) = m
    intro htag'
    have ht := htag' l hl
    simp only [Bank.quadTags]
    split
    · rename_i hU
      have huu := isU_shaped (isU1 hU).2
      have hz : ((b1.tagsOf (d / 4) &&& ~~~c.act ||| m &&& c.act) &&& c.act = 0) ↔ (x l).tag = false := by
        constructor
        · intro h0
          have := congrArg (fun y => y.getLsbD l) h0
          simpa [ha, ht, hl, -BitVec.getLsbD_eq_getElem] using this
        · intro h0
          apply BitVec.eq_of_getLsbD_eq
          intro k hk
          have hxk : (x k).tag = false := by rw [hu huu k hk, ← hu huu l hl]; exact h0
          simp only [BitVec.getLsbD_or, BitVec.getLsbD_and, BitVec.getLsbD_not, htag' k hk, hxk]
          cases c.act.getLsbD k <;> simp
      by_cases ht0 : (x l).tag = true
      · rw [if_neg (fun h => by simp [hz.mp h] at ht0), ht0]
        exact (BitVec.getLsbD_allOnes).trans (by simp [hl])
      · rw [if_pos (hz.mpr (by simpa using ht0))]
        simp at ht0
        simp [ht0]
    · simp only [BitVec.getLsbD_or, BitVec.getLsbD_and, BitVec.getLsbD_not, ha, ht, Bool.and_true, Bool.not_true, Bool.and_false,
        Bool.false_or]

/-- A vector source of four registers is named by a quad or by 1023. -/
theorem quad_src_ok {hh : Bool} {fl : Field} {n : Nat} {r : Role} {t : Option Nat}
    (h : Operand.ok hh ⟨fl, .vec 4, n, r, t⟩ = true) : n = 1023 ∨ (n < 1016 ∧ n % 4 = 0) := by
  simp only [Operand.ok] at h
  by_cases h1 : n = 1023
  · exact .inl h1
  · by_cases h2 : 1016 ≤ n
    · simp [h1, h2] at h
    · simp only [beq_iff_eq, h1, if_false, h2, Bool.and_eq_true] at h
      exact .inr ⟨by omega, h.1⟩

/-- The capability of a uniform quad is the same in every lane (R82). -/
theorem quadCap_of_allU {c : Ctx} {w : Wave} {n : Nat} (h : c.allU w n 4 = true) (ht : w.bank.OneTag)
    (hn : n = 1023 ∨ (n < 1016 ∧ n % 4 = 0)) {l : Nat} (hl : l < 32) : c.quadCap w n l = c.quadCap w n 0 := by
  unfold Ctx.quadCap
  split
  · rfl
  · rename_i hne
    have hn' : n < 1016 ∧ n % 4 = 0 := hn.resolve_left hne
    have hs : regSpan n 4 = [n, n + 1, n + 2, n + 3] := by
      unfold regSpan
      rw [if_neg (by omega)]
      rfl
    have h2 := List.all_eq_true.mp h
    rw [hs] at h2
    have hl4 : ∀ k ∈ [n, n + 1, n + 2, n + 3], c.lane w k l = c.lane w k 0 := fun k hk => lane_of_isU c w k (h2 k hk) l
    have hu : (w.bank.reg (4 * (n / 4))).val.isU = true := by
      have h0 := h2 n (by simp)
      rw [show 4 * (n / 4) = n by omega]
      unfold Ctx.readV Wave.readIn at h0
      split at h0
      · simp [VVal.isU] at h0
      · rwa [if_pos hn'.1] at h0
    have htag : (w.bank.tagsOf (n / 4)).getLsbD l = (w.bank.tagsOf (n / 4)).getLsbD 0 := by
      rcases ht _ hu with h0 | h0 <;> rw [h0]
      · simp
      · unfold Mask.all
        rw [BitVec.getLsbD_allOnes, BitVec.getLsbD_allOnes]
        simp [hl]
    have hq : c.quad w n l = c.quad w n 0 := by
      unfold Ctx.quad
      rw [hl4 n (by simp), hl4 (n + 1) (by simp), hl4 (n + 2) (by simp), hl4 (n + 3) (by simp)]
    rw [htag, hq]

/-- An instruction whose effect is one quad of capabilities. -/
theorem writesCaps_of {i : Instr} {x : VArgs} {body : WaveBody} {d : Nat} {u : Ctx → Wave → Bool} {f : Ctx → Wave → Nat → Cap}
    (hv : i.view = .alu x) (he : ∀ s, exec i s = issueLocal i.view (encode i) body s)
    (hb : ∀ c w, body c w = .ok (c.writeQuad w d (u c w) (f c w)))
    (hd : ∃ fl r t, (⟨fl, .vec 4, d, r, t⟩ : Operand) ∈ x.operands ∧ r ≠ .src)
    (hu : ∀ c w hh, (∀ o ∈ x.operands, o.ok hh = true) → w.bank.OneTag → u c w = true → ∀ l, l < 32 → f c w l = f c w 0) :
    WritesCaps i d f := by
  intro s core slot w b h ht
  have hok : ∀ o ∈ x.operands, o.ok (w.stream == .handler) = true :=
    fun o hm => ready_operands h.toReady o (by rw [hv]; exact hm)
  obtain ⟨fl, r, t, hm, hr⟩ := hd
  rcases vec_dst_ok (hok _ hm) hr with hd | hd
  · refine ⟨w, ?_, OnlyVec.refl _ _, fun hne => absurd hd hne⟩
    refine completes_local (he s) h ?_ (SamePath.refl w)
    rw [hb]
    simp [Ctx.writeQuad, Bank.writeQuad, hd, setBank_bank]
  · have key := caps_writeQuad (ctxFor i s core slot w) w d (u (ctxFor i s core slot w) w) (f (ctxFor i s core slot w) w)
      (by omega) h.active (fun hu' => hu _ _ _ hok ht hu')
    have hdr : destRegs d 4 = rangeFrom d 4 := by simp [destRegs, show d ≠ 1023 by omega]
    exact ⟨_, completes_local (he s) h (hb _ _) key.1.samePath, hdr ▸ key.1, fun _ l hl hv => key.2 l hl hv⟩

/-! ### Groups of registers (R146) -/

theorem live_write (c : Ctx) (w : Wave) (d : Nat) (x : VVal) (fmt : Nat) {n l : Nat} (hl : l < 32) (hv : c.live.getLsbD l = true)
    (hd : d ≠ 1023) : (c.write w d x fmt).lane n l =
      if n = d then (if c.act.getLsbD l then x.lane l else w.lane n l) else w.lane n l := by
  simp only [Wave.lane, Ctx.write, bank_setBank]
  by_cases hn : n = d
  · subst hn
    rw [if_pos rfl]
    cases ha : c.act.getLsbD l
    · simpa using lane_write_other w.bank c.act c.live x fmt hd hl hv ha
    · simpa using lane_write_active w.bank c.act c.live x fmt hd hl ha
  · rw [if_neg hn]
    exact (lane_write_ne _ _ _ _ _ hn).1 l hl

theorem writeGroup_spec (c : Ctx) (w : Wave) (d n : Nat) (u : Bool) (ty : Nat) (f : Nat → Nat → Nat) (hw : wide ty = false)
    (hd : d + n ≤ 672) (hu : u = true → ∀ k l, l < 32 → f k l = f k 0) :
    OnlyVec w (writeGroup c w d n u ty f) (rangeFrom d n) ∧ ∀ k l, l < 32 → c.live.getLsbD l = true →
      (writeGroup c w d n u ty f).lane (d + k) l =
        if k < n ∧ c.act.getLsbD l = true then BitVec.ofNat 32 (f k l) else w.lane (d + k) l := by
  unfold writeGroup
  rw [if_neg]
  · induction n with
    | zero => simp [OnlyVec.refl]
    | succ n ih =>
      rw [List.range_succ, List.foldl_append]
      simp only [List.foldl_cons, List.foldl_nil]
      obtain ⟨h1, h2⟩ := ih (by omega)
      revert h1 h2
      generalize List.foldl (fun w' k => c.writeTy w' (d + k) u ty fun l => f k l) w (List.range n) = w1
      intro h1 h2
      have e : c.writeTy w1 (d + n) u ty (fun l => f n l) =
          c.write w1 (d + n) (shaped u fun l => BitVec.ofNat 32 (f n l)) (resultFmt ty) := by simp [Ctx.writeTy, hw]
      rw [e]
      refine ⟨(h1.mono fun m hm => ?_).trans ((onlyVec_write c w1 (d + n) _ _).mono fun m hm => ?_), fun k l hl hv => ?_⟩
      · simp only [mem_rangeFrom] at hm ⊢; omega
      · simp only [destRegs, show d + n ≠ 1023 by omega, if_false, mem_rangeFrom] at hm ⊢; omega
      · rw [live_write c w1 (d + n) _ _ hl hv (by omega), h2 k l hl hv]
        by_cases hk : k = n
        · subst hk
          rw [lane_shaped (fun hu' l hl => by rw [hu hu' _ l hl]) hl]
          cases c.act.getLsbD l <;> simp
        · have : d + k ≠ d + n := by omega
          simp only [this, if_false]
          by_cases hkn : k < n
          · simp [hkn, show k < n + 1 by omega]
          · simp [hkn, show ¬ k < n + 1 by omega]
  · omega

/-- An instruction whose effect is a group of registers of one TYPE, with more done to its wave after it. -/
theorem writesRegs_of {i : Instr} {x : VArgs} {body : WaveBody} {P : Ctx → Wave → Prop} {d n ty : Nat} {u : Ctx → Wave → Bool}
    {f : Ctx → Wave → Nat → Nat → Nat} {post : Wave → Wave} (hv : i.view = .alu x)
    (he : ∀ s, exec i s = issueLocal i.view (encode i) body s) (hw : wide ty = false) (hp : ∀ w, SamePath w (post w))
    (hb : ∀ c w, P c w → body c w = .ok (post (writeGroup c w d n (u c w) ty (f c w))))
    (hd : ∃ fl r t, (⟨fl, .vec n, d, r, t⟩ : Operand) ∈ x.operands ∧ r ≠ .src)
    (hu : ∀ c w hh, (∀ o ∈ x.operands, o.ok hh = true) → w.early = [] → u c w = true → ∀ k l, l < 32 → f c w k l = f c w k 0) :
    WritesRegs i P d n ty f post := by
  intro s core slot w b h hP
  have hok : ∀ o ∈ x.operands, o.ok (w.stream == .handler) = true :=
    fun o hm => ready_operands h.toReady o (by rw [hv]; exact hm)
  obtain ⟨fl, r, t, hm, hr⟩ := hd
  rcases vec_dst_ok (hok _ hm) hr with hd | hd
  · refine ⟨w, ?_, OnlyVec.refl _ _, fun hne => absurd hd hne⟩
    refine completes_local (he s) h ?_ (hp w)
    rw [hb _ _ hP]
    simp [writeGroup, hd]
  · obtain ⟨h1, h2⟩ := writeGroup_spec (ctxFor i s core slot w) w d n (u (ctxFor i s core slot w) w) ty
      (f (ctxFor i s core slot w) w) hw hd.2 (fun hu' => hu _ _ _ hok h.early hu')
    have hdr : OnlyVec w (writeGroup (ctxFor i s core slot w) w d n (u (ctxFor i s core slot w) w) ty
        (f (ctxFor i s core slot w) w)) (destRegs d n) := by
      unfold destRegs
      split
      · rename_i hc
        have : rangeFrom d n = [] := by
          have : n = 0 := by omega
          simp [this, rangeFrom]
        rwa [this] at h1
      · exact h1
    refine ⟨_, completes_local (he s) h (hb _ _ hP) (h1.samePath.trans (hp _)), hdr, fun _ k l hk hl hv => ?_⟩
    simp only [Wave.value, hw, Bool.false_eq_true, if_false, tyBits]
    rw [h2 k l hl hv]
    simp only [hk, true_and]
    split <;> simp

/-- Each register of a uniform group holds one value (R80, R146). -/
theorem lane_of_group {c : Ctx} {w : Wave} {n m : Nat} (h : c.allU w n m = true) (he : w.early = []) {hh : Bool} {fl : Field} {t : Option Nat}
    (ho : Operand.ok hh ⟨fl, .vec m, n, .src, t⟩ = true) {k : Nat} (hk : k < m) (l : Nat) :
    c.lane w (n + k) l = c.lane w (n + k) 0 := by
  by_cases h1 : 1016 ≤ n + k
  · unfold Ctx.lane Ctx.readV Wave.readIn
    rw [he]
    simp only [List.contains_nil, Bool.false_eq_true, if_false, show ¬ n + k < 1016 by omega]
    have hn : n = 1023 ∨ k = 0 := by
      simp only [Operand.ok] at ho
      by_cases h2 : n = 1023
      · exact .inl h2
      · by_cases h3 : 1016 ≤ n
        · simp [h2, h3] at ho
          omega
        · simp only [beq_iff_eq, h2, if_false, h3, Bool.and_eq_true, vecNamed] at ho
          have := ho.2
          cases hh <;> simp at this <;> omega
    rcases hn with rfl | rfl
    · rcases Nat.eq_zero_or_pos k with rfl | hk0
      · rfl
      · split <;> first | omega | rfl
    · have := lane_of_isU c w n (List.all_eq_true.mp h n (by simp only [regSpan]; split <;> simp; omega)) l
      simpa [Ctx.lane, Ctx.readV, Wave.readIn, he, show ¬ n < 1016 by omega] using this
  · have := List.all_eq_true.mp h (n + k) (by
      simp only [regSpan, show ¬ 1016 ≤ n by omega, if_false, mem_rangeFrom]; omega)
    exact lane_of_isU c w (n + k) this l

end Sys2Proof.Machine
end

