-- ==== Sys2Proof/Certificates/Slice0/Obligations.lean ====
section
/-!
DEFINITION. The statements for the provers.
-/

open Sys2Proof Sys2Proof.Machine

/-- IADD, ISUB, IMUL, IMULH, IMULW, IMAD, ILEA, IMIN, IMAX, IABS, INEG and ISAD complete with the result of R131 in each active
lane: exact until the final write, then wrapped to the width or, with SAT, clamped to the TYPE's range. -/
def Obligations.IntegerArithmetic : Prop :=
  (∀ f : VF, WritesVec (.iadd f) f.d.toNat f.ty.toNat (arith (f.args .iadd false) f.sat fun a b _ => a + b)) ∧
  (∀ f : IF, WritesVec (.iaddImm f) f.d.toNat f.ty.toNat
    (arith (f.args .iadd false) (f.flags.getLsbD 3) fun a b _ => a + b)) ∧
  (∀ f : VF, WritesVec (.isub f) f.d.toNat f.ty.toNat (arith (f.args .isub false) f.sat fun a b _ => a - b)) ∧
  (∀ f : IF, WritesVec (.isubImm f) f.d.toNat f.ty.toNat
    (arith (f.args .isub false) (f.flags.getLsbD 3) fun a b _ => a - b)) ∧
  (∀ f : VF, WritesVec (.imul f) f.d.toNat f.ty.toNat (arith (f.args .imul false) f.sat fun a b _ => a * b)) ∧
  (∀ f : IF, WritesVec (.imulImm f) f.d.toNat f.ty.toNat
    (arith (f.args .imul false) (f.flags.getLsbD 3) fun a b _ => a * b)) ∧
  (∀ f : VF, WritesVec (.imulh f) f.d.toNat f.ty.toNat fun c w l =>
    let x := f.args .imulh false
    wrapNat (tyBits x.ty) (valA x c w l * valB x c w l / (2 ^ tyBits x.ty : Nat))) ∧
  (∀ f : IF, WritesVec (.imulhImm f) f.d.toNat f.ty.toNat fun c w l =>
    let x := f.args .imulh false
    wrapNat (tyBits x.ty) (valA x c w l * valB x c w l / (2 ^ tyBits x.ty : Nat))) ∧
  (∀ f : VF, WritesVec (.imulw f) f.d.toNat tB64 fun c w l =>
    let x := f.args .imulw false
    wrapNat 64 (valA x c w l * valB x c w l)) ∧
  (∀ f : VF, WritesVec (.imad f) f.d.toNat f.ty.toNat (arith (f.args .imad false) f.sat fun a b c => a * b + c)) ∧
  (∀ f : VF, WritesVec (.ilea f) f.d.toNat f.ty.toNat
    (arith (f.args .ilea false) f.sat fun a b _ => a * (2 ^ ((f.args .ilea false).sub % 64) : Nat) + b)) ∧
  (∀ f : IF, WritesVec (.ileaImm f) f.d.toNat f.ty.toNat
    (arith (f.args .ilea false) (f.flags.getLsbD 3) fun a b _ => a * (2 ^ ((f.args .ilea false).sub % 64) : Nat) + b)) ∧
  (∀ f : VF, WritesVec (.imin f) f.d.toNat f.ty.toNat (arith (f.args .imin false) false fun a b _ => min a b)) ∧
  (∀ f : IF, WritesVec (.iminImm f) f.d.toNat f.ty.toNat (arith (f.args .imin false) false fun a b _ => min a b)) ∧
  (∀ f : VF, WritesVec (.imax f) f.d.toNat f.ty.toNat (arith (f.args .imax false) false fun a b _ => max a b)) ∧
  (∀ f : IF, WritesVec (.imaxImm f) f.d.toNat f.ty.toNat (arith (f.args .imax false) false fun a b _ => max a b)) ∧
  (∀ f : VF, WritesVec (.iabs f) f.d.toNat f.ty.toNat (arith (f.args .iabs false) f.sat fun a _ _ => a.natAbs)) ∧
  (∀ f : VF, WritesVec (.ineg f) f.d.toNat f.ty.toNat (arith (f.args .ineg false) f.sat fun a _ _ => -a)) ∧
  (∀ f : VF, WritesVec (.isad f) f.d.toNat f.ty.toNat (arith (f.args .isad false) f.sat fun a b c => (a - b).natAbs + c))

/-- IDIV and IREM complete with the quotient truncated toward zero and the remainder of the dividend's sign, and with R132's
results where the divisor is 0. -/
def Obligations.IntegerDivision : Prop :=
  (∀ f : VF, WritesVec (.idiv f) f.d.toNat f.ty.toNat fun c w l =>
    let x := f.args .idiv false
    if valB x c w l = 0 then 2 ^ tyBits x.ty - 1 else arith x f.sat (fun a b _ => a.tdiv b) c w l) ∧
  (∀ f : IF, WritesVec (.idivImm f) f.d.toNat f.ty.toNat fun c w l =>
    let x := f.args .idiv false
    if valB x c w l = 0 then 2 ^ tyBits x.ty - 1 else arith x (f.flags.getLsbD 3) (fun a b _ => a.tdiv b) c w l) ∧
  (∀ f : VF, WritesVec (.irem f) f.d.toNat f.ty.toNat fun c w l =>
    let x := f.args .irem false
    if valB x c w l = 0 then c.bits w x.ty x.a l % 2 ^ tyBits x.ty else arith x false (fun a b _ => a.tmod b) c w l) ∧
  (∀ f : IF, WritesVec (.iremImm f) f.d.toNat f.ty.toNat fun c w l =>
    let x := f.args .irem false
    if valB x c w l = 0 then c.bits w x.ty x.a l % 2 ^ tyBits x.ty else arith x false (fun a b _ => a.tmod b) c w l) ∧
  (∀ f : GwForm,
    let x := GwForm.args f
    let a (c : Ctx) (w : Wave) : Int := tyVal x.ty (c.groupBits w x.ty x.a)
    let b (c : Ctx) (w : Wave) : Int := tyVal x.ty (c.groupB w x)
    (x.op = .idiv → WritesGrp (.groupWideAlu f) x.d fun c w => BitVec.ofNat 64
      (if b c w = 0 then 2 ^ tyBits x.ty - 1 else finish x.ty x.sat ((a c w).tdiv (b c w)))) ∧
    (x.op = .irem → WritesGrp (.groupWideAlu f) x.d fun c w => BitVec.ofNat 64
      (if b c w = 0 then c.groupBits w x.ty x.a % 2 ^ tyBits x.ty else finish x.ty false ((a c w).tmod (b c w)))))

/-- The logic, shift and count instructions complete with the results of R135 in each active lane.
BFX, BFI and PRMB complete with the fields and bytes of R136; a PRMB of an immediate has no C, whose bytes read 0. -/
def Obligations.BitLogicAndFields : Prop :=
  (∀ f : VF, WritesVec (.andBits f) f.d.toNat f.ty.toNat (bitwise (f.args .andBits false) fun _ a b _ => a &&& b)) ∧
  (∀ f : IF, WritesVec (.andImm f) f.d.toNat f.ty.toNat (bitwise (f.args .andBits false) fun _ a b _ => a &&& b)) ∧
  (∀ f : VF, WritesVec (.orBits f) f.d.toNat f.ty.toNat (bitwise (f.args .orBits false) fun _ a b _ => a ||| b)) ∧
  (∀ f : IF, WritesVec (.orImm f) f.d.toNat f.ty.toNat (bitwise (f.args .orBits false) fun _ a b _ => a ||| b)) ∧
  (∀ f : VF, WritesVec (.xorBits f) f.d.toNat f.ty.toNat (bitwise (f.args .xorBits false) fun _ a b _ => a ^^^ b)) ∧
  (∀ f : IF, WritesVec (.xorImm f) f.d.toNat f.ty.toNat (bitwise (f.args .xorBits false) fun _ a b _ => a ^^^ b)) ∧
  (∀ f : VF, WritesVec (.notBits f) f.d.toNat f.ty.toNat (bitwise (f.args .notBits false) fun n a _ _ => 2 ^ n - 1 - a % 2 ^ n)) ∧
  (∀ f : VF, WritesVec (.bfn3 f) f.d.toNat f.ty.toNat
    (bitwise (f.args .bfn3 false) fun n a b c => tableBits f.sub.toNat a b c n)) ∧
  (∀ f : VF, WritesVec (.shl f) f.d.toNat f.ty.toNat
    (counted (f.args .shl false) fun n a k _ => if k < n then a * 2 ^ k % 2 ^ n else 0)) ∧
  (∀ f : IF, WritesVec (.shlImm f) f.d.toNat f.ty.toNat
    (counted (f.args .shl false) fun n a k _ => if k < n then a * 2 ^ k % 2 ^ n else 0)) ∧
  (∀ f : VF, WritesVec (.shr f) f.d.toNat f.ty.toNat
    (counted (f.args .shr false) fun n a k _ =>
      if tySigned f.ty.toNat then wrapNat n (tyVal f.ty.toNat a / (2 ^ min k (n - 1) : Nat)) else if k < n then a / 2 ^ k else 0)) ∧
  (∀ f : IF, WritesVec (.shrImm f) f.d.toNat f.ty.toNat
    (counted (f.args .shr false) fun n a k _ =>
      if tySigned f.ty.toNat then wrapNat n (tyVal f.ty.toNat a / (2 ^ min k (n - 1) : Nat)) else if k < n then a / 2 ^ k else 0)) ∧
  (∀ f : VF, WritesVec (.rotl f) f.d.toNat f.ty.toNat
    (counted (f.args .rotl false) fun n a k _ => a * 2 ^ (k % n) % 2 ^ n ||| a / 2 ^ (n - k % n))) ∧
  (∀ f : IF, WritesVec (.rotlImm f) f.d.toNat f.ty.toNat
    (counted (f.args .rotl false) fun n a k _ => a * 2 ^ (k % n) % 2 ^ n ||| a / 2 ^ (n - k % n))) ∧
  (∀ f : VF, WritesVec (.fshl f) f.d.toNat f.ty.toNat fun c w l =>
    (c.bits w f.ty.toNat f.a.toNat l * 2 ^ 32 + c.bits w f.ty.toNat f.b.toNat l) * 2 ^ ((c.lane w f.c.toNat l).toNat % 32) /
      2 ^ 32 % 2 ^ 32) ∧
  (∀ f : VF, WritesVec (.popc f) f.d.toNat tW32 (bitwise (f.args .popc false) fun n a _ _ => popcount n a)) ∧
  (∀ f : VF, WritesVec (.clz f) f.d.toNat tW32 (bitwise (f.args .clz false) fun n a _ _ => n - bitLen a)) ∧
  (∀ f : VF, WritesVec (.brev f) f.d.toNat f.ty.toNat (bitwise (f.args .brev false) fun n a _ _ => reverseBits n a)) ∧
  (∀ f : VF, WritesVec (.bfx f) f.d.toNat f.ty.toNat (counted (f.args .bfx false) fun _ a d _ => bfxOf f.ty.toNat a d)) ∧
  (∀ f : VF, WritesVec (.bfi f) f.d.toNat f.ty.toNat (counted (f.args .bfi false) fun _ a d c => bfiOf a d c)) ∧
  (∀ f : VF, WritesVec (.prmb f) f.d.toNat f.ty.toNat (counted (f.args .prmb false) fun _ a k c => prmbOf a k c)) ∧
  (∀ f : IF, WritesVec (.prmbImm f) f.d.toNat f.ty.toNat (counted (f.args .prmb false) fun _ a k _ => prmbOf a k 0))

/-- FADD, FSUB, FMUL, FMA, FDIV, FRCP, FSQRT and FRSQ complete with the exact result of the modified sources rounded once, element
by element, and clamped to [+0, 1.0] by SAT where R137 defines it (R138). -/
def Obligations.FloatArithmetic : Prop :=
  (∀ f : VF, WritesVec (.fadd f) f.d.toNat f.ty.toNat (rounded (f.args .fadd false) f.sat fun mode a b _ => a.add mode b)) ∧
  (∀ f : IF, WritesVec (.faddImm f) f.d.toNat f.ty.toNat
    (rounded (f.args .fadd false) (f.flags.getLsbD 3) fun mode a b _ => a.add mode b)) ∧
  (∀ f : VF, WritesVec (.fsub f) f.d.toNat f.ty.toNat (rounded (f.args .fsub false) f.sat fun mode a b _ => a.sub mode b)) ∧
  (∀ f : IF, WritesVec (.fsubImm f) f.d.toNat f.ty.toNat
    (rounded (f.args .fsub false) (f.flags.getLsbD 3) fun mode a b _ => a.sub mode b)) ∧
  (∀ f : VF, WritesVec (.fmul f) f.d.toNat f.ty.toNat (rounded (f.args .fmul false) f.sat fun _ a b _ => a.mul b)) ∧
  (∀ f : IF, WritesVec (.fmulImm f) f.d.toNat f.ty.toNat
    (rounded (f.args .fmul false) (f.flags.getLsbD 3) fun _ a b _ => a.mul b)) ∧
  (∀ f : VF, WritesVec (.fma f) f.d.toNat f.ty.toNat (rounded (f.args .fma false) f.sat fun mode a b c => (a.mul b).add mode c)) ∧
  (∀ f : VF, WritesVec (.fdiv f) f.d.toNat f.ty.toNat (rounded (f.args .fdiv false) false fun _ a b _ => a.div b)) ∧
  (∀ f : VF, WritesVec (.frcp f) f.d.toNat f.ty.toNat (rounded (f.args .frcp false) false fun _ a _ _ => (FVal.fin false 1 0).div a)) ∧
  (∀ f : VF, WritesVec (.fsqrt f) f.d.toNat f.ty.toNat (rounded (f.args .fsqrt false) false fun _ a _ _ => a.sqrt)) ∧
  (∀ f : VF, WritesVec (.frsq f) f.d.toNat f.ty.toNat (rounded (f.args .frsq false) false fun _ a _ _ => a.rsqrt))

/-- FEXP2, FLOG2, FSIN and FCOS complete with their correctly rounded result (R139).
FMIN, FMAX, FMED3, FCPS, FSCL, FRND and FCLASS complete with the results of R140, R141 and R143.
FCMP completes with its condition of the operands in each active lane of the predicate, and every other lane as it was (R142). -/
def Obligations.FloatFunctionsAndSelection : Prop :=
  (∀ f : VF, WritesVec (.fexp2 f) f.d.toNat f.ty.toNat (rounded (f.args .fexp2 false) false fun _ a _ _ => a.exp2)) ∧
  (∀ f : VF, WritesVec (.flog2 f) f.d.toNat f.ty.toNat (rounded (f.args .flog2 false) false fun _ a _ _ => a.log2)) ∧
  (∀ f : VF, WritesVec (.fsin f) f.d.toNat f.ty.toNat (rounded (f.args .fsin false) false fun _ a _ _ => a.sinpi)) ∧
  (∀ f : VF, WritesVec (.fcos f) f.d.toNat f.ty.toNat (rounded (f.args .fcos false) false fun _ a _ _ => a.cospi)) ∧
  (∀ f : VF, WritesVec (.fmin f) f.d.toNat f.ty.toNat (floating (f.args .fmin false) fun m _ a b _ => minMaxOf m false a b)) ∧
  (∀ f : IF, WritesVec (.fminImm f) f.d.toNat f.ty.toNat
    (floating (f.args .fmin false) fun m _ a b _ => minMaxOf m false a b)) ∧
  (∀ f : VF, WritesVec (.fmax f) f.d.toNat f.ty.toNat (floating (f.args .fmax false) fun m _ a b _ => minMaxOf m true a b)) ∧
  (∀ f : IF, WritesVec (.fmaxImm f) f.d.toNat f.ty.toNat
    (floating (f.args .fmax false) fun m _ a b _ => minMaxOf m true a b)) ∧
  (∀ f : VF, WritesVec (.fmed3 f) f.d.toNat f.ty.toNat (floating (f.args .fmed3 false) fun m _ a b c =>
      minMaxOf m true (minMaxOf m false a b) (minMaxOf m false (minMaxOf m true a b) c))) ∧
  (∀ f : VF, WritesVec (.fcps f) f.d.toNat f.ty.toNat (floating (f.args .fcps false) fun m _ a b _ =>
      m.signed (m.signBit ≤ b) ((if (m.value a).isNan then m.nan else a) % m.signBit))) ∧
  (∀ f : IF, WritesVec (.fcpsImm f) f.d.toNat f.ty.toNat
    (floating (f.args .fcps false) fun m _ a b _ =>
      m.signed (m.signBit ≤ b) ((if (m.value a).isNan then m.nan else a) % m.signBit))) ∧
  (∀ f : VF, WritesVec (.fscl f) f.d.toNat f.ty.toNat (fun c w l => floating (f.args .fscl false)
      (fun m mode a _ _ => m.roundTo mode ((m.value a).scale (sext 32 (c.countB w (f.args .fscl false) l)))) c w l)) ∧
  (∀ f : IF, WritesVec (.fsclImm f) f.d.toNat f.ty.toNat
    (fun c w l => floating (f.args .fscl false)
      (fun m mode a _ _ => m.roundTo mode ((m.value a).scale (sext 32 (c.countB w (f.args .fscl false) l)))) c w l)) ∧
  (∀ f : VF, WritesVec (.frnd f) f.d.toNat f.ty.toNat (floating (f.args .frnd false) fun m mode a _ _ => roundIntegral m mode (m.value a))) ∧
  (∀ f : VF, WritesVec (.fclass f) f.d.toNat tW32 fun c w l => classOf f.ty.toNat (c.bits w f.ty.toNat f.a.toNat l)) ∧
  (∀ f : VF, WritesPred (.fcmp f) f.d.toNat fun c w l =>
    let x := f.args .fcmp false
    fcmpOf x (c.bits w x.ty x.a l) (c.bitsB w x l)) ∧
  (∀ f : IF, WritesPred (.fcmpImm f) f.d.toNat fun c w l =>
    let x := f.args .fcmp false
    fcmpOf x (c.bits w x.ty x.a l) (c.bitsB w x l))

/-- CVT, PACK and UNPK complete with each value converted by `to_type` (R125, R145, R146). A packed destination of CVT keeps its other
elements. -/
def Obligations.Conversions : Prop :=
  (∀ f : VF, WritesVec (.cvt f) f.d.toNat f.ty.toNat fun c w l =>
    let x := f.args .cvt false
    let n := elemBits x.ty
    let k := x.sub / 16
    let a := c.bits w x.cvtSrc x.a l
    let v := if packed x.cvtSrc then exactVal x.cvtSrc (field a (elemBits x.cvtSrc * k) (elemBits x.cvtSrc)) else exactVal x.cvtSrc a
    let r := toType v x.ty (modeOf w x.round) x.sat (intClass x.cvtSrc)
    if packed x.ty then putElem ((c.lane w x.d l).toNat % 2 ^ (elements x.ty * n)) n k r else r) ∧
  (∀ f : VF, WritesVec (.pack f) f.d.toNat f.ty.toNat fun c w l =>
    let ty := f.ty.toNat
    let src := VArgs.groupTy ty
    packElems (elemBits ty) ((List.range (elements ty)).map fun k =>
      toType (exactVal src (c.lane w (f.a.toNat + k) l).toNat) ty (modeOf w f.round.toNat) f.sat (intClass src))) ∧
  (∀ f : VF, WritesRegs (.unpk f) (fun _ _ => True) f.d.toNat (elements f.ty.toNat) (VArgs.groupTy f.ty.toNat) (fun c w k l =>
    let ty := f.ty.toNat
    toType (exactVal ty (field (c.lane w f.a.toNat l).toNat (elemBits ty * k) (elemBits ty))) (VArgs.groupTy ty) 0 false (intClass ty))
    fun w1 => w1)

/-- QNT and DQNT complete with the codes and the values of R147 under each lane's affine pair, where no active lane has a zero point that
the TYPE does not allow.
FDOT2, IDOT4 and LDOT complete with the sum of R148 in the type R148 gives it, formed exactly and rounded, wrapped or clamped once. -/
def Obligations.QuantisationAndDotProducts : Prop :=
  (∀ f : VF, WritesVecIf (.qnt f) (fun c w => zeroBad c w (f.args .qnt false) = false) f.d.toNat f.ty.toNat (fun c w l =>
    packElems (elemBits f.ty.toNat) ((List.range (elements f.ty.toNat)).map fun k =>
      quantOf f.ty.toNat (modeOf w f.round.toNat) f.sat (c.lane w (f.a.toNat + k) l).toNat (c.lane w f.b.toNat l).toNat))
    fun _ _ w1 => w1) ∧
  (∀ f : VF, WritesRegs (.dqnt f) (fun c w => zeroBad c w (f.args .dqnt false) = false) f.d.toNat (elements f.ty.toNat) tF32
    (fun c w k l =>
      let ty := f.ty.toNat
      let p := (c.lane w f.b.toNat l).toNat
      toType (blockVal ty (field (c.lane w f.a.toNat l).toNat (elemBits ty * k) (elemBits ty)) (pairScale p) (pairZero p)) tF32
        (modeOf w f.round.toNat) f.sat false)
    fun w1 => w1) ∧
  (∀ f : VF, WritesVec (.fdot2 f) f.d.toNat (dotTy f.ty.toNat) fun c w l =>
    fdot2Of f.ty.toNat (modeOf w f.round.toNat) f.sat (c.lane w f.a.toNat l).toNat (c.lane w f.b.toNat l).toNat
      (c.lane w f.c.toNat l).toNat) ∧
  (∀ f : VF, WritesVec (.idot4 f) f.d.toNat (dotTy f.ty.toNat) fun c w l =>
    finish (dotTy f.ty.toNat) f.sat (tyVal (dotTy f.ty.toNat) (c.lane w f.c.toNat l).toNat
      + idotSum f.ty.toNat (c.lane w f.a.toNat l).toNat (c.lane w f.b.toNat l).toNat)) ∧
  (∀ f : VF, WritesVec (.ldot f) f.d.toNat (dotTy f.ty.toNat) fun c w l =>
    finish (dotTy f.ty.toNat) f.sat (tyVal (dotTy f.ty.toNat) (c.lane w f.c.toNat l).toNat + ldotSum (c.lane w f.a.toNat l).toNat (c.lane w f.b.toNat l).toNat))

/-- MOV and SEL complete with the source's value in the active lanes (R92, R93), their group-wide forms once per wave, and NEAR sets the
wave's near window (R88). -/
def Obligations.Moves : Prop :=
  (∀ f : VF, WritesVec (.mov f) f.d.toNat f.ty.toNat fun c w l => c.bits w f.ty.toNat f.b.toNat l) ∧
  (∀ f : IF, WritesVec (.movImm f) f.d.toNat f.ty.toNat fun _ _ _ =>
    if wide f.ty.toNat then (immWide f.ty.toNat f.imm).toNat else f.imm.toNat) ∧
  (∀ f : VF, WritesVec (.sel f) f.d.toNat f.ty.toNat fun c w l =>
    if (c.readP w f.c.toNat).getLsbD l then c.bits w f.ty.toNat f.a.toNat l else c.bits w f.ty.toNat f.b.toNat l) ∧
  (∀ f : VF, WritesGrp (.movGroupWide f) f.d.toNat fun c w =>
    if f.ty.toNat = tB64 then c.readG w f.b.toNat else (c.readG w f.b.toNat).setWidth 32 |>.setWidth 64) ∧
  (∀ f : IF, WritesGrp (.movGroupWideImm f) f.d.toNat fun _ _ => immWide f.ty.toNat f.imm) ∧
  (∀ f : VF, WritesGrp (.selGroupWide f) f.d.toNat fun c w =>
    let v := if c.readQ w f.c.toNat then c.readG w f.a.toNat else c.readG w f.b.toNat
    if f.ty.toNat = tB64 then v else (v.setWidth 32).setWidth 64) ∧
  (∀ f : VF, Changes (.near f) fun c w => { w with nearBase := f.a.toNat, nearMap := c.readG w f.b.toNat })

/-- Every group-wide form completes once per wave (R129, R168): a comparison in a group-wide predicate, every other operation in a
group-wide register, whose pair then has no tag. A 32-bit TYPE reads the low halves and clears the high one. -/
def Obligations.GroupWide : Prop :=
  (∀ f : GwForm,
    let x := GwForm.args f
    (x.op = .icmp → WritesQ (.groupWideAlu f) x.d fun c w =>
      intCond x.sub (tyVal x.ty (c.groupBits w x.ty x.a)) (tyVal x.ty (c.groupB w x))) ∧
    (x.op = .fcmp → WritesQ (.groupWideAlu f) x.d fun c w => fcmpOf x (c.groupBits w x.ty x.a) (c.groupB w x)) ∧
    (x.op = .fclass → WritesGrp (.groupWideAlu f) x.d fun c w => BitVec.ofNat 64 (classOf x.ty (c.groupBits w x.ty x.a))) ∧
    (x.op ≠ .icmp → x.op.code < 0x30 → WritesGrp (.groupWideAlu f) x.d fun c w =>
      BitVec.ofNat 64 (intOf x.op x.ty x.sub x.sat (c.groupBits w x.ty x.a) (c.groupB w x)
        (if x.op == .prmb && x.imm.isSome then 0 else c.groupBits w x.ty x.c) (c.groupCount w x) (c.groupBits w tB32 x.c))) ∧
    (x.op ≠ .fcmp → x.op ≠ .fclass → 0x30 ≤ x.op.code → WritesGrp (.groupWideAlu f) x.d fun c w =>
      BitVec.ofNat 64 (floatElems x (modeOf w x.round) (c.groupBits w x.ty x.a) (c.groupB w x) (c.groupBits w x.ty x.c)
        (c.groupCount w x)))) ∧
  (∀ f : VF, WritesGrp (.cvtGroupWide f) f.d.toNat fun c w =>
    let x := f.args .cvt true
    BitVec.ofNat 64 (cvtOf x (modeOf w x.round) (c.groupBits w x.cvtSrc x.a) 0)) ∧
  (∀ f : VF, WritesQ (.plopGroupWide f) f.d.toNat fun c w =>
    table3 f.sub.toNat (c.readQ w f.a.toNat) (c.readQ w f.b.toNat) (c.readQ w f.c.toNat))

/-- SHFL and SWZ give each active lane the value of the lane that R152 names, RDLANE a group-wide register, and BCST every active lane
a group-wide register's value; a dead lane reads 0 and sets the poison bit (R149, R150, R153, R162). WRLANE writes one lane, active or
not, unless it is dead. -/
def Obligations.LaneReads : Prop :=
  (∀ f : VF, WritesVecAnd (.shfl f) f.d.toNat f.ty.toNat (fun c w l =>
    readLane c w f.ty.toNat f.a.toNat (shuffleFrom f.sub.toNat (c.lane w f.b.toNat l).toNat l)) fun c w w1 =>
      w1.poisonIf (c.lanes.any fun l => w.dead.getLsbD (shuffleFrom f.sub.toNat (c.lane w f.b.toNat l).toNat l))) ∧
  (∀ f : IF, WritesVecAnd (.shflImm f) f.d.toNat f.ty.toNat (fun c w l =>
    readLane c w f.ty.toNat f.a.toNat (shuffleFrom (f.args .shfl false).sub f.imm.toNat l)) fun c w w1 =>
      w1.poisonIf (c.lanes.any fun l => w.dead.getLsbD (shuffleFrom (f.args .shfl false).sub f.imm.toNat l))) ∧
  (∀ f : VF, WritesVecAnd (.swz f) f.d.toNat f.ty.toNat (fun c w l =>
    readLane c w f.ty.toNat f.a.toNat (l - l % 4 + field f.sub.toNat (2 * (l % 4)) 2)) fun c w w1 =>
      w1.poisonIf (c.lanes.any fun l => w.dead.getLsbD (l - l % 4 + field f.sub.toNat (2 * (l % 4)) 2))) ∧
  (∀ f : VF, WritesGrpAnd (.rdlane f) f.d.toNat
    (fun c w => BitVec.ofNat 64 (readLane c w f.ty.toNat f.a.toNat (c.low32 w f.b.toNat % 32)))
    fun c w w1 => w1.poisonIf (w.dead.getLsbD (c.low32 w f.b.toNat % 32))) ∧
  (∀ f : IF, WritesGrpAnd (.rdlaneImm f) f.d.toNat
    (fun c w => BitVec.ofNat 64 (readLane c w f.ty.toNat f.a.toNat (f.imm.toNat % 32)))
    fun _ w w1 => w1.poisonIf (w.dead.getLsbD (f.imm.toNat % 32))) ∧
  (∀ f s core slot w b, Runs (.wrlane f) s core slot w b →
    let c := ctxFor (.wrlane f) s core slot w
    let n := c.low32 w f.b.toNat % 32
    if w.dead.getLsbD n then Completes (.wrlane f) s core slot w b w
    else ∃ w1, Completes (.wrlane f) s core slot w b w1 ∧
      Wrote { c with act := Mask.one n } w w1 f.d.toNat f.ty.toNat fun _ => (c.readG w f.a.toNat).toNat) ∧
  (∀ f s core slot w b, Runs (.wrlaneImm f) s core slot w b →
    let c := ctxFor (.wrlaneImm f) s core slot w
    let n := f.imm.toNat % 32
    if w.dead.getLsbD n then Completes (.wrlaneImm f) s core slot w b w
    else ∃ w1, Completes (.wrlaneImm f) s core slot w b w1 ∧
      Wrote { c with act := Mask.one n } w w1 f.d.toNat f.ty.toNat fun _ => (c.readG w f.a.toNat).toNat) ∧
  (∀ f : VF, WritesVec (.bcst f) f.d.toNat f.ty.toNat fun c w _ => (c.readG w f.a.toNat).toNat)

/-- VOTE, BALLOT, MATCH, ELECT, FLANE and PCNT complete with what R155 and R164 give of the active lanes.
REDI, REDF, SCANI, SCANF, SCANP, CMPCT and EXPND complete with the results of R157 to R160 over the active lanes, ascending. -/
def Obligations.VotesReductionsScans : Prop :=
  (∀ f : VF, WritesPred (.vote f) f.d.toNat fun c w _ => voteCond f.sub.toNat (c.readP w f.a.toNat) c.act) ∧
  (∀ f : VF, WritesVec (.ballot f) f.d.toNat tW32 fun c w _ => (c.readP w f.a.toNat &&& c.act).toNat) ∧
  (∀ f : VF, WritesVec (.matchLanes f) f.d.toNat tW32 fun c w l =>
    (Mask.of fun m => c.act.getLsbD m && c.bits w f.ty.toNat f.a.toNat m == c.bits w f.ty.toNat f.a.toNat l).toNat) ∧
  (∀ f : VF, WritesPred (.elect f) f.d.toNat fun c _ l => l == c.lowest) ∧
  (∀ f : VF, WritesVec (.flane f) f.d.toNat tW32 fun c w _ =>
    let set := (c.readP w f.a.toNat &&& c.act).lanes
    (if f.sub.toNat = 0 then set.head? else set.getLast?).getD 0xFFFFFFFF) ∧
  (∀ f : VF, WritesVec (.pcnt f) f.d.toNat tW32 fun c w _ => (c.readP w f.a.toNat &&& c.act).count) ∧
  (∀ f : VF, WritesVec (.redi f) f.d.toNat f.ty.toNat fun c w _ =>
    finish f.ty.toNat f.sat (redInt f.ty.toNat f.sub.toNat (c.lanes.map fun m => c.bits w f.ty.toNat f.a.toNat m))) ∧
  (∀ f : VF, WritesVec (.redf f) f.d.toNat f.ty.toNat fun c w _ =>
    canonical (fmtOf f.ty.toNat) (treeOf (redFloat (fmtOf f.ty.toNat) (modeOf w f.round.toNat) f.sub.toNat)
      (laneList.map fun m => if c.act.getLsbD m then some (redSrc c w (f.args .redf false) m) else none))) ∧
  (∀ f : VF, WritesVec (.scani f) f.d.toNat f.ty.toNat fun c w l =>
    finish f.ty.toNat f.sat (redInt f.ty.toNat (f.sub.toNat % 8)
      ((c.lanes.filter fun m => if 8 ≤ f.sub.toNat then m < l else m ≤ l).map fun m => c.bits w f.ty.toNat f.a.toNat m))) ∧
  (∀ f : VF, WritesVec (.scanf f) f.d.toNat f.ty.toNat fun c w l =>
    let m := fmtOf f.ty.toNat
    let inc := scanSteps (redFloat m (modeOf w f.round.toNat) (f.sub.toNat % 8)) none (c.lanes.map (redSrc c w (f.args .scanf false)))
    kgetD (c.lanes.zip ((if 8 ≤ f.sub.toNat then scanStart m (f.sub.toNat % 8) :: inc else inc).map (canonical m))) l 0) ∧
  (∀ f : VF, WritesVec (.scanp f) f.d.toNat tW32 fun c w l =>
    (c.lanes.filter fun m => (if 8 ≤ f.sub.toNat then m < l else m ≤ l) && (c.readP w f.a.toNat).getLsbD m).length) ∧
  (∀ f : VF, WritesVec (.cmpct f) f.d.toNat f.ty.toNat fun c w l =>
    match kget (c.lanes.zip (c.readP w f.c.toNat &&& c.act).lanes) l with
    | some m => c.bits w f.ty.toNat f.a.toNat m
    | none => 0) ∧
  (∀ f : VF, WritesVec (.expnd f) f.d.toNat f.ty.toNat fun c w l =>
    match kget ((c.readP w f.c.toNat &&& c.act).lanes.zip c.lanes) l with
    | some m => c.bits w f.ty.toNat f.a.toNat m
    | none => 0)

/-- PLOP, P2R and MOVRP act on predicates lane by lane (R164). SHPX, SHPC and FMTS keep a register's value and set its shape or its
format; SHPQ, FMTQ, ACTQ, DEADQ and POISQ read a shape, a format, a mask or the poison bit, which POISQ.CLR then clears (R166). -/
def Obligations.PredicatesMasksShapes : Prop :=
  (∀ f : VF, WritesPred (.plop f) f.d.toNat fun c w l =>
    table3 f.sub.toNat ((c.readP w f.a.toNat).getLsbD l) ((c.readP w f.b.toNat).getLsbD l) ((c.readP w f.c.toNat).getLsbD l)) ∧
  (∀ f : VF, WritesVec (.p2r f) f.d.toNat tW32 fun c w l =>
    ((List.range (predCount c)).map fun j => if (c.readP w (f.a.toNat + j)).getLsbD l then 2 ^ j else 0).sum) ∧
  (∀ f s core slot w b, Runs (.movrp f) s core slot w b →
    let c := ctxFor (.movrp f) s core slot w
    ∃ w1, Completes (.movrp f) s core slot w b w1 ∧ OnlyPred w w1 (rangeFrom f.d.toNat (predCount c)) ∧
      ∀ j l, j < predCount c → l < 32 → (w1.bank.pred (f.d.toNat + j)).getLsbD l =
        if c.act.getLsbD l then (c.lane w f.a.toNat l).getLsbD j else (w.bank.pred (f.d.toNat + j)).getLsbD l) ∧
  (∀ f : VF, WritesVec (.shpq f) f.d.toNat tW32 fun c w _ => (c.readV w f.a.toNat).val.code) ∧
  (∀ f : VF, WritesVec (.fmtq f) f.d.toNat tW32 fun c w _ => (c.readV w f.a.toNat).fmt) ∧
  (∀ f s core slot w b, Runs (.shpx f) s core slot w b → ∃ w1, Completes (.shpx f) s core slot w b w1 ∧ OnlyVec w w1 [] ∧
    ∀ n ∈ destRegs f.d.toNat (tyRegs f.ty.toNat), (w1.bank.reg n).val.isG = true) ∧
  (∀ f s core slot w b, Runs (.shpc f) s core slot w b → ∃ w1, Completes (.shpc f) s core slot w b w1 ∧ OnlyVec w w1 [] ∧
    ∀ n ∈ destRegs f.d.toNat (tyRegs f.ty.toNat), w.bank.tagsOf (n / 4) = 0 →
      ((∀ l, l < 32 → w.lane n l = w.lane n 0) → (w.bank.reg n).val.isA = false → (w1.bank.reg n).val.isU = true) ∧
      (∀ b t, (∀ l, l < 32 → w.lane n l = b + BitVec.ofNat 32 l * t) → (w1.bank.reg n).val.isG = false)) ∧
  (∀ f s core slot w b, Runs (.fmts f) s core slot w b → ∃ w1, Completes (.fmts f) s core slot w b w1 ∧
    OnlyVec w w1 (destRegs f.d.toNat 1) ∧ w1.bank.vtags = w.bank.vtags ∧
    (f.d.toNat ≠ 1023 → (w1.bank.reg f.d.toNat).val = (w.bank.reg f.d.toNat).val ∧ (w1.bank.reg f.d.toNat).fmt = f.sub.toNat)) ∧
  (∀ f : VF, WritesVec (.actq f) f.d.toNat tW32 fun c _ _ => c.act.toNat) ∧
  (∀ f : VF, WritesVec (.deadq f) f.d.toNat tW32 fun _ w _ => w.dead.toNat) ∧
  (∀ f : VF, WritesVecAnd (.poisq f) f.d.toNat tW32 (fun _ w _ => if w.pois then 1 else 0)
    fun _ _ w1 => if f.sub.toNat = 1 then { w1 with pois := false } else w1)

/-- CBND, CADD, CSET, CPERM, CSEAL and CUNSL complete with the derived capability of R201 to R204 in each active lane, its tag kept only
where the derivation allows it.
CGET and CTEST read a capability's fields and compare capabilities (R205, R206); CMOV moves one with its tag between quads and pairs,
and gives an untagged 0 for a dead lane (R207). -/
def Obligations.CapabilityInstructions : Prop :=
  (∀ f : VF, WritesCaps (.cbnd f) f.d.toNat fun c w l =>
    cbndOf (f.sub.getLsbD 0) (c.quadCap w f.a.toNat l) (c.capValue w (f.args .cbnd false) l)) ∧
  (∀ f : VF, WritesCaps (.cadd f) f.d.toNat fun c w l =>
    let k := c.quadCap w f.a.toNat l
    capMove k (capCursor k.bits + sext (if wide f.ty.toNat then 64 else 32) (c.capValue w (f.args .cadd false) l))) ∧
  (∀ f : VF, WritesCaps (.cset f) f.d.toNat fun c w l =>
    let k := c.quadCap w f.a.toNat l
    let v := c.capValue w (f.args .cset false) l
    capMove k (if f.sub.toNat % 2 = 0 then (v % 2 ^ 56 : Nat) else capBase k.bits + v)) ∧
  (∀ f : VF, WritesCaps (.cperm f) f.d.toNat fun c w l =>
    cpermOf (c.quadCap w f.a.toNat l) (c.lane w f.b.toNat l).toNat) ∧
  (∀ f : VF, WritesCaps (.cseal f) f.d.toNat fun c w l =>
    csealOf (c.quadCap w f.a.toNat l) (c.quadCap w f.b.toNat l)) ∧
  (∀ f : VF, WritesCaps (.cunsl f) f.d.toNat fun c w l =>
    cunslOf (c.quadCap w f.a.toNat l) (c.quadCap w f.b.toNat l)) ∧
  (∀ f : VF, WritesVecIf (.cget f) (fun _ w => w.bank.OneTag) f.d.toNat (if f.sub.toNat < 4 then tW64 else tW32)
    (fun c w l => (cgetOf f.sub.toNat (c.quadCap w f.a.toNat l)).toNat) fun _ _ w1 => w1) ∧
  (∀ f : VF, WritesPred (.ctest f) f.d.toNat fun c w l =>
    let a := c.quadCap w f.a.toNat l
    let b := c.quadCap w f.b.toNat l
    if f.sub.toNat = 0 then a.tag else if f.sub.toNat = 1 then capSubset a b else a.tag == b.tag && a.bits == b.bits) ∧
  (∀ f : VF, f.sub.toNat = 0 → WritesCaps (.cmov f) f.d.toNat fun c w l => c.quadCap w f.a.toNat l) ∧
  (∀ f : VF, f.sub.toNat = 1 →
    let n (c : Ctx) (w : Wave) : Nat := if f.b.toNat = 1023 then c.lowest else c.low32 w f.b.toNat % 32
    WritesPair (.cmov f) (fun c w => w.dead.getLsbD (n c w) = true) f.d.toNat (fun _ _ => Cap.null)
      (fun w1 => { w1 with pois := true }) ∧
    WritesPair (.cmov f) (fun c w => w.dead.getLsbD (n c w) = false) f.d.toNat (fun c w => c.quadCap w f.a.toNat (n c w))
      fun w1 => w1) ∧
  (∀ f : VF, f.sub.toNat = 2 → WritesCaps (.cmov f) f.d.toNat fun c w _ => c.readCap w f.a.toNat) ∧
  (∀ f : VF, f.sub.toNat = 3 → WritesPair (.cmov f) (fun _ _ => True) f.d.toNat (fun c w => c.readCap w f.a.toNat) fun w1 => w1)

/-- RNG and RNGF draw a word or a number per lane and advance the counter by 32, RNGQ draws at a count of its own, RNGADV, RNGLD and RNGST
move the counter and the key (R173). -/
def Obligations.Generator : Prop :=
  (∀ f : VF, WritesRegs (.rng f) (fun _ _ => True) f.d.toNat (2 ^ (f.sub.toNat % 4)) tB32
    (fun _ w k l => ((w.draw l).word k).toNat) Wave.advance) ∧
  (∀ f : VF, WritesVecAnd (.rngf f) f.d.toNat f.ty.toNat (fun _ w l =>
    let y := w.draw l
    if f.ty.toNat = tF64 then fp64.roundTo 0 (.fin false (pairOf y.x0 y.x1 >>> 11).toNat (-53))
    else fp32.roundTo 0 (.fin false (y.x0 >>> 8).toNat (-24))) fun _ _ w1 => w1.advance) ∧
  (∀ f : VF, WritesVec (.rngq f) f.d.toNat tB32 fun c w l =>
    ((chervil w.rngK (w.rngC + (c.lane w f.b.toNat l).setWidth 128)).word f.sub.toNat).toNat) ∧
  (∀ f : VF, Changes (.rngadv f) fun c w => { w with rngC := w.rngC + c.readPair w f.a.toNat }) ∧
  (∀ f : VF, Changes (.rngld f) fun c w => { w with rngK := c.readPair w f.a.toNat, rngC := c.readPair w f.b.toNat }) ∧
  (∀ f : VF, WritesPair (.rngst f) (fun _ _ => True) f.d.toNat
    (fun _ w => ⟨if f.sub.toNat = 0 then w.rngC else w.rngK, false⟩) fun w1 => w1)

/-- BRA of the whole path goes to its target; of a part of it, the other lanes go on first, with the taken lanes pushed to run
next and, with a reconvergence point, the whole path pushed to join there (R105, R107).
LOOP pushes its count, start, end and depth, or goes past its end where the count is 0; ENDL counts down and goes to the start
until the count is 0; BREAK drops the loop and goes past its end (R113). Where the loop lies in another segment, which is resident, the
transfer is a fenced one and cancels a pending drop of it (R100, R106). -/
def Obligations.BranchesAndLoops : Prop :=
  (∀ f s core slot w b t, Ready (.bra f) s core slot w b →
    let act := (ctxFor (.bra f) s core slot w).act
    let stay := w.path &&& ~~~act
    act ≠ 0 → (s.core core).relative b.code w.bank.pc f.target.toInt = .ok t →
    (stay = 0 → Leads (.bra f) s core slot w b s (w.goTo t)) ∧
    (stay ≠ 0 → f.reconv = 0 → w.bank.ctl.length + 1 ≤ (ctxFor (.bra f) s core slot w).stackLimit →
      Leads (.bra f) s core slot w b s ((w.setBank { w.bank with
        ctl := ⟨.path, t, act, w.bank.rpc⟩ :: w.bank.ctl, mask := stay }).atPc (nextPc s core b w))) ∧
    (∀ j, stay ≠ 0 → f.reconv ≠ 0 → (s.core core).relative b.code w.bank.pc f.reconv.toInt = .ok j →
      w.bank.ctl.length + 2 ≤ (ctxFor (.bra f) s core slot w).stackLimit →
      Leads (.bra f) s core slot w b s ((w.setBank { w.bank with
        ctl := ⟨.path, t, act, some j⟩ :: ⟨.join, j, w.path, w.bank.rpc⟩ :: w.bank.ctl, mask := stay, rpc := some j }).atPc
          (nextPc s core b w)))) ∧
  (∀ f s core slot w b e, Ready (.loop f) s core slot w b →
    let c := ctxFor (.loop f) s core slot w
    let n := c.readG w (f.sub.toNat % 64)
    c.act ≠ 0 → (s.core core).relative b.code w.bank.pc f.target.toInt = .ok e →
    (n = 0 → Leads (.loop f) s core slot w b s (w.goTo ((s.core core).nextValid b.code e))) ∧
    (n ≠ 0 → w.bank.loops.length ≠ 8 → Leads (.loop f) s core slot w b s ((w.setBank { w.bank with
      loops := { count := n, start := nextPc s core b w, stop := e, cdepth := w.bank.ctl.length } :: w.bank.loops }).atPc
        (nextPc s core b w)))) ∧
  (∀ f s core slot w b top rest, Ready (.endl f) s core slot w b → (ctxFor (.endl f) s core slot w).act ≠ 0 →
    w.bank.loops = top :: rest → top.cdepth = w.bank.ctl.length →
    let w1 := (w.setBank { w.bank with loops := { top with count := top.count - 1 } :: rest }).goTo top.start
    (top.count - 1 ≠ 0 → segOf top.start = segOf w.bank.pc → Leads (.endl f) s core slot w b s w1) ∧
    (top.count - 1 ≠ 0 → segOf top.start ≠ segOf w.bank.pc → (s.core core).xfer b.code top.start = .go →
      Leads (.endl f) s core slot w b (s.cancelDrop core b.code (segOf top.start)) w1) ∧
    (top.count - 1 = 0 → Leads (.endl f) s core slot w b s
      ((w.setBank { w.bank with loops := rest }).atPc (nextPc s core b w)))) ∧
  (∀ f s core slot w b top rest g, Ready (.breakLoop f) s core slot w b → (ctxFor (.breakLoop f) s core slot w).act ≠ 0 →
    w.bank.loops = top :: rest → top.cdepth = w.bank.ctl.length →
    (s.core core).segment b.code (segOf top.stop) = some g → g.loading = false →
    let x := (s.core core).nextValid b.code top.stop
    let w1 := (w.setBank { w.bank with loops := rest }).goTo x
    (segOf x = segOf w.bank.pc → Leads (.breakLoop f) s core slot w b s w1) ∧
    (segOf x ≠ segOf w.bank.pc → (s.core core).xfer b.code x = .go →
      Leads (.breakLoop f) s core slot w b (s.cancelDrop core b.code (segOf x)) w1))

/-- CALL and CALLX push the return address and run the called lanes with no reconvergence point; BRX and CALLX run the groups of
lanes with distinct targets in ascending order, a BRX after the lanes that do not branch (R105, R108, R109). -/
def Obligations.CallsAndIndirect : Prop :=
  (∀ f s core slot w b t, Ready (.call f) s core slot w b →
    let c := ctxFor (.call f) s core slot w
    c.act ≠ 0 → (s.core core).relative b.code w.bank.pc f.target.toInt = .ok t → w.bank.ctl.length + 1 ≤ c.stackLimit →
    Leads (.call f) s core slot w b s ((w.setBank { w.bank with
      ctl := ⟨.call, nextPc s core b w, w.path, w.bank.rpc⟩ :: w.bank.ctl, mask := c.act, rpc := none }).goTo t)) ∧
  (∀ f s core slot w b t1 m1 rest, Ready (.brx f) s core slot w b →
    let c := ctxFor (.brx f) s core slot w
    let ctl := rest.map (fun (t, m) => (⟨.path, t, m, w.bank.rpc⟩ : StackEntry)) ++ w.bank.ctl
    c.act ≠ 0 → (∀ l ∈ c.lanes, (slotAt (offOf (c.lane w f.a.toNat l) % 64)).isSome) →
    targetGroups c (fun l => c.lane w f.a.toNat l) = (t1, m1) :: rest →
    (w.path &&& ~~~c.act = 0 → ctl.length ≤ c.stackLimit → segOf t1 = segOf w.bank.pc → (s.core core).xfer b.code t1 = .go →
      Leads (.brx f) s core slot w b s ((w.setBank { w.bank with ctl := ctl, mask := m1 }).goTo t1)) ∧
    (w.path &&& ~~~c.act ≠ 0 → ctl.length + 1 ≤ c.stackLimit →
      Leads (.brx f) s core slot w b s ((w.setBank { w.bank with
        ctl := ⟨.path, t1, m1, w.bank.rpc⟩ :: ctl, mask := w.path &&& ~~~c.act }).atPc (nextPc s core b w)))) ∧
  (∀ f s core slot w b t1 m1 rest, Ready (.callx f) s core slot w b →
    let c := ctxFor (.callx f) s core slot w
    let ctl := rest.map (fun (t, m) => (⟨.path, t, m, none⟩ : StackEntry)) ++
      ⟨.call, nextPc s core b w, w.path, w.bank.rpc⟩ :: w.bank.ctl
    c.act ≠ 0 → (∀ l ∈ c.lanes, (slotAt (offOf (c.lane w f.a.toNat l) % 64)).isSome) →
    targetGroups c (fun l => c.lane w f.a.toNat l) = (t1, m1) :: rest → ctl.length ≤ c.stackLimit →
    segOf t1 = segOf w.bank.pc → (s.core core).xfer b.code t1 = .go →
      Leads (.callx f) s core slot w b s ((w.setBank { w.bank with ctl := ctl, mask := m1, rpc := none }).goTo t1))

/-- RET takes its lanes off every entry above the nearest call and off the path, or ends them where there is no call; EXIT ends its
lanes, which leave the path and every entry; RECON pushes a join and sets the path's reconvergence point; NOP changes nothing and
YIELD restarts the gap, both whatever their guard (R109 to R111). -/
def Obligations.ReturnsAndExits : Prop :=
  (∀ f s core slot w b, Ready (.ret f) s core slot w b →
    let act := (ctxFor (.ret f) s core slot w).act
    act ≠ 0 →
    (∀ above call below, w.bank.ctl = above ++ call :: below → call.kind = .call → (∀ e ∈ above, e.kind ≠ .call) →
      Leads (.ret f) s core slot w b s ((w.setBank { w.bank with
        ctl := above.map (fun e => { e with mask := e.mask &&& ~~~act }) ++ call :: below, mask := w.path &&& ~~~act }).atPc
          (nextPc s core b w))) ∧
    ((∀ e ∈ w.bank.ctl, e.kind ≠ .call) → Leads (.ret f) s core slot w b s ((w.exitLanes act).atPc (nextPc s core b w)))) ∧
  (∀ f s core slot w b, Ready (.exit f) s core slot w b →
    let act := (ctxFor (.exit f) s core slot w).act
    act ≠ 0 → ∃ w1 : Wave, Leads (.exit f) s core slot w b s (w1.atPc (nextPc s core b w)) ∧ w1.exited = w.exited ||| act ∧
      w1.bank = { w.bank with ctl := w.bank.ctl.map fun e => { e with mask := e.mask &&& ~~~act }, mask := w.path &&& ~~~act } ∧
      w1.dead = w.dead) ∧
  (∀ f s core slot w b j, Ready (.recon f) s core slot w b → (ctxFor (.recon f) s core slot w).act ≠ 0 →
    (s.core core).relative b.code w.bank.pc f.target.toInt = .ok j →
    w.bank.ctl.length + 1 ≤ (ctxFor (.recon f) s core slot w).stackLimit →
    Leads (.recon f) s core slot w b s ((w.setBank { w.bank with
      ctl := ⟨.join, j, w.path, w.bank.rpc⟩ :: w.bank.ctl, rpc := some j }).atPc (nextPc s core b w))) ∧
  (∀ f s core slot w b, Ready (.nop f) s core slot w b → Leads (.nop f) s core slot w b s (w.atPc (nextPc s core b w))) ∧
  (∀ f s core slot w b, Ready (.yield f) s core slot w b →
    Leads (.yield f) s core slot w b s (({ w with producers := [], passed := 0, urgent := false } : Wave).atPc (nextPc s core b w)))

/-- JSEG goes to its address in a resident segment and cancels a pending drop of it. SEGLD writes the status of the segment and
starts its load where it is absent and room stands; SEGDROP marks it; SEGQ reports it (R101). -/
def Obligations.Segments : Prop :=
  (∀ f s core slot w b, Ready (.jseg f) s core slot w b → (ctxFor (.jseg f) s core slot w).act ≠ 0 →
    (s.core core).xfer b.code f.imm = .go →
    Leads (.jseg f) s core slot w b (s.cancelDrop core b.code (segOf f.imm)) (w.goTo f.imm)) ∧
  (∀ f s core slot w b, Ready (.segld f) s core slot w b → (ctxFor (.segld f) s core slot w).act ≠ 0 →
    let num := f.imm.toNat % 256
    let k := s.core core
    let done (st : Nat) (k1 : Core) : Prop :=
      Leads (.segld f) s core slot w b (s.setCore core k1) (((ctxFor (.segld f) s core slot w).writeG w f.d.toNat (BitVec.ofNat 64 st)).atPc
        (k1.nextValid b.code w.bank.pc))
    (∀ g, k.segment b.code num = some g →
      done (if g.loading then 2 else 1) (k.modSegment b.code num fun g => { g with dropPending := false })) ∧
    (k.segment b.code num = none →
      ((s.segEntry b.code num).1 = 0 → done 4 k) ∧
      ((s.segEntry b.code num).1 ≠ 0 → k.freeSlots.length < (s.segEntry b.code num).1 → done 3 k) ∧
      ((s.segEntry b.code num).1 ≠ 0 → (s.segEntry b.code num).1 ≤ k.freeSlots.length → done 0 { k with segs := k.segs ++
        [{ code := b.code, num, size := (s.segEntry b.code num).1, slots := k.freeSlots.take (s.segEntry b.code num).1,
           loading := true, dropPending := false, bytes := [], after := (w.uid, w.nextSerial), changed := false }] }))) ∧
  (∀ f s core slot w b, Ready (.segdrop f) s core slot w b → (ctxFor (.segdrop f) s core slot w).act ≠ 0 →
    handlerSegment (s.core core) b.code (f.imm.toNat % 256) = false →
    Leads (.segdrop f) s core slot w b
      (s.setCore core ((s.core core).modSegment b.code (f.imm.toNat % 256) fun g => { g with dropPending := true }))
      (w.atPc (nextPc s core b w))) ∧
  (∀ f s core slot w b, Ready (.segq f) s core slot w b → (ctxFor (.segq f) s core slot w).act ≠ 0 →
    let num := f.imm.toNat % 256
    let state := match (s.core core).segment b.code num with
      | none => 0
      | some g => if g.loading then 1 else if g.dropPending then 3 else 2
    Leads (.segq f) s core slot w b s (((ctxFor (.segq f) s core slot w).writeG w f.d.toNat
      (BitVec.ofNat 64 (state + (s.core core).freeSlots.length * 2 ^ 8 + (s.segEntry b.code num).1 * 2 ^ 16))).atPc (nextPc s core b w)))

/-- LD and LDC of local memory complete: a lane that passes the checks of R195 and meets no poison receives the bytes at its address, the
newest of the wave's own stores first (R210, R212, R229), in registers or as a capability, whose tag stands only with LOAD_CAP and the
core's colour. The lines missing are asked for (R222), L1 lines that the home has served past are dropped (R228), an acquire
invalidates the L1 (R231), an audited block's reads are noted (R458), and nothing else of the part changes.
LDG reads one value for the lowest active lane into a group-wide register, sign-extended for .i32, or a capability into a pair
(R213). PREF asks for the lines of the lanes that pass the checks, as far as entries are free and no wave waits for them (R214, R222).
FENCE as a release holds back the wave's later stores until those in its streams are performed at its scope, as an acquire
invalidates the L1, and as both completes once they are performed (R230 to R234). -/
def Obligations.LoadsAndFences : Prop :=
  (∀ f s core slot w b, Runs (.ld f) s core slot w b →
    let c := ctxFor (.ld f) s core slot w
    let reqs := accessReqs c w f
    let lines := s.wanted core (sizeBytes f.size.toNat) f reqs
    s.accessFault core 0 (fun _ => loadAsk f) reqs = none → Here s core w (sizeBytes f.size.toNat) reqs → s.MissRoom core lines →
    (∀ r ∈ reqs, (s.found core w f r).poison = false) →
    ∃ w1, CompletesAt (.ld f) s core slot w b (s.loaded core w.bslot (sizeBytes f.size.toNat) f lines reqs) w1 ∧
      Loaded c w w1 f.d.toNat f.size.toNat fun l => (s.found core w f (laneReq c w f l)).num) ∧
  (∀ f s core slot w b, Runs (.ldc f) s core slot w b → w.bank.OneTag →
    let c := ctxFor (.ldc f) s core slot w
    let reqs := accessReqs c w f
    let lines := s.wanted core (sizeBytes f.size.toNat) f reqs
    s.accessFault core 2 (fun _ => loadAsk f) reqs = none → Here s core w (sizeBytes f.size.toNat) reqs → s.MissRoom core lines →
    (∀ r ∈ reqs, (s.found core w f r).poison = false) →
    ∃ w1, CompletesAt (.ldc f) s core slot w b (s.loaded core w.bslot (sizeBytes f.size.toNat) f lines reqs) w1 ∧
      OnlyVec w w1 (destRegs f.d.toNat 4) ∧
      (f.d.toNat ≠ 1023 → ∀ l, l < 32 → c.live.getLsbD l = true → w1.cap f.d.toNat l =
        if c.act.getLsbD l then
          ⟨BitVec.ofNat 128 (s.found core w f (laneReq c w f l)).num,
           keepTag s core (laneReq c w f l) (s.found core w f (laneReq c w f l))⟩
        else w.cap f.d.toNat l)) ∧
  (∀ f s core slot w b, Runs (.ldg f) s core slot w b →
    let c := ctxFor (.ldg f) s core slot w
    let r := laneReq c w f c.lowest
    let lines := s.wanted core (sizeBytes f.size.toNat) f [r]
    let v := s.found core w f r
    s.accessFault core 4 (fun _ => loadAsk f) [r] = none → Here s core w (sizeBytes f.size.toNat) [r] → s.MissRoom core lines →
    v.poison = false →
    ∃ w1, CompletesAt (.ldg f) s core slot w b (s.loaded core w.bslot (sizeBytes f.size.toNat) f lines [r]) w1 ∧
      (f.size.toNat = 4 → WrotePair w w1 f.d.toNat ⟨BitVec.ofNat 128 v.num, keepTag s core r v⟩) ∧
      (f.size.toNat ≠ 4 → WroteGrp w w1 f.d.toNat
        (if f.size.toNat = 5 then BitVec.ofInt 64 (sext 32 v.num) else BitVec.ofNat 64 v.num))) ∧
  (∀ f s core slot w b, Runs (.pref f) s core slot w b →
    let c := ctxFor (.pref f) s core slot w
    let reqs := (accessReqs c w f).filter fun r =>
      (s.check (s.agent core) { need := 0, align := 1, size := 1, stored := none } r.cap r.addr).isNone
    CompletesAt (.pref f) s core slot w b
      (s.asked core (((s.core core).unasked (s.wanted core 1 f reqs)).take
        (if (s.core core).reserve = [] then 256 - (s.core core).misses.length else 0))) w) ∧
  (∀ f s core slot w b, Runs (.fence f) s core slot w b →
    (releases f = true → acquires f = true → s.released w f.scope.toNat (f.offset.toNat % 256) = true) →
    CompletesAt (.fence f) s core slot w b (s.acquired core f)
      (if releases f then w.fenced s f.scope.toNat (f.offset.toNat % 256) else w))

/-- ST and STC complete wherever the wave's store buffer takes the store, with one entry there (R211, R212, R223): its pieces hold for every
byte, of this part or another device, the value of the highest-numbered lane that writes it, and a tag only for an STC of a tagged
capability. Memory is not changed yet; an audited block's bytes go into its digest, and an audit execution keeps only those that fall in
the shadow (R461, R462). -/
def Obligations.Stores : Prop :=
  (∀ f s core slot w b, Runs (.st f) s core slot w b →
    let c := ctxFor (.st f) s core slot w
    let reqs := accessReqs c w f
    let n := sizeBytes f.size.toNat
    let val := storeVal c w f.d.toNat f.size.toNat
    s.accessFault core 1 (fun _ => { loadAsk f with need := permStore }) reqs = none → (∀ r ∈ reqs, r.va + n ≤ 2 ^ 56) →
    StoreRoom w b f.stream.toNat →
    ∃ parts, CompletesAt (.st f) s core slot w b (s.digestStore core w.bslot (laneBytes n val reqs))
        (w.stored c s f.stream.toNat 1 (releases f) f.scope.toNat (infoOf 0 f c.act 0 (memLanes reqs val)) parts) ∧
      (∀ p ∈ parts, p.home.place.1 ≠ 2 ∧ ∃ d, p.eff = .bytes d false) ∧
      (∀ va, va < 2 ^ 56 →
        parts.findSome? (fun p => p.byteAt (if s.isRemote va then 1 else 0) (if s.isRemote va then devOf va else 0) (localOf va)) =
        if s.storeKept core w.bslot va then
          (reqs.reverse.find? fun r => r.va ≤ va ∧ va < r.va + n).map fun r => (toBytes n (val r.lane)).getD (va - r.va) 0
        else none)) ∧
  (∀ f s core slot w b, Runs (.stc f) s core slot w b →
    let c := ctxFor (.stc f) s core slot w
    let reqs := accessReqs c w f
    let cap (l : Nat) : Cap := c.quadCap w f.d.toNat l
    let val (l : Nat) : Nat := (cap l).bits.toNat
    s.accessFault core 3 (fun r => { need := permStore ||| (if (cap r.lane).tag then permStoreCap else 0), align := 16, size := 16,
                                     stored := some (cap r.lane) }) reqs = none →
    StoreRoom w b f.stream.toNat →
    ∃ info parts, CompletesAt (.stc f) s core slot w b (s.digestStore core w.bslot (laneBytes 16 val reqs))
        (w.stored c s f.stream.toNat 3 (releases f) f.scope.toNat info parts) ∧
      ∀ p, p ∈ parts ↔ ∃ r ∈ reqs, s.storeKept core w.bslot r.va = true ∧ (∀ r2 ∈ reqs, r2.va = r.va → r2.lane ≤ r.lane) ∧
        p = ⟨homeOfVa s reqs r.lane r.va, .bytes (toBytes 16 (val r.lane)) (cap r.lane).tag⟩)

/-- ATOM and CAS of local memory complete: the lanes of one place act in ascending order, each receives what the ones before it left, and
the last value stays in memory; no other byte changes. RED buffers the same chains, of this part or another device, as one store (R268 to
R271). An audited block is excluded, and an audit execution keeps only what falls in the shadow (R459, R462). -/
def Obligations.Atomics : Prop :=
  (∀ f s core slot w b, Runs (.atom f) s core slot w b →
    let c := ctxFor (.atom f) s core slot w
    let reqs := accessReqs c w f
    let n := sizeBytes f.size.toNat
    let chains := chainsOf c w f.cache.toNat f.size.toNat f.d.toNat (reqs.map fun r => (r.lane, r.va))
    let s1 := chains.foldl (fun s e => s.dropL1 core (localOf e.1)) s
    let r := (s1.exclude core w.bslot).applyChains (s1.storeKept core w.bslot) chains
    s.atomicFault core 5 { loadAsk f with need := permLoad ||| permStore ||| permAtomic } reqs = none →
    (∀ r ∈ reqs, s.isRemote r.va = false ∧ s.poisoned (localOf r.va) n = false ∧
      (s.ownParts w).any (fun p => p.touches 0 0 (localOf r.va) n) = false) →
    s.ordered w (releases f) f.scope.toNat = true →
    ∃ w1, CompletesAt (.atom f) s core slot w b (r.2.2.acquired core f) w1 ∧
      Loaded c { w with aggmrg := w.aggmrg + BitVec.ofNat 32 (reqs.length - chains.length) } w1 f.d.toNat f.size.toNat
        fun l => kgetD r.1 l 0) ∧
  (∀ f s core slot w b, Runs (.cas f) s core slot w b →
    let c := ctxFor (.cas f) s core slot w
    let reqs := accessReqs c w f
    let n := sizeBytes f.size.toNat
    let chains := chainsOf c w 8 f.size.toNat f.d.toNat (reqs.map fun r => (r.lane, r.va))
    let s1 := chains.foldl (fun s e => s.dropL1 core (localOf e.1)) s
    let r := (s1.exclude core w.bslot).applyChains (s1.storeKept core w.bslot) chains
    s.atomicFault core 7 { loadAsk f with need := permLoad ||| permStore ||| permAtomic } reqs = none →
    (∀ r ∈ reqs, s.isRemote r.va = false ∧ s.poisoned (localOf r.va) n = false ∧
      (s.ownParts w).any (fun p => p.touches 0 0 (localOf r.va) n) = false) →
    s.ordered w (releases f) f.scope.toNat = true →
    ∃ w1, CompletesAt (.cas f) s core slot w b (r.2.2.acquired core f) w1 ∧
      Loaded c { w with aggmrg := w.aggmrg + BitVec.ofNat 32 (reqs.length - chains.length) } w1 f.d.toNat f.size.toNat
        fun l => kgetD r.1 l 0) ∧
  (∀ f s core slot w b, Runs (.red f) s core slot w b →
    let c := ctxFor (.red f) s core slot w
    let reqs := accessReqs c w f
    let chains := chainsOf c w f.cache.toNat f.size.toNat f.d.toNat (reqs.map fun r => (r.lane, r.va))
    let lane (k : Chain) : Nat := (k.lanes.head?.map fun x => x.1).getD 0
    s.atomicFault core 6 { loadAsk f with need := permStore ||| permAtomic } reqs = none → StoreRoom w b f.stream.toNat →
    ∃ info, CompletesAt (.red f) s core slot w b
      (chains.foldl (fun s e => if s.isRemote e.1 then s else s.dropL1 core (localOf e.1)) (s.exclude core w.bslot))
      { w.stored c s f.stream.toNat 6 (releases f) f.scope.toNat info ((chains.filter fun e => s.storeKept core w.bslot e.1).map
          fun e => ⟨homeOfVa s reqs (lane e.2) e.1, .chain e.2⟩) with
        aggmrg := w.aggmrg + BitVec.ofNat 32 (reqs.length - chains.length) }) ∧
  (∀ (s : State) (a : Nat) (k : Chain), s.poisoned a k.size = false → ∀ va, localOf va = a →
    let r := s.applyChains (fun _ => true) [(va, k)]
    (∀ x, r.2.2.byte x = if a ≤ x ∧ x < a + k.size then (toBytes k.size (k.run (s.numAt a k.size)).2).getD (x - a) 0 else s.byte x) ∧
    (∀ u, u ∈ r.2.2.tags ↔ u ∉ tagUnits a k.size ∧ u ∈ s.tags))

/-- LDS and STS complete: a lane that passes the checks of R245 and meets no error receives the bytes at its place, the newest of the
wave's own stores first (R250); a store is one entry of the wave's store buffer, whose pieces hold for every byte the value of the
highest-numbered lane that writes it (R251). -/
def Obligations.ScratchAccess : Prop :=
  (∀ f s core slot w b, Runs (.lds f) s core slot w b →
    let c := ctxFor (.lds f) s core slot w
    let reqs := padReqs c w b f
    let n := sizeBytes f.size.toNat
    let found := s.padFound b (s.padParts w) n
    s.padFault b 0 (sizeAlign f.size.toNat) n reqs = none → padPending (s.padParts w) n reqs = false →
    (∀ r ∈ reqs, (found r).poison = false) →
    ∃ w1, CompletesAt (.lds f) s core slot w b (s.acquired core f) w1 ∧
      Loaded c w w1 f.d.toNat f.size.toNat fun l => (found (padReq c w b f l)).num) ∧
  (∀ f s core slot w b, Runs (.sts f) s core slot w b →
    let c := ctxFor (.sts f) s core slot w
    let reqs := padReqs c w b f
    let n := sizeBytes f.size.toNat
    s.padFault b 1 (sizeAlign f.size.toNat) n reqs = none → (∀ r ∈ reqs, r.off.toNat + n ≤ 2 ^ 24) →
    StoreRoom w b f.stream.toNat →
    ∃ info parts, Completes (.sts f) s core slot w b (w.stored c s f.stream.toNat 16 (releases f) f.scope.toNat info parts) ∧
      (∀ p ∈ parts, ∃ r a d, p = ⟨.spad r a, .bytes d false⟩) ∧
      (∀ rank a, a < 2 ^ 24 → parts.findSome? (fun p => p.byteAt 2 rank a) =
        (reqs.reverse.find? fun r => r.rank = rank ∧ r.off.toNat ≤ a ∧ a < r.off.toNat + n).map fun r =>
          (toBytes n (storeVal c w f.d.toNat f.size.toNat r.lane)).getD (a - r.off.toNat) 0))

/-- LDFE of full words and STFE of empty words complete at once: an LDFE takes each word's value and, unless it keeps it, leaves the word
empty; an STFE writes each word and leaves it full. FESET sets the bits it names, and FEQ reads them (R252, R253).
ATOMS and CASS complete: each place's lanes act in ascending order on the scratchpad, and each receives what the ones before it left
(R270, R273). -/
def Obligations.FullEmptyAndScratchAtomics : Prop :=
  (∀ f s core slot w b, Runs (.ldfe f) s core slot w b →
    let c := ctxFor (.ldfe f) s core slot w
    let reqs := padReqs c w b f
    let keep := f.stream.toNat % 2 = 1
    w.fe = none → s.padFault b 2 4 4 reqs = none → s.bitError b reqs = false → padOwn s w 4 reqs = false →
    (keep ∨ s.ordered w false (padScope b reqs) = true) → AtOnce s b reqs true (decide keep) →
    ∃ w1, CompletesAt (.ldfe f) s core slot w b
        ((if keep then s else s.atWords b reqs fun r t => t.setFull (r.off.toNat / 4) false).acquire core (padScope b reqs)) w1 ∧
      Loaded c w w1 f.d.toNat f.size.toNat fun l =>
        let r := padReq c w b f l
        match s.rankBlock b r.rank with
        | some (_, _, t) => t.padNum (4 * (r.off.toNat / 4)) 4
        | none => 0) ∧
  (∀ f s core slot w b, Runs (.stfe f) s core slot w b →
    let c := ctxFor (.stfe f) s core slot w
    let reqs := padReqs c w b f
    w.fe = none → s.padFault b 3 4 4 reqs = none → s.bitError b reqs = false → padOwn s w 4 reqs = false →
    s.ordered w true (padScope b reqs) = true → AtOnce s b reqs false false →
    CompletesAt (.stfe f) s core slot w b
      (s.atWords b reqs fun r t =>
        (t.padPut (4 * (r.off.toNat / 4)) 4 (c.lane w f.d.toNat r.lane).toNat).setFull (r.off.toNat / 4) true) w) ∧
  (∀ f s core slot w b, Runs (.feset f) s core slot w b →
    let reqs := padReqs (ctxFor (.feset f) s core slot w) w b f
    s.padFault b 4 4 4 reqs = none → s.bitError b reqs = false → padOwn s w 4 reqs = false →
    s.ordered w true (padScope b reqs) = true →
    (∀ r ∈ reqs, ∀ tc tb t, s.rankBlock b r.rank = some (tc, tb, t) → t.fe = []) →
    CompletesAt (.feset f) s core slot w b
      (s.atWords b reqs fun r t => t.setFull (r.off.toNat / 4) (f.stream.toNat % 2 = 1)) w) ∧
  (∀ f s core slot w b, Runs (.feq f) s core slot w b →
    let c := ctxFor (.feq f) s core slot w
    let reqs := padReqs c w b f
    s.padFault b 5 4 4 reqs = none → s.bitError b reqs = false → padOwn s w 4 reqs = false →
    ∃ w1, CompletesAt (.feq f) s core slot w b (s.acquire core (padScope b reqs)) w1 ∧
      Wrote c w w1 f.d.toNat tW32 fun l =>
        let r := padReq c w b f l
        match s.rankBlock b r.rank with
        | some (_, _, t) => if t.isFull (r.off.toNat / 4) then 1 else 0
        | none => 0) ∧
  (∀ f s core slot w b, Runs (.atoms f) s core slot w b →
    let c := ctxFor (.atoms f) s core slot w
    let reqs := padReqs c w b f
    let n := sizeBytes f.size.toNat
    let chains := chainsOf c w f.stream.toNat f.size.toNat f.d.toNat (reqs.map fun r => (r.lane, padKey r.rank r.off.toNat))
    let r := s.applyPadChains b n chains
    s.padFault b 6 n n reqs = none → s.ordered w (releases f) f.scope.toNat = true → padOwn s w n reqs = false →
    r.2.1 = 0 →
    ∃ w1, CompletesAt (.atoms f) s core slot w b (r.2.2.acquired core f) w1 ∧
      Loaded c { w with aggmrg := w.aggmrg + BitVec.ofNat 32 (reqs.length - chains.length) } w1 f.d.toNat f.size.toNat
        fun l => kgetD r.1 l 0) ∧
  (∀ f s core slot w b, Runs (.cass f) s core slot w b →
    let c := ctxFor (.cass f) s core slot w
    let reqs := padReqs c w b f
    let n := sizeBytes f.size.toNat
    let chains := chainsOf c w 8 f.size.toNat f.d.toNat (reqs.map fun r => (r.lane, padKey r.rank r.off.toNat))
    let r := s.applyPadChains b n chains
    s.padFault b 7 n n reqs = none → s.ordered w (releases f) f.scope.toNat = true → padOwn s w n reqs = false →
    r.2.1 = 0 →
    ∃ w1, CompletesAt (.cass f) s core slot w b (r.2.2.acquired core f) w1 ∧
      Loaded c { w with aggmrg := w.aggmrg + BitVec.ofNat 32 (reqs.length - chains.length) } w1 f.d.toNat f.size.toNat
        fun l => kgetD r.1 l 0) ∧
  (∀ (s : State) (b t : Block) (key tc tb n : Nat) (k : Chain), s.rankBlock b (key / 2 ^ 24) = some (tc, tb, t) →
    t.padBad (key % 2 ^ 24) n = false →
    (s.applyPadChains b n [(key, k)]).2.2 =
      s.setBlock tc tb (t.padPut (key % 2 ^ 24) n (k.run (t.padNum (key % 2 ^ 24) n)).2) ∧
    ∀ x, (t.padPut (key % 2 ^ 24) n (k.run (t.padNum (key % 2 ^ 24) n)).2).padByte x =
      if key % 2 ^ 24 ≤ x ∧ x < key % 2 ^ 24 + n then
        (toBytes n (k.run (t.padNum (key % 2 ^ 24) n)).2).getD (x - key % 2 ^ 24) 0
      else t.padByte x)

/-- BINIT and ARRIVE complete with one store in stream 0, applied later at the object's home (R258, R260); WAIT completes once the phase
has moved on, as an acquire, and TRYWAIT at once, with the answer in its predicate and a false answer yielding (R261).
BAR arrives once, when the wave's earlier stores are performed, and waits; it completes, as an acquire, when the phase has moved on.
The phase moves on when every wave that has not retired has arrived (R267). -/
def Obligations.Barriers : Prop :=
  (∀ f s core slot w b r tc tb t, Runs (.binit f) s core slot w b →
    let c := ctxFor (.binit f) s core slot w
    let o := r.off.toNat
    let n := s.clusterSize b
    let masks := (List.range 8).map fun k =>
      if n ≤ k || (f.scope.toNat = 1 && k ≠ r.rank) || w.dead.getLsbD k then (0 : Word)
      else c.lane w f.d.toNat k &&& BitVec.ofNat 32 (2 ^ b.waves - 1)
    (padReqs c w b f).head? = some r → s.padCheck b 128 128 r = none → s.rankBlock b r.rank = some (tc, tb, t) →
    t.padBad o 128 = false → ((t.object o).valid = true → ∀ a ∈ (t.object o).arrd, a = 0) →
    (o ∈ t.registry ∨ t.registry.length < 16) → StoreRoom w b 0 →
    ∃ info, Completes (.binit f) s core slot w b
      ((w.poisonIf ((List.range 8).any fun k => w.dead.getLsbD k)).stored c s 0 17 false 0 info
        [⟨.spad r.rank o, .binit f.scope.toNat masks⟩])) ∧
  (∀ f s core slot w b tc tb t, Runs (.arrive f) s core slot w b →
    let c := ctxFor (.arrive f) s core slot w
    let r := barrierReq c w b (f.args .arrive false)
    s.barrierCheck b 9 r (some (w.wblk, b.rank)) = none → s.rankBlock b r.rank = some (tc, tb, t) → StoreRoom w b 0 →
    ∃ info, Completes (.arrive f) s core slot w b (w.stored c s 0 18 (f.sub.toNat % 2 = 0) (t.object r.off.toNat).scope info
      [⟨.spad r.rank r.off.toNat, .arrive (f.sub.toNat.testBit 1) w.wblk b.rank f.d.toNat c.act w.level w.nextSerial⟩])) ∧
  (∀ f s core slot w b tc tb t, Runs (.wait f) s core slot w b →
    let c := ctxFor (.wait f) s core slot w
    let r := barrierReq c w b (f.args .wait false)
    s.waitCheck b w r = none → s.rankBlock b r.rank = some (tc, tb, t) →
    (t.object r.off.toNat).phase ≠ c.low32 w f.c.toNat % 65536 →
    CompletesAt (.wait f) s core slot w b (s.acquire core (t.object r.off.toNat).scope) w) ∧
  (∀ f s core slot w b tc tb t, Runs (.trywait f) s core slot w b →
    let c := ctxFor (.trywait f) s core slot w
    let r := barrierReq c w b (f.args .trywait false)
    let moved := (t.object r.off.toNat).phase ≠ c.low32 w f.c.toNat % 65536
    s.barrierCheck b 11 r none = none → s.rankBlock b r.rank = some (tc, tb, t) →
    ∃ w1, CompletesAt (.trywait f) s core slot w b (if moved then s.acquire core (t.object r.off.toNat).scope else s)
        (if moved then w1 else { w1 with producers := [], passed := 0, urgent := false }) ∧
      OnlyPred w w1 (destRegs f.d.toNat 1) ∧
      (f.d.toNat ≠ 1023 → ∀ l, l < 32 → (w1.bank.pred f.d.toNat).getLsbD l =
        if c.act.getLsbD l then decide moved else (w.bank.pred f.d.toNat).getLsbD l)) ∧
  (∀ f s core slot w b ph cluster, Runs (.bar f) s core slot w b → w.barWait = some (cluster, ph) →
    s.barPhaseOf b (decide (f.sub.toNat % 2 = 1)) ≠ ph →
    CompletesAt (.bar f) s core slot w b (s.acquire core (if f.sub.toNat % 2 = 1 then 2 else 1)) w) ∧
  (∀ f s core slot w b, Runs (.bar f) s core slot w b → w.barWait = none →
    let cluster := decide (f.sub.toNat % 2 = 1)
    s.ordered w true (if cluster then 2 else 1) = true →
    ∃ t w1 b1, exec (.bar f) s = .next t ∧ t.wave core slot = some w1 ∧ t.block core w.bslot = some b1 ∧
      w1.bank = w.bank ∧ w1.waiting = .implicitBarrier ∧ w1.barWait = some (cluster, s.barPhaseOf b cluster) ∧
      b1 = (if cluster then b else { b with barDone := nins b.barDone w.wblk }) ∧
      t.clusters = if cluster then kmod s.clusters b.cluster fun k => { k with arrived := k.arrived ++ [(b.rank, w.wblk)] }
        else s.clusters) ∧
  (∀ core bslot s b, s.block core bslot = some b → b.barDone ≠ [] → (∀ i < b.waves, i ∉ b.gone → i ∈ b.barDone) →
    exec (.implicitBarrierComplete core bslot false) s =
      .next (s.setBlock core bslot { b with barPhase := b.barPhase + 1, barDone := [] })) ∧
  (∀ core bslot s b k, s.block core bslot = some b → kget s.clusters b.cluster = some k → k.arrived ≠ [] →
    (∀ r < k.members.length, ∀ i < b.waves, (r, i) ∉ k.gone → (r, i) ∈ k.arrived) →
    exec (.implicitBarrierComplete core bslot true) s =
      .next { s with clusters := kset s.clusters b.cluster { k with phase := k.phase + 1, arrived := [] } })

/-- MMA, MMAS, ZLD, ZST and ZCLR fire where they may and their checks pass (R285, R300, R302, R305); one that fails a check stops the
sequencer, with a trap held for the block's lowest-numbered live wave or with a halting fault (R286), the tile's number first (R274).
A tile operation's result point leaves in each element of its tile what R294 to R296, R301, R303 and R305 give, with the tag of the
operation, and no other tile changes; a ZST leaves its tile, writes its rows to scratchpad and gives its buffer slot on. BFREE and NBSIG
take effect later, from the head of the deferral queue (R306). -/
def Obligations.TileOperations : Prop :=
  (∀ f, Fires (.mma f) .mma f) ∧ (∀ f, Fires (.mmas f) .mmas f) ∧ (∀ f, Fires (.zld f) .zld f) ∧ (∀ f, Fires (.zst f) .zst f) ∧
  (∀ f, Fires (.zclr f) .zclr f) ∧
  (∀ op f s core bslot b, b.nTiles ≤ f.tile.toNat → fireStop op f core bslot b s = some (.fault 20 1)) ∧
  (∀ core bslot s b i f, s.block core bslot = some b → b.seqr.due (s.now (dieOf core)) = some i → b.seqr.flights[i]? = some f →
    (f.tile ∈ b.badTiles → ∃ fmt, f.op = .zld fmt ∨ f.op = .zclr fmt) →
    ∃ b1, exec (.tileOperationResultPoint core bslot) s = .next (s.setBlock core bslot b1) ∧
      b1.seqr.flights.length + 1 = b.seqr.flights.length ∧ (∀ z, z ≠ f.tile → b1.tile z = b.tile z) ∧
      (∀ fmt, f.op = .mma fmt → (b1.tile f.tile).tag = accTag fmt ∧ b1.spad = b.spad ∧
        ∀ i j, i < matRows fmt → j < matRows fmt → (b1.tile f.tile).elem (fmt = tF64) i j =
          mmaElem fmt (f.inRegs 0) (f.inRegs 1) ((b.tile f.tile).elem (fmt = tF64) i j) (f.rowOf 0 i) (f.rowOf 1 j)
            % 2 ^ (if fmt = tF64 then 64 else 32)) ∧
      (∀ fmt, f.op = .mmas fmt → (b1.tile f.tile).tag = 3 ∧ b1.spad = b.spad ∧
        ∀ i j, i < 64 → j < 64 → (b1.tile f.tile).elem false i j =
          mmasElem fmt (f.inRegs 0) (f.inRegs 1) ((b.tile f.tile).elem false i j) (f.rowOf 0 i) (f.rowOf 1 j) (f.rowOf 2 i)
            (f.rowOf 3 j) % 2 ^ 32) ∧
      (∀ fmt, f.op = .zld fmt → (b1.tile f.tile).tag = moveTag fmt ∧ b1.spad = b.spad ∧
        ∀ i j, i < moveRows fmt → j < moveRows fmt → (b1.tile f.tile).elem (fmt = tF64) i j =
          if fmt = tF64 then field (f.rowOf 0 i) (64 * j) 64 else field (f.rowOf 0 i) (32 * j) 32) ∧
      (∀ fmt, f.op = .zclr fmt → (b1.tile f.tile).tag = moveTag fmt ∧ b1.spad = b.spad ∧
        ∀ n, (b1.tile f.tile).word n = 0) ∧
      (∀ fmt start pitch rot buf, f.op = .zst fmt start pitch rot buf → b1.tile f.tile = b.tile f.tile ∧
        b1.spad = (b.storeRows start pitch rot
          (((f.data.head?).getD ((List.range 64).map (b.tile f.tile).row)).take (moveRows fmt))).spad ∧
        b1.bufs = (match buf with | some n => (b.modBuf n fun u => u.advHead 1).bufs | none => b.bufs))) ∧
  (∀ core bslot s b u n after rest, s.block core bslot = some b → b.seqr.queue = .bfree u n after :: rest →
    b.deferReady (s.now (dieOf core)) false = true →
    exec (.bfreeApplied core bslot) s =
      .next (s.setBlock core bslot ({ b with seqr := { b.seqr with queue := rest } }.modBuf u fun x => x.advTail n))) ∧
  (∀ core bslot s b k n after res rest, s.block core bslot = some b → b.seqr.queue = .nbsig k n after res :: rest →
    b.deferReady (s.now (dieOf core)) false = true →
    exec (.nbsigApplied core bslot) s =
      .next (s.setBlock core bslot { b with seqr := { b.seqr with queue := rest },
                                            nbc := lmod b.nbc k (· + BitVec.ofNat 32 n) }))

/-- BWAIT and NBSW complete when their buffer or count has reached what they ask, BFREE and NBSIG when the deferral queue takes them;
SLOOP, SENDL, SEND and SNOP move the stream (R306 to R308). -/
def Obligations.SequencerControl : Prop :=
  (∀ f s core bslot b, SeqReady (.bwait f) s core bslot b → b.seqBehind (s.now (dieOf core)) = false →
    let u := b.buf f.bufA.toNat
    u.en = true → f.va.toNat ≤ u.nslot → f.va.toNat ≤ (if u.out then u.nslot - u.held else u.held) →
    SeqCompletes (.bwait f) s core bslot { b with seqr := b.seqr.moved (s.core core) b.code }) ∧
  (∀ f s core bslot b, SeqReady (.bfree f) s core bslot b → b.seqBehind (s.now (dieOf core)) = false →
    let u := b.buf f.bufA.toNat
    b.seqr.queue.length < 4 → u.en = true → u.out = false → f.va.toNat ≤ u.nslot →
    SeqCompletes (.bfree f) s core bslot { b with seqr := { b.seqr.moved (s.core core) b.code with
      queue := b.seqr.queue ++ [.bfree f.bufA.toNat f.va.toNat b.seqr.last] } }) ∧
  (∀ f s core bslot b, SeqReady (.nbsig f) s core bslot b → b.seqBehind (s.now (dieOf core)) = false → b.seqr.queue.length < 4 →
    SeqCompletes (.nbsig f) s core bslot { b with seqr := { b.seqr.moved (s.core core) b.code with
      queue := b.seqr.queue ++ [.nbsig f.bufO.toNat f.va.toNat b.seqr.last (f.asrc.toNat = 1)] } }) ∧
  (∀ f s core bslot b, SeqReady (.nbsw f) s core bslot b → b.seqBehind (s.now (dieOf core)) = false →
    let n := f.bufO.toNat
    let t := b.seqr.marks.getD n 0 + f.va.setWidth 32
    reached (b.nbc.getD n 0) t = true →
    SeqCompletes (.nbsw f) s core bslot { b with seqr := { b.seqr.moved (s.core core) b.code with
      marks := lmod b.seqr.marks n fun _ => t } }) ∧
  (∀ f s core bslot b e, SeqReady (.sloop f) s core bslot b →
    (s.core core).relative b.code b.seqr.pc (sext 19 (f.bufO ++ f.bufB ++ f.bufA ++ f.tile).toNat) = .ok e →
    (f.asrc.toNat = 1 → ((s.seqLine core bslot).waveOf core bslot f.wv.toNat).isSome ∧
      (s.seqLine core bslot).grpBad core bslot f.wv.toNat [2 * f.ga.toNat] = false) →
    let n := if f.asrc.toNat = 0 then f.va.toNat + f.vb.toNat * 2 ^ 10
      else ((s.seqLine core bslot).blockGrp core bslot f.wv.toNat (2 * f.ga.toNat)).toNat % 2 ^ 32
    (n = 0 → SeqCompletes (.sloop f) s core bslot { b with seqr := b.seqr.sent ((s.core core).nextValid b.code e) }) ∧
    (n ≠ 0 → b.seqr.loops.length ≠ 4 → SeqCompletes (.sloop f) s core bslot { b with seqr :=
      { b.seqr.moved (s.core core) b.code with loops := ⟨n, (s.core core).nextValid b.code b.seqr.pc, 0⟩ :: b.seqr.loops } })) ∧
  (∀ f s core bslot b top rest, SeqReady (.sendl f) s core bslot b → b.seqr.loops = top :: rest →
    (top.count - 1 ≠ 0 → SeqCompletes (.sendl f) s core bslot { b with seqr :=
      { b.seqr.sent top.start with loops := { top with count := top.count - 1, t := top.t + 1 } :: rest } }) ∧
    (top.count - 1 = 0 → SeqCompletes (.sendl f) s core bslot { b with seqr :=
      { b.seqr.moved (s.core core) b.code with loops := rest } })) ∧
  (∀ f s core bslot b, SeqReady (.send f) s core bslot b →
    SeqCompletes (.send f) s core bslot { b with seqr := { b.seqr.sent b.seqr.pc with status := 5 } }) ∧
  (∀ f s core bslot b, SeqReady (.snop f) s core bslot b →
    SeqCompletes (.snop f) s core bslot { b with seqr := b.seqr.moved (s.core core) b.code })

/-- MFENCE completes once no scratchpad store of the wave is buffered and no token of its arrivals is on its way, and makes what the wave has
written ready for the sequencer, which an NBAR or a BADV then signals (R291, R310). NBAR adds to a numbered count, NBWAIT completes once
the count is reached, BADV moves a buffer's pointer where there is room, BQRY reads both, and ZREAD and ZWRITE move rows of an idle tile
(R311 to R313). -/
def Obligations.TilesFromWaves : Prop :=
  (∀ f s core slot w b, Runs (.mfence f) s core slot w b →
    (∀ e ∈ w.sb, ∀ p ∈ e.parts, p.home.place.1 ≠ 2) → pendingTokens w (s.core core).queue = [] →
    Completes (.mfence f) s core slot w b { w with unfenced := [], unsent := w.unfenced ++ w.unsent }) ∧
  (∀ f s core slot w b, Runs (.nbar f) s core slot w b →
    CompletesAt (.nbar f) s core slot w b (s.setBlock core w.bslot { b with
      nbc := lmod b.nbc (f.sub.toNat % 16) (· + BitVec.ofNat 32 ((ctxFor (.nbar f) s core slot w).low32 w f.a.toNat)) })
      w.signalled) ∧
  (∀ f s core slot w b, Runs (.nbwait f) s core slot w b →
    reached (b.nbc.getD (f.sub.toNat % 16) 0) (BitVec.ofNat 32 ((ctxFor (.nbwait f) s core slot w).low32 w f.a.toNat)) = true →
    Completes (.nbwait f) s core slot w b w) ∧
  (∀ f s core slot w b, Runs (.badv f) s core slot w b →
    let i := f.sub.toNat % 16
    let u := b.buf i
    let n := (ctxFor (.badv f) s core slot w).low32 w f.a.toNat
    (n = 0 → Completes (.badv f) s core slot w b w) ∧
    (n ≠ 0 → u.en = true → u.out = false → u.held + n ≤ u.nslot →
      CompletesAt (.badv f) s core slot w b (s.setBlock core w.bslot (b.modBuf i fun u => u.advHead n)) w.signalled) ∧
    (n ≠ 0 → u.en = true → u.out = true → n ≤ u.nslot → n ≤ u.held →
      CompletesAt (.badv f) s core slot w b (s.setBlock core w.bslot (b.modBuf i fun u => u.advTail n)) w.signalled)) ∧
  (∀ f s core slot w b, Runs (.bqry f) s core slot w b →
    let c := ctxFor (.bqry f) s core slot w
    let u := b.buf (f.sub.toNat % 16)
    ∃ w1, Completes (.bqry f) s core slot w b w1 ∧ OnlyVec w w1 (destRegs f.d.toNat 2) ∧
      (f.d.toNat ≠ 1023 → ∀ l, l < 32 → c.live.getLsbD l = true →
        w1.lane f.d.toNat l = (if c.act.getLsbD l then BitVec.ofNat 32 u.tail else w.lane f.d.toNat l) ∧
        w1.lane (f.d.toNat + 1) l = (if c.act.getLsbD l then BitVec.ofNat 32 u.head else w.lane (f.d.toNat + 1) l))) ∧
  (∀ f s core slot w b, Runs (.zread f) s core slot w b →
    let c := ctxFor (.zread f) s core slot w
    let z := f.sub.toNat % 128
    let t := b.tile z
    let g := c.low32 w f.a.toNat
    let d := f.d.toNat
    tileStop s core b z = none →
    (f.ty.toNat ≠ tF64 → ∃ w1, Completes (.zread f) s core slot w b w1 ∧ OnlyVec w w1 (destRegs d f.c.toNat) ∧
      (d ≠ 1023 → ∀ k l, k < f.c.toNat → l < 32 → c.live.getLsbD l = true → w1.lane (d + k) l =
        if c.act.getLsbD l then t.word (32 * ((g + k) % 128) + l) else w.lane (d + k) l)) ∧
    (f.ty.toNat = tF64 → (t.tag = 11 ∨ t.tag = 0) →
      ∃ w1, Completes (.zread f) s core slot w b w1 ∧ OnlyVec w w1 (destRegs d (2 * f.c.toNat)) ∧
      (d ≠ 1023 → ∀ k l, k < 2 * f.c.toNat → l < 32 → c.live.getLsbD l = true → w1.lane (d + k) l =
        if c.act.getLsbD l then t.word (64 * ((g + k / 2) % 32) + 2 * l + k % 2) else w.lane (d + k) l))) ∧
  (∀ f s core slot w b, Runs (.zwrite f) s core slot w b →
    let c := ctxFor (.zwrite f) s core slot w
    let z := f.sub.toNat % 128
    let t := b.tile z
    let g := c.low32 w f.a.toNat
    let src (k l : Nat) : Word := if f.b.toNat = 1023 then 0 else c.lane w (f.b.toNat + k) l
    tileStop s core b z = none → (f.ty.toNat = tB32 ∨ t.tag = 0 ∨ t.tag = moveTag f.ty.toNat) →
    ∃ b1, CompletesAt (.zwrite f) s core slot w b (s.setBlock core w.bslot b1) w ∧
      (∀ z2, z2 ≠ z → b1.tile z2 = b.tile z2) ∧
      (b1.tile z).tag = (if f.ty.toNat = tB32 then t.tag else moveTag f.ty.toNat) ∧
      (f.ty.toNat ≠ tF64 → ∀ k l, k < 128 → l < 32 → (b1.tile z).word (32 * ((g + k) % 128) + l) =
        if k < f.c.toNat ∧ c.act.getLsbD l = true then src k l else t.word (32 * ((g + k) % 128) + l)) ∧
      (f.ty.toNat = tF64 → ∀ k l h, k < 32 → l < 32 → h < 2 → (b1.tile z).word (64 * ((g + k) % 32) + 2 * l + h) =
        if k < f.c.toNat ∧ c.act.getLsbD l = true then src (2 * k + h) l else t.word (64 * ((g + k) % 32) + 2 * l + h)))

/-- INVK, where no FENCE holds it back, starts the lowest free channel of the partition for a valid block and answers with the command's
handle, or answers why it did not; CHSTAT, CHWAIT of a command that runs no more, and CHCAN report a command's status, CHCAN having ended
one that runs, as done where only its completion was left; CBSEAL seals a block capability and CBCHK answers its validation code (R317,
R322 to R324, R328). -/
def Obligations.Commands : Prop :=
  (∀ f s core slot w b, Runs (.invk f) s core slot w b → s.ordered w false 0 = true →
    let c := ctxFor (.invk f) s core slot w
    let s0 := s.exclude core w.bslot
    let cap := c.quadCap w f.a.toNat c.lowest
    let code := s0.validate core b true cap
    (code ≠ 0 → ∃ w1, CompletesAt (.invk f) s core slot w b s0 w1 ∧ WroteGrp w w1 f.d.toNat (BitVec.ofNat 64 (2 ^ 63 + code))) ∧
    (code = 0 → ∃ n w1 ch, s0.freeChannel core b = some n ∧
      let num := 16 * groupOf core + n
      (ch.cmd.collective = false → CompletesAt (.invk f) s core slot w b (s0.setChannel num ch) w1) ∧
      (ch.cmd.collective = true →
        CompletesAt (.invk f) s core slot w b (((s0.setChannel num ch).setWave core slot w1).joinGroup num ch) w1) ∧
      WroteGrp w w1 f.d.toNat (handleWord num ch.inv) ∧ ch.status = 1 ∧ ch.done = 0 ∧ ch.code = 0 ∧
      ch.image = s0.bytesAt (localOf (capCursor cap.bits)) 128 ∧ ch.colour = (s0.core core).latch ∧
      ch.inv = (match s0.channel num with | some old => (old.inv + 1) % 2 ^ 32 | none => 1) ∧
      kget ch.owners ch.inv = some b.env.top)) ∧
  (∀ f s core slot w b, Runs (.chstat f) s core slot w b →
    let c := ctxFor (.chstat f) s core slot w
    let v := match s.handleOf b.env.top (c.readG w f.a.toNat) with | .error v => v | .ok (_, ch) => ch.word
    ∃ w1, CompletesAt (.chstat f) s core slot w b (if v.toNat % 256 = 2 then s.acquire core 3 else s) w1 ∧
      WroteGrp w w1 f.d.toNat v) ∧
  (∀ f s core slot w b, Runs (.chwait f) s core slot w b →
    let c := ctxFor (.chwait f) s core slot w
    let r := s.handleOf b.env.top (c.readG w f.a.toNat)
    let v := match r with | .error v => v | .ok (_, ch) => ch.word
    (∀ num ch, r = .ok (num, ch) → ch.status ≠ 1) →
    ∃ w1, CompletesAt (.chwait f) s core slot w b (if v.toNat % 256 = 2 then s.acquire core 3 else s) w1 ∧
      WroteGrp w w1 f.d.toNat v) ∧
  (∀ f s core slot w b num ch, Runs (.chcan f) s core slot w b →
    s.handleOf b.env.top ((ctxFor (.chcan f) s core slot w).readG w f.a.toNat) = .ok (num, ch) →
    (ch.status = 1 → ch.written = false →
      ∃ w1, CompletesAt (.chcan f) s core slot w b
          (if ch.cmd.collective then (s.endChannel num 3 0).sendControl ch 13 else s.endChannel num 3 0) w1 ∧
        WroteGrp w w1 f.d.toNat { ch with status := 3, code := 0 }.word) ∧
    (let ch1 := { ch with status := if ch.code = 0 then 2 else 4 }
     ch.status = 1 → ch.written = true →
      ∃ w1, CompletesAt (.chcan f) s core slot w b
          (if ch.code = 0 then (s.finishChannel num ch).acquire core 3 else s.finishChannel num ch) w1 ∧
        WroteGrp w w1 f.d.toNat ch1.word) ∧
    (ch.status ≠ 1 → ∃ w1, CompletesAt (.chcan f) s core slot w b (if ch.word.toNat % 256 = 2 then s.acquire core 3 else s) w1 ∧
      WroteGrp w w1 f.d.toNat ch.word)) ∧
  (∀ f s core slot w b, Runs (.cbseal f) s core slot w b → w.bank.OneTag →
    let c := ctxFor (.cbseal f) s core slot w
    let k := c.quadCap w f.a.toNat c.lowest
    let a := capCursor k.bits
    ∃ w1, Completes (.cbseal f) s core slot w b w1 ∧ OnlyVec w w1 (destRegs f.d.toNat 4) ∧
      (f.d.toNat ≠ 1023 → ∀ l, l < 32 → c.act.getLsbD l = true →
        (w1.cap f.d.toNat l).tag = (k.tag && capOtype k.bits = 0 && holds (capGrants k.bits) (permLoad ||| permInvoke)
          && capColour k.bits = (s.core core).latch && a % 128 = 0 && capBase k.bits ≤ a && (a + 128 : Nat) ≤ capTop k.bits) ∧
        capOtype (w1.cap f.d.toNat l).bits = 1 ∧ capCursor (w1.cap f.d.toNat l).bits = a ∧
        capPerms (w1.cap f.d.toNat l).bits = (permInvoke ||| (capPerms k.bits &&& permGlobal)) ∧
        capColour (w1.cap f.d.toNat l).bits = capColour k.bits ∧ capClass (w1.cap f.d.toNat l).bits = capClass k.bits ∧
        capBase (w1.cap f.d.toNat l).bits = a ∧ capTop (w1.cap f.d.toNat l).bits = a + 128)) ∧
  (∀ f s core slot w b, Runs (.cbchk f) s core slot w b →
    let c := ctxFor (.cbchk f) s core slot w
    ∃ w1, Completes (.cbchk f) s core slot w b w1 ∧ WroteGrp w w1 f.d.toNat
      (BitVec.ofNat 64 (s.validate core b false (c.quadCap w f.a.toNat c.lowest))))

/-- A channel's unit of a COPY within local memory moves its bytes with the tags that R326 keeps, and its engine's turn passes on (R315); a
command that has moved all its bytes, or has failed, makes its completion and ends (R325, R326, R329). A cancellation, a timeout and the
halt line end it with codes 13, 11 and 14 (R328, R330, R338), and a unit or completion for a saved block is held in its image (R383). -/
def Obligations.ChannelSteps : Prop :=
  (∀ group chan s ch, let num := 16 * group + chan
    let k := ch.cmd
    let src := capCursor k.src.bits + ch.done
    let dst := capCursor k.dst.bits + ch.done
    let n := unitSize s k dst (k.len - ch.done)
    s.channel num = some ch → ch.status = 1 → ch.code = 0 → ch.unit = none → ch.done < k.len → k.op = 0 → k.dkind = 0 →
    s.isRemote src = false → s.isRemote dst = false → rangeOf (localOf src) = .hbm → rangeOf (localOf dst) = .hbm →
    s.chanCheck ch.colour group k.src (localOf src) n = none → s.chanCheck ch.colour group k.dst (localOf dst) n = none →
    chan < 16 → s.poisoned (localOf src) n = false →
    (k.tags = true → n % 16 = 0 ∧ localOf src % 16 = 0 ∧ localOf dst % 16 = 0) →
    (∀ x, x < n → ¬(capCursor k.src.bits ≤ dst + x ∧ dst + x < capCursor k.src.bits + k.len)) →
    ∃ t, exec (.channelUnitTransfer group chan) s = .next t ∧
      t.channel num = some { ch with done := ch.done + n, since := s.now (groupDie group) } ∧
      (∀ a, t.byte a = if localOf dst ≤ a ∧ a < localOf dst + n then s.byte (localOf src + (a - localOf dst)) else s.byte a) ∧
      (∀ u, u ∈ t.tags ↔ (u ∈ s.tags ∧ ¬(localOf dst / 16 ≤ u ∧ u ≤ (localOf dst + n - 1) / 16)) ∨
        (k.tags = true ∧ ∃ i, i < n / 16 ∧ u = localOf dst / 16 + i ∧ localOf src / 16 + i ∈ s.tags ∧
          let x := s.bytesAt (localOf src + 16 * i) 16
          keepsTag ch.colour x = true ∧ s.touchesRevoked (BitVec.ofNat 128 (ofBytes x)) = false)) ∧
      t.cores = s.cores ∧ kget t.served group = some chan) ∧
  (∀ group chan s ch, s.channel (16 * group + chan) = some ch → ch.status = 1 → (ch.code ≠ 0 ∨ ch.moved ch.cmd = true) →
    (ch.cmd.ckind = 0 → exec (.commandCompletionWrite group chan) s = .next (s.finishChannel (16 * group + chan) ch)) ∧
    (let a := localOf (capCursor ch.cmd.cmpl.bits)
     ch.cmd.ckind = 1 → chan < 16 → rangeOf a = .hbm → s.chanCheck ch.colour group ch.cmd.cmpl a 8 = none →
      exec (.commandCompletionWrite group chan) s =
        .next ((s.storeNum a 8 (ch.value ch.cmd 64)).finishChannel (16 * group + chan) ch)) ∧
    (∀ c n b, let word := ch.cmd.cvoff / 4
     ch.cmd.ckind = 2 → ch.written = false → ch.queued = false → s.invoker ch = .here c n b → word ∉ b.badBits →
      b.isFull word = false →
      exec (.commandCompletionWrite group chan) s =
        .next ((((s.setBlock c n ((b.padPut (4 * word) 4 (ch.value ch.cmd 32)).setFull word true)).feChanged c n word)).finishChannel
          (16 * group + chan) ch)) ∧
    (∀ c n b, let word := ch.cmd.cvoff / 4
     ch.cmd.ckind = 2 → ch.written = false → ch.queued = false → s.invoker ch = .here c n b → word ∉ b.badBits →
      b.isFull word = true → ∃ t b1, exec (.commandCompletionWrite group chan) s = .next t ∧
        t.channel (16 * group + chan) = some { ch with queued := true } ∧ t.block c n = some { b with fe := b.fe ++ [b1] } ∧
        b1.word = word ∧ b1.op = .channel (16 * group + chan) (BitVec.ofNat 32 (ch.value ch.cmd 32))) ∧
    (∀ c n b, let u := b.buf ch.cmd.buf
     ch.cmd.ckind = 3 → ch.code = 0 → s.invoker ch = .here c n b → u.held < u.nslot →
      exec (.commandCompletionWrite group chan) s =
        .next ((s.setBlock c n (b.modBuf ch.cmd.buf fun u => u.advHead 1)).finishChannel (16 * group + chan) ch))) ∧
  (∀ (s : State) num ch, s.channel num = some ch → ∃ ch1, (s.finishChannel num ch).channel num = some ch1 ∧
    ch1.status = (if ch.code = 0 then 2 else 4) ∧ ch1.code = ch.code ∧ ch1.done = ch.done ∧ ch1.inv = ch.inv) ∧
  (∀ colour gid s num ch, s.member colour gid = some (num, ch) → s.channel num = some ch → ch.code = 0 →
    ∃ t, exec (.collectiveCancellation colour gid) s = .next t ∧ t.channel num = some { ch with code := 13 }) ∧
  (∀ group chan s ch, let num := 16 * group + chan
    s.channel num = some ch → chan < 16 → s.waitsGroup ch = true → ch.since + 500 * microsecond ≤ s.now (groupDie group) →
    ∃ t, exec (.groupTimeout group chan) s = .next t ∧ t.channel num = some { ch with code := 11 }) ∧
  (∀ group chan s ch h r, let num := 16 * group + chan
    s.channel num = some ch → chan < 16 → ch.status = 1 → kget s.halts ch.context = some h → kget s.regions ch.context = some r →
    EngineId.copy group ∈ h.stopped →
    ∃ t ch1, exec (.channelHaltStop group chan) s = .next t ∧ t.channel num = some ch1 ∧ ch1.status = 4 ∧ ch1.code = 14 ∧
      ch1.done = ch.done) ∧
  (∀ group chan s ch a img, let num := 16 * group + chan
    let k := ch.cmd
    let held (t : State) (h : HeldWrite) : State := { t with images := kset t.images a { img with held := kset img.held num h } }
    s.channel num = some ch → s.invoker ch = .saved a → kget s.images a = some img → ch.status = 1 →
    (∀ h, kget img.held num = some h → h.inv ≠ ch.inv) →
    ((ch.code ≠ 0 ∨ ch.moved k = true) → (k.ckind = 2 ∨ k.ckind = 3) →
      exec (.heldChannelWrite group chan) s = .next (held s ⟨ch.inv, [], [], true⟩)) ∧
    (∀ bs ts bad s1, ch.code = 0 → ch.moved k = false → k.dkind ≠ 0 → (k.dkind = 2 → ch.slot ≠ none) → ch.toSend k = false →
      k.writes = true → s.nextUnit num ch k = .bytes bs ts bad s1 →
      exec (.heldChannelWrite group chan) s = .next (held s1 ⟨ch.inv, bs, bad, false⟩)))

/-- SPAWN, once the wave's earlier stores are performed, reads its launch record and answers with a status: 12 with the check code where a
check of R195 fails, the refusal's code, or 0 with the child grid added and counted (R396). GBAR arrives once and completes, as an
acquire, when the generation has moved on, which it does when every wave that has not retired has arrived (R403). -/
def Obligations.SpawnAndGridBarrier : Prop :=
  (∀ f s core slot w b, Runs (.spawn f) s core slot w b → s.released w 3 255 = true →
    let c := ctxFor (.spawn f) s core slot w
    let cap := unsealRecord (c.quadCap w f.a.toNat c.lowest)
    let r : LaneReq := ⟨c.lowest, cap, capCursor cap.bits + sext 24 f.offset.toNat⟩
    let check := s.check (s.agent core) { need := permLoad, align := 128, size := 128, stored := none } cap r.addr
    let a := localOf r.va
    let rec_ := (s.exclude core w.bslot).spawnRecord b (s.bytesAt a 128) ((List.range 8).map fun i => s.tags.contains (a / 16 + i))
    (∀ k, check = some k → ∃ w1, CompletesAt (.spawn f) s core slot w b (s.exclude core w.bslot) w1 ∧
      Wrote c w w1 f.d.toNat tW32 fun _ => 12 + k * 256) ∧
    (check = none → s.isRemote r.va = false → rangeOf a = .hbm → ∃ w1, CompletesAt (.spawn f) s core slot w b rec_.2 w1 ∧
      Wrote c w w1 f.d.toNat tW32 fun _ => rec_.1)) ∧
  (∀ (s : State) b bs ts g x, kget s.grids b.grid = some g → s.judge (.wave b.env.region g.launch) bs ts = .ok x →
    s.spawnRecord b bs ts = (0, { s.addGrid x g.launch true with
      launches := kmod (s.addGrid x g.launch true).launches g.launch fun l => { l with counter := l.counter + x.count } })) ∧
  (∀ (s : State) b bs ts g code, kget s.grids b.grid = some g → s.judge (.wave b.env.region g.launch) bs ts = .error code →
    s.spawnRecord b bs ts = (code, s)) ∧
  (∀ f s core slot w b g gen, Runs (.gbar f) s core slot w b → kget s.grids b.grid = some g → w.gbarWait = some gen → g.gen ≠ gen →
    CompletesAt (.gbar f) s core slot w b (s.acquire core 3) w) ∧
  (∀ f s core slot w b g, Runs (.gbar f) s core slot w b → kget s.grids b.grid = some g → w.gbarWait = none →
    s.released w 3 255 = true →
    ∃ t w1, exec (.gbar f) s = .next t ∧ t.wave core slot = some w1 ∧ w1.bank = w.bank ∧ w1.waiting = .gridBarrier ∧
      w1.gbarWait = some g.gen ∧ t.grids = kset s.grids b.grid { g with arrived := nins g.arrived (gridWave b w.wblk) }) ∧
  (∀ grid s g, kget s.grids grid = some g → g.kernel.persistent = true → g.arrived ≠ [] →
    g.arrived.length + g.gone.length = g.count * g.kernel.waves →
    exec (.gridBarrierGeneration grid) s =
      .next { s with grids := kset s.grids grid { g with gen := (g.gen + 1) % 2 ^ 32, arrived := [] } })

/-- A grid's next block or cluster is placed where R398 to R400 let it, a persistent grid whole or not at all (R401), with each block as
R402 says it starts; a free core is latched to the colour that wants it, with what R23 names cleared and the clean bit set; an expansion
counts the grid's blocks (R395); a retired cluster gives back its allocations (R242); a wave passed over 64 times becomes urgent (R405),
and a region's slice ends (R407). -/
def Obligations.Distribution : Prop :=
  (∀ grid s g r cs, kget s.grids grid = some g → kget s.regions g.region = some r → g.kernel.persistent = false →
    s.placeable grid = true → s.heldBack grid g = false → s.pickCores g.code g.kernel r.env false = some cs →
    ∃ t k, exec (.blockPlacement grid) s = .next t ∧
      kget t.grids grid = some { g with next := g.next + g.kernel.cluster, waits := false } ∧
      kget t.clusters s.nextUid = some k ∧ k.members.map (fun m => m.1) = cs ∧ k.phase = 0 ∧
      ∀ rank c, cs[rank]? = some c → (t.core c).l1 = [] ∧ ∃ slot b,
        t.block c slot = some b ∧ b.grid = grid ∧ b.index = g.next + rank ∧ b.rank = rank ∧ b.cluster = s.nextUid ∧ b.code = g.code ∧
        b.entry = g.kernel.entry ∧ b.waves = g.kernel.waves ∧ b.spSize = g.kernel.scratch ∧ b.spad = [] ∧ b.full = [] ∧
        b.nTiles = g.kernel.tiles ∧ b.tiles = []) ∧
  (∀ grid s g, kget s.grids grid = some g → g.kernel.persistent = true → s.placeable grid = true → s.heldBack grid g = false →
    (∀ s1, s.placeWhole grid false g.count = some s1 → exec (.persistentGridPlacement grid) s = .next s1 ∧
      ∃ g1, kget s1.grids grid = some g1 ∧ g1.count ≤ g1.next) ∧
    (s.placeWhole grid false g.count = none →
      exec (.persistentGridPlacement grid) s = .next { s with grids := kmod s.grids grid fun g => { g with waits := true } })) ∧
  (∀ core colour s, (s.core core).blocks = [] → (s.core core).queue = [] → (s.core core).latch ≠ colour →
    s.latchWanted core = some colour →
    ∃ t, exec (.latchChange core colour) s = .next t ∧
      t.core core = { Core.cleared with latch := colour, parref := (s.core core).parref, votes := (s.core core).votes,
                                        lastArray := (s.core core).lastArray, lastPort := (s.core core).lastPort,
                                        upsets := (s.core core).upsets } ∧
      ∀ c, c ≠ core → t.core c = s.core c) ∧
  (∀ launch s grid g, s.grids.find? (fun e => e.2.launch == launch && !e.2.expanded) = some (grid, g) →
    (g.next ≠ 0 ∨ g.kernel.cluster ≠ 1 ∨ g.kernel.persistent = true) →
    exec (.gridExpansion launch) s = .next { s with
      grids := kset s.grids grid { g with expanded := true }
      launches := kmod s.launches launch fun l => { l with counter := l.counter + g.count - 1 } }) ∧
  (∀ core bslot s b k, s.block core bslot = some b → b.retired = false → b.gone.length = b.waves → b.seqr.flights = [] →
    kget s.clusters b.cluster = some k → (core, bslot) ∈ k.members →
    (∀ c n b2, (c, n) ∈ k.members → (c, n) ≠ (core, bslot) → s.block c n = some b2 → b2.retired = true) →
    ∃ t, exec (.blockRetirement core bslot) s = .next t ∧ kget t.clusters b.cluster = none ∧
      ∀ c n, (c, n) ∈ k.members → t.block c n = none) ∧
  (∀ core slot s w, s.wave core slot = some w → exec (.waveBecomesUrgent core slot) s =
    .next (s.setWave core slot (if w.passed < 64 then w else { w with urgent := true }))) ∧
  (∀ region s r since, kget s.regions region = some r → r.sliceAt = some since → r.slice ≠ 0 → r.why = 0 →
    since + r.slice * microsecond ≤ s.now (homeDie r.env.partition) → s.resident region = true → s.restoring region = false →
    let r1 := if s.otherWaits r none then { r with why := 1, sliceAt := none }
      else { r with sliceAt := some (s.now (homeDie r.env.partition)) }
    exec (.timeSliceExpiry region) s = .next { s with regions := kset s.regions region r1 })

/-- LIVE does nothing in handler mode and where its core is not signalled; where it is, the wave is recorded with its entry, or whole where
the table has none, and goes on at the next instruction (R367).
A save that is asked for is signalled to the cores of its partition and joins the requests of the save engine (R363, R364); at the
window's end every wave at its boundary is recorded whole. The image is begun at the save area in the order of the requests, takes the
clusters that are ready, and is whole once no block is left (R363, R380). A sealed save also stops a guest's own save (R386, R387). -/
def Obligations.ContextSaves : Prop :=
  (∀ f s core slot w b, Runs (.live f) s core slot w b → (w.level ≠ 0 ∨ s.signalledOn core b.env.region = false) →
    Completes (.live f) s core slot w b w) ∧
  (∀ f s core slot w b, Runs (.live f) s core slot w b → w.level = 0 → s.signalledOn core b.env.region = true →
    s.arriving w.uid = false →
    let i := f.imm.toNat % 65536
    let entry := if i < (s.liveTable b.code).2 then some i else none
    CompletesAt (.live f) s core slot w b (s.recordWave core slot entry) { w with recorded := true, liveEntry := entry }) ∧
  (∀ region s r, kget s.regions region = some r → r.why ≠ 0 → kget s.halts r.env.top = none →
    (r.why = 3 ∨ s.sealedAway region = false) → s.restoring region = false → r.signal = [] →
    ∃ t r1, exec (.preEmptionSignal region) s = .next t ∧ kget t.regions region = some r1 ∧ r1.why = r.why ∧
      (∀ c ∈ r.env.partition, kget r1.signal c = some (s.now (dieOf c))) ∧ region ∈ t.saveOrder) ∧
  (∀ core region s r since, kget s.regions region = some r → kget r.signal core = some since →
    since + r.windowTicks ≤ s.now (dieOf core) →
    ∃ t, exec (.preEmptionWindowEnd core region) s = .next t ∧
      ∀ slot w b, s.wave core slot = some w → s.block core w.bslot = some b → s.covers region r b.env.region = true →
        w.alive = true → w.atBoundary = true → s.arriving w.uid = false →
        ∃ w1, t.wave core slot = some w1 ∧ w1.recorded = true ∧ w1.bank = w.bank) ∧
  (∀ region s r, kget s.regions region = some r → r.signal ≠ [] → kget s.halts r.env.top = none →
    (r.why = 3 ∨ s.sealedAway region = false) → s.engineFree region r = true →
    let a := (s.imageOf region r).1
    let x := (s.imageOf region r).2
    let s1 := { s with regions := kset s.regions region { r with image := some a } }
    s.areaOk r x.isSealed 0 256 = true →
    (s.clusters.find? (fun e => s.clusterReady region r e.2) = none → r.image ≠ some a →
      exec (.contextSave region) s = .next (s1.putImage a x)) ∧
    (∀ ck k, s.clusters.find? (fun e => s.clusterReady region r e.2) = some (ck, k) →
      exec (.contextSave region) s = .next (s1.saveCluster r a x ck k))) ∧
  (∀ region s r a x, kget s.regions region = some r → r.image = some a → kget s.images a = some x → x.state = 1 → r.signal ≠ [] →
    kget s.halts r.env.top = none → s.stillResident region r = false →
    ∃ t r1 x1, exec (.saveComplete region) s = .next t ∧ kget t.regions region = some r1 ∧ kget t.images a = some x1 ∧
      x1.state = 2 ∧ x1.blocks = x.blocks ∧ r1.signal = [] ∧ r1.why = 0 ∧ r1.image = some a ∧ r1.restore = (r.why == 1) ∧
      region ∉ t.saveOrder) ∧
  (∀ region s r, kget s.regions region = some r → s.evictable r = true → kget s.halts r.env.top = none →
    capColour r.savea.bits = r.env.colour →
    ∃ t r1, exec (.sealedSave region) s = .next t ∧ kget t.regions region = some r1 ∧ r1.why = 3 ∧
      (∀ c ∈ r.env.partition, kget r1.signal c = some (s.now (dieOf c))) ∧
      ∀ g x, g ≠ region → kget s.regions g = some x →
        kget t.regions g = some (if s.within g region then { x with signal := [] } else x))

/-- A restore that is refused says why, to the queue that asked or in a record (R380). One that is not begins where cores take its
clusters, with STATE 3; the save engine then restores one cluster after another in the order of its requests (R363), and at the end
the image is given up and its waves issue (R381). A halted partition can be saved whole, in an image that is never restored, and
discarded with all that it held (R384, R385). -/
def Obligations.Restores : Prop :=
  (∀ region s r, kget s.regions region = some r → r.why = 0 → kget s.halts r.env.top = none → s.sealedAway region = false →
    s.restoring region = false → s.restoreRefusal r ≠ 0 →
    (r.client.isSome → r.answer = none → exec (.contextRestore region) s =
      .next { s with regions := kset s.regions region { r with answer := some (s.restoreRefusal r) } }) ∧
    (r.client = none → r.restore = true → r.refused = false → ∃ t, exec (.contextRestore region) s = .next t ∧
      (s.restoreRefusal r = 5 → t = s) ∧
      (s.restoreRefusal r ≠ 5 → kget t.regions region = some { r with refused := true, restore := false }))) ∧
  (∀ region s r x, let a := localOf (capCursor r.savea.bits)
    kget s.regions region = some r → r.why = 0 → kget s.halts r.env.top = none → s.sealedAway region = false →
    s.restoring region = false → (r.client.isSome ∧ r.answer = none ∨ r.restore = true ∧ r.refused = false) →
    s.restoreRefusal r = 0 → kget s.images a = some x →
    exec (.contextRestore region) s = .next ((s.restoreImage region r a x).getD s) ∧
    ∀ t, s.restoreImage region r a x = some t → (s.restoreErrors a (s.imagePieces a x)).2.2 = none →
      (∃ x1, kget t.images a = some x1 ∧ x1.state = 3 ∧ x1.placed = [] ∧ x1.blocks = x.blocks) ∧
      (t.byte (a + 1)).toNat % 8 = 3 ∧ region ∈ t.saveOrder) ∧
  (∀ region s r a x, kget s.regions region = some r → r.why = 0 → kget s.halts r.env.top = none → s.sealedAway region = false →
    s.restoring region = true → r.image = some a → kget s.images a = some x →
    (r.client = none ∨ r.answer ≠ none ∨ x.asker ≠ none) → s.engineFree region r = true →
    (∀ ck k, x.clusters.find? (fun e => !x.placed.contains e.1) = some (ck, k) →
      exec (.contextRestore region) s = .next (s.restoreCluster a x ck)) ∧
    (x.clusters.find? (fun e => !x.placed.contains e.1) = none → x.nested = none →
      exec (.contextRestore region) s = .next (s.endRestore region a x))) ∧
  (∀ region (s : State) a x, x.nested = none →
    kget (s.endRestore region a x).images a = none ∧
    ∀ c slot w b, s.wave c slot = some w → s.block c w.bslot = some b → (kget x.clusters b.cluster).isSome →
      (s.endRestore region a x).wave c slot = some { w with recorded := false }) ∧
  (∀ region s r, kget s.regions region = some r → s.partitionStopped r.env.top = true → s.savedWhole r = false →
    let a := (s.imageOf region { r with why := 4, image := none }).1
    let x := (s.imageOf region { r with why := 4, image := none }).2
    let y := s.haltedImage region r x
    y.1.areaOk r x.isSealed 0 (y.1.imageBytes a y.2.1).length = true →
    y.2.1.halted = true ∧ y.2.1.state = 2 ∧
    exec (.haltedSave region) s =
      .next ({ y.1 with regions := kset y.1.regions region { r with image := some a } }.putImage a y.2.1)) ∧
  (∀ region s r, kget s.regions region = some r → s.partitionStopped r.env.top = true →
    ∃ t, exec (.haltedPartitionDiscard region) s = .next t ∧ kget t.halts r.env.top = none ∧
      ∀ c n b, t.block c n = some b → b.env.top ≠ r.env.top)

/-- An entry that may leave its wave's store buffer, with no older entry of its stream or its bytes before it and nothing that its releases
wait for outstanding, enters the core write queue piece by piece, or is applied to the block's own scratchpad and acknowledged (R223,
R229, R230). A piece at the head of its order is written at its home with those of its store in the same line, in memory, in a
scratchpad or as a request to another device; an arrival and an atomic chain are applied there; and each is acknowledged once no piece of
its store is left (R224, R228, R260, R270). An acknowledgement counts its stream down, in an image too (R224, R382). -/
def Obligations.StorePath : Prop :=
  (∀ core slot idx s w b e, s.wave core slot = some w → s.block core w.bslot = some b → w.sb[idx]? = some e →
    (∀ x ∈ w.sb.take idx, x.stream ≠ e.stream ∧ ∀ p ∈ x.parts, ∀ q ∈ e.parts, p.overlaps q = false) →
    (∀ g ∈ e.gates, s.gateMet w g = true) → s.coreStopped core = false → s.clusterHeld b.cluster = false →
    let k := (s.core core).storeThrough e.parts
    let waves := kset k.waves slot { w with sb := ldel w.sb idx }
    let own := e.parts.filter fun p => p.home.place.1 = 2 ∧ p.home.place.2.1 = b.rank
    let rest := e.parts.filter fun p => ¬(p.home.place.1 = 2 ∧ p.home.place.2.1 = b.rank)
    let t := own.foldl (fun s p => s.applyPad core w.bslot w.uid b.rank p.home.place.2.2 p.eff) (s.setCore core { k with
      waves, queue := k.queue ++ rest.map fun p =>
        { uid := w.uid, serial := e.serial, stream := e.stream, colour := e.colour, bslot := w.bslot, pc := e.pc, kind := e.kind,
          lane := e.laneAt p, part := p } })
    ((s.core core).queue.length + rest.length ≤ 64 → exec (.storeLeavesBuffer core slot idx) s =
      .next (if rest.isEmpty then { t with acks := t.acks ++ [⟨w.uid, e.stream, e.serial⟩] } else t)) ∧
    (own = [] → (s.core core).queue.length + rest.length ≤ 64 →
      t.wave core slot = some { w with sb := ldel w.sb idx } ∧ (t.core core).blocks = (s.core core).blocks ∧ t.mem = s.mem) ∧
    (∀ o d tag, e.parts = [⟨.spad b.rank o, .bytes d tag⟩] → s.rankBlock b b.rank = some (core, w.bslot, b) →
      (s.core core).queue.length ≤ 64 →
      ∃ t, exec (.storeLeavesBuffer core slot idx) s = .next t ∧ t.wave core slot = some { w with sb := ldel w.sb idx } ∧
        t.block core w.bslot = some (b.padStore o d) ∧ (t.core core).queue = (s.core core).queue)) ∧
  (∀ core idx s q a d tag, (s.core core).atHead idx = some q → q.part = ⟨.mem a, .bytes d tag⟩ →
    let mates := (s.core core).matesOf idx
    (rangeOf a ≠ .host → mates = [] →
      (tag = false → exec (.storeWrittenAtHome core idx) s =
        .next (((s.dequeue core idx).store a d).acknowledge q.uid q.stream q.serial)) ∧
      (tag = true → d.length = 16 → exec (.storeWrittenAtHome core idx) s =
        .next (((s.dequeue core idx).storeCap a d true).acknowledge q.uid q.stream q.serial))) ∧
    (rangeOf a ≠ .host → mates ≠ [] → exec (.storeWrittenAtHome core idx) s =
      .next ((((s.dequeue core idx).dequeueMates core q).putPieces (q.part :: mates.map fun x => x.part)).acknowledge
        q.uid q.stream q.serial)) ∧
    (rangeOf a = .host → s.missingPages a d.length = [] → exec (.storeWrittenAtHome core idx) s =
      .next (((s.dequeue core idx).store a d).acknowledge q.uid q.stream q.serial))) ∧
  (∀ core idx s q dev a cls lane va, (s.core core).atHead idx = some q →
    let owner : Owner := .store q.uid q.stream q.serial q.pc lane q.kind va
    (∀ d tag, q.part = ⟨.remote dev a cls lane va, .bytes d tag⟩ → exec (.storeWrittenAtHome core idx) s =
      .next ((s.dequeue core idx).request owner dev fun rtag => [writeFlit s dev a cls q.colour q.stream d tag rtag])) ∧
    (∀ k, q.part = ⟨.remote dev a cls lane va, .chain k⟩ → exec (.atomicChainApplied core idx) s =
      .next ((s.dequeue core idx).request owner dev fun rtag => chainFlits s dev a cls q.colour q.stream k rtag))) ∧
  (∀ core idx s q r o e, (s.core core).atHead idx = some q → q.part = ⟨.spad r o, e⟩ →
    let t := ((s.dequeue core idx).applyPad core q.bslot q.uid r o e).acknowledge q.uid q.stream q.serial
    ((∃ d tag, e = .bytes d tag) ∨ (∃ scope masks, e = .binit scope masks) → exec (.storeWrittenAtHome core idx) s = .next t) ∧
    (∀ drop wv rank d act lv n, e = .arrive drop wv rank d act lv n → exec (.arriveAppliedAtHome core idx) s = .next t)) ∧
  (∀ core idx s q a k, (s.core core).atHead idx = some q → q.part = ⟨.mem a, .chain k⟩ →
    exec (.atomicChainApplied core idx) s = .next ((((s.dequeue core idx).storeNum a k.size (k.run (s.numAt a k.size)).2).dropL1
      core a).acknowledge q.uid q.stream q.serial)) ∧
  (∀ idx s a, s.acks[idx]? = some a →
    let s1 := { s with acks := ldel s.acks idx }
    (∀ c slot w, s.findUid a.uid = some (c, slot) → s.wave c slot = some w →
      exec (.storeAcknowledged idx) s = .next (s1.setWave c slot { w with unack := lmod w.unack a.stream (· - 1) })) ∧
    (s.findUid a.uid = none →
      exec (.storeAcknowledged idx) s = .next (s1.changeRecord a.uid fun _ w => w.lower a.stream)))

/-- A line that returns fills the L1 with what memory holds and with the core's own queued stores (R217, R219), and one at its age leaves
it; a rejected access may try again, or is granted its entries (R222); a segment's load and drop complete (R101); a spilled register is
refilled (R84); an uncorrectable error marks its place (R362), and in logic that serves every partition raises every halt line (R33); and
a hot word goes back to its home (R337). -/
def Obligations.CachesAndRefills : Prop :=
  (∀ core line s m, (s.core core).misses.find? (fun m => m.line == line) = some m → m.stale = false →
    s.cacheable (128 * line) = true → (s.granule (128 * line)).home ≠ 2 → (s.core core).l1Count false < 1536 →
    exec (.l1LineFill core line) s = .next (s.setCore core { s.core core with
      misses := (s.core core).misses.filter fun m => m.line != line
      l1 := kset (s.core core).l1 line (s.homeLine core line false) })) ∧
  (∀ (s : State) core line, (s.core core).queue = [] → (s.homeLine core line false).bytes = s.bytesAt (128 * line) 128) ∧
  (∀ core line s, exec (.l1LineAgeInvalidation core line) s =
    .next (s.setCore core { s.core core with l1 := kdel (s.core core).l1 line })) ∧
  (∀ core slot s w n since need, s.wave core slot = some w → w.waiting = .miss n since need → n < 8 →
    since + 16 * coreCycle ≤ s.now (dieOf core) →
    exec (.missRejectionRetry core slot) s = .next (s.setWave core slot { w with waiting := .retry n })) ∧
  (∀ core s slot rest w n since need, (s.core core).reserve = slot :: rest → s.wave core slot = some w →
    w.waiting = .miss n since need → need ≤ 256 - (s.core core).misses.length →
    exec (.reservationQueueIssue core) s = .next (s.setWave core slot { w with waiting := .granted })) ∧
  (∀ core code seg s g, (s.core core).segment code seg = some g → g.loading = true →
    s.storedBefore g.after.1 g.after.2 = true →
    exec (.segmentLoadComplete core code seg) s = .next (s.setCore core ((s.core core).modSegment code seg fun x =>
      { x with loading := false, bytes := s.segmentBytes code seg g.size }))) ∧
  (∀ core code seg s g, (s.core core).segment code seg = some g → g.dropPending = true → g.loading = false →
    (s.core core).pcIn code seg = false → (s.core core).seqIn code seg = false →
    exec (.segmentDropFree core code seg) s = .next (s.setCore core { s.core core with
      segs := (s.core core).segs.filter fun g => !(g.code == code && g.num == seg) })) ∧
  (∀ core slot reg s w b a, s.wave core slot = some w → reg ∈ w.spilled → s.block core w.bslot = some b →
    backingAddr s b (corePos b core) slot = some a → s.sweeper.running = false →
    Lanes.of (fun l => BitVec.ofNat 32 (s.numAt (a + 128 * reg + 4 * l) 4)) = (w.base.reg reg).val.lanes →
    (∀ l, l < 32 → s.poisoned (a + 128 * reg + 4 * l) 4 = false) → (reg % 4 = 0 → s.poisoned (a + 81920 + reg) 4 = false) →
    ∃ w1, exec (.registerRefill core slot reg) s = .next ((s.setWave core slot w1).settleChunks core slot) ∧
      w1.spilled = ndel w.spilled reg ∧ w1.base.reg reg = ⟨.g (w.base.reg reg).val.lanes, (w.base.reg reg).fmt⟩ ∧
      (∀ n, n ≠ reg → w1.base.reg n = w.base.reg n) ∧ w1.base.pc = w.base.pc ∧ w1.base.p = w.base.p ∧ w1.base.g = w.base.g) ∧
  (∀ core slot s w r l, s.wave core slot = some w →
    exec (.uncorrectableError (.vector core slot r l)) s =
      .next (s.setWave core slot { w with errors := w.errors ++ [⟨w.level, 0, r, l % 32⟩] }) ∧
    exec (.uncorrectableError (.predicate core slot r)) s =
      .next (s.setWave core slot { w with errors := w.errors ++ [⟨w.level, 1, r, 0⟩] }) ∧
    exec (.uncorrectableError (.group core slot r)) s =
      .next (s.setWave core slot { w with errors := w.errors ++ [⟨w.level, 2, r, 0⟩] }) ∧
    exec (.uncorrectableError (.groupPredicate core slot r)) s =
      .next (s.setWave core slot { w with errors := w.errors ++ [⟨w.level, 3, r, 0⟩] }) ∧
    exec (.uncorrectableError (.control core slot)) s =
      .next (s.setWave core slot { w with errors := w.errors ++ [⟨w.level, 4, 0, 0⟩] }) ∧
    exec (.uncorrectableError (.stack core slot)) s =
      .next (s.setWave core slot { w with errors := w.errors ++ [⟨w.level, 4, 1, 0⟩] }) ∧
    exec (.uncorrectableError (.generator core slot)) s =
      .next (s.setWave core slot { w with errors := w.errors ++ [⟨w.level, 4, 2, 0⟩] }) ∧
    exec (.uncorrectableError (.systemRegister core slot)) s =
      .next (s.setWave core slot { w with errors := w.errors ++ [⟨w.level, 4, 3, 0⟩] })) ∧
  (∀ s die, s.loose = false → ∃ t, exec (.uncorrectableError (.shared die)) s = .next t ∧ t.cores = s.cores ∧
    ∀ n r, kget s.regions n = some r → r.env.top = n → (kget t.halts n).isSome) ∧
  (∀ s core copy l, exec (.uncorrectableError (.upset core copy l)) s =
    .next (s.setCore core { s.core core with upsets := (s.core core).upsets ++ [(copy % 3, min l 32)] })) ∧
  (∀ core bslot s b x, s.block core bslot = some b →
    exec (.uncorrectableError (.scratchWord core bslot x)) s = .next (s.setBlock core bslot { b with badWords := nins b.badWords x }) ∧
    exec (.uncorrectableError (.scratchBit core bslot x)) s = .next (s.setBlock core bslot { b with badBits := nins b.badBits x }) ∧
    exec (.uncorrectableError (.tile core bslot x)) s = .next (s.setBlock core bslot { b with badTiles := nins b.badTiles x }) ∧
    exec (.uncorrectableError (.sequencer core bslot)) s = .next (s.setBlock core bslot { b with seqr := { b.seqr with error := true } })) ∧
  (∀ u s, exec (.uncorrectableError (.memory u)) s = .next { s with poison := nins s.poison u }) ∧
  (∀ line s, exec (.hotWordWriteback line) s = .next { s with hot := s.hot.filter (· != line) })

/-- TRAP takes code 26 with its immediate (R350); BKPT takes code 25, or halts its wave for an armed debugger, the halt held while its context
is sealed (R358, R388); without a handler, at the last level, or where the halt line comes in that cycle, the partition halts (R342, R357).
An asynchronous trap is delivered at the wave's boundary (R341). Entering a
handler saves the cause, the address, the instruction, the masks and the information, and starts a bank of zeros at the handler's address
with the emulation area in g0 and g1 (R342, R345).
EMRET and TRET leave the handler: its bank is discarded and the level below resumes, TRET at the trapped instruction, EMRET after it,
or at it where the trap was asynchronous or the sequencer's; a stopped sequencer goes on with it. EMRET.FAIL halts the partition (R352). -/
def Obligations.TrapEntryAndReturn : Prop :=
  (∀ f s core slot w b, Ready (.trap f) s core slot w b → (ctxFor (.trap f) s core slot w).act ≠ 0 →
    (∀ h, s.haltsNow b.env.top core slot = false → w.level ≠ 2 → b.env.trapEntry = some h →
      Enters (.trap f) s core slot w b 26 0 ((f.imm.setWidth 16).setWidth 64) h) ∧
    (let now := s.haltsNow b.env.top core slot
     now = true ∨ w.level = 2 ∨ b.env.trapEntry = none → exec (.trap f) s = .next ((s.enterLine core slot).haltWave core slot
       (if now then 26 else if w.level = 2 then 65 else 64) (if now then 0 else 26)))) ∧
  (∀ f s core slot w b, Ready (.bkpt f) s core slot w b → (ctxFor (.bkpt f) s core slot w).act ≠ 0 → s.armedFor b = false →
    (∀ h, s.haltsNow b.env.top core slot = false → w.level ≠ 2 → b.env.trapEntry = some h →
      Enters (.bkpt f) s core slot w b 25 0 ((f.imm.setWidth 16).setWidth 64) h) ∧
    (let now := s.haltsNow b.env.top core slot
     now = true ∨ w.level = 2 ∨ b.env.trapEntry = none → exec (.bkpt f) s = .next ((s.enterLine core slot).haltWave core slot
       (if now then 25 else if w.level = 2 then 65 else 64) (if now then 0 else 25)))) ∧
  (∀ f s core slot w b, Ready (.bkpt f) s core slot w b → (ctxFor (.bkpt f) s core slot w).act ≠ 0 → s.armedFor b = true →
    s.sealing b.env.region = false →
    ∃ t w1, exec (.bkpt f) s = .next t ∧ t.wave core slot = some w1 ∧ w1.dbgHalt = true ∧
      w1.levelRegs.tpc = w.bank.pc.setWidth 64 ∧ w1.bank = w.bank ∧ w1.level = w.level) ∧
  (∀ f s core slot w b, Ready (.bkpt f) s core slot w b → (ctxFor (.bkpt f) s core slot w).act ≠ 0 → s.armedFor b = true →
    s.sealing b.env.region = true →
    ∃ t w1, exec (.bkpt f) s = .next t ∧ t.wave core slot = some w1 ∧ w1.recorded = true ∧ w1.bkpend = true ∧ w1.bank = w.bank ∧
      w1.level = w.level) ∧
  (∀ (w : Wave) t h area, w.level < 2 →
    let w1 := w.enter t h area
    w1.level = w.level + 1 ∧ w1.base = w.base ∧ w1.bank.pc = h ∧ w1.bank.mask = w.live ∧ w1.bank.v = [] ∧ w1.bank.p = [] ∧
    w1.bank.q = [] ∧ w1.bank.ctl = [] ∧ w1.bank.loops = [] ∧ (area.tag = true → w1.bank.pairCap 0 = area) ∧
    w1.levelRegs.tcause = causeWord t (w.level + 1) ∧ w1.levelRegs.tpc = t.tpc.setWidth 64 ∧
    w1.levelRegs.tinst0 = t.inst.setWidth 64 ∧ w1.levelRegs.tinst1 = (t.inst >>> 64).setWidth 64 ∧
    w1.levelRegs.tmask = w.dead ++ t.act ∧ w1.levelRegs.tinfo = t.info ∧ w1.dead = w.dead ∧ w1.exited = w.exited) ∧
  (∀ core slot s w b h rest x, s.wave core slot = some w → s.block core w.bslot = some b → w.held = h :: rest → w.level = 0 →
    w.atBoundary = true → s.coreStopped core = false → h.code < 256 → h.fieldNum < 256 → (b.env.localCap = true ∨ (h.code ≠ 16 ∧ h.code ≠ 17 ∧ h.code ≠ 18)) →
    (if isEmu h.code then b.env.emuEntry else b.env.trapEntry) = some x →
    ∃ t w1, exec (.asynchronousTrapDelivery core slot) s = .next t ∧ t.wave core slot = some w1 ∧ w1.level = 1 ∧ w1.held = rest ∧
      w1.bank.pc = x ∧ w1.base = w.base ∧ w1.level1.tpc = w.bank.pc.setWidth 64 ∧ w1.level1.tcause.getLsbD 22 = true ∧
      w1.level1.tinfo = h.info) ∧
  (∀ f s core slot w b top rest, Ready (.tret f) s core slot w b → (ctxFor (.tret f) s core slot w).act ≠ 0 →
    w.handlers = top :: rest → (w.levelRegs.tcause.getLsbD 23 = false ∨ b.seqr.status ≠ 4) →
    let x : IAddr := w.levelRegs.tpc.setWidth 32
    (s.core core).xfer b.code x ≠ .misaligned →
    exec (.tret f) s = .next (s.setWave core slot (w.returned (.tret f) s core slot x))) ∧
  (∀ f s core slot w b top rest, Ready (.tret f) s core slot w b → (ctxFor (.tret f) s core slot w).act ≠ 0 →
    w.handlers = top :: rest → w.levelRegs.tcause.getLsbD 23 = true → b.seqr.status = 4 →
    let x : IAddr := w.levelRegs.tpc.setWidth 32
    (s.core core).xfer b.code x ≠ .misaligned →
    exec (.tret f) s = .next ((s.setBlock core w.bslot { b with seqr := { b.seqr with status := 2 } }).setWave core slot
      (w.returned (.tret f) s core slot x))) ∧
  (∀ f s core slot w b top rest, Ready (.emret f) s core slot w b → (ctxFor (.emret f) s core slot w).act ≠ 0 →
    f.sub.getLsbD 0 = false → w.handlers = top :: rest → w.levelRegs.tcause.getLsbD 23 = false →
    let t : IAddr := w.levelRegs.tpc.setWidth 32
    let x := if w.levelRegs.tcause.getLsbD 22 then t else (s.core core).nextValid b.code t
    (s.core core).xfer b.code x ≠ .misaligned →
    exec (.emret f) s = .next (s.setWave core slot (w.returned (.emret f) s core slot x))) ∧
  (∀ f s core slot w b, Ready (.emret f) s core slot w b → (ctxFor (.emret f) s core slot w).act ≠ 0 → f.sub.getLsbD 0 = true →
    exec (.emret f) s = .next ((s.enterLine core slot).haltWave core slot 66 0)) ∧
  (∀ (w : Wave) x top rest, w.handlers = top :: rest →
    (w.leave x).bank.pc = x ∧ (w.leave x).dead = w.dead ∧ (w.leave x).exited = w.exited ∧
    (rest = [] → (w.leave x).handlers = [] ∧ (w.leave x).base = { w.base with pc := x }) ∧
    (∀ b more, rest = b :: more → (w.leave x).handlers = { b with pc := x } :: more ∧ (w.leave x).base = w.base))

/-- SRD reads a system register into a group-wide register, and SWR writes a writable one, its reserved bits reading as zero (R7, R350). -/
def Obligations.SystemRegisters : Prop :=
  (∀ f s core slot w b, Runs (.srd f) s core slot w b →
    ∃ w1, Completes (.srd f) s core slot w b w1 ∧ WroteGrp w w1 f.d.toNat (sysRead s core slot b w f.sysreg.toNat)) ∧
  (∀ f s core slot w b, Runs (.swr f) s core slot w b →
    let x := (ctxFor (.swr f) s core slot w).readG w f.a.toNat
    let n := f.sysreg.toNat
    let low := keepBits [(0, 32)] x
    let va := keepBits [(0, 56)] x
    (n / 4096 = 0 → Completes (.swr f) s core slot w b { w with roundMode := x.toNat % 4 }) ∧
    (n = 0x1000 → Completes (.swr f) s core slot w b
      { w with capflt := keepBits [(63, 1), (32, 12), (24, 8), (16, 4), (8, 5), (0, 4)] x }) ∧
    (n = 0x1001 → Completes (.swr f) s core slot w b { w with capfpc := low }) ∧
    (n = 0x1002 → Completes (.swr f) s core slot w b { w with capfva := va }) ∧
    (n = 0x1020 → Completes (.swr f) s core slot w b { w with spflt := keepBits [(63, 1), (24, 4), (16, 4), (8, 5), (0, 4)] x }) ∧
    (n = 0x1021 → Completes (.swr f) s core slot w b { w with spfpc := low }) ∧
    (n = 0x1022 → Completes (.swr f) s core slot w b { w with spfoff := x }) ∧
    (∀ i, i < 16 → n = 0x2000 + i → bufferBad b x = false → s.bufferBusy b i = false →
      CompletesAt (.swr f) s core slot w b (s.setBlock core w.bslot (b.modBuf i fun _ =>
        { cfg := keepBits [(62, 2), (48, 8), (24, 20), (0, 24)] x, head := 0, tail := 0 })) w) ∧
    (n = 0x2032 → CompletesAt (.swr f) s core slot w b (s.setBlock core w.bslot { b with zbflt := keepBits [(63, 1), (0, 39)] x }) w) ∧
    (n = 0x2033 → CompletesAt (.swr f) s core slot w b (s.setBlock core w.bslot { b with mflt := keepBits [(63, 1), (0, 40)] x }) w) ∧
    (n / 4096 = 3 → Completes (.swr f) s core slot w b (w.setLevelRegs { w.levelRegs with tpc := low })) ∧
    (n = 0x4001 → Completes (.swr f) s core slot w b { w with rmtflt := keepBits [(62, 2), (32, 16), (16, 4), (8, 5)] x }) ∧
    (n = 0x4002 → Completes (.swr f) s core slot w b { w with rmtfpc := low }) ∧
    (n = 0x4003 → Completes (.swr f) s core slot w b { w with rmtfva := va }) ∧
    (n = 0x6000 → Completes (.swr f) s core slot w b { w with rngK := (w.rngK >>> 64).setWidth 64 ++ x }) ∧
    (n = 0x6001 → Completes (.swr f) s core slot w b { w with rngK := x ++ w.rngK.setWidth 64 }) ∧
    (n = 0x6002 → Completes (.swr f) s core slot w b { w with rngC := (w.rngC >>> 64).setWidth 64 ++ x }) ∧
    (n = 0x6003 → Completes (.swr f) s core slot w b { w with rngC := x ++ w.rngC.setWidth 64 })) ∧
  (∀ (fields : List (Nat × Nat)) (x : Dword) i, (∀ p ∈ fields, ¬(p.1 ≤ i ∧ i < p.1 + p.2)) →
    fields.Pairwise (fun p q => q.1 + q.2 ≤ p.1) → (keepBits fields x).getLsbD i = false)

/-- MOVW moves a register between its handler and a wave that it reaches by a window or by number: a read writes the active lanes of the
handler's register with the value and its format, and a write the active lanes of the wave's (R351).
ZEMU.MARK hands an idle tile to the emulation area, ZEMU.REL takes it back, and ZEMU.QRY answers what a tile is; each answers with a
code (R353, R354). A tag byte that is no code of R275 leaves a free one of the four (entry 73 of the log). -/
def Obligations.WindowsAndEmulatedTiles : Prop :=
  (∀ f s core slot w b t p, Runs (.movw f) s core slot w b →
    let c := ctxFor (.movw f) s core slot w
    let x := f.args .movw false
    let cap := x.sub.testBit 4
    let k := if cap then 4 else tyRegs x.ty
    movwReach x c w s = .ok (t, p) → x.sub % 2 = 0 → t.wave.spilled = [] → t.wave.errors = [] →
    ∃ w1, Completes (.movw f) s core slot w b w1 ∧ OnlyVec w w1 (destRegs x.d k) ∧
      (x.d ≠ 1023 → ∀ l, l < 32 → c.act.getLsbD l = true →
        (∀ n, p = .vec n → n ≠ 1023 → ∀ j, j < k → w1.lane (x.d + j) l = (t.wave.readIn t.bank (n + j)).val.lane l) ∧
        (∀ n, p = .pred n → w1.lane x.d l = if (t.bank.pred n).getLsbD l then 1 else 0) ∧
        (∀ n, p = .grp n → w1.lane x.d l = lowWord (t.bank.grp n) ∧ (k = 2 → w1.lane (x.d + 1) l = highWord (t.bank.grp n))) ∧
        (∀ n, p = .qp n → w1.lane x.d l = if t.bank.qp n then 1 else 0) ∧
        (∀ y, p = .value y → w1.lane x.d l = lowWord y ∧ (k = 2 → w1.lane (x.d + 1) l = highWord y)))) ∧
  (∀ f s core slot w b t p, Runs (.movw f) s core slot w b →
    let c := ctxFor (.movw f) s core slot w
    let x := f.args .movw false
    let cap := x.sub.testBit 4
    let k := if cap then 4 else tyRegs x.ty
    let w1 := movWrite c w t p x.a k cap s
    movwReach x c w s = .ok (t, p) → x.sub % 2 = 1 → t.wave.spilled = [] →
    (t.slot = slot → t.wave = w → Completes (.movw f) s core slot w b w1) ∧
    (t.slot ≠ slot → CompletesAt (.movw f) s core slot w b (s.setWave core t.slot w1) w)) ∧
  (∀ (c : Ctx) (w : Wave) (t : MovTarget) (s : State) n a, t.low = false → n < 640 →
    ∀ l, l < 32 → c.act.getLsbD l = true → a ≠ 1023 →
    ((movWrite c w t (.vec n) a 1 false s).base.reg n).val.lane l = c.lane w a l) ∧
  (∀ f s core slot w b, Runs (.zemuMark f) s core slot w b → f.sub.toNat % 4 = 0 →
    let c := ctxFor (.zemuMark f) s core slot w
    let z := c.low32 w f.a.toNat
    let t := b.tile z
    (b.nTiles ≤ z → ∃ w1, Completes (.zemuMark f) s core slot w b w1 ∧ Wrote c w w1 f.d.toNat tW32 fun _ => 3) ∧
    (z < b.nTiles → t.emulated = true → ∃ w1, Completes (.zemuMark f) s core slot w b w1 ∧ Wrote c w w1 f.d.toNat tW32 fun _ => 2) ∧
    (z < b.nTiles → t.emulated = false → (∃ x ∈ b.seqr.flights, x.tile = z) →
      ∃ w1, Completes (.zemuMark f) s core slot w b w1 ∧ Wrote c w w1 f.d.toNat tW32 fun _ => 1) ∧
    (∀ a a1, z < b.nTiles → t.emulated = false → (∀ x ∈ b.seqr.flights, x.tile ≠ z) → s.released w 3 255 = true → z ∉ b.badTiles →
      s.emuAddr core b permStore (16384 * z) 16384 = some a → s.emuAddr core b permStore (2097152 + z) 1 = some a1 →
      let s1 := (s.store a t.image).store a1 [BitVec.ofNat 8 t.tag]
      (∃ w1, CompletesAt (.zemuMark f) s core slot w b
          (((s1.dropLines core a 16384).dropLines core a1 1).setBlock core w.bslot (b.setTile z { t with emulated := true })) w1 ∧
        Wrote c w w1 f.d.toNat tW32 (fun _ => 0)) ∧
      (a + 16384 ≤ a1 ∨ a1 < a → s1.bytesAt a 16384 = t.image ∧ s1.byte a1 = BitVec.ofNat 8 t.tag))) ∧
  (∀ f s core slot w b, Runs (.zemuRel f) s core slot w b → f.sub.toNat % 4 = 1 →
    let c := ctxFor (.zemuRel f) s core slot w
    let z := c.low32 w f.a.toNat
    let t := b.tile z
    (b.nTiles ≤ z → ∃ w1, Completes (.zemuRel f) s core slot w b w1 ∧ Wrote c w w1 f.d.toNat tW32 fun _ => 3) ∧
    (z < b.nTiles → t.emulated = false → ∃ w1, Completes (.zemuRel f) s core slot w b w1 ∧ Wrote c w w1 f.d.toNat tW32 fun _ => 1) ∧
    (∀ a a1, z < b.nTiles → t.emulated = true → s.released w 3 255 = true →
      s.emuAddr core b permLoad (16384 * z) 16384 = some a → s.emuAddr core b permLoad (2097152 + z) 1 = some a1 →
      let t1 : Tile := { words := imageWords (s.bytesAt a 16384), tag := imageTag s.tick (s.byte a1).toNat, emulated := false }
      let b1 := b.setTile z t1
      let bad := s.poisoned a 16384 = true ∨ s.poisoned a1 1 = true
      ((s.byte a1).toNat ∈ [0, 1, 3, 11] → t1.tag = (s.byte a1).toNat) ∧
      (¬bad → ∃ w1, CompletesAt (.zemuRel f) s core slot w b (s.setBlock core w.bslot b1) w1 ∧
        Wrote c w w1 f.d.toNat tW32 fun _ => 0) ∧
      (bad → ∃ w1, CompletesAt (.zemuRel f) s core slot w b
          (s.setBlock core w.bslot { b1 with badTiles := nins b1.badTiles z }) w1 ∧
        Wrote c w w1 f.d.toNat tW32 fun _ => 0))) ∧
  (∀ f s core slot w b, Runs (.zemuQry f) s core slot w b → f.sub.toNat % 4 = 2 →
    let c := ctxFor (.zemuQry f) s core slot w
    let z := c.low32 w f.a.toNat
    let t := b.tile z
    let flying := b.seqr.flights.any fun x => x.tile == z
    ∃ w1, Completes (.zemuQry f) s core slot w b w1 ∧ Wrote c w w1 f.d.toNat tW32 fun _ =>
      if b.nTiles ≤ z then 3 else (if t.emulated then 2 else if flying then 1 else 0) + 16 * t.tag)

/-- A request of another device that arrives in order is answered with its RTAG, but at colour 0: refused with code 2 where the tenant
table does not admit it (R332), failed with the code of the check that fails (R335), parked while a host page is asked for (R474), and else
served (R333, R334); atomics on HBM are applied in the hot-word cache (R337), collective traffic goes to its group or is refused (R327), and
a launch packet is appended to its queue or refused (R339). The layout of payloads, and what becomes of a request whose length is not its
own, are the model's (entry 20 of the log). -/
def Obligations.LoessRequests : Prop :=
  (∀ p f s q, Arrives s p q f 1 →
    let t := s.took p q f
    let a := numIn f.payload 0 8
    let n := numIn f.payload 8 2
    let check := t.remoteCheck (tenantColour (t.entryOf f)) (numIn f.payload 10 1) a n
    let sealed := numIn f.payload 11 1 = 1 ∧ n = 16 ∧ a % 16 = 0 ∧ a / 16 ∈ t.tags
    let answer (u : State) (bs : List Byte) (ctag : BitVec 13) (cot : BitVec 78) : Prop :=
      exec (.read p f) s = .next (u.reply p f 2 bs ctag cot)
    (n = 0 ∨ 192 < n ∨ f.payload.length ≠ 16 → exec (.read p f) s =
      .next { t with ports := kmod t.ports p fun q => { q with discarded := q.discarded + 1 } }) ∧
    (f.payload.length = 16 → 0 < n → n ≤ 192 →
      (t.accepts f = false → answer t (replyHead 2 0 0) 0 0) ∧
      (t.accepts f = true → ∀ code, check = some code → answer t (replyHead code 0 0) 0 0) ∧
      (t.accepts f = true → check = none →
        match t.flitPages f a n with
        | .waits u => exec (.read p f) s = .next { u with parked := u.parked ++ [(p, f)] }
        | .failed u => answer u (replyHead 3 0 0) 0 0
        | .ready => (¬sealed → answer t (replyHead 0 (t.poisonUnits a n) 0 ++ t.bytesAt a n) 0 0) ∧
          (sealed → answer t (replyHead 0 (t.poisonUnits a n) 0 ++ toBytes 16 (fabricSeal (t.capAt a).bits).1.toNat) 2
            (fabricSeal (t.capAt a).bits).2)))) ∧
  (∀ p f s q, Arrives s p q f 3 →
    let t := s.took p q f
    let a := numIn f.payload 0 8
    let n := numIn f.payload 8 2
    let check := t.remoteCheck (tenantColour (t.entryOf f)) (numIn f.payload 10 1) a n
    let sealed := numIn f.payload 11 1 = 1 ∧ n = 16 ∧ a % 16 = 0 ∧ rangeOf a = .hbm
    let units := (List.range ((a % 64 + n + 63) / 64)).filter fun i => (numIn f.payload 12 1).testBit i
    let marked (u : State) : State := { u with poison := units.foldl (fun m i => nins m (a / 64 + i)) u.poison }
    let answer (u : State) (code : Nat) : Prop := exec (.write p f) s = .next (u.reply p f 4 (replyHead code 0 0) 0 0)
    (n = 0 ∨ 192 < n ∨ f.payload.length ≠ 16 + n → exec (.write p f) s =
      .next { t with ports := kmod t.ports p fun q => { q with discarded := q.discarded + 1 } }) ∧
    (f.payload.length = 16 + n → 0 < n → n ≤ 192 →
      (t.accepts f = false → answer t 2) ∧
      (t.accepts f = true → ∀ code, check = some code → answer t code) ∧
      (t.accepts f = true → check = none →
        match t.flitPages f a n with
        | .waits u => exec (.write p f) s = .next { u with parked := u.parked ++ [(p, f)] }
        | .failed u => answer u 3
        | .ready => (¬sealed → answer (marked (t.store a ((f.payload.drop 16).take n))) 0) ∧
          (sealed → answer (marked (t.storeCap a (t.unsealed f).1 (t.unsealed f).2)) 0)))) ∧
  (∀ (s : State) (f : Flit), ((s.unsealed f).2 = true ↔
      f.ctag.getLsbD 1 = true ∧ s.accepts f = true ∧ field f.cot.toNat 6 6 ≠ 3) ∧
    (f.ctag.getLsbD 1 = true → (s.unsealed f).1 = toBytes 16 (setField (setField (BitVec.ofNat 128 (ofBytes ((f.payload.drop 16).take 16)))
      64 6 (field f.cot.toNat 6 6)) 56 8 (tenantColour (s.entryOf f))).toNat)) ∧
  (∀ p f s q, Arrives s p q f 5 →
    let t := s.took p q f
    let n := numIn f.payload 8 2
    let a := numIn f.payload 0 8
    let fit := (n = 4 ∨ n = 8) ∧ numIn f.payload 11 1 % 16 ≤ 8 ∧ numIn f.payload 12 1 ≤ 32
    (¬fit → exec (.atomic p f) s = .next { t with ports := kmod t.ports p fun q => { q with discarded := q.discarded + 1 } }) ∧
    (fit → ∀ u, t.assemble f false (numIn f.payload 13 1) = (none, u) → exec (.atomic p f) s = .next u) ∧
    (fit → ∀ bs u, t.assemble f false (numIn f.payload 13 1) = (some bs, u) →
      let k := chainOf n (numIn f.payload 11 1) (numIn f.payload 12 1) bs
      let check := u.remoteCheck (tenantColour (u.entryOf f)) (numIn f.payload 10 1) a n
      let fails (code : Nat) : Prop := exec (.atomic p f) s = .next (u.reply p f 6 (replyHead code 0 16) 0 0)
      (u.accepts f = false → fails 2) ∧
      (u.accepts f = true → rangeOf a ≠ .hbm → fails 3) ∧
      (u.accepts f = true → rangeOf a = .hbm → ∀ code, check = some code → fails code) ∧
      (u.accepts f = true → rangeOf a = .hbm → check = none → u.poisoned a n = true →
        exec (.atomic p f) s = .next (u.replyOlds p f true (List.replicate (n * k.lanes.length) 0))) ∧
      (u.accepts f = true → rangeOf a = .hbm → check = none → u.poisoned a n = false →
        exec (.atomic p f) s = .next (((u.storeNum a n (k.run (u.numAt a n)).2).heat (a / 64)).replyOlds p f false
          ((k.run (u.numAt a n)).1.flatMap fun x => toBytes n x.2))))) ∧
  (∀ p f s q, Arrives s p q f 7 → let t := s.took p q f
    exec (.collectiveData p f) s = .next (if t.accepts f then t.groupFlit (tenantColour (t.entryOf f)) false f.payload
      else t.reply p f 8 (f.payload.take 11 ++ toBytes 5 2) 0 0)) ∧
  (∀ p f s q, Arrives s p q f 8 → let t := s.took p q f
    exec (.collectiveControl p f) s = .next (if t.accepts f then t.groupFlit (tenantColour (t.entryOf f)) true f.payload
      else if numIn f.payload 11 5 = 0 then t.reply p f 8 (f.payload.take 11 ++ toBytes 5 2) 0 0 else t)) ∧
  (∀ p f s q, Arrives s p q f 9 →
    let t := s.took p q f
    let refused (u : State) (outcome : Nat) : Prop := exec (.forerunnerLaunch p f) s =
      .next { (u.reply p f 4 (toBytes 8 outcome ++ toBytes 8 0) 0 0) with launchRefused := s.launchRefused + 1 }
    (t.launchTarget f = none → refused t 1) ∧
    (∀ n r, t.launchTarget f = some (n, r) →
      (t.indexBlock r = none → refused (t.stopQueue n 4) 1) ∧
      (∀ ix, t.indexBlock r = some ix →
        let full := 2 ^ r.size < t.numAt ix 8 + 1 - t.numAt (ix + 64) 8
        (full → refused t 2) ∧
        (¬full → t.ringSlot r (t.numAt ix 8) = none → refused (t.stopQueue n 4) 1) ∧
        (∀ a, ¬full → t.ringSlot r (t.numAt ix 8) = some a →
          exec (.forerunnerLaunch p f) s = .next (((((t.storeNum ix 8 (t.numAt ix 8 + 1)).store (a + 8) (f.payload.drop 8)).store a
            (f.payload.take 8)).setQueue n { r with doorbell := true }).reply p f 4 (toBytes 16 0) 0 0))))) ∧
  (∀ (s : State) p f kind bs ctag cot q,
    let o := (s.route f.sdev.toNat).getD p
    let g := s.response f kind bs ctag cot
    let x := q.numbered g
    kget s.ports o = some q →
    (s.replyColour f = 0 → s.reply p f kind bs ctag cot = s) ∧
    let q1 := { q with sent := x :: q.sent, window := q.window ++ [x], seq := (q.seq + 1) % 65536, lastTx := s.now (portDie o) }
    (s.replyColour f ≠ 0 → q.queued = [] → q.window.length < 64 →
      s.reply p f kind bs ctag cot = { s with ports := kset s.ports o q1 }) ∧
    (s.replyColour f ≠ 0 → q.queued ≠ [] ∨ 64 ≤ q.window.length →
      s.reply p f kind bs ctag cot = { s with ports := kset s.ports o { q with queued := q.queued ++ [g] } }) ∧
    x.seq = BitVec.ofNat 16 q.seq ∧ x.ack = BitVec.ofNat 16 q.ack ∧ x.rtag = f.rtag ∧ x.ddev = f.sdev ∧ x.payload = bs ∧
    flitSound x = true)

/-- A response goes to the request of its RTAG: the bytes read with their capability's tag, a store's acknowledgement, an atomic's old
values, or a failure code; once every piece of a store has come to an end, the failure of its lowest lane reaches its wave and its stream's
counter is lowered (R224, R333, R334, R335, R336). The link acknowledges, replays and sends idle flits, a flit that may not be taken is
counted, and a link or request that is silent too long is failed (R333, R338). -/
def Obligations.LoessLinks : Prop :=
  (∀ p f s q r, Arrives s p q f 2 → f.col ≠ 0 → kget (s.took p q f).remote f.rtag.toNat = some r → r.dev = f.sdev.toNat → r.answer = none →
    let t := s.took p q f
    let c := t.sweptCap ⟨BitVec.ofNat 128 (ofBytes (t.unsealed f).1), (t.unsealed f).2⟩
    let x : Answer := { code := numIn f.payload 0 1, data := if f.ctag.getLsbD 1 then (t.unsealed f).1 else f.payload.drop 16,
                        tag := c.tag, units := numIn f.payload 1 1 }
    exec (.readResponse p f) s = .next { t with remote := kset t.remote f.rtag.toNat { r with answer := some x } }) ∧
  (∀ p f s q r, Arrives s p q f 4 → f.col ≠ 0 → kget (s.took p q f).remote f.rtag.toNat = some r → r.dev = f.sdev.toNat → r.answer = none →
    let t := s.took p q f
    (∀ uid stream serial pc lane kind va, r.owner = .store uid stream serial pc lane kind va → numIn f.payload 0 1 = 0 →
      exec (.writeAcknowledgement p f) s = .next (({ t with remote := kdel t.remote f.rtag.toNat }).acknowledge uid stream serial)) ∧
    (numIn f.payload 0 1 ≠ 0 ∨ (∀ uid stream serial pc lane kind va, r.owner ≠ .store uid stream serial pc lane kind va) →
      let r1 := { r with answer := some (Answer.failed (numIn f.payload 0 1)) }
      exec (.writeAcknowledgement p f) s = .next { t with remote := kset t.remote f.rtag.toNat r1 })) ∧
  (∀ p f s q r, Arrives s p q f 6 → f.col ≠ 0 → kget (s.took p q f).remote f.rtag.toNat = some r → r.dev = f.sdev.toNat → r.answer = none →
    (∀ u, (s.took p q f).assemble f true (numIn f.payload 2 1) = (none, u) → exec (.atomicResponse p f) s = .next u) ∧
    (∀ bs u, (s.took p q f).assemble f true (numIn f.payload 2 1) = (some bs, u) →
      let x : Answer := { code := numIn f.payload 0 1, data := bs, tag := false, units := numIn f.payload 1 1 }
      (∀ uid stream serial pc lane kind va, r.owner = .store uid stream serial pc lane kind va → numIn f.payload 0 1 = 0 →
        exec (.atomicResponse p f) s = .next (({ u with remote := kdel u.remote f.rtag.toNat }).acknowledge uid stream serial)) ∧
      (numIn f.payload 0 1 ≠ 0 ∨ (∀ uid stream serial pc lane kind va, r.owner ≠ .store uid stream serial pc lane kind va) →
        exec (.atomicResponse p f) s = .next { u with remote := kset u.remote f.rtag.toNat { r with answer := some x } }))) ∧
  (∀ p kind f s q, kind = 2 ∨ kind = 4 ∨ kind = 6 → Arrives s p q f kind → (s.took p q f).requestOf f = none →
    exec (if kind = 2 then .readResponse p f else if kind = 4 then .writeAcknowledgement p f else .atomicResponse p f) s =
      .next (s.took p q f)) ∧
  (∀ rtag code s r x uid stream serial pc lane kind va dev worst low at', kget s.remote rtag = some r → r.answer = some x →
    r.owner = .store uid stream serial pc lane kind va → x.code = code → code ≠ 0 → s.storeOpen uid serial = false →
    lowestFailure (s.storeFailures uid serial) = some (dev, worst, low, at') →
    exec (.remoteFaultArrival rtag code) s = .next ((({ s with remote := s.remote.filter fun e => !e.2.ofStore uid serial }).remoteFault
      uid dev worst kind low pc at').acknowledge uid stream serial)) ∧
  (∀ xs dev code lane va, lowestFailure xs = some (dev, code, lane, va) → (dev, code, lane, va) ∈ xs ∧ ∀ y ∈ xs, lane ≤ y.2.2.1) ∧
  (∀ p f s q, Arrives s p q f 10 → exec (.linkControl p f) s = .next (s.took p q f)) ∧
  (∀ p f s q, kget s.ports p = some q → flitSound f = true → f.seq.toNat = (q.ack + 1) % 65536 →
    (f.reserved ≠ 0 ∨ 10 < f.kind.toNat ∨ 208 < f.payload.length) →
    let q1 := { q with ack := f.seq.toNat, window := ackWindow q.window f.ack.toNat, lastRx := s.now (portDie p),
                       discarded := q.discarded + 1 }
    exec (.flitDiscard p f) s = .next (({ s with ports := kset s.ports p q1 } : State).pump p)) ∧
  (∀ p ack s q, kget s.ports p = some q →
    let q1 := { q with window := ackWindow q.window (ack % 65536), lastRx := s.now (portDie p) }
    exec (.idleFlitReceipt p ack) s = .next (({ s with ports := kset s.ports p q1 } : State).pump p)) ∧
  (∀ p s q, kget s.ports p = some q → q.lastTx + microsecond / 2 ≤ s.now (portDie p) →
    ∃ f q1, exec (.loessIdleFlit p) s = .next { s with ports := kset s.ports p q1 } ∧ flitSound f = true ∧
      q1 = { q with sent := f :: q.sent, lastTx := s.now (portDie p) } ∧ f.kind = 0 ∧ f.ack = BitVec.ofNat 16 q.ack ∧ f.payload = []) ∧
  (∀ p ack s q, kget s.ports p = some q →
    let w := ackWindow q.window (ack % 65536)
    let q1 := { q with window := w, sent := w.reverse ++ q.sent, lastTx := s.now (portDie p) }
    exec (.flitCrcReplay p ack) s = .next (({ s with ports := kset s.ports p q1 } : State).pump p)) ∧
  (∀ p s q, kget s.ports p = some q → q.failed = false → q.reach ≠ [] → q.lastRx + 5 * microsecond ≤ s.now (portDie p) →
    let s1 := { s with ports := kset s.ports p { q with failed := true, window := [], queued := [] } }
    exec (.linkTimeout p) s = .next (((q.window ++ q.queued).filter flitIsRequest).foldl State.resend s1)) ∧
  (∀ (s : State) (f : Flit) r, f.kind.toNat < 7 → kget s.remote f.rtag.toNat = some r →
    (∀ o, s.route f.ddev.toNat = some o → s.resend f = { s.sendFlit o f with
      remote := kset s.remote f.rtag.toNat { r with port := o, sentAt := s.now (portDie o) } }) ∧
    (s.route f.ddev.toNat = none → r.answer = none →
      s.resend f = { s with remote := kset s.remote f.rtag.toNat { r with answer := some (Answer.failed 9) } })) ∧
  (∀ rtag s r, kget s.remote rtag = some r → r.answer = none → r.sentAt + 50 * microsecond ≤ s.now (portDie r.port) →
    (∀ q, kget s.ports r.port = some q → s.linkSilent r.port q = false) →
    (∀ e ∈ s.ports, ∀ f ∈ e.2.queued, f.rtag.toNat = rtag → f.kind.toNat ∉ [1, 3, 5]) →
    exec (.switchTimeout rtag) s = .next { s with remote := kset s.remote rtag { r with answer := some (Answer.failed 10) } })

/-- A packet that has no error ends, with its effect: a LAUNCH hands its record to the distributor or answers its refusal, PRED and LOOP
move within their buffer, a packet passed over is given back, WAITMEM ends once its test holds and is queue error 7 at its time, WRITE,
SIGNAL, FETCHFENCE, DRAIN, NOP and the REGION operations do what they say; INDIRECT goes on at its buffer's first packet, and a wait stays
(R415 to R423). An unknown TYPE is queue error 1 (R413), an unknown OP queue error 2 (R423). That a LAUNCH waits for room at its
distributor is the model's reading of R397 (entry 78 of the log). -/
def Obligations.Packets : Prop :=
  (∀ n s q bs, Packet s n q 1 bs → packetClean bs 32 = true → numIn bs 8 8 % 128 = 0 →
    let t := s.begun n q
    let r := s.fetching q
    let cpl := numIn bs 16 8
    cpl = allOnes64 ∨ (cpl % 8 = 0 ∧ r.arena.covers (capCursor r.arena.bits + cpl) 8 = true) →
    ∀ a, t.arena r (numIn bs 8 8) 128 permLoad = .ok a →
    let verdict := t.judge (.queue r.colour) (t.bytesAt a 128) ((List.range 8).map fun i => t.tags.contains (a / 16 + i))
    let refused (code : Nat) : Prop :=
      (cpl = allOnes64 → exec (.launch n) s = .next (t.endPacket n q.cursor.next (intrOf bs))) ∧
      (∀ c, cpl ≠ allOnes64 → t.arena r cpl 8 permStore = .ok c →
        exec (.launch n) s = .next ((t.storeNum c 8 (2 ^ 63 + code)).endPacket n q.cursor.next (intrOf bs)))
    (∀ code, verdict = .error code → refused code) ∧
    (∀ x, verdict = .ok x →
      let named := ∃ y ∈ x.path, y.num = t.rcbNumber r.region
      let full := t.listFull (homeDie (envOf x.path).partition)
      (¬named → refused 16) ∧ (named → full = true → exec (.launch n) s = .next t) ∧
      (named → full = false → ∃ l : Launch, exec (.launch n) s = .next ((({ t with
            nextUid := t.nextUid + 1, launches := kset t.launches t.nextUid l }).addGrid x t.nextUid (x.count = 1)).endPacket n
            q.cursor.next (cpl = allOnes64 && intrOf bs)) ∧
        l.queue = n ∧ l.counter = 1 ∧ l.region = (envOf x.path).region ∧ l.intr = intrOf bs ∧
        (cpl = allOnes64 → l.cpl = none) ∧ (cpl ≠ allOnes64 → l.cpl = some cpl ∧ l.cval = numIn bs 24 8)))) ∧
  (∀ n s q bs, Packet s n q 2 bs → packetClean bs 24 = true → 0 < numIn bs 16 8 → numIn bs 16 8 ≤ 65536 → numIn bs 8 8 % 64 = 0 →
    let r := s.fetching q
    r.arena.covers (capCursor r.arena.bits + numIn bs 8 8) (64 * numIn bs 16 8) = true →
    (q.cursor.frames.length < 2 → exec (.indirect n) s = .next ((s.begun n q).setQueue n
      { r with cursor := q.cursor.enter (numIn bs 8 8) (numIn bs 16 8) (intrOf bs), lastAt := s.now s.activeDie })) ∧
    (2 ≤ q.cursor.frames.length → exec (.indirect n) s = .next ((s.begun n q).stopQueue n 5))) ∧
  (∀ n s q bs a, Packet s n q 3 bs → packetClean bs 48 = true → numIn bs 32 8 ≤ 3 → 0 < numIn bs 40 8 → numIn bs 40 8 ≤ 65535 →
    let t := s.begun n q
    let r := s.fetching q
    numIn bs 8 8 % 8 = 0 → t.arena r (numIn bs 8 8) 8 permLoad = .ok a →
    let holds := wordTest (numIn bs 32 8) (t.numAt a 8) (numIn bs 24 8) (numIn bs 16 8)
    (holds = true → exec (.pred n) s = .next (t.endPacket n q.cursor.next (intrOf bs))) ∧
    (holds = false → q.cursor.frames = [] → exec (.pred n) s =
      .next ((t.setQueue n { r with skip := numIn bs 40 8 }).endPacket n q.cursor.next (intrOf bs))) ∧
    (holds = false → q.cursor.frames ≠ [] → exec (.pred n) s =
      .next (t.endPacket n (q.cursor.skipTo (numIn bs 40 8)) (intrOf bs)))) ∧
  (∀ n s q bs, s.queue n = some q → s.firmware.alive = true → q.valid = true → q.error = false → q.slot ≠ none → q.skip ≠ 0 →
    s.packetAt q q.cursor = .ok (some bs) → s.mayConsume q = true →
    exec (.pred n) s = .next ((s.consume q q.cursor.index).setQueue n
      { q with cursor := q.cursor.next, skip := q.skip - 1, lastAt := s.now s.activeDie,
               fetched := q.fetched.filter fun e => e.1 != q.cursor })) ∧
  (∀ n s q bs f rest, Packet s n q 4 bs → packetClean bs 24 = true → 0 < numIn bs 8 8 → numIn bs 8 8 ≤ 16 → 0 < numIn bs 16 8 →
    numIn bs 16 8 < 2 ^ 32 → q.cursor.frames = f :: rest → f.loop = none → f.pos + 1 + numIn bs 8 8 ≤ f.count →
    let f1 := { f with pos := f.pos + 1, loop := some (f.pos + 1, numIn bs 8 8, numIn bs 16 8) }
    exec (.loopPacket n) s = .next ((s.begun n q).endPacket n { q.cursor with frames := f1 :: rest } (intrOf bs))) ∧
  (∀ n s q bs a, Packet s n q 5 bs → packetClean bs 48 = true → numIn bs 32 8 ≤ 3 → numIn bs 8 8 % 8 = 0 →
    let t := s.begun n q
    let r := s.fetching q
    t.arena r (numIn bs 8 8) 8 permLoad = .ok a →
    let holds := wordTest (numIn bs 32 8) (t.numAt a 8) (numIn bs 24 8) (numIn bs 16 8)
    (holds = true → exec (.waitmem n) s = .next (t.endPacket n q.cursor.next (intrOf bs))) ∧
    (holds = false → q.waits = 0 →
      exec (.waitmem n) s = .next (t.setQueue n { r with waits := 1, waited := 0, since := s.now s.activeDie })) ∧
    (holds = false → q.waits = 1 → exec (.waitmem n) s = .next t)) ∧
  (∀ n s q bs a, s.queue n = some q → s.firmware.alive = true → q.error = false → q.slot ≠ none → q.waits = 1 →
    s.packetAt q q.cursor = .ok (some bs) → s.arena q (numIn bs 8 8) 8 permLoad = .ok a → 0 < numIn bs 40 8 →
    numIn bs 40 8 * microsecond ≤ q.waited + (s.now s.activeDie - q.since) →
    wordTest (numIn bs 32 8) (s.numAt a 8) (numIn bs 24 8) (numIn bs 16 8) = false →
    exec (.waitmemTimeout n) s = .next (s.stopQueue n 7)) ∧
  (∀ n s q bs a, Packet s n q 6 bs → packetClean bs 32 = true → numIn bs 24 8 ≤ 1 →
    let t := s.begun n q
    let size := if numIn bs 24 8 = 0 then 4 else 8
    numIn bs 8 8 % size = 0 → t.arena (s.fetching q) (numIn bs 8 8) size permStore = .ok a →
    exec (.writePacket n) s = .next ((t.storeNum a size (numIn bs 16 8)).endPacket n q.cursor.next (intrOf bs))) ∧
  (∀ n s q bs, Packet s n q 7 bs → packetClean bs 16 = true → numIn bs 8 8 ≤ 2047 →
    exec (.signal n) s = .next (({ s.begun n q with msix := (q.func, numIn bs 8 8) :: s.msix }).endPacket n q.cursor.next (intrOf bs))) ∧
  (∀ n s q bs, Packet s n q 8 bs → packetClean bs 8 = true → exec (.fetchfence n) s =
    .next (((s.begun n q).setQueue n { s.fetching q with fetched := [] }).endPacket n q.cursor.next (intrOf bs))) ∧
  (∀ n s q bs, Packet s n q 9 bs → packetClean bs 8 = true →
    ((∀ e ∈ s.launches, e.2.queue ≠ n) → exec (.drain n) s = .next ((s.begun n q).endPacket n q.cursor.next (intrOf bs))) ∧
    ((∃ e ∈ s.launches, e.2.queue = n) →
      exec (.drain n) s = .next ((s.begun n q).setQueue n { s.fetching q with waits := 2 }))) ∧
  (∀ n s q bs c path, Packet s n q 10 bs → regionOp bs = 0 → (s.begun n q).regionNamed (s.fetching q) bs = .ok (c, path) →
    exec (.regionSet n) s = .next ((((s.begun n q).noteRegions path).setQueue n
      { s.fetching q with regionSet := some c }).endPacket n q.cursor.next (intrOf bs))) ∧
  (∀ n s q bs, Packet s n q 10 bs → 3 < regionOp bs → exec (.regionSet n) s = .next ((s.begun n q).stopQueue n 2)) ∧
  (∀ n s q bs c y path, Packet s n q 10 bs → regionOp bs = 3 →
    (s.begun n q).regionNamed (s.fetching q) bs = .ok (c, y :: path) →
    let s1 := (s.begun n q).noteRegions (y :: path)
    let m := kmod s1.regions y.num fun x => { x with prioSet := some (numIn bs 17 1 % 16) }
    exec (.regionPrio n) s = .next (({ s1 with regions := m }).endPacket n q.cursor.next (intrOf bs))) ∧
  (∀ n s q bs c y path x, Packet s n q 10 bs → q.waits = 0 → (s.begun n q).regionNamed (s.fetching q) bs = .ok (c, y :: path) →
    let t := s.begun n q
    let r := s.fetching q
    let s1 := t.noteRegions (y :: path)
    kget s1.regions y.num = some x →
    let saved := ∃ a z, x.image = some a ∧ kget s1.images a = some z ∧ z.state = 2
    let go (why : Nat) : State :=
      let m := kset s1.regions y.num { x with client := some n, answer := none, why }
      ({ s1 with regions := m }).setQueue n { r with waits := 3, since := s.now s.activeDie }
    (regionOp bs = 1 →
      (x.client ≠ none ∨ s1.restoring y.num = true → exec (.regionSave n) s = .next t) ∧
      (x.client = none → s1.restoring y.num = false → ¬saved →
        exec (.regionSave n) s = .next (go (if x.why < 2 then 2 else x.why))) ∧
      (x.client = none → s1.restoring y.num = false → saved →
        (numIn bs 24 8 = allOnes64 → exec (.regionSave n) s = .next (s1.endPacket n q.cursor.next (intrOf bs))) ∧
        (∀ a, numIn bs 24 8 ≠ allOnes64 → s1.arena r (numIn bs 24 8) 8 permStore = .ok a →
          exec (.regionSave n) s = .next ((s1.storeNum a 8 (numIn bs 32 8)).endPacket n q.cursor.next (intrOf bs))))) ∧
    (regionOp bs = 2 →
      (x.client ≠ none ∨ x.why ≠ 0 → exec (.regionRestore n) s = .next t) ∧
      (x.client = none → x.why = 0 → exec (.regionRestore n) s = .next (go 0)))) ∧
  (∀ n s q bs k x, Packet s n q 10 bs → q.waits = 3 → (s.begun n q).waitedRegion n = some (k, x) → regionOp bs = 1 ∨ regionOp bs = 2 →
    let t := s.begun n q
    let s1 := { t with regions := kset t.regions k { x with client := none, answer := none } }
    let runs (u : State) : Prop := exec (if regionOp bs = 1 then .regionSave n else .regionRestore n) s = .next u
    (x.answer = none → runs t) ∧
    (∀ reason, x.answer = some reason →
      (numIn bs 24 8 = allOnes64 → runs (s1.endPacket n q.cursor.next (intrOf bs))) ∧
      (∀ a, numIn bs 24 8 ≠ allOnes64 → s1.arena (s.fetching q) (numIn bs 24 8) 8 permStore = .ok a →
        runs ((s1.storeNum a 8 (if reason = 0 then numIn bs 32 8 else 2 ^ 63 + reason)).endPacket n q.cursor.next (intrOf bs))))) ∧
  (∀ n s q bs, Packet s n q 11 bs → packetClean bs 8 = true →
    exec (.nopPacket n) s = .next ((s.begun n q).endPacket n q.cursor.next (intrOf bs))) ∧
  (∀ n s q ty bs, Packet s n q ty bs → (ty = 0 ∨ 11 < ty) → exec (.nopPacket n) s = .next ((s.begun n q).stopQueue n 1)) ∧
  (∀ n s l, kget s.launches n = some l → l.counter = 0 → s.firmware.alive = true → s.storesPerformed l.uids = true →
    let s1 := ({ s with launches := kdel s.launches n }).dropPriorities l.regions
    (l.cpl = none ∨ s1.queue l.queue = none → exec (.launchRetirement n) s = .next s1) ∧
    (∀ q off, l.cpl = some off → s1.queue l.queue = some q →
      let ended (s2 : State) : Prop := exec (.launchRetirement n) s =
        .next (if l.intr = true then { s2 with msix := (q.func, q.vec) :: s2.msix } else s2)
      (∀ a, s1.arena q off 8 permStore = .ok a → ended (s1.storeNum a 8 l.cval)) ∧
      (∀ e, s1.arena q off 8 permStore = .error e → ended (s1.queueRecord l.queue q (4 + 2 ^ 8) l.index))))

/-- A packet's end counts in the service counter with the INDIRECT packets it ends, and raises their interrupts; a stopped queue has ERROR
set and leaves its slot, with a record of its cause (R415, R418, R424, R427). Queues are rung, mapped, found idle and unmapped (R427 to
R433), a function-level reset invalidates a function's queues (R434), and the complexes beat, fail and take over (R435 to R438). -/
def Obligations.QueuesAndComplexes : Prop :=
  (∀ (s : State) n q c intr, s.queue n = some q → q.leaving = false → c.index = q.cursor.index →
    c.frames.length = q.cursor.frames.length → ∃ t q1, s.endPacket n c intr = t ∧ t.queue n = some q1 ∧ q1.cursor = c ∧ q1.waits = 0 ∧
      q1.served = s.firmware.service + 1 ∧ t.firmware.service = s.firmware.service + 1 ∧ t.mem = s.mem ∧
      t.msix = (if intr then [(q.func, q.vec)] else []) ++ s.msix) ∧
  (∀ (s : State) n q cause, s.queue n = some q → ∃ q1, (s.stopQueue n cause).queue n = some q1 ∧ q1.error = true ∧ q1.slot = none ∧
    q1.fetched = [] ∧ q1.cursor = q.cursor) ∧
  (∀ func v s, let n := v.toNat % 65536
    (∀ q, s.queue n = some q → q.valid = true → q.func = func → exec (.doorbell func v) s = .next (s.setQueue n { q with doorbell := true })) ∧
    ((∀ q, s.queue n = some q → ¬(q.valid = true ∧ q.func = func)) → 
      let drops := kset s.host.dbdrop func ((kgetD s.host.dbdrop func 0 + 1) % 2 ^ 32)
      exec (.doorbell func v) s = .next { s with host := { s.host with dbdrop := drops } })) ∧
  (∀ n s q i, s.queue n = some q → s.firmware.alive = true → q.slot = none → s.queueReady q = true → s.cpmode.testBit 0 = false →
    (∀ e ∈ s.queues, e.1 ≠ n → e.2.slot = none → s.queueReady e.2 = true → queueBefore e.1 e.2 n q = false) →
    s.freeSlot = some i → ∃ t q1, exec (.queueMap n) s = .next t ∧ t.queue n = some q1 ∧ q1.slot = some i ∧
      q1.mappedAt = s.now s.activeDie ∧ q1.cursor = q.cursor ∧ ∀ m, m ≠ n → t.queue m = s.queue m) ∧
  (∀ n s q, s.queue n = some q → q.slot ≠ none → s.firmware.alive = true → s.queueIdle q = true →
    exec (.queueIdle n) s = .next (s.setQueue n { q with doorbell := false })) ∧
  (∀ v s q, let n := v.toNat % 65536
    s.queue n = some q → s.cpmode.testBit 0 = true → q.valid = true → q.slot = none →
    (∀ e ∈ s.queues, e.2.slot ≠ some (field v.toNat 16 6)) →
    exec (.qmapMap v) s = .next (s.mapQueue n (field v.toNat 16 6))) ∧
  (∀ v s q, let n := v.toNat % 65536
    s.queue n = some q → s.cpmode.testBit 0 = true → q.slot ≠ none →
    (q.waits = 0 → exec (.qmapUnmap v) s = .next (s.unmapQueue n)) ∧
    (q.waits ≠ 0 → exec (.qmapUnmap v) s = .next (s.setQueue n { q with leaving := true }))) ∧
  (∀ v s, exec (.cpmodeWrite v) s = .next { s with cpmode := v.toNat % 32 }) ∧
  (∀ func s, kwf s.queues = true → ∃ t, exec (.functionLevelReset func) s = .next t ∧
    ∀ n q, t.queue n = some q → q.func = func → q.valid = false ∧ q.doorbell = false ∧ q.slot = none) ∧
  (∀ s, s.firmware.alive = true → s.firmware.lastBeat + 100 * microsecond ≤ s.now s.standbyDie →
    let f := { s.firmware with lastBeat := s.now s.standbyDie, beats := s.firmware.beats + 1 }
    exec .heartbeat s = .next { s with firmware := f }) ∧
  (∀ s, exec .activeComplexFailure s = .next { s with firmware := { s.firmware with alive := false } }) ∧
  (∀ s, s.firmware.standby = true → s.firmware.alive = false → s.firmware.lastBeat + 1000 * microsecond ≤ s.now s.standbyDie →
    ∃ t, exec .firmwareTakeover s = .next t ∧ t.firmware.activeB = !s.firmware.activeB ∧ t.firmware.alive = true ∧
      t.firmware.version = s.firmware.other ∧
      let moved (x : Nat) : Nat := x + s.now s.standbyDie - s.now s.activeDie
      t.queues = s.queues.map fun e => (e.1, { e.2 with fetched := [], since := moved e.2.since, lastAt := moved e.2.lastAt,
                                                         mappedAt := moved e.2.mappedAt }))

/-- The halt line stops an engine of its partition once, a matrix engine when its operations in flight are over (R360, R361); a core that
it finds within a latch change is left with latch and clean bit 0 (R24). A debugger that may reach a region halts, resumes, arms and
disarms it, its halts held while the context is sealed (R388), and writes a halted wave's registers (R358, R475). A page request is
answered once, or fails after 100 ms with a record (R474). -/
def Obligations.HaltsDebuggingPages : Prop :=
  (∀ top e s h r, kget s.halts top = some h → kget s.regions top = some r → e ∉ h.stopped →
    servesPartition r.env.partition e = true → (∀ c, e ≠ .matrix c) →
    ∃ t, exec (.haltLineArrival top e) s = .next t ∧
      kget t.halts top = some { h with stopped := h.stopped ++ [e] } ∧
      ((∃ d, e = .copy d ∨ e = .distributor d) → t.cores = s.cores) ∧
      ∀ c, e = .waveCore c → t.cores = s.cores ∨ ((s.core c).blocks = [] ∧ (s.core c).queue = [] ∧
        t.cores = kset s.cores c { s.core c with latch := 0, clean := false })) ∧
  (∀ top c s h r, kget s.halts top = some h → kget s.regions top = some r → EngineId.matrix c ∉ h.stopped →
    c ∈ r.env.partition →
    ((∀ n b, (n, b) ∈ (s.core c).blocks → b.env.top = top → b.seqr.flights = []) →
      ∃ t, exec (.haltLineArrival top (.matrix c)) s = .next t ∧
        kget t.halts top = some { h with stopped := h.stopped ++ [.matrix c] }) ∧
    ((∃ n b, (n, b) ∈ (s.core c).blocks ∧ b.env.top = top ∧ b.seqr.flights ≠ []) →
      (kget h.reached c ≠ none → exec (.haltLineArrival top (.matrix c)) s = .next s) ∧
      (kget h.reached c = none → exec (.haltLineArrival top (.matrix c)) s =
        .next { s with halts := kset s.halts top { h with reached := kset h.reached c (s.flightCount top c) } }))) ∧
  (∀ func region s, s.debugsRegion func region = true → s.sealing region = false →
    ∃ t, exec (.debuggerHalt func region) s = .next t ∧ ∀ core slot w b, s.wave core slot = some w → s.block core w.bslot = some b →
      t.wave core slot = some (if b.env.region = region ∧ (w.recorded = false ∨ s.restoring region = true) then
        { w with dbgHalt := true } else w)) ∧
  (∀ func region s, s.debugsRegion func region = true → s.sealing region = true →
    ∃ t, exec (.debuggerHalt func region) s = .next t ∧ ∀ core slot w b, s.wave core slot = some w → s.block core w.bslot = some b →
      t.wave core slot = some (if b.env.region = region then
        (if w.recorded = true ∨ w.atBoundary = false then { w with bkpend := true } else { w with recorded := true, bkpend := true })
        else w)) ∧
  (∀ func region s, s.debugsRegion func region = true →
    ∃ t, exec (.debuggerResume func region) s = .next t ∧ t.mem = s.mem ∧ ∀ core slot w b, s.wave core slot = some w →
      s.block core w.bslot = some b →
      t.wave core slot = some (if b.env.region = region then { w with dbgHalt := false } else w)) ∧
  (∀ func region s, s.debugsRegion func region = true →
    exec (.debuggerArm func region) s = .next { s with host := { s.host with armed := nins s.host.armed region } } ∧
    exec (.debuggerDisarm func region) s = .next { s with host := { s.host with armed := ndel s.host.armed region } }) ∧
  (∀ func region s, s.debugsRegion func region = false → exec (.debuggerHalt func region) s = .next s ∧
    exec (.debuggerResume func region) s = .next s ∧ exec (.debuggerArm func region) s = .next s ∧
    exec (.debuggerDisarm func region) s = .next s) ∧
  (∀ func x s core slot w, s.debugged func = some (core, slot, w) →
    let v := (kgetD s.host.dbgsel func 0).toNat
    let n := field v 15 10
    (field v 13 2 = 0 → n < 640 →
      let s1 := if n ∈ w.spilled then s.refill core slot n else s
      ∀ w2, s1.debugged func = some (core, slot, w2) → ∃ w1, exec (.dbgdataWrite func x) s = .next (s1.setWave core slot w1) ∧
        w1 = { w2 with base := w1.base } ∧
        (∀ l, l < 32 → (w1.base.reg n).val.lane l = if l = field v 25 5 then x.setWidth 32 else (w2.base.reg n).val.lane l) ∧
        ∀ m, m ≠ n → ∀ l, l < 32 → (w1.base.reg m).val.lane l = (w2.base.reg m).val.lane l) ∧
    (field v 13 2 = 0 → 640 ≤ n → n < 672 → w.level ≠ 0 → n ∉ w.spilled →
      ∃ w1, exec (.dbgdataWrite func x) s = .next (s.setWave core slot w1) ∧ w1 = w.setBank w1.bank ∧
        (∀ l, l < 32 → (w1.bank.reg n).val.lane l = if l = field v 25 5 then x.setWidth 32 else (w.bank.reg n).val.lane l) ∧
        ∀ m, m ≠ n → ∀ l, l < 32 → (w1.bank.reg m).val.lane l = (w.bank.reg m).val.lane l) ∧
    (field v 13 2 = 1 → ∃ w1, exec (.dbgdataWrite func x) s = .next (s.setWave core slot w1) ∧ OnlyPred w w1 (destRegs n 1) ∧
      (n ≠ 1023 → w1.bank.pred n = x.setWidth 32)) ∧
    (field v 13 2 = 2 → ∃ w1, exec (.dbgdataWrite func x) s = .next (s.setWave core slot w1) ∧ WroteGrp w w1 n x) ∧
    (field v 13 2 = 3 → exec (.dbgdataWrite func x) s = .next (s.setWave core slot (w.atPc (x.setWidth 32))))) ∧
  (∀ tag s r, kget s.pri tag = some r → r.answer = none →
    exec (.pageRequestResponse tag true) s =
      .next (({ s with pri := kdel s.pri tag, hostPresent := nins s.hostPresent r.page }).serveParked) ∧
    exec (.pageRequestResponse tag false) s = .next (s.failPage tag r) ∧
    (r.sentAt + 100000 * microsecond ≤ s.now 8 → exec (.pageRequestTimeout tag) s = .next (s.failPage tag r)) ∧
    (s.parked = [] → ∃ r1, kget (s.failPage tag r).pri tag = some r1 ∧ r1.answer = some false ∧ r1.page = r.page))

/-- The security core answers a proposal with the first reason that applies, or applies all of it (R444 to R446): CREATE and DESTROY
(R443), the operations over granules with what each leaves of them (R445, R447, R448), MINT (R450), TABLE (R451) and ATTEST (R454). It
raises the rollback counters and takes a staged image into use where that is asked (R437, R452). -/
def Obligations.SecurityCore : Prop :=
  (∀ s p, Submitted s p → p.op = 0 →
    (kget s.colours p.colour = none → ∃ c : Colour, exec .create s =
        .next (({ s with colours := kset s.colours p.colour c }).replied 0 0) ∧
      (c.conf = true ↔ (p.word 2).testBit 0 = true) ∧ c.funcs = BitVec.ofNat 64 (p.word 3)) ∧
    (kget s.colours p.colour ≠ none → exec .create s = .next (s.replied 5 0))) ∧
  (∀ s p, Submitted s p → p.op = 1 →
    (s.colourExists p.colour = true → s.colourUsed p.colour = false →
      exec .destroy s = .next (({ s with colours := kdel s.colours p.colour }).replied 0 0)) ∧
    (s.colourExists p.colour = false ∨ s.colourUsed p.colour = true → exec .destroy s = .next (s.replied 5 0))) ∧
  Proposes .assign 2 State.assign ∧ Proposes .revoke 3 State.revoke ∧ Proposes .release 4 State.release ∧
  Proposes .attr 5 State.attr ∧ Proposes .quar 6 State.quarantine ∧ Proposes .unquar 7 State.release ∧
  (∀ s p, GranuleChange s (s.assign p) p true fun g =>
      { state := 1, owner := p.colour, cls := p.cls, home := p.home, pincg := p.pincg, revoked := false, revpass := 0,
        version := (g.version + 2) % 2 ^ 32 }) ∧
  (∀ s p, GranuleChange s (s.revoke p) p false fun g =>
      { g with revoked := true, revpass := s.revokePass, version := (g.version + 1) % 2 ^ 32 }) ∧
  (∀ s p, GranuleChange s (s.release p) p true fun g =>
      { state := 0, owner := 0, cls := 0, home := 0, pincg := 0, revoked := false, revpass := 0,
        version := (g.version + 2) % 2 ^ 32 }) ∧
  (∀ s p, GranuleChange s (s.attr p) p false fun g =>
      { g with home := p.home, pincg := p.pincg, version := (g.version + 1) % 2 ^ 32 }) ∧
  (∀ s p, GranuleChange s (s.quarantine p) p false fun g =>
      { g with state := 3, revoked := true, revpass := if g.revoked then g.revpass else s.revokePass,
               version := (g.version + 1) % 2 ^ 32 }) ∧
  (∀ s p, Submitted s p → p.op = 8 →
    (∀ r k, s.mint p = .refused r k → exec .mint s = .next (s.replied r k)) ∧
    (∀ t, s.mint p = .accepted t → exec .mint s = .next (t.replied 0 0) ∧
      s.colourExists p.colour = true ∧ s.mintTo (localOf (p.word 5)) = true ∧
      ∃ cap : Cap, t = s.storeCapV (localOf (p.word 5)) cap ∧ cap.tag = true ∧ capColour cap.bits = p.colour ∧
        capOtype cap.bits = field (p.word 4) 16 6 ∧ capPerms cap.bits = field (p.word 4) 0 12)) ∧
  (∀ s p, Submitted s p → p.op = 9 →
    (∀ r k, s.writeTable p = .refused r k → exec .table s = .next (s.replied r k)) ∧
    (∀ t, s.writeTable p = .accepted t → exec .table s = .next (t.replied 0 0)) ∧
    (p.word 2 = 0 → p.word 3 < 65536 → p.word 4 < 65536 → p.word 5 = 0 →
      (tenantColour (p.word 4) = 0 ∨ s.colourExists (tenantColour (p.word 4)) = true) →
      exec .table s = .next (({ s with tenants := kput s.tenants (p.word 3) (p.word 4) 0 }).replied 0 0)) ∧
    (p.word 2 = 2 → p.word 3 < 64 → p.word 4 < 2 ^ 17 → p.word 5 = 0 →
      let m := kset s.launchQueues (p.word 3) ⟨p.word 4 % 65536, (p.word 4).testBit 16⟩
      exec .table s = .next (({ s with launchQueues := m }).replied 0 0))) ∧
  (∀ s p, Submitted s p → p.op = 10 →
    exec .attest s = .next ((s.store (p.word 6) (s.report p)).replied 0 0) ∧ (s.report p).length = 896) ∧
  (∀ s, s.firmware.updReq = true → s.firmware.alive = true → s.host.submitted = false →
    let v := Config.imageVersion s.host.updaddr
    (Config.imageSigned s.host.updaddr = false → exec .liveUpdate s = .next (s.refuseUpdate 12)) ∧
    (Config.imageSigned s.host.updaddr = true → v < s.product.rollback.getD 1 0 →
      exec .liveUpdate s = .next (s.refuseUpdate 13)) ∧
    (Config.imageSigned s.host.updaddr = true → s.product.rollback.getD 1 0 ≤ v → Config.imageImports s.host.updaddr = true →
      ∃ t, exec .liveUpdate s = .next t ∧ t.firmware.activeB = !s.firmware.activeB ∧ t.firmware.version = v ∧
        t.firmware.other = s.firmware.version ∧ t.firmware.standby = true ∧ t.firmware.updReq = false)) ∧
  (∀ s a b c d, s.firmware.rollReq = true → s.product.rollback = [a, b] → s.product.versions = c :: d →
    ∃ t, exec .rollbackRaise s = .next t ∧ t.product.rollback = [max a c, max b s.firmware.version] ∧ t.firmware.rollReq = false)

/-- Sorrel compares a block's executions, and moves the cores' suspicion by what it finds (R462 to R466), either way for a launch that has
broken its obligations (R458); a sweeper pass takes its number
and the revoked set, waits for the commands that ran, and ends with no tag on a capability that touches that set (R467 to R469). -/
def Obligations.AuditsAndSweeps : Prop :=
  (∀ region s r key a g, kget s.regions region = some r → r.image = none → r.why = 0 → s.sealedAway region = false →
    (∀ e ∈ s.auditsOf region, e.2.stage ≠ 1 ∧ e.2.stage ≠ 4) →
    (s.auditsOf region).find? (fun e => e.2.stage == 0 || e.2.stage == 3) = some (key, a) → kget s.grids a.grid = some g →
    (s.auditCores r.env a = [] → exec (.auditReexecution region) s = .next (s.giveUpAudit key a)) ∧
    (∀ c rest, s.auditCores r.env a ≠ [] →
      s.pickCores g.code g.kernel { r.env with partition := s.auditCores r.env a } true = some (c :: rest) →
      exec (.auditReexecution region) s = .next (s.standAudit key a g r c))) ∧
  (∀ key s a, kget s.sorrel.audits key = some a → a.stage = 2 → s.unruly a = false →
    (a.digest1 = some a.digest0 →
      exec (.auditComparison key) s = .next (((s.moveScore a.core0 0 1).moveScore a.core1 0 1).endAudit key a)) ∧
    (a.digest1 ≠ some a.digest0 → ∃ t, exec (.auditComparison key) s = .next t ∧
      kget t.sorrel.audits key = some { a with stage := 3 } ∧ t.sorrel.scores = s.sorrel.scores ∧ t.cores = s.cores)) ∧
  (∀ key s a, kget s.sorrel.audits key = some a → s.unruly a = true →
    (a.stage = 2 → exec (.auditComparison key) s = .next (((s.moveScore a.core0 0 1).moveScore a.core1 0 1).endAudit key a) ∨
      exec (.auditComparison key) s =
        .next { s with sorrel := { s.sorrel with audits := kset s.sorrel.audits key { a with stage := 3 } } }) ∧
    (a.stage = 5 → ∃ s1 : State, exec (.auditTieBreak key) s = .next (s1.endAudit key a))) ∧
  (∀ key s a, kget s.sorrel.audits key = some a → a.stage = 5 → s.unruly a = false → a.digest1 ≠ some a.digest0 →
    (a.digest2 = some a.digest0 → exec (.auditTieBreak key) s = .next ((s.moveScore a.core1 256 0).endAudit key a)) ∧
    (∀ d, a.digest2 = some d → a.digest1 = some d → d ≠ a.digest0 →
      exec (.auditTieBreak key) s = .next (((s.moveScore a.core0 256 0).primaryLost a).endAudit key a)) ∧
    (a.digest2 ≠ some a.digest0 → (a.digest2 = none ∨ a.digest2 ≠ a.digest1) → ∃ s1 : State,
      exec (.auditTieBreak key) s = .next (s1.endAudit key a) ∧ s1.sorrel.unres = min 65535 (s.sorrel.unres + 1) ∧
      s1.sorrel.scores = s.sorrel.scores)) ∧
  (∀ (s : State) core up down, let x := min 65535 (kgetD s.sorrel.scores core 0 + up - down)
    kgetD (s.moveScore core up down).sorrel.scores core 0 = x ∧
    (∀ c, c ≠ core → kgetD (s.moveScore core up down).sorrel.scores c 0 = kgetD s.sorrel.scores c 0) ∧
    (1024 ≤ x → core ∈ (s.moveScore core up down).sorrel.quar)) ∧
  (∀ core v s, (v.getLsbD 17 = true → ∃ t, exec (.cscoreClr core v) s = .next t ∧ core ∉ t.sorrel.quar ∧
      kgetD t.sorrel.scores core 0 = 0 ∧ ∀ c, c ≠ core → kgetD t.sorrel.scores c 0 = kgetD s.sorrel.scores c 0) ∧
    (v.getLsbD 17 = false → exec (.cscoreClr core v) s = .next s)) ∧
  (∀ s, s.sweeper.running = true → ∃ t, exec .swreq s = .next t ∧ t.sweeper.asked = true ∧ t.sweeper.pass = s.sweeper.pass) ∧
  (∀ s, s.sweeper.running = false → exec .swreq s = .next s.startPass ∧
    (s.sweeper.asked = true ∨ (s.sweeper.due = true ∧ s.cpmode.testBit 2 = false) → exec .sweeperPassStart s = .next s.startPass)) ∧
  (∀ s : State, s.startPass.sweeper.running = true ∧ s.startPass.sweeper.pass = (s.sweeper.pass + 1) % 2 ^ 32 ∧
    ∀ n, n ∈ s.startPass.sweeper.revoked ↔ ∃ g, (n, g) ∈ s.kaolin ∧ g.revoked = true) ∧
  (∀ s, (s.passReady = false → exec .sweeperPassComplete s = .next s) ∧
    (s.passReady = true → ∃ t, exec .sweeperPassComplete s = .next t ∧ t.sweeper.running = false ∧
      t.sweeper.endedAt = s.now 8 ∧
      (∀ u ∈ t.tags, u ∈ s.tags ∧ ((t.granule (16 * u)).state = 1 → s.touchesRevoked (t.capAt (16 * u)).bits = false)) ∧
      ∀ core slot w, s.wave core slot = some w → t.wave core slot = some (w.sweepAll s.touchesRevoked)))

/-- The host's registers take what is written and read back as R444, R466 and R475 say; the aperture reaches what a function's colours own
in class 0 (R449); a power window shares 2,160 W with no die below 80 W (R479); and power-on, warm reset, freeze and power loss leave what
R4, R480 and R481 say. -/
def Obligations.HostAndPower : Prop :=
  (∀ func v s, exec (.devnoWrite func v) s = .next (if s.usable = true ∧ func = 0 ∧ v.toNat % 256 ≠ 0 ∧ v.toNat % 256 ≠ 255 ∧
      (∀ e ∈ s.cores, e.2.latch = 0) then { s with devid := v.toNat % 256 } else s)) ∧
  (∀ func off v s, s.usable = false → exec (.deviceRegisterWrite func off v) s = .next s ∧
    (¬(func = 0 ∧ (off = 0 ∨ off = 8)) → s.readRegister func off = BitVec.allOnes 64)) ∧
  (∀ v s, s.usable = true → ∃ t : Nat → State,
    (∀ off, exec (.deviceRegisterWrite 0 off v) s = .next (t off)) ∧
    (t 0x100).ring = { s.ring with base := v.toNat / 64 * 64 } ∧ (t 0x108).ring = { s.ring with size := v.toNat % 32 } ∧
    (t 0x118).ring = { s.ring with tail := v.toNat } ∧ (t 0x120).ring = { s.ring with thresh := v.toNat % 65536 } ∧
    (t 0x300).host.updaddr = v.toNat ∧ (t 0x100010).cpmode = v.toNat % 32 ∧
    (s.host.submitted = false → (t 0x200040).host.submitted = true ∧ (t 0x200040).host.presult = 0) ∧
    (s.host.submitted = true → t 0x200040 = s) ∧ (t 0x301000).sorrel.seed = v.toNat % 2 ^ 32 ∧ t 0x302008 = s.requestPass ∧
    (∀ k, k < 192 → t (0x300000 + 8 * k) = s.clearScore k v) ∧
    (∀ d, d < 8 → s.host.grants.length = 8 → (t (0x200 + 8 * d)).readRegister 0 (0x200 + 8 * d) = BitVec.ofNat 64 (v.toNat % 4096)) ∧
    (∀ k, k < 8 → s.host.props.length = 8 → (t (0x200000 + 8 * k)).readRegister 0 (0x200000 + 8 * k) = v) ∧
    ∀ off ∈ [0x118, 0x300], (t off).readRegister 0 off = v) ∧
  (∀ func off v s, s.usable = true → func ≠ 0 → func < 64 → 8192 ≤ off → exec (.deviceRegisterWrite func off v) s = .next s) ∧
  (∀ func off bs s, bs ≠ [] → off + bs.length ≤ 2 ^ 32 → s.usable = true →
    let a := kgetD s.host.apbase func 0 + off
    (s.hostReaches func a bs.length = true → exec (.hostApertureAccess func off (some bs) 0) s = .next (s.store a bs)) ∧
    (s.hostReaches func a bs.length = false →
      exec (.hostApertureAccess func off (some bs) 0) s = .next { s with host := { s.host with denied := s.host.denied + 1 } })) ∧
  (∀ func off len s, 0 < len → off + len ≤ 2 ^ 32 → s.usable = true →
    let a := kgetD s.host.apbase func 0 + off
    ∃ t, exec (.hostApertureAccess func off none len) s = .next t ∧ t.mem = s.mem ∧ t.tags = s.tags ∧
      t.host.lastRead = if s.hostReaches func a len = true then s.bytesAt a len else List.replicate len 0xFF) ∧
  (∀ s, s.host.powerAt + 10 * microsecond ≤ s.now 9 → ∃ t, exec .powerWindow s = .next t ∧ t.host.window = s.host.window + 1 ∧
    (s.cpmode.testBit 4 = false → t.host.inForce.length = 8 ∧ t.host.inForce.sum ≤ 2160 ∧ ∀ x ∈ t.host.inForce, 80 ≤ x) ∧
    (s.cpmode.testBit 4 = true →
      t.host.inForce = if s.host.grants.sum ≤ 2160 ∧ ∀ x ∈ s.host.grants, 80 ≤ x then s.host.grants else s.host.inForce)) ∧
  (∀ s, ∃ t, exec .powerOnReset s = .next t ∧ t.mem = [] ∧ t.tags = [] ∧ t.cores = [] ∧ t.queues = [] ∧ t.kaolin = [] ∧
    t.product = s.product ∧ t.frozen = false ∧ t.powered = true ∧ (t.host.stage, t.host.fail) = s.product.startUp) ∧
  (∀ s, s.frozen = false → s.powered = true → exec .warmReset s = exec .powerOnReset s) ∧
  (∀ s, s.frozen = true ∨ s.powered = false → exec .warmReset s = .next s) ∧
  (∀ s, s.powered = true → exec .freeze s = .next { s with frozen := true }) ∧
  (∀ s, exec .freezeRelease s = .next s) ∧
  (∀ s, ∃ t, exec .powerLoss s = .next t ∧ t.powered = false ∧ t.mem = [] ∧ t.tags = [] ∧ t.cores = [] ∧ t.product = s.product) ∧
  (∀ die io s, exec (.dieToDieLinkFailure die io) s =
    .next (if die < 8 ∧ io < 2 then { s with host := { s.host with deadLinks := nins s.host.deadLinks (2 * die + io) } } else s))

/-- ICMP writes in each active lane of p[D] its condition of val(A, l) and val(B, l): EQ, NE, LT, LE, GT and GE are 0 to 5. It compares in
the TYPE's signedness, .b types as unsigned; inactive lanes keep their bits; and the group-wide form writes q[D] once (R133). -/
def Obligations.IntegerCompare : Prop :=
  let cond (n : Nat) (a b : Int) : Bool :=
    match n with | 0 => a == b | 1 => !(a == b) | 2 => decide (a < b) | 3 => decide (a ≤ b) | 4 => decide (b < a) | _ => decide (b ≤ a)
  (∀ f : VF, WritesPred (.icmp f) f.d.toNat fun c w l =>
    cond f.sub.toNat (valA (f.args .icmp false) c w l) (valB (f.args .icmp false) c w l)) ∧
  (∀ f : IF, WritesPred (.icmpImm f) f.d.toNat fun c w l =>
    cond (f.args .icmp false).sub (valA (f.args .icmp false) c w l) (valB (f.args .icmp false) c w l)) ∧
  (∀ f : GwForm, let x := GwForm.args f
    x.op = .icmp → WritesQ (.groupWideAlu f) x.d fun c w =>
      cond x.sub (tyVal x.ty (c.groupBits w x.ty x.a)) (tyVal x.ty (c.groupB w x))) ∧
  (∀ x : Word, tyVal tI32 x.toNat = x.toInt ∧ tyVal tW32 x.toNat = x.toNat ∧ tyVal tB32 x.toNat = x.toNat) ∧
  (∀ x : Dword, tyVal tI64 x.toNat = x.toInt ∧ tyVal tW64 x.toNat = x.toNat ∧ tyVal tB64 x.toNat = x.toNat)

/-- A lane is live if it is neither dead nor exited; the active lanes of an instruction lie within its wave's current path mask, which
holds live lanes alone; and with GP = 127 they are exactly that mask (R75). -/
def Obligations.ActiveLanes : Prop :=
  ∀ i s core slot (w : Wave),
    (∀ l, l < 32 → (w.live.getLsbD l = true ↔ w.dead.getLsbD l = false ∧ w.exited.getLsbD l = false)) ∧
    (∀ l, (ctxFor i s core slot w).act.getLsbD l = true → w.path.getLsbD l = true) ∧
    (∀ l, w.path.getLsbD l = true → w.live.getLsbD l = true) ∧
    (∀ com, i.view.com = some com → com.gp = 127 → (ctxFor i s core slot w).act = w.path)

/-- The numbers from 1016 on read as R51 says: 1.0, −1.0, 0.5, all ones, 1, the wave's slot, the lane's number and 0; and a write to 1023
changes nothing. -/
def Obligations.SpecialRegisters : Prop :=
  ∀ (w : Wave), ∀ l, l < 32 →
    ((w.readIn w.bank 1016).val.lane l = 0x3F800000 ∧ (w.readIn w.bank 1017).val.lane l = 0xBF800000 ∧
     (w.readIn w.bank 1018).val.lane l = 0x3F000000 ∧ (w.readIn w.bank 1019).val.lane l = 0xFFFFFFFF ∧
     (w.readIn w.bank 1020).val.lane l = 1 ∧ (w.readIn w.bank 1021).val.lane l = BitVec.ofNat 32 w.wblk ∧
     (w.readIn w.bank 1022).val.lane l = BitVec.ofNat 32 l ∧ (w.readIn w.bank 1023).val.lane l = 0) ∧
    ∀ act live x fmt, w.bank.write act live 1023 x fmt = w.bank

/-- Bits [31:0] of a slot are the little-endian word at its byte offset, bits [63:32] the word 4 bytes later and bits [95:64] the word 8
bytes later (R39). -/
def Obligations.SlotWords : Prop :=
  ∀ (g : Segment) line sl k, k < 3 →
    field (g.slot line sl).toNat (32 * k) 32 =
      (kgetD g.bytes (64 * line + 4 + 12 * sl + 4 * k) 0).toNat + 2 ^ 8 * (kgetD g.bytes (64 * line + 4 + 12 * sl + 4 * k + 1) 0).toNat +
      2 ^ 16 * (kgetD g.bytes (64 * line + 4 + 12 * sl + 4 * k + 2) 0).toNat +
      2 ^ 24 * (kgetD g.bytes (64 * line + 4 + 12 * sl + 4 * k + 3) 0).toNat

/-- Removing power loses all state: what is left is the reset state but for the fuses, the model's own count of steps and what is still to
come from outside (R4). -/
def Obligations.PowerLoss : Prop :=
  ∀ s, exec .powerLoss s =
    .next { State.reset with tick := s.tick, inputs := s.inputs, product := s.product, powered := false }

/-- A step runs the instruction that its turn's stream fetches, or the event whose turn it is, and then closes: the step is counted, time
passes, the operands in flight are looked at again (R292) and the next turn is chosen. A fetch gives the slot at the wave's address, where
no pop is due and the segment's image stands as it was loaded. A word that is no instruction raises cause 1 (R62). -/
def Obligations.StepRunsTheInstruction : Prop :=
  (∀ s core slot w b bits s1 i, s.turn = .wave core slot → s.frozen = false → s.powered = true → s.wave core slot = some w →
    s.block core w.bslot = some b → w.runs = true → s.coreStopped core = false → fetchWave s core slot b = .instr bits s1 →
    decode bits = .ok i → step s = closed (exec i s1)) ∧
  (∀ s core slot w b g sl, s.wave core slot = some w → NoPop w w.bank.pc → w.path ≠ 0 →
    (s.core core).xfer b.code w.bank.pc = .go → (s.core core).segment b.code (segOf w.bank.pc) = some g →
    slotAt (offOf w.bank.pc % 64) = some sl → parityOk (g.line (offOf w.bank.pc / 64)) = true →
    g.header (offOf w.bank.pc / 64) % 256 = segOf w.bank.pc → s.imageKept b.code g = true →
    ∃ s1, fetchWave s core slot b = .instr (g.slot (offOf w.bank.pc / 64) sl) s1 ∧ s1.mem = s.mem ∧
      s1.wave core slot = some (w.setBank { w.bank with mask := w.path })) ∧
  (∀ s core slot w b bits s1 w1, s.turn = .wave core slot → s.frozen = false → s.powered = true → s.wave core slot = some w →
    s.block core w.bslot = some b → w.runs = true → s.coreStopped core = false → fetchWave s core slot b = .instr bits s1 →
    parse bits = none → s1.wave core slot = some w1 →
    step s = .next (afterStep ((s1.enterLine core slot).raise (fetchCtx s1 core slot w1 bits) .event (0, 0) (.emu 1 0)))) ∧
  (∀ s core bslot b bits s1 i, s.turn = .seqr core bslot → s.frozen = false → s.powered = true → s.block core bslot = some b →
    s.seqrRuns core b = true → fetchSeq s core bslot b = .ok (bits, s1) → decode bits = .ok i → step s = closed (exec i s1)) ∧
  (∀ s e, s.turn = .own e → s.frozen = false → s.powered = true → step s = closed (runOwn e s)) ∧
  (∀ s i rest, s.turn = .input → s.inputs = i :: rest → i.view = .event → s.frozen = false → s.powered = true →
    step s = closed (exec i { s with inputs := rest })) ∧
  (∀ s, s.turn = .idle → step s = .next (afterStep s)) ∧
  (∀ t : State, closed (.next t) = .next (afterStep t) ∧ (afterStep t).tick = t.tick + 1 ∧ (afterStep t).mem = t.mem ∧
    (afterStep t).tags = t.tags ∧ ∀ c n, (afterStep t).wave c n = t.wave c n)

/-- Every word that the encoder writes for an instruction without defect decodes to that instruction, whatever its fields hold. -/
def Obligations.DecodeEncode : Prop :=
  ∀ i : Instr, i.wf = true → decode (encode i) = .ok i

/-- What decodes is the word that the encoder writes: no bit of a slot is dropped by the decoder. -/
def Obligations.EncodeDecode : Prop :=
  ∀ (w : Slot) (i : Instr), decode w = .ok i → encode i = w ∧ i.wf = true

/-- Words written out from the encoding tables decode to the instructions they stand for: an FMA, a conditional BRA, LIVE #0, an unassigned
code and a reserved field. -/
def Obligations.WrittenWords : Prop :=
  let com : Common := { rsv := 0, pin := false, yld := false, stall := 0, gn := false, gp := 127 }
  let fma : VF :=
    { com, d := 4, a := 1, b := 2, c := 3, ty := 3, round := 1, sat := false, neg := 1, abs := 0, sub := 0, rsv := 0 }
  decode 0x0000044C03007F0080101033 = .ok (.fma fma) ∧
  decode 0x000000000400010000000F00 = .ok (.bra { com := { com with gp := 1 }, target := 3, reconv := 4, sub := 0 }) ∧
  decode 0x0000000000007F0000000310 = .ok (.live { com, d := 0, a := 0, sub := 0, imm := 0, ty := 0, flags := 0 }) ∧
  decode 0x3FF = .error .unassigned ∧ decode 0x8000000000007F0000000310 = .error (.defect 4 0)

/-- Every step goes on: whatever the state, the machine neither faults nor is refused. -/
def Obligations.EveryStepGoesOn : Prop :=
  ∀ s, Safe s

/-- Every step leaves a turn that can be taken: none, or one of the streams that could issue, the events that could come and the next event
from outside; a part that is frozen or without power waits for the outside alone (R481). -/
def Obligations.TurnsStayLegal : Prop :=
  ∀ s t, s.TurnLegal → step s = .next t → t.TurnLegal

/-- Reset leaves the values that the spec gives: every core's latch at 0 with no block on it (R22), complex A active and B standing by (R15),
the protected region owned by colour 0 in class 2 and every other granule free (R440, R441), the device registers at 0 where R475 says so,
an empty tenant table (R332); and its turn is legal. -/
def Obligations.ResetState : Prop :=
  State.reset.TurnLegal ∧
  (∀ c, (State.reset.core c).latch = 0 ∧ (State.reset.core c).blocks = [] ∧ (State.reset.core c).waves = []) ∧
  State.reset.firmware.activeB = false ∧ State.reset.firmware.standby = true ∧
  (∀ n, 0x5E0000 ≤ n → n < 0x600000 → (State.reset.granuleNo n).state = 1 ∧ (State.reset.granuleNo n).owner = 0 ∧
    (State.reset.granuleNo n).cls = 2) ∧
  (∀ n, n < 0x5E0000 → (State.reset.granuleNo n).state = 0) ∧
  State.reset.readRegister 0 0x10 = 0 ∧ State.reset.readRegister 0 0x100 = 0 ∧ State.reset.readRegister 0 0x108 = 0 ∧
  (∀ d k, State.reset.tenant d k = 0) ∧ (∀ q, State.reset.queue q = none) ∧ (∀ u, u ∉ State.reset.tags)

/-- A store puts its bytes at its addresses and nowhere else, takes the tag of every unit it touches and no other, and keeps memory in its
canonical form; a number is stored with its low byte first (R6); and a capability is stored whole, with its tag (R189). -/
def Obligations.MemoryCells : Prop :=
  (∀ (s : State) a bs x, (s.store a bs).byte x = if a ≤ x ∧ x < a + bs.length then bs.getD (x - a) 0 else s.byte x) ∧
  (∀ (s : State) a bs u, u ∈ (s.store a bs).tags ↔ u ∈ s.tags ∧ ¬(bs ≠ [] ∧ a / 16 ≤ u ∧ u ≤ (a + bs.length - 1) / 16)) ∧
  (∀ (s : State) a bs, Memory.wf s.mem = true → Memory.wf (s.store a bs).mem = true) ∧
  (∀ (s : State) a n x, x < 256 ^ n → (s.storeNum a n x).numAt a n = x) ∧
  (∀ (s : State) a n x k, k < n → ((s.storeNum a n x).byte (a + k)).toNat = x / 256 ^ k % 256) ∧
  (∀ (s : State) a (c : Cap), a % 16 = 0 → s.sweeper.revoked = [] → (s.storeCapV a c).capAt a = c)

/-- An instruction with no active lane has no effect but to go on at the next address, NOP and YIELD apart, which act whatever their guard
(R63, R111). -/
def Obligations.NoActiveLane : Prop :=
  ∀ i s core slot w b, Ready i s core slot w b → i.view ≠ .event → (∀ f, i ≠ .nop f ∧ i ≠ .yield f) →
    (ctxFor i s core slot w).act = 0 → NoPop w (nextPc s core b w) →
    let w1 := w.issued (ctxFor i s core slot w) i.view false w.level
    exec i s = .next ((s.setWave core slot
      (w1.setBank { w.bank with pc := nextPc s core b w, mask := w.path })).settleChunks core slot)
end

