-- ==== Sys2Proof/Laws/Convert.lean ====
section
/-!
SUPPORT. The conversions, quantisation and dot products: what they leave in each lane.
-/

namespace Sys2Proof.Machine

/-- CVT (R145). -/
theorem writesVec_cvt (f : VF) : WritesVec (.cvt f) f.d.toNat f.ty.toNat fun c w l =>
    cvtOf (f.args .cvt false) (modeOf w f.round.toNat) (c.bits w (f.args .cvt false).cvtSrc f.a.toNat l) (c.lane w f.d.toNat l).toNat := by
  refine writesVecIf_of (i := .cvt f) (P := fun _ _ => True) (post := fun _ _ w1 => w1) (x := f.args .cvt false)
    (body := cvtBody (f.args .cvt false)) (u := fun c w => c.uniform w (f.args .cvt false).operands)
    (g := fun c w l => cvtOf (f.args .cvt false) (modeOf w f.round.toNat) (c.bits w (f.args .cvt false).cvtSrc f.a.toNat l)
      (c.lane w f.d.toNat l).toNat) rfl (fun _ => rfl) (fun _ _ _ => rfl)
    (fun _ _ _ => SamePath.refl _) ?_ (fun c w hh hok _ _ hu l _ => ?_) (fun _ _ _ _ _ _ _ => rfl)
  · by_cases hp : packed f.ty.toNat = true
    · exact ⟨.d, tyRegs f.ty.toNat, .both, none, by simp [VArgs.operands, VF.args, VArgs.vectorOperands, hp], by decide⟩
    · exact ⟨.d, tyRegs f.ty.toNat, .dst, none, by simp [VArgs.operands, VF.args, VArgs.vectorOperands, VArgs.od, hp], by decide⟩
  · have ha : c.bits w (f.args .cvt false).cvtSrc f.a.toNat l = c.bits w (f.args .cvt false).cvtSrc f.a.toNat 0 :=
      bits_of_uniform hu hok (fl := .a) (r := .src) (t := some (f.args .cvt false).cvtSrc)
        (by simp [VArgs.operands, VF.args, VArgs.vectorOperands, VArgs.oa]) (by decide) l
    simp only [ha]
    unfold cvtOf
    by_cases hp : packed f.ty.toNat = true
    · have hw : tyRegs f.ty.toNat = 1 := by
        unfold tyRegs
        rw [if_neg]
        revert hp
        generalize f.ty.toNat = t
        simp only [packed, wide, tF16, tBf16, tE4m3, tE5m2, tI8, tI4, tL6, tF64, tI64, tW64, tB64, Bool.or_eq_true, beq_iff_eq]
        omega
      have hd : c.lane w f.d.toNat l = c.lane w f.d.toNat 0 :=
        lane_of_allU (allU_of_uniform hu (fl := .d) (r := .both) (t := none) (by
          simp [VArgs.operands, VF.args, VArgs.vectorOperands, hp, hw]) (by decide)) l
      rw [hd]
    · simp only [show packed (f.args .cvt false).ty = false by simpa [VF.args] using hp, Bool.false_eq_true, if_false]

/-- PACK (R146). -/
theorem writesVec_pack (f : VF) : WritesVec (.pack f) f.d.toNat f.ty.toNat fun c w l =>
    packElems (elemBits f.ty.toNat) ((List.range (elements f.ty.toNat)).map fun k =>
      toType (exactVal (VArgs.groupTy f.ty.toNat) (c.lane w (f.a.toNat + k) l).toNat) f.ty.toNat (modeOf w f.round.toNat) f.sat
        (intClass (VArgs.groupTy f.ty.toNat))) := by
  refine writesVecIf_of (i := .pack f) (P := fun _ _ => True) (post := fun _ _ w1 => w1) (x := f.args .pack false)
    (body := packBody (f.args .pack false)) (u := fun c w => c.uniform w (f.args .pack false).operands)
    (g := fun c w l => packElems (elemBits f.ty.toNat) ((List.range (elements f.ty.toNat)).map fun k =>
      toType (exactVal (VArgs.groupTy f.ty.toNat) (c.lane w (f.a.toNat + k) l).toNat) f.ty.toNat (modeOf w f.round.toNat) f.sat
        (intClass (VArgs.groupTy f.ty.toNat)))) rfl (fun _ => rfl) (fun _ _ _ => rfl)
    (fun _ _ _ => SamePath.refl _) ?_ (fun c w hh hok _ he hu l _ => ?_) (fun _ _ _ _ _ _ _ => rfl)
  · exact ⟨.d, 1, .dst, none, by simp [VArgs.operands, VF.args, VArgs.vectorOperands, VArgs.od], by decide⟩
  · have hm : (⟨.a, .vec (elements f.ty.toNat), f.a.toNat, .src, some (VArgs.groupTy f.ty.toNat)⟩ : Operand) ∈
        (f.args .pack false).operands := by simp [VArgs.operands, VF.args, VArgs.vectorOperands, VArgs.oa]
    refine congrArg (packElems _) (List.map_congr_left fun k hk => ?_)
    rw [lane_of_group (allU_of_uniform hu hm (by decide)) he (hok _ hm) (List.mem_range.mp hk) l]

/-- UNPK (R146). -/
theorem writesRegs_unpk (f : VF) : WritesRegs (.unpk f) (fun _ _ => True) f.d.toNat (elements f.ty.toNat)
    (VArgs.groupTy f.ty.toNat) (fun c w k l =>
      toType (exactVal f.ty.toNat (field (c.lane w f.a.toNat l).toNat (elemBits f.ty.toNat * k) (elemBits f.ty.toNat)))
        (VArgs.groupTy f.ty.toNat) 0 false (intClass f.ty.toNat)) fun w1 => w1 := by
  refine writesRegs_of (i := .unpk f) (P := fun _ _ => True) (post := fun w1 => w1) (x := f.args .unpk false)
    (body := unpkBody (f.args .unpk false)) (u := fun c w => c.uniform w (f.args .unpk false).operands)
    rfl (fun _ => rfl) (by unfold VArgs.groupTy; split <;> rfl) (fun _ => SamePath.refl _) (fun _ _ _ => rfl)
    ?_ (fun c w hh hok _ hu k l _ => ?_)
  · exact ⟨.d, .dst, none, by simp [VArgs.operands, VF.args, VArgs.vectorOperands, VArgs.od], by decide⟩
  · rw [uniformOne (x := f.args .unpk false) hu l (fl := .a) (n := f.a.toNat) (some f.ty.toNat) (by
      simp [VF.args, VArgs.vectorOperands, VArgs.oa])]

/-- QNT (R147). -/
theorem writesVec_qnt (f : VF) : WritesVecIf (.qnt f) (fun c w => zeroBad c w (f.args .qnt false) = false) f.d.toNat f.ty.toNat
    (fun c w l => packElems (elemBits f.ty.toNat) ((List.range (elements f.ty.toNat)).map fun k =>
      quantOf f.ty.toNat (modeOf w f.round.toNat) f.sat (c.lane w (f.a.toNat + k) l).toNat (c.lane w f.b.toNat l).toNat))
    fun _ _ w1 => w1 := by
  refine writesVecIf_of (i := .qnt f) (post := fun _ _ w1 => w1) (x := f.args .qnt false)
    (body := qntBody (f.args .qnt false)) (u := fun c w => c.uniform w (f.args .qnt false).operands)
    (g := fun c w l => packElems (elemBits f.ty.toNat) ((List.range (elements f.ty.toNat)).map fun k =>
      quantOf f.ty.toNat (modeOf w f.round.toNat) f.sat (c.lane w (f.a.toNat + k) l).toNat (c.lane w f.b.toNat l).toNat))
    rfl (fun _ => rfl) (fun _ _ h => by simp [qntBody, h]; rfl)
    (fun _ _ _ => SamePath.refl _) ?_ (fun c w hh hok _ he hu l _ => ?_) (fun _ _ _ _ _ _ _ => rfl)
  · exact ⟨.d, 1, .dst, none, by simp [VArgs.operands, VF.args, VArgs.vectorOperands, VArgs.od], by decide⟩
  · have hm : (⟨.a, .vec (elements f.ty.toNat), f.a.toNat, .src, some tF32⟩ : Operand) ∈
        (f.args .qnt false).operands := by simp [VArgs.operands, VF.args, VArgs.vectorOperands, VArgs.oa]
    have hb := uniformOne (x := f.args .qnt false) hu l (fl := .b) (n := f.b.toNat) none (by
      simp [VF.args, VArgs.vectorOperands, VArgs.ob])
    refine congrArg (packElems _) (List.map_congr_left fun k hk => ?_)
    rw [lane_of_group (allU_of_uniform hu hm (by decide)) he (hok _ hm) (List.mem_range.mp hk) l, hb]

/-- DQNT (R147). -/
theorem writesRegs_dqnt (f : VF) : WritesRegs (.dqnt f) (fun c w => zeroBad c w (f.args .dqnt false) = false) f.d.toNat
    (elements f.ty.toNat) tF32 (fun c w k l =>
      toType (blockVal f.ty.toNat (field (c.lane w f.a.toNat l).toNat (elemBits f.ty.toNat * k) (elemBits f.ty.toNat))
        (pairScale (c.lane w f.b.toNat l).toNat) (pairZero (c.lane w f.b.toNat l).toNat)) tF32 (modeOf w f.round.toNat) f.sat false)
    fun w1 => w1 := by
  refine writesRegs_of (i := .dqnt f) (post := fun w1 => w1) (x := f.args .dqnt false)
    (body := dqntBody (f.args .dqnt false)) (u := fun c w => c.uniform w (f.args .dqnt false).operands)
    rfl (fun _ => rfl) rfl (fun _ => SamePath.refl _) (fun _ _ h => by simp [dqntBody, h]; rfl)
    ?_ (fun c w hh hok _ hu k l _ => ?_)
  · exact ⟨.d, .dst, none, by simp [VArgs.operands, VF.args, VArgs.vectorOperands, VArgs.od], by decide⟩
  · rw [uniformOne (x := f.args .dqnt false) hu l (fl := .a) (n := f.a.toNat) (some f.ty.toNat) (by
        simp [VF.args, VArgs.vectorOperands, VArgs.oa]),
      uniformOne (x := f.args .dqnt false) hu l (fl := .b) (n := f.b.toNat) none (by
        simp [VF.args, VArgs.vectorOperands, VArgs.ob])]

/-- The dot products (R148). -/
theorem writesVec_dot (i : Instr) (x : VArgs) (hv : i.view = .alu x)
    (he : ∀ s, exec i s = issueLocal i.view (encode i) (dotBody x) s) (hg : x.gw = false) (hi : x.imm = none)
    (ho : x.op = .fdot2 ∨ x.op = .idot4 ∨ x.op = .ldot) : WritesVec i x.d (dotTy x.ty) fun c w l =>
      let a := (c.lane w x.a l).toNat
      let b := (c.lane w x.b l).toNat
      let z := (c.lane w x.c l).toNat
      match x.op with
      | .fdot2 => fdot2Of x.ty (modeOf w x.round) x.sat a b z
      | .idot4 => finish (dotTy x.ty) x.sat (tyVal (dotTy x.ty) z + idotSum x.ty a b)
      | _ => finish (dotTy x.ty) x.sat (tyVal (dotTy x.ty) z + ldotSum a b) := by
  have hops := operands_vector hg (show x.op ≠ .movw by rcases ho with h | h | h <;> rw [h] <;> decide)
  refine writesVecIf_of (i := i) (P := fun _ _ => True) (post := fun _ _ w1 => w1) (x := x) (body := dotBody x)
    (u := fun c w => c.uniform w x.operands) (g := fun c w l =>
      let a := (c.lane w x.a l).toNat
      let b := (c.lane w x.b l).toNat
      let z := (c.lane w x.c l).toNat
      match x.op with
      | .fdot2 => fdot2Of x.ty (modeOf w x.round) x.sat a b z
      | .idot4 => finish (dotTy x.ty) x.sat (tyVal (dotTy x.ty) z + idotSum x.ty a b)
      | _ => finish (dotTy x.ty) x.sat (tyVal (dotTy x.ty) z + ldotSum a b)) hv he (fun _ _ _ => rfl)
    (fun _ _ _ => SamePath.refl _) ?_ (fun c w hh hok _ _ hu l _ => ?_) (fun _ _ _ _ _ _ _ => rfl)
  · rw [hops]
    refine ⟨.d, 1, .dst, none, ?_, by decide⟩
    rcases ho with h | h | h <;> simp [VArgs.vectorOperands, h, VArgs.od]
  · rw [hops] at hu
    have key : ∀ fl n t, (⟨fl, .vec 1, n, .src, t⟩ : Operand) ∈ x.vectorOperands → c.lane w n l = c.lane w n 0 :=
      fun fl n t hm => uniformOne hu l (fl := fl) t hm
    have ha : c.lane w x.a l = c.lane w x.a 0 := key .a x.a (some x.ty) (by
      rcases ho with h | h | h <;> simp [VArgs.vectorOperands, h, VArgs.oa])
    have hb : c.lane w x.b l = c.lane w x.b 0 := key .b x.b (some x.ty) (by
      rcases ho with h | h | h <;> simp [VArgs.vectorOperands, h, VArgs.ob, hi])
    have hc : c.lane w x.c l = c.lane w x.c 0 := by
      rcases ho with h | h | h
      · exact key .c x.c (some tF32) (by simp [VArgs.vectorOperands, h, VArgs.oc])
      · exact key .c x.c (some (if x.ty == tW8 then tW32 else tI32)) (by simp [VArgs.vectorOperands, h, VArgs.oc])
      · exact key .c x.c (some tI32) (by simp [VArgs.vectorOperands, h, VArgs.oc])
    simp only [ha, hb, hc]

end Sys2Proof.Machine
end

