-- ==== Sys2Proof/Laws/Float.lean ====
section
/-!
SUPPORT. The floating, conversion and dot-product instructions: what their operation leaves in each lane, whatever the shape of
its operands and of its result.
-/

namespace Sys2Proof.Machine

/-- The operations of the floating chapter that write their TYPE. -/
def floatOps : List Op :=
  [.fadd, .fsub, .fmul, .fma, .fmin, .fmax, .fmed3, .fdiv, .frcp, .fsqrt, .frsq, .fexp2, .flog2, .fsin, .fcos, .fcps, .fscl, .frnd]

/-- The result of a floating instruction in a lane (R137). -/
def floatLane (x : VArgs) (c : Ctx) (w : Wave) (l : Nat) : Nat :=
  floatElems x (modeOf w x.round) (c.bits w x.ty x.a l) (c.bitsB w x l) (c.bits w x.ty x.c l) (c.countB w x l)

theorem floatLane_uniform {x : VArgs} (hg : x.gw = false) (ho : x.op ∈ floatOps) {c : Ctx} {w : Wave} {hh : Bool}
    (hok : ∀ o ∈ x.operands, o.ok hh = true) (hu : c.uniform w x.operands = true) (l : Nat) :
    floatLane x c w l = floatLane x c w 0 := by
  rw [operands_vector hg (show x.op ≠ .movw by rintro hm; rw [hm] at ho; exact absurd ho (by decide))] at hok hu
  have ha := uniformA hok hu l
  have hc := uniformC hok hu l
  have hb := uniformB hok hu l
  have hn := uniformCount hu l
  clear hok hu
  simp only [floatOps, List.mem_cons, List.not_mem_nil, or_false] at ho
  rcases ho with ho | ho | ho | ho | ho | ho | ho | ho | ho | ho | ho | ho | ho | ho | ho | ho | ho | ho <;>
    simp only [floatLane, floatElems, floatOf, ho]
  all_goals (try rw [ha (some x.ty) (by simp [VArgs.vectorOperands, ho, VArgs.oa])])
  all_goals (try rw [hb (some x.ty) (by intro o h; simp_all [VArgs.vectorOperands, ho])])
  all_goals (try rw [hn none (by intro o h; simp_all [VArgs.vectorOperands, ho])])
  all_goals (try rw [hc (some x.ty) (by simp [VArgs.vectorOperands, ho, VArgs.oc])])

/-- A floating instruction that nothing holds up writes its operation's result in each active lane. -/
theorem writesVec_float (i : Instr) (x : VArgs) (hv : i.view = .alu x)
    (he : ∀ s, exec i s = issueLocal i.view (encode i) (floatBody x) s) (hg : x.gw = false) (ho : x.op ∈ floatOps) :
    WritesVec i x.d x.ty (floatLane x) := by
  refine writesVecIf_of (i := i) (P := fun _ _ => True) (post := fun _ _ w1 => w1) (x := x) (u := fun c w => c.uniform w x.operands) (g := floatLane x) (f := floatLane x) (d := x.d) (ty := x.ty) hv he (fun _ _ _ => rfl)
    (fun _ _ _ => SamePath.refl _) ?_ (fun c w hh hok _ _ hu l _ => floatLane_uniform hg ho hok hu l)
    (fun _ _ _ _ _ _ _ => rfl)
  rw [operands_vector hg (show x.op ≠ .movw by rintro hm; rw [hm] at ho; exact absurd ho (by decide))]
  refine ⟨.d, tyRegs x.ty, .dst, none, ?_, by decide⟩
  simp only [floatOps, List.mem_cons, List.not_mem_nil, or_false] at ho
  rcases ho with ho | ho | ho | ho | ho | ho | ho | ho | ho | ho | ho | ho | ho | ho | ho | ho | ho | ho <;>
    simp [VArgs.vectorOperands, ho, VArgs.od]

/-- FCLASS (R143). -/
theorem writesVec_fclass (f : VF) : WritesVec (.fclass f) f.d.toNat tW32 fun c w l =>
    classOf f.ty.toNat (c.bits w f.ty.toNat f.a.toNat l) := by
  refine writesVecIf_of (i := .fclass f) (P := fun _ _ => True) (post := fun _ _ w1 => w1) (x := f.args .fclass false) (u := fun c w => c.uniform w (f.args .fclass false).operands)
    (body := fclassBody (f.args .fclass false))
    (g := fun c w l => classOf f.ty.toNat (c.bits w f.ty.toNat f.a.toNat l)) rfl (fun _ => rfl) (fun _ _ _ => rfl)
    (fun _ _ _ => SamePath.refl _) ?_ (fun c w hh hok _ _ hu l _ => ?_) (fun _ _ _ _ _ _ _ => rfl)
  · exact ⟨.d, 1, .dst, none, by simp [VArgs.operands, VF.args, VArgs.vectorOperands, VArgs.od], by decide⟩
  · exact congrArg (classOf f.ty.toNat) (uniformA (x := f.args .fclass false) hok hu l (some f.ty.toNat) (by
      simp [VF.args, VArgs.vectorOperands, VArgs.oa]))

end Sys2Proof.Machine
end

