-- ==== Sys2Proof/Laws/Integer.lean ====
section
/-!
SUPPORT. The integer and bit instructions: what their operation leaves in each lane, whatever the shape of its operands and of
its result.
-/

namespace Sys2Proof.Machine

/-! ### Arithmetic modulo 2^32 -/

theorem ofNat_wrapNat (t : Int) : BitVec.ofNat 32 (wrapNat 32 t) = BitVec.ofInt 32 t := by
  apply BitVec.eq_of_toNat_eq
  simp only [wrapNat, BitVec.toNat_ofNat, BitVec.toNat_ofInt]
  omega

theorem ofInt_tyVal {ty : Nat} (h : wide ty = false) (x : Word) : BitVec.ofInt 32 (tyVal ty x.toNat) = x := by
  apply BitVec.eq_of_toNat_eq
  have hx := x.isLt
  simp only [tyVal, tyBits, h, Bool.false_eq_true, if_false, BitVec.toNat_ofInt, sext]
  split
  · split <;> omega
  · omega

theorem bits_narrow (c : Ctx) (w : Wave) {ty : Nat} (h : wide ty = false) (n l : Nat) : c.bits w ty n l = (c.lane w n l).toNat := by
  simp [Ctx.bits, h]

theorem lane_of_line {x : VVal} {p t : Word} (h : x.line = some (p, t)) (l : Nat) : x.lane l = p + BitVec.ofNat 32 l * t := by
  cases x <;> simp only [VVal.line, Option.some.injEq, Prod.mk.injEq, reduceCtorEq] at h <;> obtain ⟨rfl, rfl⟩ := h <;>
    simp [VVal.lane]

theorem lane_mulLine {x y : VVal} {p t : Word} (h : mulLine x y = some (p, t)) (l : Nat) :
    p + BitVec.ofNat 32 l * t = x.lane l * y.lane l := by
  unfold mulLine at h
  split at h
  · obtain ⟨rfl, rfl⟩ := Prod.mk.inj (Option.some.inj h)
    simp only [VVal.lane]
    ring
  · obtain ⟨rfl, rfl⟩ := Prod.mk.inj (Option.some.inj h)
    simp only [VVal.lane]
    ring
  · cases h

theorem ofInt_finish (ty : Nat) (h : wide ty = false) (t : Int) : BitVec.ofNat 32 (finish ty false t) = BitVec.ofInt 32 t := by
  simp only [finish, Bool.false_eq_true, if_false, tyBits, h]
  exact ofNat_wrapNat t

/-- The affine row of R80 holds in each lane what the operation gives there. -/
theorem affine_lane {x : VArgs} {a b c v : VVal} (h : affineOf x a b c = some v) (hw : wide x.ty = false) (m l : Nat) :
    v.lane l = BitVec.ofNat 32 (intOf x.op x.ty x.sub false (a.lane l).toNat (b.lane l).toNat (c.lane l).toNat
      (b.lane l).toNat m) := by
  unfold affineOf at h
  simp only [Option.map_eq_some_iff, Prod.exists] at h
  obtain ⟨p, t, h, rfl⟩ := h
  show p + BitVec.ofNat 32 l * t = _
  split at h
  · rename_i ho
    simp only [Option.bind_eq_bind, Option.bind_eq_some_iff, Prod.exists, Option.pure_def, Option.some.injEq, Prod.mk.injEq] at h
    obtain ⟨p1, t1, h1, p2, t2, h2, rfl, rfl⟩ := h
    simp only [ho, intOf]
    rw [ofInt_finish _ hw, BitVec.ofInt_add, ofInt_tyVal hw, ofInt_tyVal hw, lane_of_line h1, lane_of_line h2]
    ring
  · rename_i ho
    simp only [Option.bind_eq_bind, Option.bind_eq_some_iff, Prod.exists, Option.pure_def, Option.some.injEq, Prod.mk.injEq] at h
    obtain ⟨p1, t1, h1, p2, t2, h2, rfl, rfl⟩ := h
    simp only [ho, intOf]
    rw [ofInt_finish _ hw, Int.sub_eq_add_neg, BitVec.ofInt_add, BitVec.ofInt_neg, ofInt_tyVal hw, ofInt_tyVal hw,
      lane_of_line h1, lane_of_line h2]
    ring
  · rename_i ho
    simp only [Option.bind_eq_bind, Option.bind_eq_some_iff, Prod.exists, Option.pure_def, Option.some.injEq, Prod.mk.injEq] at h
    obtain ⟨p1, t1, h1, rfl, rfl⟩ := h
    simp only [ho, intOf]
    rw [ofInt_finish _ hw, BitVec.ofInt_neg, ofInt_tyVal hw, lane_of_line h1]
    ring
  · rename_i ho
    split at h
    · cases h
    · simp only [ho, intOf]
      rw [ofInt_finish _ hw, BitVec.ofInt_mul, ofInt_tyVal hw, ofInt_tyVal hw, lane_mulLine h]
  · rename_i ho
    simp only [Option.bind_eq_bind, Option.bind_eq_some_iff, Prod.exists, Option.pure_def, Option.some.injEq, Prod.mk.injEq] at h
    obtain ⟨p1, t1, h1, p2, t2, h2, rfl, rfl⟩ := h
    simp only [ho, intOf]
    rw [ofInt_finish _ hw, BitVec.ofInt_add, BitVec.ofInt_mul, ofInt_tyVal hw, ofInt_tyVal hw, ofInt_tyVal hw,
      ← lane_mulLine h1, lane_of_line h2]
    ring
  · rename_i ho
    split at h
    · rename_i n
      simp only [Option.bind_eq_bind, Option.bind_eq_some_iff, Prod.exists, Option.pure_def, Option.some.injEq] at h
      obtain ⟨p1, t1, h1, h⟩ := h
      simp only [ho, intOf, show (VVal.u n).lane l = n from rfl, tyBits, hw, Bool.false_eq_true, if_false]
      split at h
      · rename_i hn
        simp only [Prod.mk.injEq] at h
        obtain ⟨rfl, rfl⟩ := h
        rw [if_pos hn, lane_of_line h1]
        apply BitVec.eq_of_toNat_eq
        simp [Nat.shiftLeft_eq, Nat.add_mul, Nat.mul_assoc]
      · rename_i hn
        simp only [Prod.mk.injEq] at h
        obtain ⟨rfl, rfl⟩ := h
        simp [hn]
    · cases h
  · cases h

/-! ### The result of an integer or bit instruction -/

/-- The result of an integer or bit instruction in a lane: its operation on the lane's operands (R130, R134). -/
def intLane (x : VArgs) (c : Ctx) (w : Wave) (l : Nat) : Nat :=
  intOf x.op x.ty x.sub x.sat (c.bits w x.ty x.a l) (c.bitsB w x l) (if x.op == .prmb && x.imm.isSome then 0 else c.bits w x.ty x.c l)
    (c.countB w x l) (c.lane w x.c l).toNat

/-- The operations of the integer and bit chapters that write a vector register. -/
def intOps : List Op :=
  [.iadd, .isub, .imul, .imulh, .imulw, .imad, .ilea, .imin, .imax, .iabs, .ineg, .isad, .idiv, .irem, .andBits, .orBits,
   .xorBits, .notBits, .bfn3, .shl, .shr, .rotl, .fshl, .bfx, .bfi, .popc, .clz, .brev, .prmb]

/-- On uniform operands the result is the same in every lane (R80). -/
theorem intLane_uniform {x : VArgs} (hg : x.gw = false) (ho : x.op ∈ intOps)
    (ht : x.op = .imulw → wide x.ty = false) {c : Ctx} {w : Wave} {hh : Bool}
    (hok : ∀ o ∈ x.operands, o.ok hh = true) (hu : c.uniform w x.operands = true) (l : Nat) :
    intLane x c w l = intLane x c w 0 := by
  have hops := operands_vector hg (show x.op ≠ .movw by rintro hm; rw [hm] at ho; exact absurd ho (by decide))
  rw [hops] at hok hu
  have ha := uniformA hok hu l
  have hc := uniformC hok hu l
  have hc1 := fun t => uniformOne (fl := .c) (n := x.c) hu l t
  have hb := uniformB hok hu l
  have hn := uniformCount hu l
  have hT : x.op = .imulw → tyRegs x.ty = 1 := fun h => by simp [tyRegs, ht h]
  clear hok hu hops
  simp only [intOps, List.mem_cons, List.not_mem_nil, or_false] at ho
  rcases ho with ho | ho | ho | ho | ho | ho | ho | ho | ho | ho | ho | ho | ho | ho | ho | ho | ho | ho |
      ho | ho | ho | ho | ho | ho | ho | ho | ho | ho | ho <;>
    simp only [intLane, intOf, ho]
  all_goals (try rw [ha (some x.ty) (by simp [VArgs.vectorOperands, ho, VArgs.oa, hT])])
  all_goals (try rw [hb (some x.ty) (by intro o h; simp_all [VArgs.vectorOperands, ho, hT])])
  all_goals (try rw [hn none (by intro o h; simp_all [VArgs.vectorOperands, ho])])
  all_goals (try simp only [show (Op.prmb == Op.prmb) = true from rfl, Bool.true_and])
  all_goals (try (by_cases hi : x.imm.isSome = true <;> simp only [hi, if_true, if_false, Bool.false_eq_true]))
  all_goals (try rw [hc (some x.ty) (by simp [VArgs.vectorOperands, ho, VArgs.oc, hi])])
  all_goals (try rw [hc1 none (by simp [VArgs.vectorOperands, ho, VArgs.oc])])
  all_goals (try rfl)

/-- An integer or bit instruction that nothing holds up writes its operation's result in each active lane. -/
theorem writesVec_int (i : Instr) (x : VArgs) (hv : i.view = .alu x)
    (he : ∀ s, exec i s = issueLocal i.view (encode i) (intBody x) s) (hg : x.gw = false) (ho : x.op ∈ intOps) :
    WritesVec i x.d (intResTy x.op x.ty) (intLane x) := by
  intro s core slot w b h _
  have hok : ∀ o ∈ x.operands, o.ok (w.stream == .handler) = true := fun o hm => ready_operands h.toReady o (by rw [hv]; exact hm)
  have hdef := (ready_fate h.toReady).1
  have hm : x.op ≠ .movw := by rintro hm; rw [hm] at ho; exact absurd ho (by decide)
  have hty : x.op = .imulw → wide x.ty = false := by
    intro hi
    rw [hv] at hdef
    simp only [View.undefined, Bool.or_eq_false_iff, VArgs.types, hi] at hdef
    have := hdef.1.1.1.1.2
    simp only [Bool.not_eq_false', List.contains_eq_mem, List.mem_cons, List.not_mem_nil, or_false, decide_eq_true_eq] at this
    rcases this with h | h <;> rw [h] <;> rfl
  have hd : x.d + 1 ≠ 1023 := by
    have hk : ∃ k, x.od (.vec k) ∈ x.operands := by
      have e : x.operands = x.vectorOperands := by simp [VArgs.operands, hm, hg]
      rw [e]
      simp only [intOps, List.mem_cons, List.not_mem_nil, or_false] at ho
      rcases ho with ho | ho | ho | ho | ho | ho | ho | ho | ho | ho | ho | ho | ho | ho | ho | ho | ho | ho |
          ho | ho | ho | ho | ho | ho | ho | ho | ho | ho | ho <;>
        first
        | (refine ⟨tyRegs x.ty, ?_⟩; simp [VArgs.vectorOperands, ho]; done)
        | (refine ⟨1, ?_⟩; simp [VArgs.vectorOperands, ho]; done)
        | (refine ⟨2, ?_⟩; simp [VArgs.vectorOperands, ho]; done)
    obtain ⟨k, hm'⟩ := hk
    exact dst_not_1022 (hok _ hm')
  have key : ∃ w1, intBody x (ctxFor i s core slot w) w = .ok w1 ∧
      Wrote (ctxFor i s core slot w) w w1 x.d (intResTy x.op x.ty) (intLane x (ctxFor i s core slot w) w) := by
    generalize ctxFor i s core slot w = c
    unfold intBody
    simp only
    split
    · rename_i v hv'
      refine ⟨_, rfl, ?_⟩
      split at hv'
      · cases hv'
      · rename_i hn
        simp only [Bool.or_eq_true, not_or, Bool.not_eq_true] at hn
        have hop : x.op = .iadd ∨ x.op = .isub ∨ x.op = .ineg ∨ x.op = .imul ∨ x.op = .imad ∨ x.op = .shl := by
          unfold affineOf at hv'
          split at hv' <;> simp_all
        have hr : intResTy x.op x.ty = x.ty := by rcases hop with h | h | h | h | h | h <;> rw [h] <;> rfl
        rw [hr]
        refine wrote_write c w x.d x.ty v _ _ hn.1.2 rfl fun l _ _ => ?_
        rw [affine_lane hv' hn.1.2 (c.lane w x.c l).toNat l]
        have hpr : (x.op == .prmb && x.imm.isSome) = false := by rcases hop with h | h | h | h | h | h <;> rw [h] <;> rfl
        have hB : c.bitsB w x l = (VVal.lane (match x.imm with | some i => .u i | none => (c.readV w x.b).val) l).toNat := by
          unfold Ctx.bitsB
          cases x.imm with
          | some i => simp [hn.1.2, VVal.lane]
          | none => simp [bits_narrow c w hn.1.2, Ctx.lane]
        have hC : c.countB w x l = (VVal.lane (match x.imm with | some i => .u i | none => (c.readV w x.b).val) l).toNat := by
          unfold Ctx.countB
          cases x.imm <;> rfl
        unfold intLane
        rw [hn.2, hpr, hB, hC]
        simp only [Bool.false_eq_true, if_false, bits_narrow c w hn.1.2]
        rfl
    · refine ⟨_, rfl, ?_⟩
      exact wrote_writeTy c w x.d _ _ _ hd fun hu l _ => intLane_uniform hg ho hty hok hu l
  obtain ⟨w1, hw1, hwr⟩ := key
  exact ⟨w1, completes_local (he s) h hw1 hwr.only.samePath, hwr⟩

end Sys2Proof.Machine
end

