-- ==== Sys2Proof/Tests/Slice0.lean ====
section
/-!
SUPPORT. The tests: words written from the encoding tables, an ill-formed term for each check, the worked examples of the
specification, and for every statement with hypotheses a state and operands that meet them.
-/

namespace Sys2Proof.Machine.Tests

/-! ### Terms and small states -/

/-- No guard, no stall. -/
def com : Common := { rsv := 0, pin := false, yld := false, stall := 0, gn := false, gp := 127 }

/-- A V-format instruction. -/
def vf (d a b c ty sub : Nat) : VF :=
  { com, d := BitVec.ofNat 10 d, a := BitVec.ofNat 10 a, b := BitVec.ofNat 10 b, c := BitVec.ofNat 10 c, ty := BitVec.ofNat 4 ty,
    round := 0, sat := false, neg := 0, abs := 0, sub := BitVec.ofNat 8 sub, rsv := 0 }

/-- An I-format instruction. -/
def im (d a ty sub imm : Nat) : IF :=
  { com, d := BitVec.ofNat 10 d, a := BitVec.ofNat 10 a, sub := BitVec.ofNat 10 sub, imm := BitVec.ofNat 32 imm,
    ty := BitVec.ofNat 4 ty, flags := 0 }

/-- An M-format instruction. -/
def mf (d a b off size scope stream order cache : Nat) : MF :=
  { com, d := BitVec.ofNat 10 d, a := BitVec.ofNat 10 a, b := BitVec.ofNat 10 b, offset := BitVec.ofNat 24 off,
    size := BitVec.ofNat 4 size, scope := BitVec.ofNat 3 scope, stream := BitVec.ofNat 3 stream, order := BitVec.ofNat 2 order,
    cache := BitVec.ofNat 4 cache }

/-- A B-format instruction. -/
def bf (target reconv sub : Nat) : BF :=
  { com, target := BitVec.ofNat 30 target, reconv := BitVec.ofNat 32 reconv, sub := BitVec.ofNat 8 sub }

/-- An X-format instruction. -/
def xf (tile bufO asrc bsrc ga fmt va vb : Nat) : XF :=
  { com, tile := BitVec.ofNat 7 tile, bufA := 0, bufB := 0, bufO := BitVec.ofNat 4 bufO, asrc := BitVec.ofNat 2 asrc,
    bsrc := BitVec.ofNat 2 bsrc, ga := BitVec.ofNat 5 ga, rsvLow := 0, gb := 0, gs := 0, fmt := BitVec.ofNat 4 fmt,
    va := BitVec.ofNat 10 va, vb := BitVec.ofNat 10 vb, wv := 0, rsvHigh := false }

/-- The reset state with one instruction placed to run next. -/
def placed (i : Instr) : State := State.reset.withFetchWord 96 (encode i).toNat

def w0 : Wave := startWave 0 0 0 4 Cap.null
def b0 : Block := startBlock 0 0 0 0 1 0 4 placeEnv 0 1024 4 (startSequencer 4 0)

/-- The wave and the block of the stream that runs. -/
def wv (s : State) : Wave := (s.wave 0 0).getD w0
def bl (s : State) : Block := (s.block 0 (wv s).bslot).getD b0

/-! ### What the hypotheses come to on such a state -/

def readyOk (i : Instr) (s : State) : Bool :=
  s.turn == .wave 0 0 && (s.wave 0 0).isSome && (s.block 0 (wv s).bslot).isSome && (bl s).seqr.status != 1 &&
  (waveFate s 0 (bl s) (wv s) i.view).isNone && !scoreboardWait (wv s) (s.core 0).queue i.view && (wv s).spilled.isEmpty &&
  (wv s).errors.isEmpty && (s.core 0).upsets.isEmpty && (wv s).producers.isEmpty && (wv s).early.isEmpty &&
  !formatBad (wv s) i.view && !s.sweeper.running

theorem ready_of {i : Instr} {s : State} (h : readyOk i s = true) : Ready i s 0 0 (wv s) (bl s) := by
  simp only [readyOk, Bool.and_eq_true, beq_iff_eq, bne_iff_ne, Option.isSome_iff_exists, Option.isNone_iff_eq_none,
    List.isEmpty_iff, Bool.not_eq_true'] at h
  obtain ⟨⟨⟨⟨⟨⟨⟨⟨⟨⟨⟨⟨ht, w, hw⟩, b, hb⟩, hs⟩, hf⟩, hc⟩, hp⟩, he⟩, hu⟩, hg⟩, hy⟩, hm⟩, hr⟩ := h
  have e : wv s = w := by simp [wv, hw]
  have e2 : bl s = b := by simp [bl, hb]
  exact ⟨ht, e ▸ hw, e2 ▸ hb, hs, hf, hc, hp, he, hu, hg, hy, hm, hr⟩

def runsOk (i : Instr) (s : State) : Bool :=
  readyOk i s && (ctxFor i s 0 0 (wv s)).act != 0 && (wv s).bank.ctl.isEmpty

theorem runs_of {i : Instr} {s : State} (h : runsOk i s = true) : Runs i s 0 0 (wv s) (bl s) := by
  simp only [runsOk, Bool.and_eq_true, bne_iff_ne, List.isEmpty_iff] at h
  exact ⟨ready_of h.1.1, h.1.2, .inl h.2⟩

/-- Every instruction of a list runs in a state of its own. -/
theorem all_run {l : List Instr} (h : l.all (fun i => runsOk i (placed i)) = true) :
    ∀ i ∈ l, ∃ s core slot w b, Runs i s core slot w b := fun i hi =>
  ⟨_, _, _, _, _, runs_of (List.all_eq_true.1 h i hi)⟩

/-- Every instruction of a list is ready in a state of its own. -/
def allRun (l : List Instr) : Bool := l.all fun i => runsOk i (placed i)

theorem all_ready {l : List Instr} (h : l.all (fun i => readyOk i (placed i)) = true) :
    ∀ i ∈ l, ∃ s core slot w b, Ready i s core slot w b := fun i hi =>
  ⟨_, _, _, _, _, ready_of (List.all_eq_true.1 h i hi)⟩

/-- Tags that stand for no lane or for all give each quad one tag. -/
theorem oneTag_of {b : Bank} (h : (b.vtags.all fun e => e.2 == 0 || e.2 == Mask.all) = true) : b.OneTag := by
  intro q _
  have key : ∀ m : KMap Mask, (m.all fun e => e.2 == 0 || e.2 == Mask.all) = true → kgetD m q 0 = 0 ∨ kgetD m q 0 = Mask.all := by
    intro m hm
    induction m with
    | nil => exact .inl rfl
    | cons e m ih =>
      simp only [List.all_cons, Bool.and_eq_true, Bool.or_eq_true, beq_iff_eq] at hm
      by_cases hk : e.1 = q
      · simpa [kgetD, kget, hk] using hm.1
      · simpa [kgetD, kget, hk] using ih hm.2
  exact key _ h

/-- The place of a block, where there is one, meets `P`. -/
theorem rank_of {s : State} {b : Block} {n : Nat} {P : Nat → Nat → Block → Prop} [∀ a b c, Decidable (P a b c)]
    (h : ((s.rankBlock b n).all fun p => decide (P p.1 p.2.1 p.2.2)) = true) :
    ∀ tc tb t, s.rankBlock b n = some (tc, tb, t) → P tc tb t := by
  intro tc tb t e
  simpa [e] using h

/-- The state with its one wave, or its one block, changed. -/
def onWave (f : Wave → Wave) (s : State) : State := s.setWave 0 0 (f (wv s))
def onBlock (f : Block → Block) (s : State) : State := s.setBlock 0 (wv s).bslot (f (bl s))

/-- The wave with vector register `n` general, lane l holding `f l`. -/
def lanesIn (n : Nat) (f : Nat → Word) (w : Wave) : Wave :=
  w.setBank { w.bank with v := kset w.bank.v n ⟨.g (Lanes.of f), 0⟩ }

/-- The wave with `x` in every lane of vector register `n`. -/
def uIn (n : Nat) (x : Word) (w : Wave) : Wave := w.setBank { w.bank with v := kset w.bank.v n ⟨.u x, 0⟩ }

/-- The wave with `x` in group-wide register `n`. -/
def grpIn (n : Nat) (x : Dword) (w : Wave) : Wave := w.setBank { w.bank with g := kset w.bank.g n x }

/-- The wave with a capability in every lane of quad `n`. -/
def capIn (n : Nat) (c : Cap) (w : Wave) : Wave :=
  let w1 := uIn n (c.bits.setWidth 32) (uIn (n + 1) ((c.bits >>> 32).setWidth 32) (uIn (n + 2) ((c.bits >>> 64).setWidth 32)
    (uIn (n + 3) ((c.bits >>> 96).setWidth 32) w)))
  w1.setBank { w1.bank with vtags := kset w1.bank.vtags (n / 4) (if c.tag then Mask.all else 0) }

/-- A tagged capability of colour 1 for 64 KiB from `a`, without SYSTEM. -/
def capFor (a : Nat) : Cap := ⟨capMake 65536 0 0 0 0x7FF 0 1 a, true⟩

/-- A granule that colour 1 owns. -/
def owned : Granule := { Granule.free with state := 1, owner := 1 }

/-- The state with the granule from 0x100000 owned by colour 1. -/
def heap (s : State) : State := { s with kaolin := [(16, owned)] }

/-- An instruction placed in a wave with a capability of the heap in quad 12. -/
def memPlaced (i : Instr) : State := onWave (capIn 12 (capFor 0x100000)) (heap (placed i))


set_option Elab.async false

/-! ### Instructions that nothing holds up: for each statement about results, a state in which each instruction runs -/

theorem test_witness_integer_arithmetic : allRun
    [.iadd (vf 4 8 12 0 1 0), .iaddImm (im 4 8 1 0 3), .isub (vf 4 8 12 0 1 0), .isubImm (im 4 8 1 0 3), .imul (vf 4 8 12 0 1 0),
     .imulImm (im 4 8 1 0 3), .imulh (vf 4 8 12 0 1 0), .imulhImm (im 4 8 1 0 3), .imulw (vf 4 8 12 0 1 0),
     .imad (vf 4 8 12 16 1 0), .ilea (vf 4 8 12 0 1 5), .ileaImm (im 4 8 1 5 3), .imin (vf 4 8 12 0 1 0), .iminImm (im 4 8 1 0 3),
     .imax (vf 4 8 12 0 1 0), .imaxImm (im 4 8 1 0 3), .iabs (vf 4 8 0 0 1 0), .ineg (vf 4 8 0 0 1 0),
     .isad (vf 4 8 12 16 1 0)] = true := by decide +kernel

theorem test_witness_integer_division : allRun
    [.idiv (vf 4 8 12 0 1 0), .idivImm (im 4 8 1 0 3), .irem (vf 4 8 12 0 1 0), .iremImm (im 4 8 1 0 3),
     .groupWideAlu (.reg .idiv (vf 4 8 12 0 1 0)), .groupWideAlu (.reg .irem (vf 4 8 12 0 1 0))] = true := by decide +kernel

theorem test_witness_bit_logic_and_fields : allRun
    [.andBits (vf 4 8 12 0 0 0), .andImm (im 4 8 0 0 3), .orBits (vf 4 8 12 0 0 0), .orImm (im 4 8 0 0 3), .xorBits (vf 4 8 12 0 0 0),
     .xorImm (im 4 8 0 0 3), .notBits (vf 4 8 0 0 0 0), .bfn3 (vf 4 8 12 16 0 0xE8), .shl (vf 4 8 12 0 0 0), .shlImm (im 4 8 0 0 3),
     .shr (vf 4 8 12 0 1 0), .shrImm (im 4 8 1 0 3), .rotl (vf 4 8 12 0 0 0), .rotlImm (im 4 8 0 0 3), .fshl (vf 4 8 12 16 0 0),
     .popc (vf 4 8 0 0 0 0), .clz (vf 4 8 0 0 0 0), .brev (vf 4 8 0 0 0 0), .bfx (vf 4 8 12 0 1 0), .bfi (vf 4 8 12 16 0 0),
     .prmb (vf 4 8 12 16 0 0), .prmbImm (im 4 8 0 0 3)] = true := by decide +kernel

theorem test_witness_float_arithmetic : allRun
    [.fadd (vf 4 8 12 0 3 0), .faddImm (im 4 8 3 0 3), .fsub (vf 4 8 12 0 3 0), .fsubImm (im 4 8 3 0 3), .fmul (vf 4 8 12 0 3 0),
     .fmulImm (im 4 8 3 0 3), .fma (vf 4 8 12 16 3 0), .fdiv (vf 4 8 12 0 3 0), .frcp (vf 4 8 0 0 3 0), .fsqrt (vf 4 8 0 0 3 0),
     .frsq (vf 4 8 0 0 3 0)] = true := by decide +kernel

theorem test_witness_float_functions_and_selection : allRun
    [.fexp2 (vf 4 8 0 0 3 0), .flog2 (vf 4 8 0 0 3 0), .fsin (vf 4 8 0 0 3 0), .fcos (vf 4 8 0 0 3 0), .fmin (vf 4 8 12 0 3 0),
     .fminImm (im 4 8 3 0 3), .fmax (vf 4 8 12 0 3 0), .fmaxImm (im 4 8 3 0 3), .fmed3 (vf 4 8 12 16 3 0), .fcps (vf 4 8 12 0 3 0),
     .fcpsImm (im 4 8 3 0 3), .fscl (vf 4 8 12 0 3 0), .fsclImm (im 4 8 3 0 3), .frnd (vf 4 8 0 0 3 0), .fclass (vf 4 8 0 0 3 0),
     .fcmp (vf 4 8 12 0 3 0), .fcmpImm (im 4 8 3 0 3)] = true := by decide +kernel

theorem test_witness_conversions : allRun
    [.cvt (vf 4 8 0 0 1 3), .pack (vf 4 8 0 0 4 0), .unpk (vf 4 8 0 0 4 0)] = true := by decide +kernel

theorem test_witness_quantisation : let f := vf 4 8 12 0 6 0
    (runsOk (.qnt f) (placed (.qnt f)) && !zeroBad (ctxFor (.qnt f) (placed (.qnt f)) 0 0 (wv (placed (.qnt f)))) (wv (placed (.qnt f)))
      (f.args .qnt false)) = true ∧
    (runsOk (.dqnt f) (placed (.dqnt f)) && !zeroBad (ctxFor (.dqnt f) (placed (.dqnt f)) 0 0 (wv (placed (.dqnt f))))
      (wv (placed (.dqnt f))) (f.args .dqnt false)) = true := by decide +kernel

theorem test_witness_dot_products : allRun
    [.fdot2 (vf 4 8 12 16 4 0), .idot4 (vf 4 8 12 16 8 0), .ldot (vf 4 8 12 16 10 0)] = true := by decide +kernel

theorem test_witness_moves : allRun
    [.mov (vf 4 0 12 0 0 0), .movImm (im 4 0 0 0 3), .sel (vf 4 8 12 16 0 0), .movGroupWide (vf 4 0 12 0 0 0),
     .movGroupWideImm (im 4 0 0 0 3), .selGroupWide (vf 4 8 12 0 0 0), .near (vf 0 8 12 0 0 0)] = true := by decide +kernel

theorem test_witness_group_wide : allRun
    [.groupWideAlu (.reg .icmp (vf 4 8 12 0 1 0)), .groupWideAlu (.reg .fcmp (vf 4 8 12 0 3 0)),
     .groupWideAlu (.reg .fclass (vf 4 8 0 0 3 0)), .groupWideAlu (.reg .iadd (vf 4 8 12 0 1 0)),
     .groupWideAlu (.reg .fadd (vf 4 8 12 0 3 0)), .groupWideAlu (.imm .iadd (im 4 8 1 0 3)), .cvtGroupWide (vf 4 8 0 0 2 1),
     .plopGroupWide (vf 4 8 12 0 0 0)] = true := by decide +kernel

theorem test_witness_lane_reads : allRun
    [.shfl (vf 4 8 12 0 0 0), .shflImm (im 4 8 0 0 3), .swz (vf 4 8 0 0 0 0), .rdlane (vf 4 8 12 0 0 0), .rdlaneImm (im 4 8 0 0 3),
     .wrlane (vf 4 8 12 0 0 0), .wrlaneImm (im 4 8 0 0 3), .bcst (vf 4 8 0 0 0 0)] = true := by decide +kernel

theorem test_witness_wrlane_dead : let s := onWave (fun w => { w with dead := Mask.one 3 }) (placed (.wrlaneImm (im 4 8 0 0 3)))
    runsOk (.wrlaneImm (im 4 8 0 0 3)) s = true ∧ (wv s).dead.getLsbD 3 = true := by decide +kernel

theorem test_witness_votes_reductions_scans : allRun
    [.vote (vf 4 8 0 0 0 0), .ballot (vf 4 8 0 0 0 0), .matchLanes (vf 4 8 0 0 0 0), .elect (vf 4 0 0 0 0 0), .flane (vf 4 8 0 0 0 0),
     .pcnt (vf 4 8 0 0 0 0), .redi (vf 4 8 0 0 0 0), .redf (vf 4 8 0 0 3 0), .scani (vf 4 8 0 0 0 0), .scanf (vf 4 8 0 0 3 0),
     .scanp (vf 4 8 0 0 0 0), .cmpct (vf 4 8 0 16 0 0), .expnd (vf 4 8 0 16 0 0)] = true := by decide +kernel

theorem test_witness_predicates_masks_shapes : allRun
    [.plop (vf 4 8 12 16 0 0), .p2r (vf 4 0 0 0 0 0), .movrp (vf 0 8 0 0 0 0), .shpq (vf 4 8 0 0 0 0), .fmtq (vf 4 8 0 0 0 0),
     .shpx (vf 4 0 0 0 0 0), .shpc (vf 4 0 0 0 0 0), .fmts (vf 4 0 0 0 0 0), .actq (vf 4 0 0 0 0 0), .deadq (vf 4 0 0 0 0 0),
     .poisq (vf 4 0 0 0 0 0)] = true := by decide +kernel

theorem test_witness_integer_compare : allRun
    [.icmp (vf 4 8 12 0 1 2), .icmpImm (im 4 8 1 2 3), .groupWideAlu (.reg .icmp (vf 4 8 12 0 1 2))] = true := by decide +kernel

/-! ### Capabilities and the generator -/

def capInstrs : List Instr :=
  [.cbnd (vf 4 8 12 0 2 0), .cadd (vf 4 8 12 0 1 0), .cset (vf 4 8 12 0 13 0), .cperm (vf 4 8 12 0 0 0), .cseal (vf 4 8 12 0 0 0),
   .cunsl (vf 4 8 12 0 0 0), .cget (vf 4 8 0 0 13 0), .ctest (vf 4 8 12 0 0 1), .cmov (vf 4 8 0 0 0 0), .cmov (vf 4 8 12 0 0 1),
   .cmov (vf 4 8 0 0 0 2), .cmov (vf 4 8 0 0 0 3)]

theorem test_witness_capability_instructions : (capInstrs.all fun i =>
    let s := onWave (capIn 8 (capFor 0x100000)) (placed i)
    runsOk i s && (wv s).bank.vtags.all fun e => e.2 == 0 || e.2 == Mask.all) = true := by decide +kernel

theorem test_witness_one_tag : (wv (memPlaced (.cadd (vf 4 8 12 0 1 0)))).bank.OneTag := oneTag_of (by decide +kernel)

theorem test_witness_cmov_dead : let i : Instr := .cmov (vf 4 8 12 0 0 1)
    let s := onWave (fun w => { w with dead := Mask.one 0 }) (placed i)
    runsOk i s = true ∧ (wv s).dead.getLsbD ((ctxFor i s 0 0 (wv s)).low32 (wv s) 12 % 32) = true := by decide +kernel

theorem test_witness_generator : allRun
    [.rng (vf 4 0 0 0 0 0), .rngf (vf 4 0 0 0 3 0), .rngq (vf 4 0 12 0 0 0), .rngadv (vf 0 8 0 0 0 0), .rngld (vf 0 8 12 0 0 0),
     .rngst (vf 4 0 0 0 0 0)] = true := by decide +kernel

/-! ### Control flow and segments -/

/-- The state with every slot of its first line valid. -/
def fullLine (s : State) : State := s.setCore 0 ((s.core 0).modSegment 0 0 fun g => { g with bytes := kset g.bytes 1 0x1F })

/-- The wave with predicate 1 true in lane 0 alone, and p2 in every lane. -/
def oneLane (w : Wave) : Wave := w.setBank { w.bank with p := kset (kset w.bank.p 1 1) 2 Mask.all }

/-- A B-format instruction under guard p1. -/
def guarded (f : BF) : BF := { f with com := { com with gp := 1 } }

/-- Nothing holds `i` up, a lane is active, and the pops at the address `x` it goes on at proceed. -/
def leadsOk (i : Instr) (s : State) : Bool := readyOk i s && (ctxFor i s 0 0 (wv s)).act != 0

/-- The relative target of a B-format field in the running wave. -/
def rel (s : State) (d : Int) : Option IAddr := match (s.core 0).relative (bl s).code (wv s).bank.pc d with | .ok t => some t | _ => none

theorem test_witness_bra_all : let i : Instr := .bra (bf 3 0 0)
    let s := fullLine (placed i)
    leadsOk i s = true ∧ rel s 3 = some 40 ∧ (wv s).path &&& ~~~(ctxFor i s 0 0 (wv s)).act = 0 := by decide +kernel

theorem test_witness_bra_part : let i : Instr := .bra (guarded (bf 3 0 0))
    let s := onWave oneLane (fullLine (placed i))
    leadsOk i s = true ∧ rel s 3 = some 40 ∧ (wv s).path &&& ~~~(ctxFor i s 0 0 (wv s)).act ≠ 0 ∧
    (wv s).bank.ctl.length + 1 ≤ (ctxFor i s 0 0 (wv s)).stackLimit := by decide +kernel

theorem test_witness_bra_join : let i : Instr := .bra (guarded (bf 3 4 0))
    let s := onWave oneLane (fullLine (placed i))
    leadsOk i s = true ∧ rel s 3 = some 40 ∧ rel s 4 = some 52 ∧ (wv s).path &&& ~~~(ctxFor i s 0 0 (wv s)).act ≠ 0 ∧
    (wv s).bank.ctl.length + 2 ≤ (ctxFor i s 0 0 (wv s)).stackLimit := by decide +kernel

theorem test_witness_loop_none : let i : Instr := .loop (bf 3 0 4)
    let s := fullLine (placed i)
    leadsOk i s = true ∧ rel s 3 = some 40 ∧ (ctxFor i s 0 0 (wv s)).readG (wv s) 4 = 0 := by decide +kernel

theorem test_witness_loop : let i : Instr := .loop (bf 3 0 4)
    let s := onWave (grpIn 4 1) (fullLine (placed i))
    leadsOk i s = true ∧ rel s 3 = some 40 ∧ (ctxFor i s 0 0 (wv s)).readG (wv s) 4 ≠ 0 ∧ (wv s).bank.loops.length ≠ 8 := by
  decide +kernel

/-- The wave inside a loop of `n` more rounds. -/
def inLoop (n : Dword) (w : Wave) : Wave := w.setBank { w.bank with loops := [⟨n, 4, 40, 0⟩] }

theorem test_witness_endl_break : ([(Instr.endl (bf 0 0 0), 2), (.endl (bf 0 0 0), 1), (.breakLoop (bf 0 0 0), 1)].all fun p =>
    let s := onWave (inLoop (BitVec.ofNat 64 p.2)) (fullLine (placed p.1))
    leadsOk p.1 s && (wv s).bank.loops == [⟨BitVec.ofNat 64 p.2, 4, 40, (wv s).bank.ctl.length⟩] && segOf 4 == segOf (wv s).bank.pc &&
    ((s.core 0).segment (bl s).code 0).any (fun g => !g.loading) && segOf ((s.core 0).nextValid (bl s).code 40) == 0) = true := by
  decide +kernel

theorem test_witness_call : let i : Instr := .call (bf 3 0 0)
    let s := fullLine (placed i)
    leadsOk i s = true ∧ rel s 3 = some 40 ∧ (wv s).bank.ctl.length + 1 ≤ (ctxFor i s 0 0 (wv s)).stackLimit := by decide +kernel

/-- Targets 40 in even lanes and 16 in odd ones. -/
def twoTargets (w : Wave) : Wave := lanesIn 8 (fun l => if l % 2 = 0 then 40 else 16) w

theorem test_witness_brx_callx : ([Instr.brx (vf 0 8 0 0 0 0), .callx (vf 0 8 0 0 0 0)].all fun i =>
    let s := onWave twoTargets (fullLine (placed i))
    let c := ctxFor i s 0 0 (wv s)
    leadsOk i s && c.lanes.all (fun l => (slotAt (offOf (c.lane (wv s) 8 l) % 64)).isSome) && (wv s).path &&& ~~~c.act == 0 &&
    targetGroups c (fun l => c.lane (wv s) 8 l) == [(16, 0xAAAAAAAA), (40, 0x55555555)] && (s.core 0).xfer (bl s).code 16 == .go &&
    segOf 16 == segOf (wv s).bank.pc && decide ((wv s).bank.ctl.length + 2 ≤ c.stackLimit)) = true := by decide +kernel

theorem test_witness_brx_part : let i : Instr := .brx { vf 0 8 0 0 0 0 with com := { com with gp := 1 } }
    let s := onWave (fun w => oneLane (twoTargets w)) (fullLine (placed i))
    let c := ctxFor i s 0 0 (wv s)
    leadsOk i s = true ∧ (wv s).path &&& ~~~c.act ≠ 0 ∧ targetGroups c (fun l => c.lane (wv s) 8 l) = [(40, 1)] := by decide +kernel

/-- The wave in a function it has been called into, with a join above the call. -/
def inCall (w : Wave) : Wave := w.setBank { w.bank with ctl := [⟨.join, 52, Mask.all, none⟩, ⟨.call, 40, Mask.all, none⟩] }

theorem test_witness_ret : let i : Instr := .ret (bf 0 0 0)
    let s := onWave inCall (fullLine (placed i))
    leadsOk i s = true ∧ (wv s).bank.ctl = [⟨.join, 52, Mask.all, none⟩] ++ ⟨.call, 40, Mask.all, none⟩ :: [] ∧
    leadsOk i (placed i) = true ∧ ((wv (placed i)).bank.ctl.all fun e => e.kind != .call) = true := by decide +kernel

theorem test_witness_exit_recon_nop_yield : (([Instr.exit (bf 0 0 0), .recon (bf 3 0 0), .nop (vf 0 0 0 0 0 0),
    .yield (vf 0 0 0 0 0 0)].all fun i => leadsOk i (fullLine (placed i))) && (rel (fullLine (placed (.recon (bf 3 0 0)))) 3).isSome) = true := by
  decide +kernel

/-- Segment 1 of code object 0. -/
def seg1 (loading drop : Bool) : Segment :=
  { code := 0, num := 1, size := 1, slots := [1], loading, dropPending := drop, bytes := [(1, 0x1F)], after := (0, 0), changed := false }

/-- The state with a segment 1, loading or not. -/
def withSegment (loading : Bool) (s : State) : State := s.setCore 0 { s.core 0 with
  segs := (s.core 0).segs ++ [seg1 loading false] }

/-- The wave inside a loop of segment 1. -/
def inLoopAway (w : Wave) : Wave := w.setBank { w.bank with loops := [⟨2, 0x1000004, 0x1000010, 0⟩] }

theorem test_witness_endl_break_away : ([Instr.endl (bf 0 0 0), .breakLoop (bf 0 0 0)].all fun i =>
    let s := onWave inLoopAway (withSegment false (placed i))
    let x := (s.core 0).nextValid (bl s).code 0x1000010
    leadsOk i s && (wv s).bank.loops == [⟨2, 0x1000004, 0x1000010, (wv s).bank.ctl.length⟩] && segOf 0x1000004 != segOf (wv s).bank.pc &&
    (s.core 0).xfer (bl s).code 0x1000004 == .go && ((s.core 0).segment (bl s).code 1).any (fun g => !g.loading) &&
    segOf x != segOf (wv s).bank.pc && (s.core 0).xfer (bl s).code x == .go) = true := by decide +kernel

/-- The state with a segment table that gives segment 1 one unit. -/
def withTable (s : State) : State := s.storeNum 88 8 1

theorem test_witness_jseg : let i : Instr := .jseg (im 0 0 0 0 0x1000004)
    let s := withSegment false (placed i)
    leadsOk i s = true ∧ (s.core 0).xfer (bl s).code 0x1000004 = .go := by decide +kernel

theorem test_witness_segld : let i : Instr := .segld (im 4 0 0 0 1)
    (leadsOk i (withSegment true (placed i)) = true ∧ (((withSegment true (placed i)).core 0).segment 0 1).isSome = true) ∧
    (leadsOk i (placed i) = true ∧ ((placed i).core 0).segment 0 1 = none ∧ ((placed i).segEntry 0 1).1 = 0) ∧
    (let s := withTable (placed i)
     leadsOk i s = true ∧ (bl s).code = 0 ∧ (s.core 0).segment 0 1 = none ∧ (s.segEntry 0 1).1 = 1 ∧ (s.core 0).freeSlots.length = 63) ∧
    (let s := withTable (placed i)
     let s1 := s.setCore 0 ((s.core 0).modSegment 0 0 fun g => { g with slots := List.range 64 })
     leadsOk i s1 = true ∧ (s1.core 0).segment 0 1 = none ∧ (s1.segEntry 0 1).1 = 1 ∧ (s1.core 0).freeSlots = []) := by decide +kernel

theorem test_witness_segdrop_segq : ([Instr.segdrop (im 0 0 0 0 1), .segq (im 4 0 0 0 1)].all fun i =>
    let s := withSegment false (placed i)
    leadsOk i s && !handlerSegment (s.core 0) (bl s).code 1) = true := by decide +kernel

/-! ### Memory -/

/-- Nothing holds a memory access up: its checks pass in every lane, its addresses are the part's own, and entries are free. -/
def accessOk (i : Instr) (f : MF) (kind : Nat) (ask : LaneReq → Ask) (s : State) : Bool :=
  let reqs := accessReqs (ctxFor i s 0 0 (wv s)) (wv s) f
  let n := sizeBytes f.size.toNat
  runsOk i s && s.accessFault 0 kind ask reqs == none && !reqs.isEmpty &&
    reqs.all (fun r => !s.isRemote r.va && rangeOf (localOf r.va) == .hbm) && !s.chainPending 0 (wv s) n reqs &&
    ((s.core 0).unasked (s.wanted 0 n f reqs)).length ≤ 256 - (s.core 0).misses.length && (s.core 0).reserve.isEmpty &&
    reqs.all (fun r => !(s.found 0 (wv s) f r).poison)

theorem here_of {i : Instr} {f : MF} {kind : Nat} {ask : LaneReq → Ask} {s : State} (h : accessOk i f kind ask s = true) :
    Here s 0 (wv s) (sizeBytes f.size.toNat) (accessReqs (ctxFor i s 0 0 (wv s)) (wv s) f) := by
  simp only [accessOk, Bool.and_eq_true, List.all_eq_true, Bool.not_eq_true', beq_iff_eq] at h
  obtain ⟨⟨⟨⟨⟨-, hr⟩, hc⟩, -⟩, -⟩, -⟩ := h
  exact ⟨fun r hm => ⟨(hr r hm).1, by rw [(hr r hm).2]; decide⟩, hc⟩

/-- Room for a store of stream 0 in the running wave. -/
def storeRoomOk (s : State) : Bool :=
  decide ((wv s).sb.length < (bl s).env.sbDepth) && decide ((wv s).unack.getD 0 0 < 64)

theorem room_of {s : State} (h : storeRoomOk s = true) : StoreRoom (wv s) (bl s) 0 := by
  simp only [storeRoomOk, Bool.and_eq_true, decide_eq_true_eq] at h
  exact ⟨h.1, h.2⟩

theorem test_witness_ld : let f := mf 4 12 1022 0 2 0 0 0 0
    accessOk (.ld f) f 0 (fun _ => loadAsk f) (memPlaced (.ld f)) = true := by decide +kernel

theorem test_witness_ldc : let f := mf 4 12 1022 0 4 0 0 0 0
    accessOk (.ldc f) f 2 (fun _ => loadAsk f) (memPlaced (.ldc f)) = true ∧
    ((wv (memPlaced (.ldc f))).bank.vtags.all fun e => e.2 == 0 || e.2 == Mask.all) = true := by decide +kernel

theorem test_witness_ldg : let f := mf 4 12 0 0 2 0 0 0 0
    accessOk (.ldg f) f 4 (fun _ => loadAsk f) (memPlaced (.ldg f)) = true := by decide +kernel

theorem test_witness_pref_fence : ([Instr.pref (mf 0 12 1022 0 0 0 0 0 0), .fence (mf 0 0 0 255 0 0 0 2 0)].all fun i =>
    runsOk i (memPlaced i)) = true ∧
    (let i : Instr := .fence (mf 0 0 0 255 0 0 0 3 0)
     runsOk i (memPlaced i) = true ∧ (memPlaced i).released (wv (memPlaced i)) 0 255 = true) := by decide +kernel

theorem test_witness_st : let f := mf 4 12 1022 0 2 0 0 0 0
    accessOk (.st f) f 1 (fun _ => { loadAsk f with need := permStore }) (memPlaced (.st f)) = true ∧
    storeRoomOk (memPlaced (.st f)) = true := by decide +kernel

theorem test_witness_stc : let f := mf 4 12 1022 0 4 0 0 0 0
    let s := memPlaced (.stc f)
    let c := ctxFor (.stc f) s 0 0 (wv s)
    let need (r : LaneReq) : Nat := permStore ||| (if (c.quadCap (wv s) 4 r.lane).tag then permStoreCap else 0)
    accessOk (.stc f) f 3 (fun r => { need := need r, align := 16, size := 16, stored := some (c.quadCap (wv s) 4 r.lane) }) s = true ∧
    storeRoomOk s = true := by decide +kernel

/-- The condition of an atomic on local memory. -/
def atomicOk (i : Instr) (f : MF) (kind need : Nat) (s : State) : Bool :=
  let reqs := accessReqs (ctxFor i s 0 0 (wv s)) (wv s) f
  runsOk i s && s.atomicFault 0 kind { loadAsk f with need := need ||| permStore ||| permAtomic } reqs == none && !reqs.isEmpty &&
    reqs.all (fun r => !s.isRemote r.va && !s.poisoned (localOf r.va) (sizeBytes f.size.toNat) &&
      !(s.ownParts (wv s)).any fun p => p.touches 0 0 (localOf r.va) (sizeBytes f.size.toNat)) &&
    s.ordered (wv s) (releases f) f.scope.toNat

theorem test_witness_atomics : (([(Instr.atom (mf 4 12 0 0 2 0 0 0 0), mf 4 12 0 0 2 0 0 0 0, 5),
    (.cas (mf 4 12 0 0 2 0 0 0 0), mf 4 12 0 0 2 0 0 0 0, 7)].all fun p => atomicOk p.1 p.2.1 p.2.2 permLoad (memPlaced p.1)) &&
    (let f := mf 4 12 0 0 2 0 0 0 0
     atomicOk (.red f) f 6 0 (memPlaced (.red f)) && storeRoomOk (memPlaced (.red f)))) = true := by decide +kernel

/-! ### Scratchpad and barriers -/

/-- An instruction placed in a wave whose v8 holds a word's offset for each lane. -/
def padPlaced (i : Instr) : State := onWave (lanesIn 8 fun l => BitVec.ofNat 32 (4 * l)) (placed i)

/-- The same with all words of the scratchpad full. -/
def padFull (i : Instr) : State := onBlock (fun b => { b with full := List.range 256 }) (padPlaced i)

/-- The accesses of a scratchpad form in the running wave. -/
def padsOf (i : Instr) (f : MF) (s : State) : List PadReq := padReqs (ctxFor i s 0 0 (wv s)) (wv s) (bl s) f

/-- The checks of a scratchpad form of kind `kind` and `n` bytes pass, and no store of the wave stands in its way. -/
def padOk (i : Instr) (f : MF) (kind n : Nat) (s : State) : Bool :=
  let reqs := padsOf i f s
  runsOk i s && !reqs.isEmpty && s.padFault (bl s) kind n n reqs == none && !s.bitError (bl s) reqs && !padOwn s (wv s) n reqs &&
    !padPending (s.padParts (wv s)) n reqs && reqs.all fun r => !((s.padFound (bl s) (s.padParts (wv s)) n r).poison)

theorem test_witness_lds_sts : let f := mf 4 8 1023 0 2 0 0 0 0
    padOk (.lds f) f 0 4 (padPlaced (.lds f)) = true ∧ padOk (.sts f) f 1 4 (padPlaced (.sts f)) = true ∧
    ((padsOf (.sts f) f (padPlaced (.sts f))).all fun r => decide (r.off.toNat + 4 ≤ 2 ^ 24)) = true ∧
    storeRoomOk (padPlaced (.sts f)) = true := by decide +kernel

/-- Full or empty words, no waiter and no error at every word named, and no word twice. -/
def atOnceOk (full : Bool) (reqs : List PadReq) (s : State) : Bool :=
  (reqs.all fun r => (s.rankBlock (bl s) r.rank).all fun p =>
    p.2.2.isFull (r.off.toNat / 4) == full && !p.2.2.padBad r.off.toNat 4 && p.2.2.fe.isEmpty) &&
  decide ((reqs.map fun r => ((s.rankBlock (bl s) r.rank).map fun p => (p.1, p.2.1), r.off)).Nodup)

theorem atOnce_of {full many : Bool} {reqs : List PadReq} {s : State} (h : atOnceOk full reqs s = true) : AtOnce s (bl s) reqs full many := by
  simp only [atOnceOk, Bool.and_eq_true, decide_eq_true_eq, List.all_eq_true] at h
  refine ⟨fun r hr tc tb t e => ?_, .inr h.2⟩
  simpa [e, and_assoc] using h.1 r hr

theorem test_witness_ldfe : let f := mf 4 8 1023 0 2 0 0 0 0
    padOk (.ldfe f) f 2 4 (padFull (.ldfe f)) = true ∧ atOnceOk true (padsOf (.ldfe f) f (padFull (.ldfe f))) (padFull (.ldfe f)) = true ∧
    (wv (padFull (.ldfe f))).fe = none ∧ (padFull (.ldfe f)).ordered (wv (padFull (.ldfe f))) false 1 = true := by decide +kernel

theorem test_witness_stfe_feset_feq : let f := mf 4 8 1023 0 2 0 0 0 0
    let g := mf 0 8 1023 0 2 0 1 0 0
    (padOk (.stfe f) f 3 4 (padPlaced (.stfe f)) = true ∧
      atOnceOk false (padsOf (.stfe f) f (padPlaced (.stfe f))) (padPlaced (.stfe f)) = true ∧ (wv (padPlaced (.stfe f))).fe = none ∧
      (padPlaced (.stfe f)).ordered (wv (padPlaced (.stfe f))) true 1 = true) ∧
    (padOk (.feset g) g 4 4 (padPlaced (.feset g)) = true ∧ (bl (padPlaced (.feset g))).fe = [] ∧
      (padPlaced (.feset g)).ordered (wv (padPlaced (.feset g))) true 1 = true) ∧
    padOk (.feq f) f 5 4 (padPlaced (.feq f)) = true := by decide +kernel

theorem test_witness_atoms_cass : let f := mf 4 8 1023 0 2 0 0 0 0
    ([(Instr.atoms f, 6, 0), (.cass f, 7, 8)].all fun p =>
      let s := padPlaced p.1
      let reqs := padsOf p.1 f s
      let chains := chainsOf (ctxFor p.1 s 0 0 (wv s)) (wv s) p.2.2 2 4 (reqs.map fun r => (r.lane, padKey r.rank r.off.toNat))
      padOk p.1 f p.2.1 4 s && s.ordered (wv s) (releases f) 0 && (s.applyPadChains (bl s) 4 chains).2.1 == 0) = true := by decide +kernel

/-- A barrier object of block scope at offset 0 that expects one wave, in phase 1. -/
def barrier (s : State) : State :=
  onBlock (fun b => { (((b.padPut 0 4 (2 ^ 31 + 2 ^ 10 + 1)).padPut 4 4 (2 ^ 16 + 1)).padPut 8 4 1) with registry := [0] }) s

theorem test_witness_binit : let f := mf 4 8 1023 0 2 1 0 0 0
    let s := placed (.binit f)
    runsOk (.binit f) s = true ∧ (padsOf (.binit f) f s).head? = some ⟨0, 0, 0⟩ ∧ s.padCheck (bl s) 128 128 ⟨0, 0, 0⟩ = none ∧
    ((s.rankBlock (bl s) 0).all fun p => !p.2.2.padBad 0 128 && !(p.2.2.object 0).valid && p.2.2.registry.length < 16) = true ∧
    (s.rankBlock (bl s) 0).isSome = true ∧ storeRoomOk s = true := by decide +kernel

theorem test_witness_arrive : let f := vf 4 8 1023 0 0 0
    let s := barrier (placed (.arrive f))
    let r := barrierReq (ctxFor (.arrive f) s 0 0 (wv s)) (wv s) (bl s) (f.args .arrive false)
    runsOk (.arrive f) s = true ∧ s.barrierCheck (bl s) 9 r (some ((wv s).wblk, (bl s).rank)) = none ∧
    (s.rankBlock (bl s) r.rank).isSome = true ∧ (wv s).sb.length < (bl s).env.sbDepth ∧ (wv s).unack.getD 0 0 < 64 := by decide +kernel

theorem test_witness_wait_trywait : let f := vf 0 8 1023 16 0 0
    ([(Instr.wait f, f.args .wait false, true), (.trywait f, f.args .trywait false, false)].all fun p =>
      let s := barrier (placed p.1)
      let c := ctxFor p.1 s 0 0 (wv s)
      let r := barrierReq c (wv s) (bl s) p.2.1
      runsOk p.1 s && (if p.2.2 then s.waitCheck (bl s) (wv s) r == none else s.barrierCheck (bl s) 11 r none == none) && (s.rankBlock (bl s) r.rank).isSome &&
        (s.rankBlock (bl s) r.rank).all fun q => (q.2.2.object r.off.toNat).phase != c.low32 (wv s) 16 % 65536) = true := by decide +kernel

theorem test_witness_bar : let i : Instr := .bar (vf 0 0 0 0 0 0)
    let j : Instr := .bar (vf 0 0 0 0 0 1)
    (runsOk i (placed i) = true ∧ (wv (placed i)).barWait = none ∧ (placed i).ordered (wv (placed i)) true 1 = true) ∧
    (runsOk j (placed j) = true ∧ (wv (placed j)).barWait = none ∧ (placed j).ordered (wv (placed j)) true 2 = true) ∧
    (let s := onBlock (fun b => { b with barPhase := 1 }) (onWave (fun w => { w with barWait := some (false, 0) }) (placed i))
     runsOk i s = true ∧ (wv s).barWait = some (false, 0) ∧ s.barPhaseOf (bl s) false ≠ 0) := by decide +kernel

theorem test_witness_implicit_barrier : let s := onBlock (fun b => { b with barDone := [0] }) (placed (.nop (vf 0 0 0 0 0 0)))
    (s.block 0 0 = some (bl s) ∧ (bl s).barDone ≠ [] ∧ ∀ i < (bl s).waves, i ∉ (bl s).gone → i ∈ (bl s).barDone) ∧
    (let t := { s with clusters := kset s.clusters 0 { members := [(0, 0)], phase := 0, arrived := [(0, 0)], gone := [] } }
     t.block 0 0 = some (bl t) ∧ kget t.clusters (bl t).cluster = some { members := [(0, 0)], phase := 0, arrived := [(0, 0)], gone := [] } ∧
     ∀ r < 1, ∀ i < (bl t).waves, (r, i) ∈ [(0, 0)]) := by decide +kernel

/-! ### The matrix engine -/

/-- The conditions of a sequencer instruction. -/
def seqReadyOk (i : Instr) (s : State) : Bool :=
  s.turn == .seqr 0 0 && (s.block 0 0).isSome && (seqFate s 0 (bl s) i.view).isNone && !(bl s).seqr.error && (bl s).seqr.status != 5 &&
    (wv s).bslot == 0

theorem seqReady_of {i : Instr} {s : State} (h : seqReadyOk i s = true) : SeqReady i s 0 0 (bl s) := by
  simp only [seqReadyOk, Bool.and_eq_true, beq_iff_eq, bne_iff_ne, Option.isSome_iff_exists, Option.isNone_iff_eq_none,
    Bool.not_eq_true'] at h
  obtain ⟨⟨⟨⟨⟨ht, b, hb⟩, hf⟩, he⟩, hs⟩, hz⟩ := h
  have e : bl s = b := by simp [bl, hz, hb]
  exact ⟨ht, e ▸ hb, hf, he, hs⟩

/-- What a tile operation needs before its checks (R285). -/
def tileTurnOk (i : Instr) (op : Op) (f : XF) (s : State) : Bool :=
  let s1 := s.seqLine 0 0
  seqReadyOk i s && !(bl s).seqBehind (s.now (dieOf 0)) && decide ((bl s).seqr.flights.length < 4) && buffersReady (bl s) (matUses op f) &&
    !(s1.core 0).resourceHeld (usesArray op) (s.now (dieOf 0)) && s1.hasTurn 0 0 (usesArray op)

/-- 64 KiB of scratchpad, and a descriptor of rows of 256 bytes in g20:g21. -/
def tilePlaced (i : Instr) : State :=
  onBlock (fun b => { b with spSize := 65536 }) (onWave (grpIn 20 (BitVec.ofNat 64 (256 * 2 ^ 24))) (placed i))

theorem test_witness_tile_operations :
    ([(Instr.mma (xf 0 0 1 1 0 3 64 128), Op.mma, xf 0 0 1 1 0 3 64 128), (.mmas (xf 0 0 1 1 0 8 64 128), .mmas, xf 0 0 1 1 0 8 64 128),
      (.zld (xf 0 0 0 0 10 3 0 0), .zld, xf 0 0 0 0 10 3 0 0), (.zst (xf 0 0 0 0 10 3 0 0), .zst, xf 0 0 0 0 10 3 0 0),
      (.zclr (xf 0 0 0 0 0 3 0 0), .zclr, xf 0 0 0 0 0 3 0 0)].all fun p =>
        tileTurnOk p.1 p.2.1 p.2.2 (tilePlaced p.1) &&
        fireStop p.2.1 p.2.2 0 0 (bl (tilePlaced p.1)) ((tilePlaced p.1).seqLine 0 0) == none && (wv (tilePlaced p.1)).spilled.isEmpty &&
        ((((tilePlaced p.1).seqLine 0 0).operandReads 0 0 (bl (tilePlaced p.1)) p.2.1 p.2.2).flatMap
          (((tilePlaced p.1).seqLine 0 0).sourceSpilled 0 0)).isEmpty) = true := by decide +kernel

theorem test_witness_tile_error : let f := xf 0 0 0 0 10 3 0 0
    let s := onBlock (fun b => { b with badBits := List.range 16, badWords := List.range 4096 }) (tilePlaced (.zld f))
    tileTurnOk (.zld f) .zld f s = true ∧ fireStop .zld f 0 0 (bl s) (s.seqLine 0 0) = some (.halt 70) := by decide +kernel

theorem test_witness_tile_range : let f := xf 100 0 1 1 0 3 64 128
    let s := tilePlaced (.mma f)
    tileTurnOk (.mma f) .mma f s = true ∧ (bl s).nTiles ≤ f.tile.toNat ∧ ((s.seqLine 0 0).lowestWave 0 0).isSome = true := by decide +kernel

/-- An operation in flight whose result is due. -/
def dueFlight (op : FlightOp) : Flight :=
  { seq := 1, tile := 0, op, srcs := [], data := [], tainted := false, wv := 0, grps := [], readAt := 0, resultAt := 0, array := false, bufs := [] }

/-- The state whose sequencer has that operation in flight. -/
def flying (op : FlightOp) : State :=
  onBlock (fun b => { b with seqr := { b.seqr with flights := [dueFlight op] } }) (tilePlaced (.snop (xf 0 0 0 0 0 0 0 0)))

theorem test_witness_result_points : ([FlightOp.mma 3, .mmas 8, .zld 3, .zclr 3, .zst 3 0 256 0 none].all fun op =>
    let s := flying op
    s.block 0 0 == some (bl s) && (bl s).seqr.due (s.now (dieOf 0)) == some 0 && (bl s).seqr.flights[0]? == some (dueFlight op) &&
      !(bl s).badTiles.contains 0) = true := by decide +kernel

/-- The state with a deferral queue and an enabled buffer 0 of 4 slots that holds 2. -/
def deferred (q : List Deferred) : State := onBlock
  (fun b => { b with seqr := { b.seqr with queue := q }, bufs := [⟨2 ^ 63 + 4 * 2 ^ 48 + 16 * 2 ^ 24, 2, 0⟩] })
  (tilePlaced (.snop (xf 0 0 0 0 0 0 0 0)))

theorem test_witness_deferrals : ([[Deferred.bfree 0 1 0], [.nbsig 1 5 0 true], [.nbsig 1 5 0 false]].all fun q =>
    let s := deferred q
    s.block 0 0 == some (bl s) && (bl s).seqr.queue == q && (bl s).deferReady (s.now (dieOf 0)) false) = true := by decide +kernel

/-- A sequencer instruction placed with an enabled buffer 0, IN or OUT, of 4 slots that holds 2. -/
def bufPlaced (out : Bool) (i : Instr) : State := onBlock
  (fun b => { b with bufs := [⟨2 ^ 63 + (if out then 2 ^ 62 else 0) + 4 * 2 ^ 48 + 16 * 2 ^ 24, 2, 0⟩] }) (fullLine (placed i))

theorem test_witness_sequencer_control :
    (([false, true].all fun out => let i : Instr := .bwait { xf 0 0 0 0 0 0 2 0 with bufA := 0 }
      let s := bufPlaced out i
      seqReadyOk i s && !(bl s).seqBehind (s.now (dieOf 0)) && ((bl s).buf 0).en && ((bl s).buf 0).held == 2 && ((bl s).buf 0).out == out) &&
     (let i : Instr := .bfree (xf 0 0 0 0 0 0 2 0)
      let s := bufPlaced false i
      seqReadyOk i s && !(bl s).seqBehind (s.now (dieOf 0)) && (bl s).seqr.queue.isEmpty) &&
     (let i : Instr := .nbsig (xf 0 3 1 0 0 0 2 0)
      seqReadyOk i (placed i) && !(bl (placed i)).seqBehind ((placed i).now (dieOf 0)) && (bl (placed i)).seqr.queue.isEmpty) &&
     (let i : Instr := .nbsw (xf 0 3 0 0 0 0 2 0)
      let s := onBlock (fun b => { b with nbc := lmod b.nbc 3 fun _ => 2 }) (placed i)
      seqReadyOk i s && !(bl s).seqBehind (s.now (dieOf 0)) && reached ((bl s).nbc.getD 3 0) ((bl s).seqr.marks.getD 3 0 + 2)) &&
     ([Instr.sendl (xf 0 0 0 0 0 0 0 0), .send (xf 0 0 0 0 0 0 0 0), .snop (xf 0 0 0 0 0 0 0 0)].all fun i => seqReadyOk i (placed i))) =
      true := by decide +kernel

theorem test_witness_sloop : ([xf 3 0 0 0 0 0 5 0, xf 3 0 0 0 0 0 0 0, xf 3 0 1 0 10 0 0 0].all fun f =>
    let i : Instr := .sloop f
    let s := fullLine (placed i)
    seqReadyOk i s && (match (s.core 0).relative (bl s).code (bl s).seqr.pc (sext 19 (f.bufO ++ f.bufB ++ f.bufA ++ f.tile).toNat) with
      | .ok e => e == 40
      | .error _ => false) && ((s.seqLine 0 0).waveOf 0 0 f.wv.toNat).isSome &&
      !(s.seqLine 0 0).grpBad 0 0 f.wv.toNat [2 * f.ga.toNat] && (bl s).seqr.loops.isEmpty) = true := by decide +kernel

theorem test_witness_sendl : ([(1 : Nat), 2].all fun n => let i : Instr := .sendl (xf 0 0 0 0 0 0 0 0)
    let s := onBlock (fun b => { b with seqr := { b.seqr with loops := [⟨n, 4, 0⟩] } }) (placed i)
    seqReadyOk i s && (bl s).seqr.loops == [⟨n, 4, 0⟩]) = true := by decide +kernel

theorem test_witness_tiles_from_waves :
    (allRun [.mfence (vf 0 0 0 0 0 0), .nbar (vf 0 8 0 0 0 0), .bqry (vf 4 0 0 0 0 0)] &&
     (let s := placed (.mfence (vf 0 0 0 0 0 0))
      (wv s).sb.isEmpty && (pendingTokens (wv s) (s.core 0).queue).isEmpty) &&
     (let i : Instr := .nbwait (vf 0 8 0 0 0 0)
      runsOk i (placed i) && reached ((bl (placed i)).nbc.getD 0 0) 0) &&
     (let i : Instr := .badv (vf 0 8 0 0 0 0)
      let one (out : Bool) : State := onWave (uIn 8 1) (bufPlaced out i)
      runsOk i (placed i) && (ctxFor i (placed i) 0 0 (wv (placed i))).low32 (wv (placed i)) 8 == 0 &&
      [false, true].all fun out => runsOk i (one out) && (ctxFor i (one out) 0 0 (wv (one out))).low32 (wv (one out)) 8 == 1 &&
        ((bl (one out)).buf 0).en && ((bl (one out)).buf 0).out == out && ((bl (one out)).buf 0).held == 2 && ((bl (one out)).buf 0).nslot == 4) &&
     ([(0 : Nat), 11].all fun ty => [Instr.zread (vf 4 8 0 4 ty 0), .zwrite (vf 0 8 12 4 ty 0)].all fun i =>
      runsOk i (placed i) && tileStop (placed i) 0 (bl (placed i)) 0 == none && ((bl (placed i)).tile 0).tag == 0)) = true := by decide +kernel

/-! ### Commands and channels -/

/-- A capability that names a command block at `a`. -/
def blockCap (a : Nat) : Cap := ⟨capMake 65536 0 0 0 0x7FF 1 1 a, true⟩

/-- The heap with a command block at 0x100000: a COPY of 64 bytes from 0x101000 to 0x102000 with no completion. -/
def withCommand (s : State) : State :=
  (((heap s).storeNum 0x100008 8 64).storeCapV 0x100010 (capFor 0x101000)).storeCapV 0x100020 (capFor 0x102000)

/-- An instruction placed in a wave with the block capability in quad 8. -/
def cmdPlaced (i : Instr) : State := onWave (capIn 8 (blockCap 0x100000)) (withCommand (placed i))

theorem test_witness_invk : let i : Instr := .invk (vf 4 8 0 0 0 0)
    let code (s : State) : Nat := (s.exclude 0 (wv s).bslot).validate 0 (bl s) true
      ((ctxFor i s 0 0 (wv s)).quadCap (wv s) 8 (ctxFor i s 0 0 (wv s)).lowest)
    (runsOk i (cmdPlaced i) = true ∧ code (cmdPlaced i) = 0 ∧ (cmdPlaced i).ordered (wv (cmdPlaced i)) false 0 = true) ∧
    (runsOk i (placed i) = true ∧ code (placed i) = 1 ∧ (placed i).ordered (wv (placed i)) false 0 = true) := by decide +kernel

/-- A channel that runs the command of `withCommand`. -/
def copying : Channel :=
  { inv := 1, status := 1, code := 0, done := 0, pois := false, image := (withCommand State.reset).bytesAt 0x100000 128,
    tags := [true, true, false, false], colour := 1, grid := 0, index := 0, context := 1, slot := none, owners := [(1, 1)], sent := 0,
    parts := [], since := 0, queued := false, written := false, unit := none }

/-- An instruction placed with channel 0 as `ch`, and its handle in g8. -/
def chanPlaced (ch : Channel) (i : Instr) : State :=
  onWave (grpIn 8 (handleWord 0 1)) ({ withCommand (placed i) with channels := [(0, ch)] })

theorem test_witness_chstat_chwait_chcan :
    (runsOk (.chstat (vf 4 8 0 0 0 0)) (chanPlaced copying (.chstat (vf 4 8 0 0 0 0))) &&
     (let i : Instr := .chwait (vf 4 8 0 0 0 0)
      runsOk i (chanPlaced { copying with status := 2 } i) && runsOk i (placed i)) &&
     [(1, false), (1, true), (2, false)].all fun st => let i : Instr := .chcan (vf 4 8 0 0 0 0)
       let s := chanPlaced { copying with status := st.1, written := st.2 } i
       runsOk i s && (match s.handleOf (bl s).env.top ((ctxFor i s 0 0 (wv s)).readG (wv s) 8) with
         | .ok r => r == (0, { copying with status := st.1, written := st.2 })
         | .error _ => false)) = true := by decide +kernel

theorem test_witness_cbseal_cbchk : ([Instr.cbseal (vf 4 8 0 0 0 0), .cbchk (vf 4 8 0 0 0 0)].all fun i =>
    runsOk i (cmdPlaced i) && (wv (cmdPlaced i)).bank.vtags.all fun e => e.2 == 0 || e.2 == Mask.all) = true := by decide +kernel

/-- The state in which channel 0 runs. -/
def running (ch : Channel) : State := { withCommand State.reset with channels := [(0, ch)] }

theorem test_witness_copy_unit : let s := running copying
    let k := copying.cmd
    s.channel (16 * 0 + 0) = some copying ∧ copying.moved k = false ∧ k.op = 0 ∧ k.dkind = 0 ∧ k.len = 64 ∧
    capCursor k.src.bits = 0x101000 ∧ capCursor k.dst.bits = 0x102000 ∧ s.isRemote 0x101000 = false ∧ s.isRemote 0x102000 = false ∧
    rangeOf (localOf 0x101000) = .hbm ∧ rangeOf (localOf 0x102000) = .hbm ∧ capCursor k.src.bits + 64 ≤ 0x102000 ∧ unitSize s k 0x102000 64 = 64 ∧
    s.chanCheck 1 0 k.src (localOf 0x101000) 64 = none ∧ s.chanCheck 1 0 k.dst (localOf 0x102000) 64 = none ∧
    s.poisoned (localOf 0x101000) 64 = false ∧ k.tags = false ∧
    (let t := running { copying with image := ((withCommand State.reset).storeNum 0x100000 8 (2 ^ 18)).bytesAt 0x100000 128 }
     t.channels.any (fun e => e.2.cmd.tags && e.2.cmd.op == 0 && e.2.cmd.len == 64) = true) := by decide +kernel

/-- The same command with a completion of CKIND 1 to memory, or of CKIND 2, all its bytes moved. -/
def movedAll (ckind : Nat) : Channel :=
  { copying with done := 64
                 image := (((withCommand State.reset).storeNum 0x100000 8 (ckind * 2 ^ 16)).storeCapV 0x100030
                   (if ckind = 1 then capFor 0x103000 else Cap.null)).bytesAt 0x100000 128
                 tags := [true, true, ckind == 1, false] }

theorem test_witness_completion : let s := running (movedAll 1)
    (movedAll 0).moved (movedAll 0).cmd = true ∧ (movedAll 0).cmd.ckind = 0 ∧ (movedAll 1).moved (movedAll 1).cmd = true ∧
    (movedAll 1).cmd.ckind = 1 ∧ localOf (capCursor (movedAll 1).cmd.cmpl.bits) = 0x103000 ∧ rangeOf 0x103000 = .hbm ∧
    s.chanCheck 1 0 (movedAll 1).cmd.cmpl 0x103000 8 = none := by decide +kernel

/-- The state in which channel 0 runs for the block that stands. -/
def runningHere (ch : Channel) : State := { withCommand (placed (.nop (vf 0 0 0 0 0 0))) with channels := [(0, ch)] }

/-- The invoking block stands, and its word 0 is empty, or full, and its buffer 0 has room. -/
theorem test_witness_completion_here : ([[], [0]].all fun full =>
    let s := onBlock (fun b => { b with full, bufs := [⟨2 ^ 63 + 4 * 2 ^ 48 + 16 * 2 ^ 24, 2, 0⟩] }) (runningHere (movedAll 2))
    s.channel (16 * 0 + 0) == some (movedAll 2) && (movedAll 2).status == 1 && (movedAll 2).moved (movedAll 2).cmd &&
    (movedAll 2).cmd.ckind == 2 && !(movedAll 2).written && !(movedAll 2).queued && s.invoker (movedAll 2) == .here 0 0 (bl s) &&
    (movedAll 2).cmd.cvoff == 0 && (bl s).badBits.isEmpty && (bl s).isFull 0 == !full.isEmpty && (movedAll 3).cmd.ckind == 3 &&
    (movedAll 3).code == 0 && (movedAll 3).moved (movedAll 3).cmd && s.invoker (movedAll 3) == .here 0 0 (bl s) &&
    (movedAll 3).cmd.buf == 0 && decide (((bl s).buf 0).held < ((bl s).buf 0).nslot)) = true := by decide +kernel

/-- A member of a collective of two on devices 1 and 2, as a BCAST's receiver. -/
def member : Channel :=
  { copying with image := ((withCommand State.reset).storeNum 0x100000 8 1 |>.storeNum 0x100058 8 (2 ^ 33 + 2 ^ 16)).bytesAt 0x100000 128 }

theorem test_witness_collective_ends : let s := running member
    s.member 1 0 = some (0, member) ∧ s.channel (16 * 0 + 0) = some member ∧ member.code = 0 ∧ s.waitsGroup member = true ∧
    member.since + 500 * microsecond ≤ { s with time := List.replicate 10 (500 * microsecond) }.now (groupDie 0) := by decide +kernel

/-- A raised halt line that has reached the copy engine of group 0. -/
def stoppedCopy : Halt :=
  { engine := .waveCore 0, code := 64, sub := 0, slot := 0, pc := 0, perms := 0, stopped := [.copy 0], more := [], reached := [] }

/-- Region 1, the top of a partition of its own. -/
def regionOne : Region :=
  { env := placeEnv, parent := none, depth := 0, rcb := Cap.null, budget := ⟨192, 6144, 24576, 1000000, 1000000⟩, prio := 0, ownPrio := true,
    prioSet := none, slice := 0, window := 0, savea := Cap.null, sliceAt := none, signal := [], why := 0, client := none,
    answer := none, image := none, restore := false, refused := false }

theorem test_witness_channel_halt :
    let s := { running copying with halts := [(1, stoppedCopy)], regions := [(1, regionOne)] }
    s.channel 0 = some copying ∧ copying.status = 1 ∧ kget s.halts copying.context = some stoppedCopy ∧
    kget s.regions copying.context = some regionOne ∧ EngineId.copy 0 ∈ stoppedCopy.stopped := by decide +kernel

/-- An image that holds the block that invoked the channel. -/
def heldImage : Image :=
  { region := 1, colour := 1, cap := Cap.null, version := 1, time := 0, discard := 0, cores := 1, halted := false, isSealed := false,
    state := 2, blocks := [⟨b0, [], [], [], []⟩], clusters := [], held := [], nested := none, placed := [], asker := none }

/-- The command with scratchpad as its destination. -/
def toScratch : Channel :=
  { copying with image := ((withCommand State.reset).storeNum 0x100000 8 (2 ^ 10)).bytesAt 0x100000 128 }

theorem test_witness_held_write :
    (let s := { running (movedAll 2) with images := [(0x200000, heldImage)] }
     s.channel 0 = some (movedAll 2) ∧ s.invoker (movedAll 2) = .saved 0x200000 ∧ kget s.images 0x200000 = some heldImage ∧
     (movedAll 2).status = 1 ∧ kget heldImage.held 0 = none ∧ (movedAll 2).moved (movedAll 2).cmd = true ∧ (movedAll 2).cmd.ckind = 2) ∧
    (let s := { running toScratch with images := [(0x200000, heldImage)] }
     s.channel 0 = some toScratch ∧ s.invoker toScratch = .saved 0x200000 ∧ kget s.images 0x200000 = some heldImage ∧
     toScratch.status = 1 ∧ toScratch.code = 0 ∧ toScratch.moved toScratch.cmd = false ∧ toScratch.cmd.dkind = 1 ∧
     toScratch.toSend toScratch.cmd = false ∧ toScratch.cmd.writes = true ∧
     (match s.nextUnit 0 toScratch toScratch.cmd with | .bytes _ _ _ _ => true | _ => false) = true) := by decide +kernel

/-! ### Launching, placing and retiring -/

/-- A grid of one-wave blocks in region 1. -/
def kern (persistent : Bool) : Kernel :=
  { entry := 4, mstream := none, waves := 1, cluster := 1, persistent, scratch := 1024, tiles := 0, args := 0, audd := 0 }

def gridOf (persistent : Bool) (count next : Nat) : Grid :=
  { launch := 7, region := 1, order := 0, code := 0, kidx := 0, kernel := kern persistent, count, next, args := Cap.null,
    expanded := true, waits := false, gen := 0, arrived := [], gone := [], plan := none }

def launchSeven : Launch :=
  { queue := 0, index := 0, counter := 1, home := 0, region := 1, cpl := none, cval := 0, intr := false, uids := [], regions := [], unruly := false }

/-- The state with region 1, launch 7 and its grid 5. -/
def withGrid (g : Grid) (s : State) : State :=
  { s with regions := [(1, regionOne)], launches := [(7, launchSeven)], grids := [(5, g)], nextUid := 100 }

/-- A grid's block is the block that runs. -/
def ofGrid (s : State) : State := onBlock (fun b => { b with grid := 5 }) s

/-- The state with a code object at 2 MiB whose one kernel has a block of one wave. -/
def withObject (s : State) : State :=
  ((((s.storeNum 0x200000 8 0x10001).storeNum 0x200010 16 devHash).storeNum 0x200020 8 0x1000).storeNum 0x200028 8 0x2000).storeNum
    0x200030 8 0x3000

/-- A capability of class 0 and colour `col` for 4 MiB from `a`. -/
def wide (otype col a : Nat) : Cap := ⟨capMake 65536 0 6 0 0x7FF otype col a, true⟩

/-- The state with the RCB of a top-level region of colour 1 at 3 MiB, in a granule of colour 0. -/
def withRcb (s : State) : State :=
  ((((((((({ s with kaolin := kset s.kaolin 48 { owned with owner := 0 } } : State).storeNum 0x300000 8 0x100000001).storeNum 0x300008 8
    0x1FFFF).storeNum 0x300020 8 1).storeNum 0x300038 8 0x101).storeNum 0x300040 8 (100 + 32 * 2 ^ 21)).storeCapV 0x300070
    (wide 0 1 0x800000)).storeCapV 0x300080 (wide 0 0 0x400000)))

/-- The launch record for it: its bytes and the tags of its capabilities. -/
def launchBytes : List Byte :=
  ((((State.reset.storeNum 0x100008 8 1).storeCapV 0x100010 (wide 2 1 0x200000)).storeCapV 0x100020 (wide 5 1 0x300000)).storeCapV 0x100030
    (wide 0 1 0x500000)).bytesAt 0x100000 128

def launchTags : List Bool := [false, true, true, true, false, false, false, false]

theorem test_witness_spawn : let i : Instr := .spawn (mf 4 12 1023 0 0 0 0 0 0)
    let need : Ask := { need := permLoad, align := 128, size := 128, stored := none }
    let ok (s : State) (code : Option Nat) : Bool := runsOk i s && s.released (wv s) 3 255 &&
      (let c := ctxFor i s 0 0 (wv s)
       let cap := unsealRecord (c.quadCap (wv s) 12 c.lowest)
       s.check (s.agent 0) need cap (capCursor cap.bits) == code && s.isRemote 0x100000 == false)
    (ok (placed i) (some 1) && ok (memPlaced i) none && rangeOf 0x100000 == .hbm) = true := by decide +kernel

theorem test_witness_launch_judged : let s := withRcb (withObject (withGrid (gridOf false 4 1) (placed (.nop (vf 0 0 0 0 0 0)))))
    let s1 := ofGrid s
    kget s1.grids (bl s1).grid = some (gridOf false 4 1) ∧
    (match s1.judge (.wave 1 7) launchBytes launchTags with | .ok x => x.count == 1 && x.code == 0x200000 | .error _ => false) = true ∧
    (match s1.judge (.wave 1 7) (List.replicate 128 0) launchTags with | .ok _ => false | .error k => k == 1) = true := by decide +kernel

theorem test_witness_gbar : let i : Instr := .gbar (vf 0 0 0 0 0 0)
    let s := ofGrid (withGrid { gridOf true 1 1 with gen := 2 } (placed i))
    let s2 := onWave (fun w => { w with gbarWait := some 1 }) s
    runsOk i s = true ∧ kget s.grids (bl s).grid = some { gridOf true 1 1 with gen := 2 } ∧ (wv s).gbarWait = none ∧
    s.released (wv s) 3 255 = true ∧ runsOk i s2 = true ∧ kget s2.grids (bl s2).grid = some { gridOf true 1 1 with gen := 2 } ∧
    (wv s2).gbarWait = some 1 := by decide +kernel

theorem test_witness_generation : let g : Grid := { gridOf true 2 2 with arrived := [0], gone := [32] }
    let s := withGrid g State.reset
    kget s.grids 5 = some g ∧ g.kernel.persistent = true ∧ g.arrived ≠ [] ∧
    g.arrived.length + g.gone.length = g.count * g.kernel.waves := by decide +kernel

/-- Core 0 free and latched to colour 1. -/
def latched (s : State) : State := s.setCore 0 { Core.cleared with latch := 1 }

theorem test_witness_placement : let g := gridOf false 4 1
    let s := latched (withGrid g State.reset)
    kget s.grids 5 = some g ∧ kget s.regions 1 = some regionOne ∧ s.placeable 5 = true ∧ s.heldBack 5 g = false ∧
    s.pickCores g.code g.kernel regionOne.env false = some [0] ∧ (s.core 0).latch = regionOne.env.colour := by decide +kernel

theorem test_witness_persistent_placement :
    ([(2, true), (9, false)].all fun p => let g := gridOf true p.1 0
      let s := latched (withGrid g State.reset)
      s.placeable 5 && !s.heldBack 5 g && (s.placeWhole 5 false g.count).isSome == p.2) = true := by decide +kernel

theorem test_witness_latch_change : let s := { withGrid (gridOf false 4 1) State.reset with devid := 1 }
    (s.core 0).blocks = [] ∧ (s.core 0).queue = [] ∧ (s.core 0).latch ≠ 1 ∧ s.latchWanted 0 = some 1 := by decide +kernel

theorem test_witness_expansion : let g : Grid := { gridOf false 4 1 with expanded := false }
    let s := withGrid g State.reset
    s.grids.find? (fun e => e.2.launch == 7 && !e.2.expanded) = some (5, g) ∧ g.next ≠ 0 := by decide +kernel

theorem test_witness_retirement : let s := onBlock (fun b => { b with gone := [0] }) (placed (.nop (vf 0 0 0 0 0 0)))
    (bl s).retired = false ∧ (bl s).gone.length = (bl s).waves ∧ (bl s).seqr.flights = [] ∧ (bl s).audit = none ∧ (bl s).digest = none ∧
    kget s.clusters (bl s).cluster = some ⟨[(0, 0)], 0, [], []⟩ ∧ (0, (wv s).bslot) ∈ [(0, 0)] := by decide +kernel

theorem test_witness_urgent_and_slice : let s := withGrid (gridOf false 4 1) (placed (.nop (vf 0 0 0 0 0 0)))
    let r : Region := { regionOne with sliceAt := some 0, slice := 1 }
    let s2 : State := { s with regions := [(1, r)], time := List.replicate 10 microsecond }
    s.wave 0 0 = some (wv s) ∧ kget s2.regions 1 = some r ∧ r.slice ≠ 0 ∧ 0 + r.slice * microsecond ≤ s2.now (homeDie r.env.partition) ∧
    s2.resident 1 = true ∧ r.why = 0 ∧ s2.restoring 1 = false := by decide +kernel

/-! ### Saving and restoring contexts -/

/-- Region 1 with a save area of colour 0 at 4 MiB. -/
def regionSaved : Region := { regionOne with savea := wide 0 0 0x400000 }

/-- The state with region 1 as `r`, and its save area mapped. -/
def withRegion (r : Region) (s : State) : State :=
  { s with regions := [(1, r)], kaolin := (List.range 4).foldl (fun m n => kset m (64 + n) { owned with owner := 0 }) s.kaolin }

def idle : State := placed (.nop (vf 0 0 0 0 0 0))

theorem test_witness_live : let i : Instr := .live (im 0 0 0 0 0)
    let s := withRegion { regionSaved with signal := [(0, 0)], why := 1 } (placed i)
    runsOk i (placed i) = true ∧ (placed i).signalledOn 0 (bl (placed i)).env.region = false ∧ runsOk i s = true ∧ (wv s).level = 0 ∧
    s.signalledOn 0 (bl s).env.region = true ∧ s.arriving (wv s).uid = false := by decide +kernel

theorem test_witness_signal : let r : Region := { regionSaved with why := 2 }
    let s := withRegion r idle
    kget s.regions 1 = some r ∧ r.why ≠ 0 ∧ kget s.halts r.env.top = none ∧ s.sealedAway 1 = false ∧ s.restoring 1 = false ∧
    r.signal = [] := by decide +kernel

theorem test_witness_window_end : let r : Region := { regionSaved with why := 2, signal := [(0, 0)], window := 1 }
    let s : State := { withRegion r idle with time := List.replicate 10 r.windowTicks }
    kget r.signal 0 = some 0 ∧ 0 + r.windowTicks ≤ s.now (dieOf 0) ∧ s.covers 1 r (bl s).env.region = true ∧ (wv s).alive = true ∧
    (wv s).atBoundary = true ∧ s.arriving (wv s).uid = false := by decide +kernel

theorem test_witness_context_save : let r : Region := { regionSaved with why := 2, signal := [(0, 0)] }
    let s := withRegion r idle
    let s2 := onWave (fun w => { w with recorded := true }) s
    r.signal ≠ [] ∧ s.sealedAway 1 = false ∧ s.engineFree 1 r = true ∧ s2.engineFree 1 r = true ∧ s.areaOk r (s.imageOf 1 r).2.isSealed 0 256 = true ∧
    s.clusters.find? (fun e => s.clusterReady 1 r e.2) = none ∧ r.image ≠ some (s.imageOf 1 r).1 ∧
    s2.areaOk r (s2.imageOf 1 r).2.isSealed 0 256 = true ∧
    (s2.clusters.find? (fun e => s2.clusterReady 1 r e.2)).isSome = true := by decide +kernel

/-- An image at the save area of region 1 that holds nothing. -/
def bareImage (state : Nat) : Image :=
  { region := 1, colour := 1, cap := wide 0 0 0x400000, version := 1, time := 0, discard := 0, cores := 1, halted := false, isSealed := false,
    state, blocks := [], clusters := [], held := [], nested := none, placed := [], asker := none }

theorem test_witness_save_complete : let r : Region := { regionSaved with why := 2, signal := [(0, 0)], image := some 0x400000 }
    let s := (withRegion r State.reset).putImage 0x400000 (bareImage 1)
    kget s.images 0x400000 = some (bareImage 1) ∧ (bareImage 1).state = 1 ∧ r.signal ≠ [] ∧ kget s.halts r.env.top = none ∧
    s.stillResident 1 r = false := by decide +kernel

theorem test_witness_sealed_save : let r : Region := { regionSaved with savea := wide 0 1 0x400000 }
    kget (withRegion r idle).halts r.env.top = none ∧ capColour r.savea.bits = r.env.colour ∧ (withRegion r idle).evictable r = true := by
  decide +kernel

/-- Region 1 as a queue asks for its restore. -/
def asking : Region := { regionSaved with client := some 3, image := some 0x400000 }

/-- The state in which the image of region 1 is whole and holds nothing. -/
def savedBare : State := (withRegion asking State.reset).putImage 0x400000 (bareImage 2)

theorem test_witness_restore_refused : ([asking, { asking with client := none, restore := true }].all fun r =>
    let s := withRegion r State.reset
    kget s.regions 1 == some r && s.restoreRefusal r == 1 && !s.sealedAway 1 && !s.restoring 1 && r.why == 0 &&
    (kget s.halts r.env.top).isNone && (r.client.isSome && r.answer.isNone || r.client.isNone && r.restore && !r.refused)) = true := by
  decide +kernel

/-- What is written whole reads as it was written. -/
theorem put_matches (s : State) (a : Nat) (x : Image) (hn : x.nested = none) : (s.putImage a x).digestMatches a x = true := by
  have e : (s.putImage a x).imageBytes a x = s.imageBytes a x := by
    simp [State.imageBytes, State.imagePieces, State.guestOf, State.digestAt, hn]
  simp only [State.digestMatches, e, List.all_eq_true]
  rintro ⟨y, i⟩ h
  obtain ⟨k, hk, hy⟩ := List.mem_iff_getElem.1 h
  simp only [List.getElem_zip, List.getElem_range, Prod.mk.injEq] at hy
  obtain ⟨rfl, rfl⟩ := hy
  have hl : k < (s.imageBytes a x).length := by simp at hk; omega
  simp [State.putImage, byte_store, hl]

theorem put_byte (s : State) (a : Nat) (x : Image) (k : Nat) (h : k < (s.imageBytes a x).length) :
    (s.putImage a x).byte (a + k) = (s.imageBytes a x).getD k 0 := by
  simp [State.putImage, byte_store, h]

/-- Every number the check reads from the image's control word is the one written. -/
theorem bare_control : savedBare.numAt 0x400000 8 = 0x101000201 := by
  have h : savedBare.bytesAt 0x400000 8 = toBytes 8 0x101000201 :=
    (List.map_congr_left (g := fun n => ((withRegion asking State.reset).imageBytes 0x400000 (bareImage 2)).getD (n - 0x400000) 0)
      fun n hn => by
        have hr := (mem_rangeFrom _ _ _).1 hn
        have hl : 8 ≤ ((withRegion asking State.reset).imageBytes 0x400000 (bareImage 2)).length := by decide +kernel
        have := put_byte (withRegion asking State.reset) 0x400000 (bareImage 2) (n - 0x400000) (by omega)
        rwa [show 0x400000 + (n - 0x400000) = n by omega] at this).trans (by decide +kernel)
  rw [State.numAt, h]
  decide +kernel

theorem test_witness_restore : savedBare.restoreRefusal asking = 0 := by
  have h : savedBare.digestMatches 0x400000 (bareImage 2) = true := put_matches _ _ _ rfl
  have e : localOf (capCursor asking.savea.bits) = 0x400000 := by decide +kernel
  have k : kget savedBare.images 0x400000 = some (bareImage 2) := by decide +kernel
  have o : (capColour asking.savea.bits = asking.env.colour) = False := by decide +kernel
  have p : savedBare.areaOk asking false 0 256 = true := by decide +kernel
  have q : savedBare.areaOk asking false 0 (savedBare.imageBytes 0x400000 (bareImage 2)).length = true := by decide +kernel
  have m : ((kvals (bareImage 2).clusters).any fun c => (groupCounts asking.env.partition).all fun n => n < c.members.length) = false := by
    decide +kernel
  simp only [State.restoreRefusal, e, k, o, bare_control, h, decide_false, p, q, m]
  decide +kernel

theorem test_witness_restore_asked : kget savedBare.halts asking.env.top = none ∧ asking.client.isSome = true ∧ asking.answer = none ∧
    savedBare.sealedAway 1 = false ∧ savedBare.restoring 1 = false ∧
    kget savedBare.images (localOf (capCursor asking.savea.bits)) = some (bareImage 2) := by decide +kernel

theorem test_witness_restore_done : (savedBare.restoreImage 1 asking 0x400000 (bareImage 2)).isSome = true := by decide +kernel

theorem test_witness_restore_whole : (savedBare.restoreErrors 0x400000 (savedBare.imagePieces 0x400000 (bareImage 2))).2.2 = none := by
  decide +kernel

/-- The region whose restore has begun, and an image with one cluster, restored or not. -/
def returning : Region := { asking with client := none }
def clusterImage (placed : NSet) : Image := { bareImage 3 with clusters := [(9, ⟨[(0, 0)], 0, [], []⟩)], placed }

theorem test_witness_restore_steps : ([[], [9]].all fun done =>
    let s : State := { withRegion returning State.reset with images := [(0x400000, clusterImage done)], saveOrder := [1] }
    kget s.regions 1 == some returning && returning.why == 0 && (kget s.halts 1).isNone && !s.sealedAway 1 && s.restoring 1 &&
    returning.client.isNone && s.engineFree 1 returning && (clusterImage done).nested.isNone &&
    ((clusterImage done).clusters.find? (fun e => !(clusterImage done).placed.contains e.1)).isSome == done.isEmpty) = true := by
  decide +kernel

/-- Partition 1 halted, its one engine stopped. -/
def haltedOne (s : State) : State := { s with halts := [(1, { stoppedCopy with stopped := [.waveCore 0] })] }

/-- What R384 asks of the halted region for its save. -/
def savesHalted (s : State) : Bool :=
  let o := s.imageOf 1 { regionSaved with why := 4, image := none }
  let y := s.haltedImage 1 regionSaved o.2
  s.partitionStopped regionSaved.env.top && !s.savedWhole regionSaved &&
    y.1.areaOk regionSaved o.2.isSealed 0 (y.1.imageBytes o.1 y.2.1).length

theorem test_witness_halted : savesHalted (haltedOne (withRegion regionSaved State.reset)) = true ∧
    (haltedOne (withRegion regionSaved idle)).partitionStopped regionSaved.env.top = true := by decide +kernel

/-! ### Stores on their way, and the caches -/

/-- A store of stream 0 with one piece. -/
def entryOf (p : Part) : StoreEntry :=
  { serial := 0, place := 1, stream := 0, colour := 1, pc := 4, kind := 0, parts := [p], gates := [],
    info := { kind := 0, size := 2, op := 0, scope := 0, order := 0, act := 1, aux := 0, lanes := [] } }

def queued (p : Part) : QPart := { uid := 0, serial := 0, stream := 0, colour := 1, bslot := 0, pc := 4, kind := 0, lane := 0, part := p }

/-- The state with that piece in the core write queue. -/
def inQueue (p : Part) : State := idle.setCore 0 { idle.core 0 with queue := [queued p] }

theorem test_witness_leaves_buffer :
    ([(⟨.mem 0x100000, .bytes [1, 2, 3, 4] false⟩ : Part), ⟨.spad 0 8, .bytes [1, 2, 3, 4] false⟩].all fun p =>
      let s := onWave (fun w => { w with sb := [entryOf p] }) idle
      (wv s).sb[0]? == some (entryOf p) && (entryOf p).gates.isEmpty && !s.coreStopped 0 && !s.clusterHeld (bl s).cluster && decide ((s.core 0).queue.length + (entryOf p).parts.length ≤ 64) &&
      s.rankBlock (bl s) (bl s).rank == some (0, (wv s).bslot, bl s)) = true := by decide +kernel

theorem test_witness_written_at_home :
    ([(⟨.mem 0x100000, .bytes [1, 2, 3, 4] false⟩ : Part), ⟨.mem 0x100000, .bytes (List.replicate 16 7) true⟩,
      ⟨.spad 0 8, .bytes [1, 2, 3, 4] false⟩, ⟨.spad 0 0, .binit 0 [0]⟩, ⟨.spad 0 8, .arrive false 0 0 4 1 0 0⟩,
      ⟨.mem 0x100000, .chain ⟨4, false, false, 0, [(0, 5, 0)]⟩⟩, ⟨.remote 6 0x100000 0 3 0x6000000100000, .bytes [1, 2, 3, 4] false⟩,
      ⟨.remote 6 0x100000 0 3 0x6000000100000, .chain ⟨4, false, false, 0, [(0, 5, 0)]⟩⟩].all fun p =>
      ((inQueue p).core 0).atHead 0 == some (queued p) && ((inQueue p).core 0).matesOf 0 == [] && rangeOf 0x100000 != .host) = true := by
  decide +kernel

/-- Two pieces of one store in the same line, and a piece for a page of the host window that is present. -/
theorem test_witness_written_together :
    (let p (a : Nat) : Part := ⟨.mem a, .bytes [1, 2, 3, 4] false⟩
     let s := idle.setCore 0 { idle.core 0 with queue := [queued (p 0x100000), queued (p 0x100010)] }
     (s.core 0).atHead 0 = some (queued (p 0x100000)) ∧ (s.core 0).matesOf 0 = [queued (p 0x100010)]) ∧
    (let p : Part := ⟨.mem 0x8000000000, .bytes [1, 2, 3, 4] false⟩
     let s : State := { inQueue p with hostPresent := [hostPage 0x8000000000] }
     (s.core 0).atHead 0 = some (queued p) ∧ rangeOf 0x8000000000 = .host ∧ s.missingPages 0x8000000000 4 = []) := by decide +kernel

theorem test_witness_acknowledged : let s := { idle with acks := [⟨(wv idle).uid, 0, 0⟩, ⟨77, 0, 0⟩] }
    s.acks[0]? = some ⟨(wv idle).uid, 0, 0⟩ ∧ s.findUid (wv idle).uid = some (0, 0) ∧ s.wave 0 0 = some (wv idle) ∧
    s.acks[1]? = some ⟨77, 0, 0⟩ ∧ s.findUid 77 = none := by decide +kernel

/-- The state in which core 0 waits for line 0x2000, of the heap. -/
def missing (s : State) : State := (heap s).setCore 0 { s.core 0 with misses := [⟨0x2000, false⟩] }

theorem test_witness_line_fill : let s := missing idle
    (s.core 0).misses.find? (fun m => m.line == 0x2000) = some ⟨0x2000, false⟩ ∧ s.cacheable (128 * 0x2000) = true ∧
    (s.granule (128 * 0x2000)).home ≠ 2 ∧ (s.core 0).l1Count false < 1536 ∧ (s.core 0).queue = [] := by decide +kernel

theorem test_witness_miss_retry : let s : State := { onWave (fun w => { w with waiting := .miss 3 0 1 }) idle with time := List.replicate 10 400 }
    (wv s).waiting = .miss 3 0 1 ∧ 0 + 16 * coreCycle ≤ s.now (dieOf 0) := by decide +kernel

theorem test_witness_reservation : let s0 := onWave (fun w => { w with waiting := .miss 8 0 4 }) idle
    let s := s0.setCore 0 { s0.core 0 with reserve := [0] }
    (s.core 0).reserve = [0] ∧ (wv s).waiting = .miss 8 0 4 ∧ 4 ≤ 256 - (s.core 0).misses.length := by decide +kernel

theorem test_witness_segments : let s (g : Segment) : State := idle.setCore 0 { idle.core 0 with segs := (idle.core 0).segs ++ [g] }
    ((s (seg1 true false)).core 0).segment 0 1 = some (seg1 true false) ∧ (s (seg1 true false)).storedBefore 0 0 = true ∧
    ((s (seg1 false true)).core 0).segment 0 1 = some (seg1 false true) ∧ ((s (seg1 false true)).core 0).pcIn 0 1 = false ∧
    ((s (seg1 false true)).core 0).seqIn 0 1 = false := by decide +kernel

/-- The state whose wave has register 5 in its backing area, from 8 MiB. -/
def spilledFive : State :=
  let s := onWave (fun w => { w.setBank { w.bank with v := kset w.bank.v 5 ⟨.g (Lanes.of fun l => BitVec.ofNat 32 (l + 1)), 0⟩ } with
    spilled := [5] }) (onBlock (fun b => { b with env := { b.env with backing := wide 0 1 0x800000 } }) idle)
  (List.range 32).foldl (fun s l => s.storeNum (0x800000 + 128 * 5 + 4 * l) 4 (l + 1))
    { s with kaolin := (List.range 3).foldl (fun m n => kset m (128 + n) owned) s.kaolin }

theorem test_witness_refill : let s := spilledFive
    5 ∈ (wv s).spilled ∧ backingAddr s (bl s) (corePos (bl s) 0) 0 = some 0x800000 ∧ s.sweeper.running = false ∧
    Lanes.of (fun l => BitVec.ofNat 32 (s.numAt (0x800000 + 128 * 5 + 4 * l) 4)) = ((wv s).base.reg 5).val.lanes ∧
    ∀ l, l < 32 → s.poisoned (0x800000 + 128 * 5 + 4 * l) 4 = false := by decide +kernel

/-! ### Traps, system registers, windows and emulated tiles -/

/-- The block with a trap and an emulation handler. -/
def handled (s : State) : State := onBlock (fun b => { b with env := { b.env with trapEntry := some 40, emuEntry := some 52 } }) s

/-- The part with a debugger armed for region 1. -/
def armed (s : State) : State := { s with host := { s.host with armed := [1] } }

theorem test_witness_trap_bkpt : ([Instr.trap (im 0 0 0 0 7), .bkpt (im 0 0 0 0 7)].all fun i =>
    let s := handled (placed i)
    let deep := onWave (fun w => { w with handlers := [Bank.start 4 Mask.all, Bank.start 4 Mask.all] }) s
    let away := withRegion { regionSaved with why := 3, signal := [(0, 0)] } (armed s)
    leadsOk i s && (wv s).level != 2 && (bl s).env.trapEntry == some 40 && !s.armedFor (bl s) && !s.haltsNow (bl s).env.top 0 0 &&
    leadsOk i deep && (wv deep).level == 2 && leadsOk i (placed i) && (bl (placed i)).env.trapEntry == none &&
    leadsOk i (armed s) && (armed s).armedFor (bl s) && !(armed s).sealing (bl s).env.region &&
    leadsOk i away && away.armedFor (bl s) && away.sealing (bl s).env.region) = true := by decide +kernel

theorem test_witness_held_trap : let h : HeldTrap := { code := 16, sub := 0, fieldNum := 0, seq := false, info := 5, inst := 0 }
    let s := onWave (fun w => { w with held := [h] })
      (onBlock (fun b => { b with env := { b.env with localCap := true } }) (handled idle))
    (wv s).held = [h] ∧ (wv s).level = 0 ∧ (wv s).atBoundary = true ∧ s.coreStopped 0 = false ∧ (bl s).env.localCap = true ∧ (bl s).env.trapEntry = some 40 ∧
    isEmu h.code = false := by decide +kernel

/-- The running wave's handler was entered from address 16, for a sequencer's trap or its own. -/
def entered (seq : Bool) (s : State) : State :=
  fullLine (onWave (fun w => { w with level1 := { w.level1 with tpc := 16, tcause := if seq then 0x800000 else 0 } }) s)

theorem test_witness_returns :
    ((let i : Instr := .tret (vf 0 0 0 0 0 0)
      let s := entered false (placed i)
      let s2 := onBlock (fun b => { b with seqr := { b.seqr with status := 4 } }) (entered true (placed i))
      leadsOk i s && (wv s).handlers.length == 1 && !(wv s).levelRegs.tcause.getLsbD 23 && (s.core 0).xfer (bl s).code 16 == .go &&
      leadsOk i s2 && (wv s2).levelRegs.tcause.getLsbD 23 && (bl s2).seqr.status == 4 && (wv s2).levelRegs.tpc == 16) &&
     (let i : Instr := .emret (vf 0 0 0 0 0 0)
      let s := entered false (placed i)
      leadsOk i s && (wv s).handlers.length == 1 && !(wv s).levelRegs.tcause.getLsbD 23 &&
      (s.core 0).xfer (bl s).code ((s.core 0).nextValid (bl s).code 16) == .go) &&
     (let i : Instr := .emret (vf 0 0 0 0 0 1)
      leadsOk i (placed i))) = true := by decide +kernel

/-- An S-format instruction. -/
def sf (d a sysreg : Nat) : SF :=
  { com, d := BitVec.ofNat 10 d, a := BitVec.ofNat 10 a, sub := 0, sysreg := BitVec.ofNat 16 sysreg, rsv := 0 }

/-- The registers that SWR writes. -/
def writable : List Nat :=
  [1, 0x1000, 0x1001, 0x1002, 0x1020, 0x1021, 0x1022, 0x2000, 0x200F, 0x2032, 0x2033, 0x4001, 0x4002, 0x4003, 0x6000, 0x6001, 0x6002,
   0x6003]

theorem test_witness_swr : writable.all (fun n => runsOk (.swr (sf 0 4 n)) (placed (.swr (sf 0 4 n)))) = true := by decide +kernel

theorem test_witness_swr_handler : let i : Instr := .swr (sf 0 4 0x3001)
    let s := onWave (fun w => { w with handlers := [Bank.start 4 Mask.all] }) (placed i)
    runsOk i s = true ∧ (wv s).level = 1 := by decide +kernel

theorem test_witness_swr_buffer : let s := placed (.swr (sf 0 4 0x2000))
    bufferBad (bl s) 0 = false ∧ s.bufferBusy (bl s) 0 = false := by decide +kernel

theorem test_witness_srd : [0, 0x1003, 0x2031, 0x3000, 0x4000, 0x5000, 0x6000].all (fun n =>
    runsOk (.srd (sf 4 0 n)) (placed (.srd (sf 4 0 n)))) = true := by decide +kernel

/-- The state with a second wave of the block in slot 1. -/
def twoWaves (s : State) : State := s.setWave 0 1 { startWave 50 0 1 4 Cap.null with age := 1 }

theorem test_witness_movw :
    ([0, 4, 8, 12].all (fun file => let i : Instr := .movw (vf 648 3 1023 1023 0 (2 + file))
      runsOk i (placed i) && (match movwReach ((vf 648 3 1023 1023 0 (2 + file)).args .movw false) (ctxFor i (placed i) 0 0 (wv (placed i)))
        (wv (placed i)) (placed i) with
      | .ok (t, _) => t.wave.spilled.isEmpty && t.wave.errors.isEmpty
      | .error _ => false)) &&
     [(1023 : Nat), 650].all fun b => let i : Instr := .movw (vf 3 648 b 1023 0 3)
      let s := onWave (uIn 650 1) (twoWaves (placed i))
      runsOk i s && (match movwReach ((vf 3 648 b 1023 0 3).args .movw false) (ctxFor i s 0 0 (wv s)) (wv s) s with
      | .ok (t, p) => p == MovPlace.vec 3 && t.slot == (if b = 1023 then 0 else 1) && !t.low
      | .error _ => false)) = true := by decide +kernel

/-- The state in which the block has 2 tiles and an emulation area of 4 MiB from 8 MiB. -/
def emulates (em : Bool) (s : State) : State :=
  onBlock (fun b => { b with nTiles := 2, tiles := [(1, { words := [], tag := 2, emulated := em })]
                             env := { b.env with emuArea := wide 0 1 0x800000 } })
    { s with kaolin := (List.range 64).foldl (fun m n => kset m (128 + n) owned) s.kaolin }

theorem test_witness_zemu :
    ([Instr.zemuMark (vf 644 648 0 0 0 0), .zemuRel (vf 644 648 0 0 0 1), .zemuQry (vf 644 648 0 0 0 2)].all fun i =>
      [(1 : Nat), 5].all fun z => [false, true].all fun em =>
        let s := onWave (uIn 648 (BitVec.ofNat 32 z)) (emulates em (placed i))
        runsOk i s && (ctxFor i s 0 0 (wv s)).low32 (wv s) 648 == z && ((bl s).tile 1).emulated == em && s.released (wv s) 3 255 &&
        [permStore, permLoad].all fun p => s.emuAddr 0 (bl s) p (16384 * 1) 16384 == some 0x804000 &&
          s.emuAddr 0 (bl s) p (2097152 + 1) 1 == some 0xA00001) = true := by decide +kernel

/-- An operation on the tile that MARK names is in flight; the image that REL reads is poisoned, or its tag byte is no code. -/
theorem test_witness_zemu_corners :
    (let i : Instr := .zemuMark (vf 644 648 0 0 0 0)
     let s := onBlock (fun b => { b with seqr := { b.seqr with flights := [{ dueFlight (.zclr 3) with tile := 1 }] } })
       (onWave (uIn 648 1) (emulates false (placed i)))
     runsOk i s && decide (1 < (bl s).nTiles) && !((bl s).tile 1).emulated && (bl s).seqr.flights.any fun x => x.tile == 1) = true ∧
    (let i : Instr := .zemuRel (vf 644 648 0 0 0 1)
     let s0 := onWave (uIn 648 1) (emulates true (placed i))
     let s : State := { s0.storeNum 0xA00001 1 200 with poison := [0x804000 / 64] }
     runsOk i s && s.poisoned 0x804000 16384 && (s.byte 0xA00001).toNat == 200 && (s0.byte 0xA00001).toNat == 0) = true := by
  decide +kernel

/-! ### The fabric -/

/-- Device 5, whose port 0 reaches device 6; the tenant table admits device 6 to colour 1, and to launch queue 2. -/
def onFabric : State :=
  { heap State.reset with
    devid := 5
    ports := [(0, { Port.quiet with reach := [6] })]
    tenants := [(256 * 6 + 1, 2 ^ 8 + 2 ^ 7 + 2 ^ 6 + 2)] }

/-- A flit of a TYPE from device 6 with RTAG 9. -/
def flit (kind col : Nat) (payload : List Byte) : Flit :=
  flitSealed { seq := 1, ack := 0, ddev := 5, sdev := 6, col := BitVec.ofNat 8 col, ord := 0xFF, kind := BitVec.ofNat 8 kind, rtag := 9,
               payload, ctag := 0, cot := 0, crc := 0, reserved := 0 }

/-- The link of port 0. -/
def link0 : Port := { Port.quiet with reach := [6] }

/-- What `Arrives` asks, on port 0. -/
def arrivesOk (s : State) (f : Flit) (kind : Nat) : Bool :=
  kget s.ports 0 == some link0 && f.seq.toNat == (link0.ack + 1) % 65536 && f.kind.toNat == kind && decide (kind ≤ 10) &&
  decide (f.payload.length ≤ 208) && f.reserved == 0 && f.ddev.toNat == s.devid

/-- Every flit of these tests carries the CRC of its bytes. -/
theorem test_witness_flits_sound (kind col : Nat) (bs : List Byte) : flitSound (flit kind col bs) = true := by
  simp [flit, flitSealed, flitSound, flitBody]

theorem arrives_of {s : State} {f : Flit} {kind : Nat} (hs : flitSound f = true) (h : arrivesOk s f kind = true) :
    Arrives s 0 link0 f kind := by
  simp only [arrivesOk, Bool.and_eq_true, beq_iff_eq, decide_eq_true_eq] at h
  obtain ⟨⟨⟨⟨⟨⟨h1, h3⟩, h4⟩, h5⟩, h6⟩, h7⟩, h8⟩ := h
  exact ⟨h1, hs, h3, h4, h5, h6, h7, h8⟩

theorem test_witness_reads : ([((0 : Nat), 0x100000, false, none), (1, 0x100000, true, none), (1, 0x9000000, true, some 4)].all fun k =>
    let f := flit 1 k.1 (requestHead k.2.1 64 0 0 0 0)
    let t := onFabric.took 0 link0 f
    arrivesOk onFabric f 1 && f.payload.length == 16 && t.accepts f == k.2.2.1 && rangeOf k.2.1 != .host &&
    (!t.accepts f || t.remoteCheck (tenantColour (t.entryOf f)) 0 k.2.1 64 == k.2.2.2)) = true := by decide +kernel

/-- Requests whose length is not their own, or whose fields are no request. -/
theorem test_witness_misshapen : (arrivesOk onFabric (flit 1 1 [1, 2, 3]) 1 && arrivesOk onFabric (flit 1 1 (requestHead 0x100000 0 0 0 0 0)) 1 &&
    arrivesOk onFabric (flit 3 1 (requestHead 0x100000 16 0 0 0 0)) 3 && arrivesOk onFabric (flit 5 1 (requestHead 0x100000 2 0 0 1 16)) 5) =
      true := by decide +kernel

theorem test_witness_read_capability : let s := onFabric.storeCapV 0x100040 (capFor 0x100000)
    let f := flit 1 1 (requestHead 0x100040 16 0 1 0 0)
    let t := s.took 0 link0 f
    arrivesOk s f 1 = true ∧ t.accepts f = true ∧ t.remoteCheck (tenantColour (t.entryOf f)) 0 0x100040 16 = none ∧
    0x100040 / 16 ∈ t.tags := by decide +kernel

theorem test_witness_writes : ([((0 : Nat), 0x100000, 0, false, none), (1, 0x100000, 0, true, none), (1, 0x100000, 1, true, none),
    (1, 0x9000000, 0, true, some 4)].all fun k =>
    let f := flit 3 k.1 (requestHead k.2.1 16 0 k.2.2.1 0 0 ++ List.replicate 16 3)
    let t := onFabric.took 0 link0 f
    arrivesOk onFabric f 3 && f.payload.length == 32 && t.accepts f == k.2.2.2.1 && rangeOf k.2.1 != .host &&
    (!t.accepts f || t.remoteCheck (tenantColour (t.entryOf f)) 0 k.2.1 16 == k.2.2.2.2)) = true := by decide +kernel

/-- The one flit of an atomic addition of 5 to a word. -/
def addFlit (col a : Nat) : Flit := flit 5 col (requestHead a 4 0 0 1 16 ++ toBytes 4 5)

theorem test_witness_atomic : ([((0 : Nat), 0x100000, false), (1, 0x100000, true), (1, 0x8000000000, true)].all fun k =>
    let f := addFlit k.1 k.2.1
    let u := ((onFabric.took 0 link0 f).assemble f false (numIn f.payload 13 1)).2
    arrivesOk onFabric f 5 && ((onFabric.took 0 link0 f).assemble f false (numIn f.payload 13 1)).1 == some (toBytes 4 5) &&
    u.accepts f == k.2.2 && (rangeOf k.2.1 == .hbm) == (k.2.1 == 0x100000) && !u.poisoned k.2.1 4 &&
    (!u.accepts f || rangeOf k.2.1 != .hbm || u.remoteCheck (tenantColour (u.entryOf f)) 0 k.2.1 4 == none)) = true := by decide +kernel

/-- An atomic outside what the tenant may reach, one whose word is poisoned, and the first flit of two. -/
theorem test_witness_atomic_ends :
    (let f := addFlit 1 0x9000000
     let u := (onFabric.took 0 link0 f).assemble f false (numIn f.payload 13 1)
     u.1.isSome && u.2.accepts f && rangeOf 0x9000000 == .hbm && u.2.remoteCheck (tenantColour (u.2.entryOf f)) 0 0x9000000 4 == some 4) =
      true ∧
    (let f := addFlit 1 0x100000
     let u := (({ onFabric with poison := [0x100000 / 64] } : State).took 0 link0 f).assemble f false (numIn f.payload 13 1)
     u.1.isSome && u.2.accepts f && u.2.remoteCheck (tenantColour (u.2.entryOf f)) 0 0x100000 4 == none && u.2.poisoned 0x100000 4) =
      true ∧
    (let f := flit 5 1 (requestHead 0x100000 8 0 8 32 32 ++ List.replicate 192 1)
     arrivesOk onFabric f 5 && ((onFabric.took 0 link0 f).assemble f false (numIn f.payload 13 1)).1.isNone) = true := by decide +kernel

theorem test_witness_collective : (arrivesOk onFabric (flit 7 1 (List.replicate 32 0)) 7 &&
    arrivesOk onFabric (flit 8 1 (List.replicate 32 0)) 8) = true := by decide +kernel

/-- A queue of 16 packets with its ring, its index block and its arena in a heap of 4 MiB from 8 MiB. -/
def queueOn (dev : Nat) : Queue :=
  { colour := 1, func := 3, vec := 4, prio := 0, size := 4, error := false, valid := true, rcb := wide 5 1 0x300000, ring := wide 0 1 (dev * 2 ^ 48 + 0x800000),
    idx := wide 0 1 (dev * 2 ^ 48 + 0x900000), arena := wide 0 1 (dev * 2 ^ 48 + 0xA00000), regionSet := none, cursor := ⟨0, []⟩, served := 0, slot := some 0,
    waits := 0, waited := 0, since := 0, fetched := [], doorbell := false, mappedAt := 0, lastAt := 0, leaving := false, skip := 0,
    announced := false, broken := false }

/-- The state with that queue as number 2. -/
def withQueue (q : Queue) (s : State) : State :=
  { s with queues := kset s.queues 2 q, kaolin := (List.range 64).foldl (fun m n => kset m (128 + n) owned) s.kaolin
           launchQueues := [(2, ⟨2, true⟩)] }

theorem test_witness_fabric_launch : let f := flit 9 1 (toBytes 64 1)
    let s := withQueue (queueOn 5) onFabric
    let full := s.storeNum 0x900000 8 16
    arrivesOk onFabric f 9 = true ∧ (onFabric.took 0 link0 f).launchTarget f = none ∧ arrivesOk s f 9 = true ∧
    (s.took 0 link0 f).launchTarget f = some (2, (queueOn 5)) ∧ (s.took 0 link0 f).indexBlock (queueOn 5) = some 0x900000 ∧
    (s.took 0 link0 f).numAt 0x900000 8 + 1 - (s.took 0 link0 f).numAt 0x900040 8 ≤ 2 ^ (queueOn 5).size ∧
    (s.took 0 link0 f).ringSlot (queueOn 5) 0 = some 0x800000 ∧
    2 ^ (queueOn 5).size < (full.took 0 link0 f).numAt 0x900000 8 + 1 - (full.took 0 link0 f).numAt 0x900040 8 := by decide +kernel

/-- The queue's index block or ring slot cannot be reached. -/
theorem test_witness_fabric_launch_fails : let f := flit 9 1 (toBytes 64 1)
    ([{ queueOn 5 with idx := Cap.null }, { queueOn 5 with ring := Cap.null }].all fun q =>
      let t := (withQueue q onFabric).took 0 link0 f
      t.launchTarget f == some (2, q) && ((t.indexBlock q).isNone || (t.ringSlot q 0).isNone)) = true := by decide +kernel

theorem test_witness_reply : onFabric.route 6 = some 0 ∧ kget onFabric.ports 0 = some link0 ∧ link0.queued = [] ∧ link0.window.length < 64 ∧
    onFabric.replyColour (flit 1 1 []) ≠ 0 ∧ onFabric.replyColour (flit 1 0 []) = 0 ∧
    64 ≤ { link0 with window := List.replicate 64 (flit 1 1 []) }.window.length := by decide +kernel

/-- A request on its way to device 6. -/
def away (owner : Owner) (answer : Option Answer) : Remote := { owner, dev := 6, port := 0, flits := [], sentAt := 0, answer }

def laneOwner : Owner := .lane 0 0 4 0 1 0x6000000100000
def storeOwner : Owner := .store 0 0 0 4 0 0 0x6000000100000

theorem test_witness_responses : let s (o : Owner) : State := { onFabric with remote := [(9, away o none)] }
    let head (code : Nat) : List Byte := replyHead code 0 16
    arrivesOk (s laneOwner) (flit 2 1 (head 0 ++ toBytes 4 7)) 2 = true ∧ arrivesOk (s storeOwner) (flit 4 1 (head 0)) 4 = true ∧
    arrivesOk (s storeOwner) (flit 4 1 (head 3)) 4 = true ∧ numIn (head 0) 0 1 = 0 ∧ numIn (head 3) 0 1 = 3 ∧
    (let f := flit 6 1 (head 0 ++ toBytes 4 7)
     (flit 2 1 (head 0)).col ≠ 0 ∧ ((s laneOwner).took 0 link0 f).requestOf f ≠ none ∧ (onFabric.took 0 link0 f).requestOf f = none ∧
     arrivesOk (s laneOwner) f 6 = true ∧ (((s laneOwner).took 0 link0 f).assemble f true (numIn f.payload 2 1)).1 = some (toBytes 4 7)) ∧
    (let f := flit 6 1 (replyHead 0 0 32)
     arrivesOk (s laneOwner) f 6 = true ∧ (((s laneOwner).took 0 link0 f).assemble f true (numIn f.payload 2 1)).1 = none) := by
  decide +kernel

theorem test_witness_remote_fault : let x : Answer := Answer.failed 3
    let s : State := { onFabric with remote := [(9, away storeOwner (some x))] }
    kget s.remote 9 = some (away storeOwner (some x)) ∧ x.code = 3 ∧ s.storeOpen 0 0 = false ∧
    lowestFailure (s.storeFailures 0 0) = some (6, 3, 0, 0x6000000100000) := by decide +kernel

/-- A request that a failed port had sent goes out on another port, or has none. -/
theorem test_witness_resent : let s (p : Port) : State := { onFabric with remote := [(9, away laneOwner none)], ports := [(0, p)] }
    (flit 1 1 []).kind.toNat < 7 ∧ kget (s link0).remote (flit 1 1 []).rtag.toNat = some (away laneOwner none) ∧
    (s link0).route 6 = some 0 ∧ (s { link0 with failed := true }).route 6 = none := by decide +kernel

theorem test_witness_link : arrivesOk onFabric (flit 10 1 []) 10 = true ∧ 10 < (flit 11 1 []).kind.toNat ∧
    (flit 11 1 []).seq.toNat = (link0.ack + 1) % 65536 := by decide +kernel

theorem test_witness_timers : let late : State := { onFabric with time := List.replicate 10 (60 * microsecond), remote := [(9, away laneOwner none)] }
    let fresh : State := { late with ports := [(0, { link0 with lastRx := 60 * microsecond })] }
    link0.lastTx + microsecond / 2 ≤ late.now (portDie 0) ∧ link0.failed = false ∧ link0.reach ≠ [] ∧
    link0.lastRx + 5 * microsecond ≤ late.now (portDie 0) ∧ (away laneOwner none).sentAt + 50 * microsecond ≤ fresh.now (portDie 0) ∧
    fresh.linkSilent 0 { link0 with lastRx := 60 * microsecond } = false ∧ (fresh.ports.all fun e => e.2.queued.isEmpty) = true := by
  decide +kernel

/-! ### Packets, queues and the complexes -/

/-- A packet: its header and the words of its body, the rest zero. -/
def packet (ty : Nat) (ws : List Nat) : List Byte :=
  (toBytes 8 ty ++ ws.flatMap (toBytes 8) ++ List.replicate 64 0).take 64

/-- Queue 2 with packet `bs` fetched as its next, in a part with a region, a kernel and a launch record. -/
def packetQueue (bs : List Byte) : Queue := { queueOn 0 with fetched := [(⟨0, []⟩, bs)] }

def withPacket (f : Queue → Queue) (bs : List Byte) : State :=
  withQueue (f (packetQueue bs)) (withRcb (withObject (heap State.reset)))

/-- What `Packet` asks. -/
def packetOk (s : State) (q : Queue) (ty : Nat) (bs : List Byte) : Bool :=
  s.queue 2 == some q && s.firmware.alive && q.valid && !q.error && q.slot != none && q.skip == 0 &&
  (match s.packetAt q q.cursor with | .ok x => x == some bs | .error _ => false) && packetType bs == ty &&
  (q.waits == 0 || q.waits == waitOf ty) && s.mayConsume q

theorem packet_of {s : State} {q : Queue} {ty : Nat} {bs : List Byte} (h : packetOk s q ty bs = true) : Packet s 2 q ty bs := by
  simp only [packetOk, Bool.and_eq_true, Bool.or_eq_true, beq_iff_eq, bne_iff_ne, Bool.not_eq_true'] at h
  obtain ⟨⟨⟨⟨⟨⟨⟨⟨⟨h1, h2⟩, h3⟩, h4⟩, h5⟩, h6⟩, h7⟩, h8⟩, h9⟩, h10⟩ := h
  refine ⟨h1, h2, h3, h4, h5, h6, ?_, h8, h9, h10⟩
  split at h7
  · rename_i e; rw [e, beq_iff_eq.1 h7]
  · cases h7

/-- Whether an offset of the arena is at an address. -/
def arenaAt (s : State) (q : Queue) (off n need a : Nat) : Bool :=
  match s.arena q off n need with | .ok x => x == a | .error _ => false

/-- The state with a LAUNCH packet whose record names the region of `rcb`, and `n` grids in the distributor's list. -/
def launching (f : Queue → Queue) (bs : List Byte) (rcb : Cap) (n : Nat) : State :=
  let s := ((((withPacket f bs).store 0xA00000 launchBytes).storeCapV 0xA00010 (wide 2 1 0x200000)).storeCapV 0xA00020 rcb).storeCapV
    0xA00030 (wide 0 1 0x500000)
  { s with regions := [(1, regionOne)], launches := [(7, { launchSeven with home := homeDie [0] })]
           grids := (List.range n).map fun i => (i, gridOf false 4 1) }

/-- A record that is refused; one whose region is the queue's, with room and with none in the list; and one whose region is not. -/
theorem test_witness_launch_packet :
    ([(Cap.null, none, true, 0), (wide 5 1 0x300000, some 0x200000, true, 0), (wide 5 1 0x300000, some 0x200000, true, 256),
      (wide 5 1 0x300000, some 0x200000, false, 0)] : List (Cap × Option Nat × Bool × Nat)).all (fun k =>
    let bs := packet 1 [0, if k.2.2.2 = 256 then allOnes64 else 8, 5]
    let f (q : Queue) : Queue := if k.2.2.1 then q else { q with regionSet := some Cap.null }
    let q := f (packetQueue bs)
    let s := launching f bs k.1 k.2.2.2
    let t := s.begun 2 q
    let r := s.fetching q
    packetOk s q 1 bs && packetClean bs 32 && numIn bs 8 8 == 0 && arenaAt t r 0 128 permLoad 0xA00000 &&
    arenaAt t r 8 8 permStore 0xA00008 && r.arena.covers (capCursor r.arena.bits + 8) 8 &&
    (match t.judge (.queue r.colour) (t.bytesAt 0xA00000 128) ((List.range 8).map fun i => t.tags.contains (0xA00000 / 16 + i)) with
     | .ok x => some x.code == k.2.1 && (x.path.any fun y => y.num == t.rcbNumber r.region) == k.2.2.1 &&
       t.listFull (homeDie (envOf x.path).partition) == (k.2.2.2 == 256)
     | .error c => k.2.1 == none && c == 2)) = true := by decide +kernel

/-- A queue within indirect buffers. -/
def within (n : Nat) (q : Queue) : Queue :=
  { q with cursor := ⟨0, List.replicate n ⟨0x1000, 4, 0, none, false⟩⟩, fetched := q.fetched.map fun e =>
      (⟨0, List.replicate n ⟨0x1000, 4, 0, none, false⟩⟩, e.2) }

theorem test_witness_indirect : let bs := packet 2 [0x2000, 4]
    ([0, 1, 2].all fun n => let q := within n (packetQueue bs)
      packetOk (withPacket (within n) bs) q 2 bs && q.cursor.frames.length == n) = true ∧ packetClean bs 24 = true ∧
    (queueOn 0).arena.covers (capCursor (queueOn 0).arena.bits + 0x2000) (64 * 4) = true := by decide +kernel

theorem test_witness_pred_waitmem : ([3, 5].all fun ty => [0, 1].all fun n => [0, 7].all fun x =>
    let bs := packet ty [0x40, x, 0xFF, 0, if ty = 3 then 2 else 1]
    let q := within n (packetQueue bs)
    let s := withPacket (within n) bs
    packetOk s q ty bs && packetClean bs 48 && arenaAt (s.begun 2 q) (s.fetching q) 0x40 8 permLoad 0xA00040 && q.cursor.frames.length == n &&
    wordTest (numIn bs 32 8) ((s.begun 2 q).numAt 0xA00040 8) (numIn bs 24 8) (numIn bs 16 8) == (x == 0)) = true := by decide +kernel

theorem test_witness_waitmem_waits : let bs := packet 5 [0x40, 7, 0xFF, 0, 1]
    let f (q : Queue) : Queue := { q with waits := 1 }
    let s : State := { withPacket f bs with time := List.replicate 10 (2 * microsecond) }
    packetOk s (f (packetQueue bs)) 5 bs = true ∧ 0 < numIn bs 40 8 ∧
    numIn bs 40 8 * microsecond ≤ (f (packetQueue bs)).waited + (s.now s.activeDie - (f (packetQueue bs)).since) ∧
    arenaAt s (f (packetQueue bs)) 0x40 8 permLoad 0xA00040 = true ∧
    arenaAt (s.begun 2 (f (packetQueue bs))) (s.fetching (f (packetQueue bs))) 0x40 8 permLoad 0xA00040 = true ∧
    wordTest (numIn bs 32 8) (s.numAt 0xA00040 8) (numIn bs 24 8) (numIn bs 16 8) = false := by decide +kernel

/-- A packet that a PRED passes over. -/
theorem test_witness_passed_over : let bs := packet 7 [1]
    let q : Queue := { packetQueue bs with skip := 2 }
    let s := withPacket (fun q => { q with skip := 2 }) bs
    s.queue 2 = some q ∧ s.firmware.alive = true ∧ q.valid = true ∧ q.error = false ∧ q.slot ≠ none ∧ q.skip ≠ 0 ∧
    (match s.packetAt q q.cursor with | .ok x => x == some bs | .error _ => false) = true ∧ s.mayConsume q = true := by decide +kernel

theorem test_witness_loop_packet : let bs := packet 4 [2, 3]
    packetOk (withPacket (within 1) bs) (within 1 (packetQueue bs)) 4 bs = true ∧ packetClean bs 24 = true ∧
    (within 1 (packetQueue bs)).cursor.frames = [⟨0x1000, 4, 0, none, false⟩] := by decide +kernel

theorem test_witness_plain_packets : [(6, [0x40, 5, 1]), (7, [2047]), (8, []), (9, []), (11, []), (0, []), (12, [])].all (fun k =>
    let bs := packet k.1 k.2
    let s := withPacket id bs
    let q := packetQueue bs
    packetOk s q k.1 bs && packetClean bs 32 && arenaAt (s.begun 2 q) (s.fetching q) 0x40 8 permStore 0xA00040 &&
    s.launches.isEmpty) = true := by decide +kernel

theorem test_witness_drain : let bs := packet 9 []
    let s : State := { withPacket id bs with launches := [(7, { launchSeven with queue := 2 })] }
    packetOk s (packetQueue bs) 9 bs = true ∧ ∃ e ∈ s.launches, e.2.queue = 2 := by decide +kernel

/-- The state of a REGION packet, which names the region of the RCB at 3 MiB. -/
def regionPacket (f : Queue → Queue) (bs : List Byte) : State := (withPacket f bs).storeCapV 0xA00100 (wide 5 1 0x300000)

/-- What stands of the region that a REGION packet of OP `op` names, with its COMPLETION at `cpl`, where the region is `x` before. -/
def regionHolds (op cpl : Nat) (x : Option Region) (images : KMap Image) (p : State → Region → Bool) : Bool :=
  let bs := packet 10 [0x100, if op = 3 then 0x503 else op, cpl]
  let q := packetQueue bs
  let s : State := { regionPacket id bs with images, regions := match x with | some x => [(1, x)] | none => [] }
  packetOk s q 10 bs && regionOp bs == op && q.waits == 0 && numIn bs 24 8 == cpl &&
  arenaAt ((s.begun 2 q).noteRegions []) (s.fetching q) 8 8 permStore 0xA00008 &&
  match (s.begun 2 q).regionNamed (s.fetching q) bs with
  | .ok (c, y :: path) => c == wide 5 1 0x300000 && y.num == 1 &&
    (match kget ((s.begun 2 q).noteRegions (y :: path)).regions 1 with
     | some x => p ((s.begun 2 q).noteRegions (y :: path)) x
     | none => false)
  | _ => false

theorem test_witness_region_packets : ([(0 : Nat), 1, 2, 3].all fun op => regionHolds op allOnes64 none [] fun s x =>
    x.client.isNone && x.why == 0 && x.image.isNone && !s.restoring 1) = true := by decide +kernel

/-- A region that has a client, one that is restored, and one that is saved whole. -/
theorem test_witness_region_busy :
    (([(1 : Nat), 2].all fun op => regionHolds op allOnes64 (some { regionSaved with client := some 5, why := 2 }) [] fun _ x =>
      x.client == some 5 && x.why == 2) &&
     (regionHolds 1 allOnes64 (some { regionSaved with image := some 0x400000 }) [(0x400000, bareImage 3)] fun s x =>
       x.client.isNone && s.restoring 1) &&
     [allOnes64, 8].all fun cpl => regionHolds 1 cpl (some { regionSaved with image := some 0x400000 }) [(0x400000, bareImage 2)] fun s x =>
       x.client.isNone && !s.restoring 1 && x.image == some 0x400000 && (kget s.images 0x400000).map (·.state) == some 2) = true := by
  decide +kernel

/-- An OP that R423 does not give. -/
theorem test_witness_region_unknown : let bs := packet 10 [0x100, 4, allOnes64]
    packetOk (regionPacket id bs) (packetQueue bs) 10 bs = true ∧ 3 < regionOp bs := by decide +kernel

theorem test_witness_region_answered : ([(1 : Nat), 2].all fun op => [allOnes64, 8].all fun cpl => [none, some 0, some 5].all fun answer =>
    let bs := packet 10 [0x100, op, cpl]
    let f (q : Queue) : Queue := { q with waits := 3 }
    let x : Region := { regionOne with client := some 2, answer }
    let s : State := { regionPacket f bs with regions := [(1, x)] }
    let q := f (packetQueue bs)
    packetOk s q 10 bs && regionOp bs == op && (s.begun 2 q).waitedRegion 2 == some (1, x) && numIn bs 24 8 == cpl &&
    arenaAt (s.begun 2 q) (s.fetching q) 8 8 permStore 0xA00008) = true := by decide +kernel

theorem test_witness_launch_retirement : let l : Launch := { launchSeven with counter := 0, queue := 2, cpl := some 8 }
    let s : State := { withPacket id [] with launches := [(7, l)] }
    let s1 := ({ s with launches := kdel s.launches 7 }).dropPriorities l.regions
    kget s.launches 7 = some l ∧ s.firmware.alive = true ∧ s.storesPerformed l.uids = true ∧ s1.queue l.queue = some (packetQueue []) ∧
    arenaAt s1 (packetQueue []) 8 8 permStore 0xA00008 = true ∧ s1.queue 9 = none ∧
    (match s1.arena { packetQueue [] with arena := Cap.null } 8 8 permStore with | .ok _ => false | .error _ => true) = true := by
  decide +kernel

theorem test_witness_queue_ends : let s := withPacket id []
    s.queue 2 = some (packetQueue []) ∧ (packetQueue []).leaving = false ∧ (packetQueue []).valid = true ∧ (packetQueue []).func = 3 ∧
    kwf s.queues = true := by decide +kernel

theorem test_witness_queue_map : let q : Queue := { queueOn 0 with slot := none, doorbell := true }
    let s := withQueue q State.reset
    let assisted : State := { s with cpmode := 1 }
    s.queue 2 = some q ∧ s.firmware.alive = true ∧ s.queueReady q = true ∧ s.cpmode.testBit 0 = false ∧ s.freeSlot = some 0 ∧
    (∀ e ∈ s.queues, e.1 ≠ 2 → e.2.slot = none → s.queueReady e.2 = true → queueBefore e.1 e.2 2 q = false) ∧
    assisted.cpmode.testBit 0 = true ∧ q.valid = true ∧ q.slot = none ∧ (∀ e ∈ assisted.queues, e.2.slot ≠ some 5) ∧
    s.queue 9 = none ∧ { queueOn 0 with waits := 1 }.waits ≠ 0 := by decide +kernel

theorem test_witness_queue_idle : let s : State := { withQueue (queueOn 0) State.reset with time := List.replicate 10 (1000 * microsecond), cpmode := 1 }
    (queueOn 0).slot ≠ none ∧ s.queueIdle (queueOn 0) = true ∧ s.cpmode.testBit 0 = true ∧ (queueOn 0).waits = 0 ∧
    s.firmware.lastBeat + 100 * microsecond ≤ s.now s.standbyDie ∧ s.firmware.alive = true ∧ s.firmware.standby = true ∧
    s.firmware.lastBeat + 1000 * microsecond ≤ s.now s.standbyDie := by decide +kernel

/-! ### Halts, the debugger and pages -/

/-- Partition 1 with its halt line raised, and no engine stopped. -/
def raised (s : State) : State := { withRegion regionSaved s with halts := [(1, { stoppedCopy with stopped := [] })] }

/-- The matrix engine of the stopped core with an operation in flight, which the line has reached or not. -/
theorem test_witness_halt_line_matrix : ([[], [(0, 1)]].all fun reached =>
    let s := onBlock (fun b => { b with seqr := { b.seqr with flights := [dueFlight (.zclr 3)] } })
      { raised idle with halts := [(1, { stoppedCopy with stopped := [], reached })] }
    (kget s.halts 1).isSome && (kget s.regions 1) == some regionSaved && (bl s).env.top == 1 && !(bl s).seqr.flights.isEmpty &&
    (s.core 0).blocks.any (fun e => e.2.seqr.flights != [])) = true := by decide +kernel

theorem test_witness_halt_line : let s := raised idle
    (kget s.halts 1).map (·.stopped) = some [] ∧ kget s.regions 1 = some regionSaved ∧
    servesPartition regionSaved.env.partition (.waveCore 0) = true ∧ 0 ∈ regionSaved.env.partition ∧ (bl s).seqr.flights = [] ∧
    (bl s).env.top = 1 := by decide +kernel

/-- Function 3 owns colour 1, which is not confidential. -/
def debuggable (s : State) : State :=
  { withRegion regionSaved s with colours := [(0, { gen := 0, conf := false, funcs := 0 }), (1, { gen := 0, conf := false, funcs := 8 })] }

theorem test_witness_debugger :
    (let s : State := { debuggable idle with regions := [(1, { regionSaved with why := 3, signal := [(0, 0)] })] }
     s.debugsRegion 3 1 = true ∧ s.sealing 1 = true) ∧ (debuggable idle).debugsRegion 3 1 = true ∧ (debuggable idle).sealing 1 = false ∧
    (debuggable idle).debugsRegion 2 1 = false := by decide +kernel

/-- The state in which the debugger of function 3 has selected register `n` of file `k` and lane 5 of the halted wave. -/
def selected (k n : Nat) : State :=
  let s := onWave (fun w => { w with dbgHalt := true }) (debuggable idle)
  { s with host := { s.host with dbgsel := [(3, BitVec.ofNat 64 (k * 2 ^ 13 + n * 2 ^ 15 + 5 * 2 ^ 25))] } }

theorem test_witness_debug_write : ([((0 : Nat), 9), (1, 2), (2, 7), (3, 0)].all fun k =>
    let s := selected k.1 k.2
    let v := (kgetD s.host.dbgsel 3 0).toNat
    s.debugged 3 == some (0, 0, wv s) && field v 13 2 == k.1 && field v 15 10 == k.2 && field v 25 5 == 5 && (wv s).spilled.isEmpty) =
      true := by decide +kernel

/-- The selected register is spilled, or is a register of the handler's. -/
theorem test_witness_debug_write_further :
    (let s := onWave (fun w => { w with spilled := [9] }) (selected 0 9)
     9 ∈ (wv s).spilled ∧ (s.refill 0 0 9).debugged 3 = some (0, 0, wv (s.refill 0 0 9))) ∧
    (let s := onWave (fun w => { w with handlers := [Bank.start 4 Mask.all] }) (selected 0 650)
     s.debugged 3 = some (0, 0, wv s) ∧ (wv s).level ≠ 0 ∧ field (kgetD s.host.dbgsel 3 0).toNat 15 10 = 650 ∧ 650 ∉ (wv s).spilled) := by
  decide +kernel

theorem test_witness_page : let r : PageReq := { page := 5, uid := 0, store := none, sentAt := 0, answer := none }
    let s : State := { idle with pri := [(4, r)], time := List.replicate 10 (100000 * microsecond) }
    kget s.pri 4 = some r ∧ r.answer = none ∧ r.sentAt + 100000 * microsecond ≤ s.now 8 ∧ s.parked = [] := by decide +kernel

/-! ### The security core -/

/-- The words of a proposal: its first word with OP and COLOUR, granules, and what follows. -/
def proposing (s : State) (w0 w1 : Nat) (ws : List Nat) : State :=
  { s with host := { s.host with submitted := true, props := (w0 :: w1 :: ws).map (BitVec.ofNat 64) } }

/-- What `Submitted` asks. -/
def submittedOk (s : State) : Bool :=
  let p := proposalOf s.host.props
  s.host.submitted && !p.malformed && !s.tableWaits p

theorem submitted_of {s : State} (h : submittedOk s = true) : Submitted s (proposalOf s.host.props) := by
  simp only [submittedOk, Bool.and_eq_true, Bool.not_eq_true'] at h
  exact ⟨h.1.1, rfl, h.1.2, h.2⟩

/-- A part with colour 1, which owns the granule from 1 MiB, and a granule of colour 0 from 3 MiB. -/
def secured : State := withRcb (debuggable (heap State.reset))

theorem test_witness_create_destroy :
    ([((2 : Nat), none), (1, some 5)].all fun k => let s := proposing secured (k.1 * 256) 0 [1, 8, 0, 0, 0, 0]
      submittedOk s && (proposalOf s.host.props).op == 0 && (kget s.colours k.1).isSome == k.2.isSome) = true ∧
    ([((1 : Nat), true), (2, false)].all fun k =>
      let s := proposing { secured with colours := kset secured.colours 2 { gen := 0, conf := false, funcs := 0 } } (1 + k.1 * 256) 0
        [0, 0, 0, 0, 0, 0]
      submittedOk s && (proposalOf s.host.props).op == 1 && s.colourExists k.1 && s.colourUsed k.1 == k.2) = true := by decide +kernel

/-- A proposal of an operation over granule 16 or 20, and one that is refused. -/
theorem test_witness_granules : ([((2 : Nat), 20, none), (2, 16, some 3), (3, 16, none), (3, 20, some 3), (4, 16, some 3), (5, 16, none), (6, 16, none),
    (7, 16, some 3)].all fun k =>
    let s := proposing secured (k.1 + 256) (k.2.1 + 2 ^ 32) [0, 0, 0, 0, 0, 0]
    submittedOk s && (proposalOf s.host.props).op == k.1 && (s.granuleReason (proposalOf s.host.props)).map (·.1) == k.2.2) = true := by
  decide +kernel

theorem test_witness_release_unquar : ([(4 : Nat), 7].all fun op =>
    let g : Granule := { owned with state := if op = 7 then 3 else 1, revoked := true, revpass := 0 }
    let s := proposing { secured with kaolin := kset secured.kaolin 16 g, sweeper := { secured.sweeper with pass := 1 } } (op + 256) (16 + 2 ^ 32)
      [0, 0, 0, 0, 0, 0]
    submittedOk s && (proposalOf s.host.props).op == op && (s.granuleReason (proposalOf s.host.props)).isNone) = true := by decide +kernel

theorem test_witness_mint : ([((1 : Nat), true), (9, false)].all fun k =>
    let s := proposing secured (8 + k.1 * 256) 0 [0x100000, 4096, 0x7F, 0x300400, 0, 0]
    submittedOk s && (proposalOf s.host.props).op == 8 &&
    (match s.mint (proposalOf s.host.props) with | .accepted _ => k.2 | .refused r _ => !k.2 && r == 5)) = true := by decide +kernel

theorem test_witness_table : ([((0 : Nat), 0x601, 0x180, true), (2, 5, 0x10002, true), (3, 0, 0, false)].all fun k =>
    let s := proposing secured 9 0 [k.1, k.2.1, k.2.2.1, 0, 0, 0]
    submittedOk s && (proposalOf s.host.props).op == 9 && s.colourExists (tenantColour 0x180) &&
    (match s.writeTable (proposalOf s.host.props) with | .accepted _ => k.2.2.2 | .refused _ _ => !k.2.2.2)) = true := by decide +kernel

theorem test_witness_attest : let s := proposing secured (10 + 256) 0 [1, 2, 3, 4, 0x8000000000, 0]
    submittedOk s = true ∧ (proposalOf s.host.props).op = 10 := by decide +kernel

theorem test_witness_update : let s : State := { State.reset with firmware := { State.reset.firmware with updReq := true, rollReq := true } }
    s.firmware.alive = true ∧ s.host.submitted = false ∧ s.product.rollback = [0, 0] ∧ s.product.versions = 1 :: [1, 1] := by decide +kernel

/-! ### Audits and sweeps -/

def auditOf (core0 stage : Nat) (d1 d2 : Option Nat) : Audit :=
  { grid := 5, index := 0, core0, digest0 := 77, core1 := 2, digest1 := d1, core2 := 3, digest2 := d2, stage }

/-- A part whose one audit is `a`. -/
def auditing (a : Audit) : State :=
  let s := latched (withGrid (gridOf false 4 4) State.reset)
  { s with sorrel := { s.sorrel with audits := [(0, a)] } }

theorem test_witness_reexecution : ([((0 : Nat), ([] : List Nat)), (1, [0])].all fun k =>
    let a := auditOf k.1 0 none none
    let s := auditing a
    !s.sealedAway 1 && (s.auditsOf 1).all (fun e => e.2.stage != 1 && e.2.stage != 4) &&
    (s.auditsOf 1).find? (fun e => e.2.stage == 0 || e.2.stage == 3) == some (0, a) && kget s.grids 5 == some (gridOf false 4 4) &&
    s.auditCores regionOne.env a == k.2 &&
    (k.2.isEmpty || s.pickCores 0 (kern false) { regionOne.env with partition := k.2 } true == some [0])) = true := by decide +kernel

theorem test_witness_digests : ([(auditOf 1 2 (some 77) none), auditOf 1 2 (some 5) none, auditOf 1 5 (some 5) (some 77),
    auditOf 1 5 (some 5) (some 5), auditOf 1 5 (some 5) (some 6), auditOf 1 5 none none].all fun a =>
      kget (auditing a).sorrel.audits 0 == some a && !(auditing a).unruly a &&
      let s : State := { auditing a with launches := [(7, { launchSeven with unruly := true })] }
      kget s.sorrel.audits 0 == some a && s.unruly a) = true := by decide +kernel

theorem test_witness_passes : let s : State := { secured with kaolin := kset secured.kaolin 20 { owned with revoked := true }, cpmode := 0 }
    let asked : State := { s with sweeper := { s.sweeper with asked := true } }
    s.sweeper.running = false ∧ asked.sweeper.asked = true ∧ s.startPass.passReady = true ∧ s.passReady = false ∧
    20 ∈ s.startPass.sweeper.revoked ∧ s.startPass.touchesRevoked (capFor 0x140000).bits = true := by decide +kernel

/-! ### The host and power -/

theorem test_witness_host : State.reset.usable = true ∧ State.reset.host.submitted = false ∧ State.reset.host.grants.length = 8 ∧
    State.reset.host.props.length = 8 ∧ secured.hostReaches 3 0x100000 8 = true ∧ secured.hostReaches 2 0x100000 8 = false ∧
    (∀ e ∈ State.reset.cores, e.2.latch = 0) := by decide +kernel

theorem test_witness_unusable : ({ State.reset with powered := false } : State).usable = false := by decide +kernel

theorem test_witness_power : let s : State := { State.reset with time := List.replicate 10 (10 * microsecond) }
    s.host.powerAt + 10 * microsecond ≤ s.now 9 ∧ s.frozen = false ∧ s.powered = true ∧
    (s.host.grants.sum ≤ 2160 ∧ ∀ x ∈ s.host.grants, 80 ≤ x) := by decide +kernel

/-! ### Steps, lanes and memory -/

/-- What a fetch gives. -/
def fetched (s : State) : Option Slot := match fetchWave s 0 0 (bl s) with | .instr bits _ => some bits | _ => none

/-- An instruction of the running wave. -/
def anAdd : Instr := .iadd (vf 4 8 12 0 2 0)

theorem test_witness_step : let s := placed anAdd
    s.turn = .wave 0 0 ∧ s.frozen = false ∧ s.powered = true ∧ (s.wave 0 0).isSome = true ∧ s.block 0 (wv s).bslot = some (bl s) ∧
    (wv s).runs = true ∧ s.coreStopped 0 = false ∧ fetched s = some (encode anAdd) ∧
    (match decode (encode anAdd) with | .ok i => i == anAdd | .error _ => false) = true := by decide +kernel

theorem test_witness_fetch : let s := placed anAdd
    (wv s).path ≠ 0 ∧ (s.core 0).xfer (bl s).code (wv s).bank.pc = .go ∧ (wv s).bank.ctl = [] ∧
    (match (s.core 0).segment (bl s).code (segOf (wv s).bank.pc) with
     | some g => slotAt (offOf (wv s).bank.pc % 64) == some 0 && parityOk (g.line 0) && g.header 0 % 256 == 0 && s.imageKept 0 g
     | none => false) = true := by decide +kernel

theorem test_witness_unassigned_word : let s := State.reset.withFetchWord 96 0x3FF
    s.turn = .wave 0 0 ∧ (wv s).runs = true ∧ fetched s = some 0x3FF ∧ parse 0x3FF = none := by decide +kernel

theorem test_witness_sequencer_step : let i : Instr := .snop (xf 0 0 0 0 0 0 0 0)
    let s := placed i
    s.turn = .seqr 0 0 ∧ s.seqrRuns 0 (bl s) = true ∧
    (match fetchSeq s 0 0 (bl s) with | .ok (bits, _) => bits == encode i | .error _ => false) = true := by decide +kernel

theorem test_witness_events : let s : State := { State.reset with turn := .input, inputs := [.freeze] }
    s.frozen = false ∧ s.powered = true ∧ Instr.freeze.view = .event := by decide +kernel

theorem test_witness_no_lane : let i : Instr := .iadd { vf 4 8 12 0 2 0 with com := { com with gp := 1 } }
    let s := placed i
    readyOk i s = true ∧ (ctxFor i s 0 0 (wv s)).act = 0 ∧ (wv s).bank.ctl = [] := by decide +kernel

theorem test_witness_active_lanes : let i := anAdd
    let s := placed i
    i.view.com = some com ∧ com.gp = 127 ∧ (ctxFor i s 0 0 (wv s)).act = Mask.all := by decide +kernel

theorem test_witness_memory : Memory.wf State.reset.mem = true ∧ State.reset.sweeper.revoked = [] ∧ 0x1234 < 256 ^ 4 ∧
    0x100000 % 16 = 0 := by decide +kernel

theorem test_witness_turns : let s : State := { State.reset with turn := .input, inputs := [.freeze] }
    State.reset.TurnLegal ∧ s.TurnLegal := by
  exact ⟨.inl rfl, .inr (by decide +kernel)⟩

/-! ### Decoding: words written out bit by bit from the tables of R40 and R43 to R60 -/

/-- Every word decodes to the instruction it stands for. -/
def decodesAll (l : List (Slot × Instr)) : Bool :=
  l.all fun e => match decode e.1 with | .ok i => i == e.2 | .error _ => false

theorem test_decode_integer : decodesAll
    [(0x000000040002050300B02800, (.iadd { vf 10 11 12 0 1 0 with com := { com with gp := 5, stall := 2 } })),
     (0x0200000007007F0000B02881, (.isubImm (im 10 11 2 0 7))),
     (0x0000003010007F0380C02805, (.imad (vf 10 12 14 16 12 0))),
     (0x000100040000890300B00C0E, (.icmp { vf 3 11 12 0 1 2 with com := { com with gp := 9, gn := true } }))] = true := by decide +kernel

theorem test_decode_bits : decodesAll
    [(0x0065000008007F01C0601414, (.bfn3 (vf 5 6 7 8 0 0xCA))),
     (0x0000000009007F0000601495, (.shlImm (im 5 6 0 0 9))),
     (0x0000000008007F01C060141E, (.prmb (vf 5 6 7 8 0 0)))] = true := by decide +kernel

theorem test_decode_float : decodesAll
    [(0x0000044C03007F0080101033, (.fma { vf 4 1 2 3 3 0 with round := 1, neg := 1 })),
     (0xA33F800000007F00001010B0, (.faddImm { im 4 1 3 0 0x3F800000 with flags := 10 })),
     (0x0000002C00007F000020103A, (.fsqrt (vf 4 2 0 0 11 0)))] = true := by decide +kernel

theorem test_decode_conversions : decodesAll
    [(0x0001805000007F0000501044, (.cvt { vf 4 5 0 0 4 3 with round := 1 })),
     (0x0000002807007F018050104B, (.ldot (vf 4 5 6 7 10 0)))] = true := by decide +kernel

theorem test_decode_lanes : decodesAll
    [(0x0000000010007F0AC08020D0, (.shflImm (im 8 8 0 0x2B 16))),
     (0x0000800400007F0000902057, (.redi (vf 8 9 0 0 1 1))),
     (0x0000800000007F0000200452, (.vote (vf 1 2 0 0 0 1)))] = true := by decide +kernel

theorem test_decode_groupwide : decodesAll
    [(0x0000000400007F00C0200500, (.groupWideAlu (.reg .iadd (vf 1 2 3 0 1 0)))),
     (0x0000000004007F0000200595, (.groupWideAlu (.imm .shl (im 1 2 0 0 4)))),
     (0x0000000000007F008000051F, (.movGroupWide (vf 1 0 2 0 0 0)))] = true := by decide +kernel

theorem test_decode_memory : decodesAll
    [(0x1432FFFFC0007F0280804200, (.ld (mf 16 8 10 (2 ^ 24 - 64) 2 3 0 1 1))),
     (0x0283000080007FFFC0804201, (.st (mf 16 8 1023 128 3 0 5 0 0))),
     (0x0000000800007F0240803206, (.cbnd (vf 12 8 9 0 2 0))),
     (0x08300000FF007F0000000220, (.fence (mf 0 0 0 0xFF 0 3 0 2 0)))] = true := by decide +kernel

theorem test_decode_scratch : decodesAll
    [(0x0002000020007FFFC0804210, (.lds (mf 16 8 1023 32 2 0 0 0 0))),
     (0x0000800000007F000000021C, (.bar (vf 0 0 0 0 0 1))),
     (0x0422000000007F028080421D, (.atom (mf 16 8 10 0 2 2 0 1 0)))] = true := by decide +kernel

theorem test_decode_matgen : decodesAll
    [(0x0001800000007F0000800245, (.badv (vf 0 8 0 0 0 3))),
     (0x0000800000007F0000002250, (.rng (vf 8 0 0 0 0 1))),
     (0x0000000000007F0000000231, (.gbar (vf 0 0 0 0 0 0)))] = true := by decide +kernel

theorem test_decode_control : decodesAll
    [(0x0000000000007FFFFFFFE700, (.bra { bf (2 ^ 30 - 7) 0 0 with com })),
     (0x0400000000007F0000001707, (.loop (bf 5 0 4))),
     (0x0002000004007F000000030A, (.jseg (im 0 0 0 0 0x2000004))),
     (0x0000000000007F000000030F, (.yield (vf 0 0 0 0 0 0))),
     (0x0000000000007F0000000310, (.live (im 0 0 0 0 0)))] = true := by decide +kernel

theorem test_decode_matrix : decodesAll
    [(0x1C00101006007F0120401740, (.mma { xf 5 0 1 2 0 4 64 0 with bufB := 2, gb := 6, wv := 7 })),
     (0x00000020E6007F0B40200341, (.mmas { xf 0 0 2 2 5 8 0 0 with bufB := 1, gb := 6, gs := 7 })),
     (0x0000014000007F0000000F49, (.sloop (xf 3 0 0 0 0 0 5 0))),
     (0x0000008000007F0026000347, (.nbsig (xf 0 3 1 0 0 0 2 0)))] = true := by decide +kernel

theorem test_decode_commands : decodesAll
    [(0x0000000000007F0000801380, (.invk (vf 4 8 0 0 0 0))),
     (0x0000000000007F0000800383, (.chcan (vf 0 8 0 0 0 0)))] = true := by decide +kernel

theorem test_decode_system : decodesAll
    [(0x0000000007007F00000003A0, (.trap (im 0 0 0 0 7))),
     (0x00010003FF007FFFC03A23A2, (.movw (vf 648 3 1023 1023 0 2))),
     (0x0000002031007F00000013A5, (.srd (sf 4 0 0x2031))),
     (0x0000006003007F00005003A6, (.swr (sf 0 5 0x6003))),
     (0x0000800000007F00288A13A7, (.zemuRel (vf 644 648 0 0 0 1))),
     (0x0000000000007F00000003A4, (.tret (vf 0 0 0 0 0 0)))] = true := by decide +kernel


/-- Codes the class maps leave unassigned (R54 to R60): 0x00F, 0x021, the immediate form of IMULW, ISAD in the group-wide class, 0x20F,
0x221, 0x311, 0x34D, 0x386, 0x3A8 and the reserved class. -/
theorem test_decode_unassigned : ([0x00F, 0x021, 0x084, 0x10B, 0x20F, 0x221, 0x311, 0x34D, 0x386, 0x3A8, 0x3C0, 0x3FF].all fun w : Slot =>
    match decode w with | .ok _ => false | .error e => e == .unassigned) = true := by decide +kernel

/-! ### What is not well formed, one term for each check -/

/-- The first cause of R63 for an instruction in the stream that may run it. -/
def causeOf (i : Instr) : Option (Nat × Nat) := i.view.staticFate i.view.home

theorem test_ill_undefined : ([Instr.iadd (vf 4 8 12 0 3 0), .icmp (vf 4 8 12 0 1 6), .fadd { vf 4 8 12 0 3 0 with round := 4 },
    .redi (vf 4 8 0 0 1 6), .ld (mf 16 8 1023 0 2 5 0 0 0), .loop (bf 5 0 0x40), .mma { xf 5 0 3 0 0 4 0 0 with gb := 6 },
    .fence (mf 0 0 0 0xFF 0 3 0 0 0)].all fun i => !i.wf && causeOf i == some (1, 0)) = true := by decide +kernel

theorem test_ill_reserved : ([Instr.iadd { vf 4 8 12 0 1 0 with rsv := 1 }, .iadd (vf 4 8 12 16 1 0), .iadd { vf 4 8 12 0 1 0 with round := 1 },
    .iadd { vf 4 8 12 0 1 0 with com := { com with rsv := 1 } }, .iadd { vf 4 8 12 0 1 0 with com := { com with gn := true } },
    .live (im 4 0 0 0 0), .jseg (im 1 0 0 0 4), .ld (mf 16 8 1023 0 2 3 0 0 0), .ret (bf 1 0 0), .exit (bf 0 1 0), .srd { sf 4 0 0 with rsv := 1 },
    .mma { xf 5 0 1 0 1 4 64 0 with gb := 6 }].all fun i => !i.wf && causeOf i == some (4, 0)) = true := by decide +kernel

/-- Register 63 is the last group-wide one, so the LOOP among these is well formed. -/
theorem test_ill_operands : ([Instr.iadd (vf 640 8 12 0 1 0), .iadd (vf 4 700 12 0 1 0), .iadd (vf 5 8 12 0 12 0), .iadd (vf 1020 8 12 0 1 0),
    .icmp (vf 96 8 12 0 1 0), .ld (mf 16 9 1023 0 2 0 0 0 0), .loop (bf 5 0 0x3F), .srd (sf 64 0 0), .srd (sf 4 0 0x7000), .swr (sf 0 4 0x1003),
    .mma { xf 5 0 1 0 0 4 66 0 with gb := 6 }, .iadd { vf 4 8 12 0 1 0 with com := { com with gp := 96 } }].map fun i =>
      (i.wf, (causeOf i).map (·.1))) = (List.replicate 6 (false, some 5)) ++ [(true, none)] ++ List.replicate 5 (false, some 5) := by decide +kernel

/-- An event has no encoding, and a row's form must be its own. -/
theorem test_ill_forms : Instr.freeze.wf = false ∧ (Instr.groupWideAlu (.reg .isad (vf 4 8 12 0 1 0))).wf = false ∧
    (Instr.groupWideAlu (.reg .mov (vf 4 0 8 0 0 0))).wf = false ∧ (Instr.zemuMark (vf 644 648 0 0 0 1)).wf = false := by decide +kernel

/-! ### The worked examples of the specification -/

/-- Lane `l` of vector register `n` after the step, where there is a next state. -/
def laneAfter (i : Instr) (s : State) (n l : Nat) : Option Nat :=
  match exec i s with
  | .next t => some (((wv t).bank.reg n).val.lane l).toNat
  | _ => none

/-- The worked PRMB of spec/04 (R136). -/
theorem test_worked_prmb : let i : Instr := .prmb (vf 5 6 7 8 0 0)
    laneAfter i (onWave (uIn 6 0x44332211) (onWave (uIn 7 0xB470) (onWave (uIn 8 0x88776655) (placed i)))) 5 0 =
      some 0x00558811 := by decide +kernel

/-- The worked QNT of spec/04 (R147). -/
theorem test_worked_qnt : let i : Instr := .qnt (vf 10 4 2 0 tI8 0)
    laneAfter i (onWave (uIn 4 0x3FC00000) (onWave (uIn 5 0xC0100000) (onWave (uIn 6 0x42C80000) (onWave (uIn 7 0x3E99999A)
      (onWave (uIn 2 0xFD7E) (placed i)))))) 10 0 = some 0xFE7FF900 := by decide +kernel

/-- The worked DQNT of spec/04 (R147): 1.5, -2.0, 65.0 and 0.5. -/
theorem test_worked_dqnt : let i : Instr := .dqnt (vf 12 10 2 0 tI8 0)
    ([12, 13, 14, 15].map fun n => laneAfter i (onWave (uIn 10 0xFE7FF900) (onWave (uIn 2 0xFD7E) (placed i))) n 0) =
      [some 0x3FC00000, some 0xC0000000, some 0x42820000, some 0x3F000000] := by decide +kernel

/-- The worked LDOT of spec/04 (R148). -/
theorem test_worked_ldot : let i : Instr := .ldot (vf 9 6 7 8 tL6 0)
    laneAfter i (onWave (uIn 6 0x00034450) (onWave (uIn 7 0x007D23D0) (placed i))) 9 0 = some 0xFFFF2BED := by decide +kernel

/-- A wave of lanes 0, 1, 2 and 5 with 2^24, 1.0, 1.0 and -2^24 in v4. -/
def fourLanes (w : Wave) : Wave :=
  let w1 := lanesIn 4 (fun l => if l = 0 then 0x4B800000 else if l = 5 then 0xCB800000 else 0x3F800000) w
  w1.setBank { w1.bank with mask := 0x27 }

/-- The worked reduction of spec/05 (R158). -/
theorem test_worked_redf : let i : Instr := .redf (vf 6 4 0 0 tF32 0)
    laneAfter i (onWave fourLanes (placed i)) 6 0 = some 0 := by decide +kernel

/-- The worked scan of spec/05 (R159). -/
theorem test_worked_scanf : let i : Instr := .scanf (vf 7 4 0 0 tF32 0)
    ([0, 1, 2, 5].map fun l => laneAfter i (onWave fourLanes (placed i)) 7 l) =
      [some 0x4B800000, some 0x4B800000, some 0x4B800000, some 0] := by decide +kernel

/-- The generator's counter after the step. -/
def counterAfter (i : Instr) (s : State) : Option Nat :=
  match exec i s with
  | .next t => some (wv t).rngC.toNat
  | _ => none

/-- The worked counter arithmetic of spec/05 (R173): a draw, then RNGADV. -/
theorem test_worked_counter :
    (let i : Instr := .rng (vf 40 0 0 0 0 0)
     counterAfter i (onWave (fun w => { w with rngC := 0xFFFFFFFFFFFFFFF0 }) (placed i)) = some 0x10000000000000010) ∧
    (let i : Instr := .rngadv (vf 0 20 0 0 0 0)
     counterAfter i (onWave (fun w => grpIn 20 0xFFFFFFFFFFFFFFF0 { w with rngC := 0x10000000000000010 }) (placed i)) =
       some 0x20000000000000000) := by decide +kernel

/-- The bounds worked through in spec/06 (R188). -/
theorem test_worked_bounds : encodeBounds 0x0002000001234567 0x00100001 =
    some { exp := 2, lenm := 0x40001, base := 0x0002000001234564, top := 0x0002000001334568, exact := false } := by
  decide +kernel

/-- Two elements worked through R295 in spec/09: a tie with sticky, and its cancellation. -/
theorem test_worked_sums :
    [groupUpdate [.fin false 1 0, .fin false 1 (-24), .fin false 1 (-80)],
     groupUpdate [.fin false 1 0, .fin false 1 24, .fin true 1 24, .fin false 1 (-30)],
     groupUpdate [.fin true 1 0, .fin true 1 (-24), .fin true 1 (-80)]] = [0x3F800001, 0x3F800000, 0xBF800001] := by
  decide +kernel

end Sys2Proof.Machine.Tests
end

section
/-!
The cells of memory (O59): bytes of a number in R6's order, the tags of a store, and a capability stored whole (R189).
-/

namespace Sys2Proof

/-! ### Numbers as bytes (R6) -/

@[simp] theorem length_toBytes (n x : Nat) : (toBytes n x).length = n := by
  induction n generalizing x with
  | zero => rfl
  | succ n ih => simp [toBytes, ih]

/-- Byte `k` of a number is its digit `k` to base 256. -/
theorem getD_toBytes {n k : Nat} (x : Nat) (h : k < n) : (toBytes n x).getD k 0 = BitVec.ofNat 8 (x / 256 ^ k) := by
  induction n generalizing x k with
  | zero => omega
  | succ n ih =>
    cases k with
    | zero => simp [toBytes]
    | succ k => rw [toBytes, List.getD_cons_succ, ih _ (by omega), Nat.div_div_eq_div_mul, Nat.pow_succ']

theorem ofBytes_toBytes (n x : Nat) : ofBytes (toBytes n x) = x % 256 ^ n := by
  induction n generalizing x with
  | zero => simp [toBytes, ofBytes, Nat.mod_one]
  | succ n ih => rw [toBytes, ofBytes, ih, BitVec.toNat_ofNat, Nat.pow_succ' (n := n), Nat.mod_mul (a := 256)]

end Sys2Proof

namespace Sys2Proof.Machine

/-! ### Reading back what was stored -/

theorem bytesAt_congr {s t : State} {a b n : Nat} (h : ∀ k, k < n → s.byte (a + k) = t.byte (b + k)) :
    s.bytesAt a n = t.bytesAt b n := by
  simp only [State.bytesAt, rangeFrom, List.map_map]
  exact List.map_congr_left fun k hk => h k (List.mem_range.mp hk)

/-- A store reads back. -/
theorem bytesAt_store (s : State) (a : Nat) (bs : List Byte) : (s.store a bs).bytesAt a bs.length = bs := by
  refine List.ext_getElem (by simp [State.bytesAt, rangeFrom]) fun k hk hk' => ?_
  simp [State.bytesAt, rangeFrom, byte_store, List.getD_eq_getElem?_getD, hk']

/-- A number's bytes are stored with the low one first (R6). -/
theorem byte_storeNum (s : State) (a x : Nat) {n k : Nat} (h : k < n) :
    (s.storeNum a n x).byte (a + k) = BitVec.ofNat 8 (x / 256 ^ k) := by
  rw [State.storeNum, byte_store, if_pos (by simp [h]), Nat.add_sub_cancel_left, getD_toBytes x h]

theorem numAt_storeNum (s : State) (a n x : Nat) : (s.storeNum a n x).numAt a n = x % 256 ^ n := by
  have h := bytesAt_store s a (toBytes n x)
  rw [length_toBytes] at h
  rw [State.numAt, State.storeNum, h, ofBytes_toBytes]

/-! ### Tags and capabilities (R189, R469) -/

theorem mem_tagUnits (a n u : Nat) : u ∈ tagUnits a n ↔ n ≠ 0 ∧ a / 16 ≤ u ∧ u ≤ (a + n - 1) / 16 := by
  unfold tagUnits
  split
  · simp [*]
  · simp only [mem_rangeFrom]
    omega

/-- A store leaves the revoked set of a sweeper pass as it was: a line's write counter that ends quarantines its granule, which
marks a pass due and no more. -/
theorem store_revoked (s : State) (a : Nat) (bs : List Byte) : (s.store a bs).sweeper.revoked = s.sweeper.revoked :=
  countWrite_keeps (fun t => t.sweeper.revoked = s.sweeper.revoked) (fun _ _ h => h) (fun _ _ h => h) s a bs.length rfl

/-- With no granule revoked a pass takes no capability. -/
theorem touchesRevoked_nil {s : State} (h : s.sweeper.revoked = []) (b : BitVec 128) : s.touchesRevoked b = false := by
  simp [State.touchesRevoked, h]

/-- With no granule revoked a capability's store leaves its unit the tag it carries. -/
theorem tag_storeCap (s : State) {a : Nat} {bs : List Byte} (t : Bool) (hbs : bs ≠ []) (h : s.sweeper.revoked = []) :
    (s.storeCap a bs t).tags.contains (a / 16) = t := by
  have hu : a / 16 ∈ tagUnits a bs.length := by
    rw [mem_tagUnits]
    have := List.length_pos_iff.mpr hbs
    exact ⟨by omega, le_rfl, Nat.div_le_div_right (by omega)⟩
  have hn := touchesRevoked_nil (s := s.store a bs) ((store_revoked s a bs).trans h)
  cases t with
  | false => simp [State.storeCap, tags_store, hu]
  | true => simp [State.storeCap, hn]

theorem bytesAt_storeCap (s : State) (a : Nat) (bs : List Byte) (t : Bool) :
    (s.storeCap a bs t).bytesAt a bs.length = bs := by
  refine Eq.trans (bytesAt_congr fun k _ => ?_) (bytesAt_store s a bs)
  simp only [State.byte, storeCap_mem, store_mem]

/-- A capability is stored whole, with its tag (R189). -/
theorem capAt_storeCapV (s : State) (a : Nat) (c : Cap) (h : s.sweeper.revoked = []) : (s.storeCapV a c).capAt a = c := by
  have hb := bytesAt_storeCap s a (toBytes 16 c.bits.toNat) c.tag
  rw [length_toBytes] at hb
  have hbits : BitVec.ofNat 128 (ofBytes (toBytes 16 c.bits.toNat)) = c.bits := by
    rw [ofBytes_toBytes, Nat.mod_eq_of_lt (b := 256 ^ 16) c.bits.isLt, BitVec.ofNat_toNat, BitVec.setWidth_eq]
  have ht := tag_storeCap s (a := a) (bs := toBytes 16 c.bits.toNat) c.tag (by simp [toBytes]) h
  rw [State.capAt, State.numAt, State.storeCapV, hb, hbits, ht]

/-- Settles O59: the laws of stores with the order of a number's bytes and the tags of the units touched. -/
theorem memoryCells : Obligations.MemoryCells := by
  unfold Obligations.MemoryCells
  refine ⟨byte_store, fun s a bs u => ?_, wf_store, fun s a n x hx => ?_, fun s a n x k hk => ?_, fun s a c _ h => ?_⟩
  · rw [tags_store, mem_tagUnits, and_comm, ne_eq, List.length_eq_zero_iff]
  · rw [numAt_storeNum, Nat.mod_eq_of_lt hx]
  · rw [byte_storeNum s a x hk, BitVec.toNat_ofNat]
  · exact capAt_storeCapV s a c h

end Sys2Proof.Machine
end

section
/-!
SRD and SWR (O37): what each unit's registers take (R345, R350), and that the reserved bits of a field list read as zero (R7).
-/

namespace Sys2Proof.Machine

/-! ### Completion in any state -/

/-- An instruction whose meaning is `body` completes with what `body` leaves: the wave `w2` on its path, the part as `s2` says. -/
theorem completesAt_of {i : Instr} {s : State} {core slot : Nat} {w : Wave} {b : Block} {body : Body} {s2 : State} {w2 : Wave}
    (he : exec i s = issue i.view (encode i) body false s) (h : Runs i s core slot w b)
    (hb : body (ctxFor i s core slot w) w s = .next s2) (hw : s2.wave core slot = some w2) (hp : SamePath w w2)
    (hk : (s2.core core).segs = (s.core core).segs) (hs : s2.sweeper.running = false) :
    CompletesAt i s core slot w b s2 w2 :=
  he.trans (issue_completes h body false hb hw hp hk hs)

/-- An instruction whose meaning writes its own wave alone completes with that wave. -/
theorem completes_of_setWave {i : Instr} {s : State} {core slot : Nat} {w : Wave} {b : Block} {body : Body} {w1 : Wave}
    (he : exec i s = issue i.view (encode i) body false s) (h : Runs i s core slot w b)
    (hb : body (ctxFor i s core slot w) w s = .next (s.setWave core slot w1)) (hp : SamePath w w1) :
    Completes i s core slot w b w1 := by
  have hc := completesAt_of he h hb (wave_setWave_self _ _ _ _) hp (by simp) (by simpa using h.sweep)
  have hx : nextPc (s.setWave core slot w1) core b w = nextPc s core b w := nextValid_congr (by simp) _ _
  rwa [CompletesAt, hx, setWave_setWave] at hc

/-- An instruction whose meaning writes its block alone completes with that block. -/
theorem completesAt_of_setBlock {i : Instr} {s : State} {core slot : Nat} {w : Wave} {b b1 : Block} {body : Body}
    (he : exec i s = issue i.view (encode i) body false s) (h : Runs i s core slot w b)
    (hb : body (ctxFor i s core slot w) w s = .next (s.setBlock core w.bslot b1)) :
    CompletesAt i s core slot w b (s.setBlock core w.bslot b1) w :=
  completesAt_of he h hb (by simpa using h.wave) (SamePath.refl w) (by simp) (by simpa using h.sweep)

/-! ### SRD (R350) -/

theorem srd_completes {f : SF} {s : State} {core slot : Nat} {w : Wave} {b : Block} (h : Runs (.srd f) s core slot w b) :
    ∃ w1, Completes (.srd f) s core slot w b w1 ∧ WroteGrp w w1 f.d.toNat (sysRead s core slot b w f.sysreg.toNat) := by
  have hw := wroteGrp_writeG (ctxFor (.srd f) s core slot w) w f.d.toNat (sysRead s core slot b w f.sysreg.toNat)
  have hblock : s.block (ctxFor (.srd f) s core slot w).core (ctxFor (.srd f) s core slot w).bslot = some b := h.block
  refine ⟨_, completes_of_setWave (body := srdBody f) rfl h ?_ hw.samePath, hw⟩
  simp only [srdBody, hblock]
  rfl

/-! ### SWR (R350) -/

/-- A wave whose bank in force, masks and spilled registers stay is on the same path, whatever else of it changes. -/
theorem SamePath.of_bank {w w1 : Wave} (hb : w1.bank = w.bank := by rfl) (hl : w1.level = w.level := by rfl)
    (hd : w1.dead = w.dead := by rfl) (he : w1.exited = w.exited := by rfl) (hs : w1.spilled = w.spilled := by rfl) :
    SamePath w w1 :=
  ⟨by rw [hb], by rw [hb], by rw [hb], by rw [hb], hl, hd, he, hs⟩

theorem SamePath.setLevelRegs (w : Wave) (r : TrapRegs) : SamePath w (w.setLevelRegs r) := by
  unfold Wave.setLevelRegs
  split <;> exact .of_bank

section
variable {f : SF} {s : State} {core slot : Nat} {w : Wave} {b : Block} (h : Runs (.swr f) s core slot w b)
include h

/-- SWR of a register that its own wave holds. -/
theorem swr_completes {w1 : Wave} (hb : swrBody f (ctxFor (.swr f) s core slot w) w s = .next (s.setWave core slot w1))
    (hp : SamePath w w1) : Completes (.swr f) s core slot w b w1 :=
  completes_of_setWave rfl h hb hp

/-- SWR of a register that its block holds. -/
theorem swr_completesAt {b1 : Block}
    (hb : swrBody f (ctxFor (.swr f) s core slot w) w s = .next (s.setBlock core w.bslot b1)) :
    CompletesAt (.swr f) s core slot w b (s.setBlock core w.bslot b1) w :=
  completesAt_of_setBlock rfl h hb

/-- SWR of a buffer's register that R287 does not refuse (log 73). -/
theorem swr_buffer {i : Nat} (hi : i < 16) (hn : f.sysreg.toNat = 0x2000 + i)
    (hbad : bufferBad b ((ctxFor (.swr f) s core slot w).readG w f.a.toNat) = false) (hbusy : s.bufferBusy b i = false) :
    CompletesAt (.swr f) s core slot w b (s.setBlock core w.bslot (b.modBuf i fun _ =>
      { cfg := keepBits [(62, 2), (48, 8), (24, 20), (0, 24)] ((ctxFor (.swr f) s core slot w).readG w f.a.toNat),
        head := 0, tail := 0 })) w := by
  have hblock : s.block (ctxFor (.swr f) s core slot w).core (ctxFor (.swr f) s core slot w).bslot = some b := h.block
  have hunit : f.sysreg.toNat / 4096 = 2 := by omega
  have hindex : f.sysreg.toNat % 4096 = i := by omega
  refine swr_completesAt h ?_
  simp only [swrBody, hblock, hunit, hindex, if_pos hi, hbad, hbusy, Bool.false_eq_true, if_false]
  rfl
end

/-! ### Reserved bits (R7) -/

/-- The mask of a field list, as `keepBits` sums it. -/
def fieldMask (fields : List (Nat × Nat)) : Nat := (fields.map fun (lo, n) => (2 ^ n - 1) * 2 ^ lo).sum

theorem keepBits_eq (fields : List (Nat × Nat)) (x : Dword) : keepBits fields x = x &&& BitVec.ofNat 64 (fieldMask fields) := rfl

@[simp] theorem fieldMask_cons (lo n : Nat) (fields : List (Nat × Nat)) :
    fieldMask ((lo, n) :: fields) = (2 ^ n - 1) * 2 ^ lo + fieldMask fields := rfl

/-- Fields that fall from the highest, none above bit `top`, make a mask below 2^top. -/
theorem fieldMask_lt {fields : List (Nat × Nat)} (hd : fields.Pairwise fun p q => q.1 + q.2 ≤ p.1) {top : Nat}
    (ht : ∀ p ∈ fields, p.1 + p.2 ≤ top) : fieldMask fields < 2 ^ top := by
  induction fields generalizing top with
  | nil => simp [fieldMask]
  | cons p fields ih =>
    obtain ⟨lo, n⟩ := p
    obtain ⟨hp, hd⟩ := List.pairwise_cons.mp hd
    have hrest : fieldMask fields < 2 ^ lo := ih hd hp
    have htop : 2 ^ (lo + n) ≤ 2 ^ top := Nat.pow_le_pow_right two_pos (ht _ List.mem_cons_self)
    have hfield : (2 ^ n - 1) * 2 ^ lo + 2 ^ lo = 2 ^ (lo + n) := by
      rw [← Nat.succ_mul, Nat.succ_eq_add_one, Nat.sub_add_cancel Nat.one_le_two_pow, ← pow_add, Nat.add_comm]
    rw [fieldMask_cons]
    omega

/-- A bit of no field is clear in the mask of disjoint fields. -/
theorem testBit_fieldMask {fields : List (Nat × Nat)} (hd : fields.Pairwise fun p q => q.1 + q.2 ≤ p.1) {i : Nat}
    (hi : ∀ p ∈ fields, ¬(p.1 ≤ i ∧ i < p.1 + p.2)) : (fieldMask fields).testBit i = false := by
  induction fields with
  | nil => simp [fieldMask]
  | cons p fields ih =>
    obtain ⟨lo, n⟩ := p
    obtain ⟨hp, hd⟩ := List.pairwise_cons.mp hd
    have hrest : fieldMask fields < 2 ^ lo := fieldMask_lt hd hp
    have hout := hi _ List.mem_cons_self
    rw [fieldMask_cons, Nat.mul_comm, Nat.testBit_two_pow_mul_add _ hrest]
    split
    · exact ih hd fun q hq => hi q (List.mem_cons_of_mem _ hq)
    · rw [Nat.testBit_two_pow_sub_one]
      simp only [decide_eq_false_iff_not]
      dsimp only at hout
      omega

/-- The reserved bits of a writable register read as zero (R7). -/
theorem getLsbD_keepBits_reserved {fields : List (Nat × Nat)} (x : Dword) {i : Nat}
    (hi : ∀ p ∈ fields, ¬(p.1 ≤ i ∧ i < p.1 + p.2)) (hd : fields.Pairwise fun p q => q.1 + q.2 ≤ p.1) :
    (keepBits fields x).getLsbD i = false := by
  simp [keepBits_eq, BitVec.getLsbD_ofNat, testBit_fieldMask hd hi]

/-- Settles O37: SRD and SWR complete with the arm of their register's number, and the reserved bits of a field list are clear. -/
theorem systemRegisters : Obligations.SystemRegisters := by
  unfold Obligations.SystemRegisters
  refine ⟨fun f s core slot w b h => srd_completes h, fun f s core slot w b h => ?_,
    fun fields x i hi hd => getLsbD_keepBits_reserved x hi hd⟩
  have hblock : s.block (ctxFor (.swr f) s core slot w).core (ctxFor (.swr f) s core slot w).bslot = some b := h.block
  intro x n low va
  refine ⟨fun hn => ?round, fun hn => ?_, fun hn => ?_, fun hn => ?_, fun hn => ?_, fun hn => ?_, fun hn => ?_,
    fun i hi hn hbad hbusy => swr_buffer h hi hn hbad hbusy, fun hn => ?zbflt, fun hn => ?mflt, fun hn => ?tpc,
    fun hn => ?_, fun hn => ?_, fun hn => ?_, fun hn => ?_, fun hn => ?_, fun hn => ?_, fun hn => ?_⟩
  case round =>
    refine swr_completes h ?_ .of_bank
    simp only [swrBody, hblock, show f.sysreg.toNat / 4096 = 0 from hn, field, pow_zero, Nat.div_one]
    rfl
  case tpc =>
    refine swr_completes h ?_ (.setLevelRegs w _)
    simp only [swrBody, hblock, show f.sysreg.toNat / 4096 = 3 from hn]
    rfl
  case zbflt | mflt =>
    refine swr_completesAt h ?_
    simp only [swrBody, hblock, show f.sysreg.toNat = _ from hn]
    rfl
  -- The wave's own registers of units 1, 4 and 6: each is the arm of its number.
  all_goals
    refine swr_completes h ?_ .of_bank
    simp only [swrBody, hblock, show f.sysreg.toNat = _ from hn]
    rfl

end Sys2Proof.Machine
end

section
/-!
The host's registers, the aperture, power windows and the resets (O46, O51).
-/

namespace Sys2Proof

/-! ### A map filled from a list -/

theorem kgetD_foldl_kset_of_notMem {α : Type} (dies : List (Nat × Nat)) (v : Nat × Nat → α) (m : KMap α) {k : Nat} (d : α)
    (hk : ∀ e ∈ dies, e.1 ≠ k) : kgetD (dies.foldl (fun m e => kset m e.1 (v e)) m) k d = kgetD m k d := by
  induction dies generalizing m with
  | nil => rfl
  | cons e dies ih =>
    rw [List.foldl_cons, ih _ fun e he => hk e (List.mem_cons_of_mem _ he), kgetD_kset_ne _ _ _ (hk e List.mem_cons_self).symm]

theorem kgetD_foldl_kset_of_mem {α : Type} {dies : List (Nat × Nat)} (v : Nat × Nat → α) (m : KMap α) (d : α)
    (hn : (dies.map (·.1)).Nodup) {e : Nat × Nat} (he : e ∈ dies) :
    kgetD (dies.foldl (fun m e => kset m e.1 (v e)) m) e.1 d = v e := by
  induction dies generalizing m with
  | nil => cases he
  | cons e' dies ih =>
    obtain ⟨hnot, hn⟩ := List.nodup_cons.mp hn
    rw [List.foldl_cons]
    rcases List.mem_cons.mp he with rfl | he
    · rw [kgetD_foldl_kset_of_notMem _ _ _ _ fun x hx hxe => hnot (List.mem_map.mpr ⟨x, hx, hxe⟩), kgetD_kset_self]
    · exact ih _ hn he

/-! ### A list with one element changed -/

theorem getD_lmod_self {α : Type} {l : List α} {i : Nat} (h : i < l.length) (f : α → α) (x d : α) (hf : ∀ y, f y = x) :
    (lmod l i f).getD i d = x := by
  rw [List.getD_eq_getElem?_getD, getElem?_lmod, if_pos rfl, List.getElem?_eq_getElem h, Option.map_some, Option.getD_some, hf]

end Sys2Proof

namespace Sys2Proof.Machine

/-! ### The shares of a power window (R479) -/

/-- The watts of a die of demand `x`, in proportion to the demands. -/
def fairShare (dies : List (Nat × Nat)) (watts x : Nat) : Nat :=
  if (dies.map (·.2)).sum = 0 then watts / max 1 dies.length else watts * x / (dies.map (·.2)).sum

theorem sum_mul_div_mul_le (l : List Nat) (watts sum : Nat) : (l.map fun x => watts * x / sum).sum * sum ≤ watts * l.sum := by
  induction l with
  | nil => simp
  | cons x l ih =>
    simp only [List.map_cons, List.sum_cons, Nat.add_mul, Nat.mul_add]
    exact Nat.add_le_add (Nat.div_mul_le_self _ _) ih

/-- The proportional shares stay within the budget. -/
theorem sum_fairShare_le (dies : List (Nat × Nat)) (watts : Nat) :
    (dies.map fun d => fairShare dies watts d.2).sum ≤ watts := by
  by_cases hs : (dies.map (·.2)).sum = 0
  · simp only [fairShare, hs, if_true, List.map_const', List.sum_replicate, smul_eq_mul]
    exact (Nat.mul_le_mul_right _ (le_max_right 1 _)).trans (Nat.mul_div_le _ _)
  · simp only [fairShare, hs, if_false]
    have h := sum_mul_div_mul_le (dies.map (·.2)) watts (dies.map (·.2)).sum
    rw [List.map_map] at h
    exact Nat.le_of_mul_le_mul_right h (Nat.pos_of_ne_zero hs)

section
variable (dies : List (Nat × Nat)) (watts : Nat)

/-- The dies that their proportional share would leave below 80 W. -/
def lowDies : List (Nat × Nat) := dies.filter fun d => fairShare dies watts d.2 < 80

/-- The dies that share the rest. -/
def highDies : List (Nat × Nat) := dies.filter fun d => 80 ≤ fairShare dies watts d.2

/-- One round of the shares. -/
theorem powerShare_succ (n : Nat) : powerShare (n + 1) dies watts =
    if (lowDies dies watts).isEmpty then dies.foldl (fun m d => kset m d.1 (fairShare dies watts d.2)) []
    else (lowDies dies watts).foldl (fun m d => kset m d.1 80)
      (powerShare n (highDies dies watts) (watts - 80 * (lowDies dies watts).length)) := rfl

theorem lowDies_append_highDies_perm : (lowDies dies watts ++ highDies dies watts).Perm dies := by
  have hnot : highDies dies watts = dies.filter fun d => !decide (fairShare dies watts d.2 < 80) :=
    List.filter_congr fun d _ => by rw [← decide_not, decide_eq_decide, Nat.not_lt]
  rw [hnot]
  exact List.filter_append_perm _ _
end

variable {dies : List (Nat × Nat)} {watts : Nat}

/-- Where every die's share is 80 W or more each gets its share. -/
theorem kgetD_powerShare_of_low_nil (n : Nat) (hd : (dies.map (·.1)).Nodup) (hlow : lowDies dies watts = []) {d : Nat × Nat}
    (hm : d ∈ dies) : kgetD (powerShare (n + 1) dies watts) d.1 80 = fairShare dies watts d.2 := by
  rw [powerShare_succ, hlow, List.isEmpty_nil, if_pos rfl]
  exact kgetD_foldl_kset_of_mem _ _ _ hd hm

/-- A die that its share would leave below 80 W gets 80 W. -/
theorem kgetD_powerShare_of_mem_low (n : Nat) (hd : (dies.map (·.1)).Nodup) {d : Nat × Nat} (hm : d ∈ lowDies dies watts) :
    kgetD (powerShare (n + 1) dies watts) d.1 80 = 80 := by
  rw [powerShare_succ, if_neg (by simpa using List.ne_nil_of_mem hm)]
  exact kgetD_foldl_kset_of_mem _ _ _ (hd.sublist (List.filter_sublist.map _)) hm

/-- Where there are such dies, another gets what the next round gives it. -/
theorem kgetD_powerShare_of_mem_high (n : Nat) (hd : (dies.map (·.1)).Nodup) (hlow : lowDies dies watts ≠ []) {d : Nat × Nat}
    (hm : d ∈ highDies dies watts) : kgetD (powerShare (n + 1) dies watts) d.1 80 =
      kgetD (powerShare n (highDies dies watts) (watts - 80 * (lowDies dies watts).length)) d.1 80 := by
  rw [powerShare_succ, if_neg (by simpa using hlow)]
  refine kgetD_foldl_kset_of_notMem _ _ _ _ fun e he hk => ?_
  obtain ⟨hmem, hhigh⟩ := List.mem_filter.mp hm
  obtain ⟨hemem, helow⟩ := List.mem_filter.mp he
  rw [List.inj_on_of_nodup_map hd hemem hmem hk] at helow
  simp only [decide_eq_true_eq] at helow hhigh
  omega

/-- Of a budget with 80 W for every die each die gets 80 W or more, and the budget is not passed, whatever the number of rounds. -/
theorem powerShare_spec (n : Nat) (hd : (dies.map (·.1)).Nodup) (hw : 80 * dies.length ≤ watts) :
    (∀ d ∈ dies, 80 ≤ kgetD (powerShare n dies watts) d.1 80) ∧
      (dies.map fun d => kgetD (powerShare n dies watts) d.1 80).sum ≤ watts := by
  induction n generalizing dies watts with
  | zero => simpa [powerShare, kgetD, Nat.mul_comm] using hw
  | succ n ih =>
    by_cases hlow : lowDies dies watts = []
    · have hval := fun d (hm : d ∈ dies) => kgetD_powerShare_of_low_nil n hd hlow hm
      refine ⟨fun d hm => ?_, ?_⟩
      · rw [hval d hm]
        simpa using List.filter_eq_nil_iff.mp hlow d hm
      · rw [List.map_congr_left hval]
        exact sum_fairShare_le dies watts
    · have hperm := lowDies_append_highDies_perm dies watts
      have hlen := hperm.length_eq
      rw [List.length_append] at hlen
      obtain ⟨hmin, hsum⟩ := ih (dies := highDies dies watts) (watts := watts - 80 * (lowDies dies watts).length)
        (hd.sublist (List.filter_sublist.map _)) (by omega)
      have hvLow := fun d hm => kgetD_powerShare_of_mem_low (dies := dies) (watts := watts) n hd (d := d) hm
      have hvHigh := fun d hm => kgetD_powerShare_of_mem_high (d := d) n hd hlow hm
      refine ⟨fun d hm => ?_, ?_⟩
      · rcases List.mem_append.mp (hperm.mem_iff.mpr hm) with hm | hm
        · rw [hvLow d hm]
        · rw [hvHigh d hm]
          exact hmin d hm
      · rw [← (hperm.map _).sum_eq, List.map_append, List.sum_append, List.map_congr_left hvLow, List.map_congr_left hvHigh,
          List.map_const', List.sum_replicate, smul_eq_mul]
        omega

/-- The grants of a window in hardware mode, in `n` rounds at the demands `f`. -/
def windowGrants (n : Nat) (f : Nat → Nat) : List Nat :=
  (List.range 8).map fun d => kgetD (powerShare n ((List.range 8).map fun d => (d, f d)) 2160) d 80

/-- There are eight of them, none below 80 W, and 2,160 W between them (R479). -/
theorem windowGrants_spec (n : Nat) (f : Nat → Nat) :
    (windowGrants n f).length = 8 ∧ (windowGrants n f).sum ≤ 2160 ∧ ∀ x ∈ windowGrants n f, 80 ≤ x := by
  have hkeys : (((List.range 8).map fun d => (d, f d)).map (·.1)).Nodup := by
    rw [List.map_map]
    exact List.nodup_range.map Function.injective_id
  obtain ⟨hmin, hsum⟩ := powerShare_spec (watts := 2160) n hkeys (by simp)
  refine ⟨by simp [windowGrants], by simpa [windowGrants, List.map_map, Function.comp_def] using hsum, fun x hx => ?_⟩
  obtain ⟨d, hd, rfl⟩ := List.mem_map.mp hx
  exact hmin (d, f d) (List.mem_map_of_mem hd)

/-- A power window that is due (R479). -/
theorem powerWindow_of_due {s : State} (h : s.host.powerAt + 10 * microsecond ≤ s.now 9) :
    s.powerWindow = { s with host := { s.host with
      inForce := if s.cpmode.testBit 4 then (if grantsOk s.host.grants then s.host.grants else s.host.inForce)
        else windowGrants 9 fun d => Config.demand d s.host.window
      window := s.host.window + 1
      powerAt := s.now 9 } } := by
  unfold State.powerWindow windowGrants
  rw [if_neg (Nat.not_lt.mpr h)]

/-- What a power window that is due brings into force (R479). -/
theorem powerWindow_spec {s : State} (h : s.host.powerAt + 10 * microsecond ≤ s.now 9) :
    s.powerWindow.host.window = s.host.window + 1 ∧
    (s.cpmode.testBit 4 = false → s.powerWindow.host.inForce.length = 8 ∧ s.powerWindow.host.inForce.sum ≤ 2160 ∧
      ∀ x ∈ s.powerWindow.host.inForce, 80 ≤ x) ∧
    (s.cpmode.testBit 4 = true → s.powerWindow.host.inForce =
      if s.host.grants.sum ≤ 2160 ∧ ∀ x ∈ s.host.grants, 80 ≤ x then s.host.grants else s.host.inForce) := by
  rw [powerWindow_of_due h]
  refine ⟨rfl, fun hm => ?_, fun hm => ?_⟩
  · simp only [hm, Bool.false_eq_true, if_false]
    exact windowGrants_spec 9 _
  · simp only [hm, if_true, grantsOk, Bool.and_eq_true, decide_eq_true_eq, List.all_eq_true]

/-! ### Device registers (R444, R466, R475) -/

/-- DEVNO takes a number from 1 to 254 from the physical function, while no core is latched (R475). -/
theorem writeDevno_eq (func : Nat) (v : Dword) (s : State) :
    s.writeDevno func v = if s.usable = true ∧ func = 0 ∧ v.toNat % 256 ≠ 0 ∧ v.toNat % 256 ≠ 255 ∧
      (∀ e ∈ s.cores, e.2.latch = 0) then { s with devid := v.toNat % 256 } else s := by
  unfold State.writeDevno
  simp only [Bool.or_eq_true, Bool.not_eq_true', decide_eq_true_eq, List.any_eq_true, bne_iff_ne]
  by_cases h : s.usable = true ∧ func = 0 ∧ v.toNat % 256 ≠ 0 ∧ v.toNat % 256 ≠ 255 ∧ ∀ e ∈ s.cores, e.2.latch = 0
  · rw [if_pos h, if_neg]
    obtain ⟨hu, hf, h0, h255, hl⟩ := h
    simpa [hu, hf, h0, h255] using hl
  · rw [if_neg h, if_pos]
    by_contra hc
    push Not at hc
    exact h (by simpa [and_assoc] using hc)

theorem readRegister_of_not_usable {s : State} (h : s.usable = false) {func off : Nat}
    (hn : ¬(func = 0 ∧ (off = 0 ∨ off = 8))) : s.readRegister func off = BitVec.allOnes 64 := by
  have h0 : ¬(func = 0 ∧ off = 0) := fun h => hn ⟨h.1, .inl h.2⟩
  have h8 : ¬(func = 0 ∧ off = 8) := fun h => hn ⟨h.1, .inr h.2⟩
  simp [State.readRegister, h, h0, h8]

theorem hostWrite_of_not_usable {s : State} (h : s.usable = false) (func off : Nat) (v : Dword) : s.hostWrite func off v = s := by
  simp [State.hostWrite, h]

/-- A function other than the physical one writes nothing beyond its two pages (R473). -/
theorem hostWrite_beyond_pages (s : State) {func off : Nat} (v : Dword) (h0 : func ≠ 0) (h64 : func < 64) (hoff : 8192 ≤ off) :
    s.hostWrite func off v = s := by
  have hbar : barOffset func off = 2 ^ 26 := by
    rw [barOffset, if_neg h0, if_neg (by omega), if_neg (by omega)]
  unfold State.hostWrite
  rw [hbar]
  split
  · simp only [State.writeRegister, Bool.and_eq_true, decide_eq_true_eq]
    rw [if_neg (by omega), if_neg (by omega), if_pos h0]
  · rfl

section
variable {s : State} (hu : s.usable = true)
include hu

theorem hostWrite_physical (off : Nat) (v : Dword) : s.hostWrite 0 off v = s.writeRegister 0 off v := by
  simp [State.hostWrite, hu, barOffset]

theorem readRegister_tail : s.readRegister 0 0x118 = BitVec.ofNat 64 s.ring.tail := by
  simp [State.readRegister, hu]

theorem readRegister_updaddr : s.readRegister 0 0x300 = BitVec.ofNat 64 s.host.updaddr := by
  simp [State.readRegister, hu]

theorem readRegister_grant {d : Nat} (hd : d < 8) :
    s.readRegister 0 (0x200 + 8 * d) = BitVec.ofNat 64 (s.host.grants.getD d 0) := by
  simp only [State.readRegister, hu, Bool.and_eq_true, decide_eq_true_eq, Bool.not_true, Bool.false_eq_true]
  rw [if_neg (by omega), if_neg (by omega), if_neg id, if_neg (by omega), if_neg (by omega), if_neg (by simp), if_pos (by omega),
    show (0x200 + 8 * d - 0x200) / 8 = d by omega]

theorem readRegister_prop {k : Nat} (hk : k < 8) : s.readRegister 0 (0x200000 + 8 * k) = s.host.props.getD k 0 := by
  simp only [State.readRegister, hu, Bool.and_eq_true, decide_eq_true_eq, Bool.not_true, Bool.false_eq_true]
  rw [if_neg (by omega), if_neg (by omega), if_neg id, if_neg (by omega), if_neg (by omega), if_neg (by simp), if_neg (by omega),
    if_pos (by omega), show (0x200000 + 8 * k - 0x200000) / 8 = k by omega]
end

theorem writeRegister_grant (s : State) (v : Dword) {d : Nat} (hd : d < 8) : s.writeRegister 0 (0x200 + 8 * d) v =
    { s with host := { s.host with grants := lmod s.host.grants d fun _ => v.toNat % 4096 } } := by
  simp only [State.writeRegister, Bool.and_eq_true, decide_eq_true_eq]
  rw [if_neg (by omega), if_neg (by omega), if_neg (by simp), if_pos (by omega), show (0x200 + 8 * d - 0x200) / 8 = d by omega]

theorem writeRegister_prop (s : State) (v : Dword) {k : Nat} (hk : k < 8) : s.writeRegister 0 (0x200000 + 8 * k) v =
    { s with host := { s.host with props := lmod s.host.props k fun _ => v } } := by
  simp only [State.writeRegister, Bool.and_eq_true, decide_eq_true_eq]
  rw [if_neg (by omega), if_neg (by omega), if_neg (by simp), if_neg (by omega), if_pos (by omega),
    show (0x200000 + 8 * k - 0x200000) / 8 = k by omega]

theorem writeRegister_score (s : State) (v : Dword) {k : Nat} (hk : k < 192) :
    s.writeRegister 0 (0x300000 + 8 * k) v = s.clearScore k v := by
  simp only [State.writeRegister, Bool.and_eq_true, decide_eq_true_eq]
  rw [if_neg (by omega), if_neg (by omega), if_neg (by simp), if_neg (by omega), if_neg (by omega), if_pos (by omega),
    show (0x300000 + 8 * k - 0x300000) / 8 = k by omega]

/-- A grant reads back its low 12 bits (R479). -/
theorem readRegister_writeRegister_grant {s : State} (hu : s.usable = true) (hl : s.host.grants.length = 8) (v : Dword) {d : Nat}
    (hd : d < 8) : (s.writeRegister 0 (0x200 + 8 * d) v).readRegister 0 (0x200 + 8 * d) = BitVec.ofNat 64 (v.toNat % 4096) := by
  rw [writeRegister_grant s v hd]
  refine (readRegister_grant ?_ hd).trans (congrArg _ (getD_lmod_self (hl ▸ hd) _ _ _ fun _ => rfl))
  exact hu

/-- A proposal register reads back what is written (R444). -/
theorem readRegister_writeRegister_prop {s : State} (hu : s.usable = true) (hl : s.host.props.length = 8) (v : Dword) {k : Nat}
    (hk : k < 8) : (s.writeRegister 0 (0x200000 + 8 * k) v).readRegister 0 (0x200000 + 8 * k) = v := by
  rw [writeRegister_prop s v hk]
  refine (readRegister_prop ?_ hk).trans (getD_lmod_self (hl ▸ hk) _ _ _ fun _ => rfl)
  exact hu

/-- The tail of the fault ring and the address of a live update read back what is written (R475). -/
theorem readRegister_writeRegister_same {s : State} (hu : s.usable = true) (v : Dword) {off : Nat} (ho : off ∈ [0x118, 0x300]) :
    (s.writeRegister 0 off v).readRegister 0 off = v := by
  have hv : BitVec.ofNat 64 v.toNat = v := by simp
  rcases List.mem_cons.mp ho with rfl | ho
  · have hw : s.writeRegister 0 0x118 v = { s with ring := { s.ring with tail := v.toNat } } := rfl
    rw [hw]
    refine (readRegister_tail ?_).trans hv
    exact hu
  · obtain rfl := List.mem_singleton.mp ho
    have hw : s.writeRegister 0 0x300 v = { s with host := { s.host with updaddr := v.toNat } } := rfl
    rw [hw]
    refine (readRegister_updaddr ?_).trans hv
    exact hu

/-- A proposal is submitted where none is outstanding (R444). -/
theorem writeRegister_submit {s : State} (h : s.host.submitted = false) (v : Dword) : s.writeRegister 0 0x200040 v =
    { s with host := { s.host with submitted := true, presult := 0 } } := by
  show (if s.host.submitted then s else _) = _
  rw [h]
  rfl

theorem writeRegister_submit_of_submitted {s : State} (h : s.host.submitted = true) (v : Dword) :
    s.writeRegister 0 0x200040 v = s := by
  show (if s.host.submitted then s else _) = _
  rw [if_pos h]

/-! ### The aperture (R449) -/

section
variable {s : State} {func off : Nat} (hu : s.usable = true)
include hu

theorem aperture_write {bs : List Byte} (hb : bs ≠ []) (hn : off + bs.length ≤ 2 ^ 32) : s.aperture func off (some bs) 0 =
    if s.hostReaches func (kgetD s.host.apbase func 0 + off) bs.length = true then s.store (kgetD s.host.apbase func 0 + off) bs
    else { s with host := { s.host with denied := s.host.denied + 1 } } := by
  have hpos := List.length_pos_iff.mpr hb
  simp only [State.aperture, hu, Bool.true_and, Bool.or_eq_true, decide_eq_true_eq]
  rw [if_neg (by omega)]

/-- A read leaves memory as it is and hands the host the bytes, or all ones for what its colours do not own. -/
theorem aperture_read {len : Nat} (hl : 0 < len) (hn : off + len ≤ 2 ^ 32) :
    let t := s.aperture func off none len
    t.mem = s.mem ∧ t.tags = s.tags ∧ t.host.lastRead =
      if s.hostReaches func (kgetD s.host.apbase func 0 + off) len = true then s.bytesAt (kgetD s.host.apbase func 0 + off) len
      else List.replicate len 0xFF := by
  simp only [State.aperture, hu, Bool.true_and, Bool.or_eq_true, decide_eq_true_eq]
  rw [if_neg (by omega)]
  split <;> exact ⟨rfl, rfl, rfl⟩
end

/-! ### Reset and power (R4, R480, R481) -/

/-- The part after start-up holds nothing of its memory, cores, queues and granules; it keeps its fuses, and STARTUP says where
start-up ended (R480). -/
theorem startUp_spec (s : State) : s.startUp.mem = [] ∧ s.startUp.tags = [] ∧ s.startUp.cores = [] ∧ s.startUp.queues = [] ∧
    s.startUp.kaolin = [] ∧ s.startUp.product = s.product ∧ s.startUp.frozen = false ∧ s.startUp.powered = true ∧
    (s.startUp.host.stage, s.startUp.host.fail) = s.product.startUp :=
  ⟨rfl, rfl, rfl, rfl, rfl, rfl, rfl, rfl, rfl⟩

theorem warmReset_of_running {s : State} (hf : s.frozen = false) (hp : s.powered = true) : s.warmReset = s.startUp := by
  simp [State.warmReset, hf, hp]

theorem warmReset_of_stopped {s : State} (h : s.frozen = true ∨ s.powered = false) : s.warmReset = s := by
  rcases h with h | h <;> simp [State.warmReset, h]

theorem freeze_of_powered {s : State} (h : s.powered = true) : s.freeze = { s with frozen := true } := by
  simp [State.freeze, h]

/-- What a part without power holds is the reset state's but for the fuses, the count of steps and the events to come (R4). -/
theorem exec_powerLoss (s : State) : exec .powerLoss s =
    .next { State.reset with tick := s.tick, inputs := s.inputs, product := s.product, powered := false } := rfl

/-- Settles O51: the loss of power is the reset state by definition of the event (R4; log 11, 14, 17, 18). -/
theorem powerLoss : Obligations.PowerLoss := exec_powerLoss

theorem exec_hostApertureAccess (func off : Nat) (data : Option (List Byte)) (len : Nat) (s : State) :
    exec (.hostApertureAccess func off data len) s = .next (s.aperture func off data len) := rfl

/-- A failed link of a compute die to an I/O die is remembered (R13). -/
theorem exec_dieToDieLinkFailure (die io : Nat) (s : State) : exec (.dieToDieLinkFailure die io) s =
    .next (if die < 8 ∧ io < 2 then { s with host := { s.host with deadLinks := nins s.host.deadLinks (2 * die + io) } }
      else s) := by
  show execDieToDieLinkFailure die io s = _
  simp only [execDieToDieLinkFailure, Bool.and_eq_true, decide_eq_true_eq]

/-- Settles O46: the laws of the registers, the aperture, the power window and the resets, each carried to its event. -/
theorem hostAndPower : Obligations.HostAndPower := by
  unfold Obligations.HostAndPower
  refine ⟨fun func v s => congrArg _ (writeDevno_eq func v s),
    fun func off v s hu => ⟨congrArg _ (hostWrite_of_not_usable hu func off v), readRegister_of_not_usable hu⟩,
    fun v s hu => ⟨fun off => s.writeRegister 0 off v, fun off => congrArg _ (hostWrite_physical hu off v), rfl, rfl, rfl, rfl, rfl,
      rfl, fun hs => ?submitted, writeRegister_submit_of_submitted (v := v), rfl, rfl, fun k hk => writeRegister_score s v hk,
      fun d hd hl => readRegister_writeRegister_grant hu hl v hd, fun k hk hl => readRegister_writeRegister_prop hu hl v hk,
      fun off ho => readRegister_writeRegister_same hu v ho⟩,
    fun func off v s _ h0 h64 hoff => congrArg _ (hostWrite_beyond_pages s v h0 h64 hoff),
    fun func off bs s hb hn hu => ⟨fun hr => ?reached, fun hr => ?denied⟩,
    fun func off len s hl hn hu => ⟨_, rfl, aperture_read hu hl hn⟩,
    fun s h => ⟨_, rfl, powerWindow_spec h⟩,
    fun s => ⟨_, rfl, startUp_spec s⟩,
    fun s hf hp => congrArg _ (warmReset_of_running hf hp),
    fun s h => congrArg _ (warmReset_of_stopped h),
    fun s h => congrArg _ (freeze_of_powered h),
    fun s => rfl,
    fun s => ⟨_, exec_powerLoss s, rfl, rfl, rfl, rfl, rfl⟩,
    exec_dieToDieLinkFailure⟩
  case submitted =>
    show (s.writeRegister 0 0x200040 v).host.submitted = true ∧ (s.writeRegister 0 0x200040 v).host.presult = 0
    rw [writeRegister_submit hs]
    exact ⟨rfl, rfl⟩
  case reached =>
    rw [exec_hostApertureAccess, aperture_write hu hb hn, if_pos hr]
  case denied =>
    rw [exec_hostApertureAccess, aperture_write hu hb hn, if_neg (ne_true_of_eq_false hr)]

end Sys2Proof.Machine
end

section
/-!
The state after reset (O58).
-/

namespace Sys2Proof.Machine

/-- The granules of the protected region: colour 0's, in class 2 (R440). -/
theorem initial_of_protected {n : Nat} (hlo : 0x5E0000 ≤ n) (hhi : n < 0x600000) :
    Granule.initial n = { Granule.free with state := 1, cls := 2 } := by
  simp [Granule.initial, hlo, hhi]

/-- A granule below the protected region is free (R441). -/
theorem initial_of_below {n : Nat} (h : n < 0x5E0000) : Granule.initial n = Granule.free := by
  simp [Granule.initial, Nat.not_le.mpr h]

/-- Nothing has been entered in the map at reset: a granule is as the security core builds it (R441). -/
theorem granuleNo_reset (n : Nat) : State.reset.granuleNo n = Granule.initial n := rfl

/-- No core has been touched at reset. -/
theorem core_reset (c : Nat) : State.reset.core c = Core.cleared := rfl

/-- Settles O58: each table of the reset state is empty, so that what it holds is its default. -/
theorem resetState : Obligations.ResetState := by
  unfold Obligations.ResetState
  refine ⟨.inl rfl, fun c => ?cores, rfl, rfl, fun n hlo hhi => ?protectedRegion, fun n h => ?below, rfl, rfl, rfl, fun _ _ => rfl,
    fun _ => rfl, fun _ => List.not_mem_nil⟩
  case cores =>
    rw [core_reset]
    exact ⟨rfl, rfl, rfl⟩
  case protectedRegion =>
    rw [granuleNo_reset, initial_of_protected hlo hhi]
    exact ⟨rfl, rfl, rfl⟩
  case below =>
    rw [granuleNo_reset, initial_of_below h]
    rfl

end Sys2Proof.Machine
end

section
/-!
Placement, latch changes, expansion, retirement, urgency and time slices (O31).
-/

namespace Sys2Proof

/-! ### Sets built from a list -/

theorem pairwise_nins {m : NSet} (h : m.Pairwise (· < ·)) (k : Nat) : (nins m k).Pairwise (· < ·) := by
  induction m with
  | nil => simp [nins]
  | cons x m ih =>
    obtain ⟨hx, hm⟩ := List.pairwise_cons.mp h
    simp only [nins]
    split
    · rename_i hk
      exact List.pairwise_cons.mpr ⟨fun y hy => (List.mem_cons.mp hy).elim (· ▸ hk) fun hy => hk.trans (hx y hy), h⟩
    · split
      · exact h
      · refine List.pairwise_cons.mpr ⟨fun y hy => ?_, ih hm⟩
        rcases (mem_nins m k y).mp hy with rfl | hy
        · omega
        · exact hx y hy

theorem pairwise_foldl_nins {m : NSet} (h : m.Pairwise (· < ·)) (l : List Nat) : (l.foldl nins m).Pairwise (· < ·) := by
  induction l generalizing m with
  | nil => exact h
  | cons x l ih => exact ih (pairwise_nins h x)

/-- A set built from a list holds nothing twice. -/
theorem nodup_foldl_nins (l : List Nat) : (l.foldl nins []).Nodup :=
  (pairwise_foldl_nins .nil l).imp Nat.ne_of_lt

/-- The places of a list, each with its number. -/
theorem mem_zip_range {cs : List Nat} {c r : Nat} (h : cs[r]? = some c) : (c, r) ∈ cs.zip (List.range cs.length) := by
  obtain ⟨hr, rfl⟩ := List.getElem?_eq_some_iff.mp h
  exact List.mem_iff_getElem.mpr ⟨r, by simpa using hr, by simp⟩

theorem map_fst_zip_range (cs : List Nat) : (cs.zip (List.range cs.length)).map (·.1) = cs :=
  List.map_fst_zip (by simp)

end Sys2Proof

namespace Sys2Proof.Machine

/-! ### The cores that take a block or a cluster (R399, R400) -/

/-- A choice made along a list that keeps what it has or takes the element at hand is what it began with, or of the list. -/
theorem mem_of_foldl_choice {α : Type} {f : Option α → α → Option α} (hf : ∀ best x, f best x = best ∨ f best x = some x)
    {l : List α} {best : Option α} {a : α} (h : l.foldl f best = some a) : best = some a ∨ a ∈ l := by
  induction l generalizing best with
  | nil => exact .inl h
  | cons x l ih =>
    rcases ih h with h | h
    · rcases hf best x with hx | hx
      · exact .inl (hx.symm.trans h)
      · exact .inr (Option.some.inj (hx.symm.trans h) ▸ List.mem_cons_self)
    · exact .inr (List.mem_cons_of_mem _ h)

theorem leastLoaded_mem {s : State} {cs : List Nat} {c : Nat} (h : s.leastLoaded cs = some c) : c ∈ cs := by
  refine (mem_of_foldl_choice (fun best x => ?_) h).resolve_left nofun
  cases best with
  | none => exact .inr rfl
  | some b =>
    dsimp only
    split
    · exact .inr rfl
    · exact .inl rfl

theorem takeLeast_subset (s : State) (n : Nat) (cs : List Nat) : s.takeLeast n cs ⊆ cs := by
  induction n generalizing cs with
  | zero => exact List.nil_subset cs
  | succ n ih =>
    unfold State.takeLeast
    split
    · exact List.nil_subset cs
    · rename_i c hc
      exact List.cons_subset.mpr ⟨leastLoaded_mem hc, fun x hx => List.filter_subset_self _ (ih _ hx)⟩

theorem latchedTo_of_passes {s : State} {c code : Nat} {k : Kernel} {e : Env} (h : s.passes c code k e = true) :
    s.latchedTo c e.colour = true := by
  simp only [State.passes, Bool.and_eq_true] at h
  obtain ⟨⟨hlatch, _⟩, _⟩ := h
  exact hlatch

/-- Without free cores to latch, the cores taken are latched to the region's colour, each taken once. -/
theorem pickCores_latched {s : State} {code : Nat} {k : Kernel} {e : Env} {cs : List Nat}
    (h : s.pickCores code k e false = some cs) : cs.Nodup ∧ ∀ c ∈ cs, s.latchedTo c e.colour = true := by
  have hpass : ∀ c ∈ e.partition.filter fun c => s.passes c code k e, s.latchedTo c e.colour = true :=
    fun c hc => latchedTo_of_passes (List.mem_filter.mp hc).2
  unfold State.pickCores at h
  dsimp only at h
  split at h
  · split at h
    · rename_i c rest hcons
      obtain ⟨x, hx, rfl⟩ := Option.map_eq_some_iff.mp h
      refine ⟨List.nodup_singleton x, fun y hy => ?_⟩
      obtain rfl := List.mem_singleton.mp hy
      exact hpass y (hcons ▸ (List.mem_filter.mp (leastLoaded_mem hx)).1)
    · simp at h
  · simp only [Bool.false_eq_true, if_false] at h
    split at h
    · rename_i cs' hfind
      obtain rfl := Option.some.inj h
      obtain ⟨g, -, hg⟩ := List.exists_of_findSome?_eq_some hfind
      split at hg
      · obtain rfl := Option.some.inj hg
        refine ⟨nodup_foldl_nins _, fun c hc => hpass c ?_⟩
        rw [mem_foldl_nins] at hc
        rcases List.mem_append.mp (List.mem_of_mem_take (hc.resolve_right nofun)) with hm | hm
        · exact (List.mem_filter.mp (takeLeast_subset _ _ _ hm)).1
        · simp at hm
      · cases hg
    · cases h

/-- No core that is latched already is latched again. -/
theorem foldl_latchCore_of_latched {s : State} {colour : Nat} {cs : List Nat} (h : ∀ c ∈ cs, s.latchedTo c colour = true) :
    cs.foldl (fun s c => if s.latchedTo c colour then s else s.latchCore c colour) s = s := by
  induction cs with
  | nil => rfl
  | cons c cs ih =>
    rw [List.foldl_cons, if_pos (h c List.mem_cons_self)]
    exact ih fun x hx => h x (List.mem_cons_of_mem _ hx)

/-! ### A block stood on a core (R402) -/

/-- `t` has no other core changed than `c`, and no grid. -/
structure OnlyCore (s t : State) (c : Nat) : Prop where
  others : ∀ c', c' ≠ c → t.core c' = s.core c'
  grids : t.grids = s.grids

theorem OnlyCore.refl (s : State) (c : Nat) : OnlyCore s s c := ⟨fun _ _ => rfl, rfl⟩

theorem OnlyCore.trans {s t u : State} {c : Nat} (h : OnlyCore s t c) (h' : OnlyCore t u c) : OnlyCore s u c :=
  ⟨fun c' hc => (h'.others c' hc).trans (h.others c' hc), h'.grids.trans h.grids⟩

theorem OnlyCore.setCore (s : State) (c : Nat) (k : Core) : OnlyCore s (s.setCore c k) c :=
  ⟨fun _ hc => core_setCore_ne s k hc, rfl⟩

theorem bringSegment_onlyCore (s : State) (c code num : Nat) : OnlyCore s (s.bringSegment c code num) c := by
  unfold State.bringSegment
  dsimp only
  split
  · exact .setCore s c _
  · split
    · exact .refl s c
    · split
      · exact .refl s c
      · exact .setCore s c _

theorem foldl_bringSegment_onlyCore (s : State) (c code : Nat) (segs : List Nat) :
    OnlyCore s (segs.foldl (fun s n => s.bringSegment c code n) s) c := by
  induction segs generalizing s with
  | nil => exact .refl s c
  | cons n segs ih => exact (bringSegment_onlyCore s c code n).trans (ih _)

/-- The core holds a block of the grid `gk` as R402 has it stand at its placement, and no line in its L1. -/
def Core.Stands (k : Core) (gk : Nat) (g : Grid) (index rank cluster : Nat) : Prop :=
  k.l1 = [] ∧ ∃ slot b, kget k.blocks slot = some b ∧ b.grid = gk ∧ b.index = index ∧ b.rank = rank ∧ b.cluster = cluster ∧
    b.code = g.code ∧ b.entry = g.kernel.entry ∧ b.waves = g.kernel.waves ∧ b.spSize = g.kernel.scratch ∧ b.spad = [] ∧
    b.full = [] ∧ b.nTiles = g.kernel.tiles ∧ b.tiles = []

theorem standBlock_onlyCore (s : State) (c gk : Nat) (g : Grid) (e : Env) (index rank cluster : Nat) (audit : Option Nat) :
    OnlyCore s (s.standBlock c gk g e index rank cluster audit) c := by
  have h := foldl_bringSegment_onlyCore s c g.code (startSegments g.kernel e)
  exact ⟨fun c' hc => (core_setCore_ne _ _ hc).trans (h.others c' hc), h.grids⟩

theorem standBlock_stands (s : State) (c gk : Nat) (g : Grid) (e : Env) (index rank cluster : Nat) (audit : Option Nat) :
    ((s.standBlock c gk g e index rank cluster audit).core c).Stands gk g index rank cluster := by
  have hcore : (s.standBlock c gk g e index rank cluster audit).core c = _ := kgetD_kset_self _ c _ _
  rw [hcore]
  exact ⟨rfl, _, _, kget_kset_self _ _ _, rfl, rfl, rfl, rfl, rfl, rfl, rfl, rfl, rfl, rfl, rfl, rfl⟩

/-- Blocks stood on cores, each core another, one after another: each core holds its own at the end, and no other core changes. -/
theorem foldl_standBlock_stands (gk : Nat) (g : Grid) (e : Env) (uid : Nat) {l : List (Nat × Nat)} (hl : (l.map (·.1)).Nodup)
    (s : State) :
    let t := l.foldl (fun s (c, r) => s.standBlock c gk g e (g.next + r) r uid none) s
    t.grids = s.grids ∧ (∀ c, c ∉ l.map (·.1) → t.core c = s.core c) ∧
      ∀ p ∈ l, (t.core p.1).Stands gk g (g.next + p.2) p.2 uid := by
  induction l generalizing s with
  | nil => exact ⟨rfl, fun _ _ => rfl, nofun⟩
  | cons p l ih =>
    obtain ⟨c, r⟩ := p
    obtain ⟨hc, hl⟩ := List.nodup_cons.mp hl
    have hone := standBlock_onlyCore s c gk g e (g.next + r) r uid none
    obtain ⟨hgrids, hcores, hstands⟩ := ih hl (s.standBlock c gk g e (g.next + r) r uid none)
    refine ⟨hgrids.trans hone.grids, fun c' hc' => ?_, fun p hp => ?_⟩
    · have hne : c' ≠ c := fun h => hc' (h ▸ List.mem_cons_self)
      exact (hcores c' fun h => hc' (List.mem_cons_of_mem _ h)).trans (hone.others c' hne)
    · rcases List.mem_cons.mp hp with rfl | hp
      · rw [List.foldl_cons, hcores c hc]
        exact standBlock_stands s c gk g e (g.next + r) r uid none
      · exact hstands p hp

/-! ### A cluster placed (R398 to R400) -/

/-- What stands once the next block or cluster of a grid has been placed on the cores `cs`. -/
theorem standCluster_spec {s : State} {gk : Nat} {g : Grid} (e : Env) {cs : List Nat} (hg : kget s.grids gk = some g)
    (hcs : cs.Nodup) :
    let t := s.standCluster gk g e cs
    kget t.grids gk = some { g with next := g.next + g.kernel.cluster, waits := false } ∧
    (∃ k, kget t.clusters s.nextUid = some k ∧ k.members.map (·.1) = cs ∧ k.phase = 0) ∧
    ∀ rank c, cs[rank]? = some c → (t.core c).Stands gk g (g.next + rank) rank s.nextUid := by
  have hnodup : ((cs.zip (List.range cs.length)).map (·.1)).Nodup := by rwa [map_fst_zip_range]
  obtain ⟨hgrids, -, hstands⟩ := foldl_standBlock_stands gk g e s.nextUid hnodup { s with nextUid := s.nextUid + 1 }
  refine ⟨?_, ⟨_, kget_kset_self _ _ _, ?_, rfl⟩, fun rank c hc => hstands (c, rank) (mem_zip_range hc)⟩
  · have hgk := (congrArg (kget · gk) hgrids).trans hg
    exact (kget_kmod _ _ _ _).trans ((if_pos rfl).trans (congrArg (Option.map _) hgk))
  · rw [List.map_map]
    exact map_fst_zip_range cs

/-- A grid that is placeable has blocks to place. -/
theorem next_lt_of_placeable {s : State} {gk : Nat} {g : Grid} (hg : kget s.grids gk = some g) (h : s.placeable gk = true) :
    g.next < g.count := by
  simp only [State.placeable, hg] at h
  split at h
  · cases h
  · simp only [Bool.and_eq_true, decide_eq_true_eq] at h
    obtain ⟨⟨⟨⟨⟨hnext, _⟩, _⟩, _⟩, _⟩, _⟩ := h
    exact hnext

theorem placeNext_of_pickCores {s : State} {gk : Nat} {g : Grid} {r : Region} {cs : List Nat} (hg : kget s.grids gk = some g)
    (hr : kget s.regions g.region = some r) (hn : g.next < g.count) (hp : s.pickCores g.code g.kernel r.env false = some cs) :
    s.placeNext gk false = some (s.standCluster gk g r.env cs) := by
  simp only [State.placeNext, hg, hr, hp, if_neg (Nat.not_le.mpr hn), Option.map_some,
    foldl_latchCore_of_latched (pickCores_latched hp).2]

theorem placeGrid_of_pickCores {s : State} {gk : Nat} {g : Grid} {r : Region} {cs : List Nat} (hg : kget s.grids gk = some g)
    (hr : kget s.regions g.region = some r) (hk : g.kernel.persistent = false) (hp : s.placeable gk = true)
    (hb : s.heldBack gk g = false) (hc : s.pickCores g.code g.kernel r.env false = some cs) :
    s.placeGrid gk = s.standCluster gk g r.env cs := by
  simp [State.placeGrid, hg, hk, hp, hb, placeNext_of_pickCores hg hr (next_lt_of_placeable hg hp) hc]

/-! ### A persistent grid placed (R401) -/

/-- A persistent grid that is placed has no block left to place. -/
theorem placeWhole_done {s s1 : State} {gk n : Nat} {fresh : Bool} (h : s.placeWhole gk fresh n = some s1) :
    ∃ g1, kget s1.grids gk = some g1 ∧ g1.count ≤ g1.next := by
  induction n generalizing s with
  | zero => cases h
  | succ n ih =>
    unfold State.placeWhole at h
    split at h
    · cases h
    · split at h
      · rename_i t _ g hg
        split at h
        · obtain rfl := Option.some.inj h
          exact ⟨g, hg, ‹_›⟩
        · exact ih h
      · cases h

theorem placePersistent_eq {s : State} {gk : Nat} {g : Grid} (hg : kget s.grids gk = some g) (hk : g.kernel.persistent = true)
    (hp : s.placeable gk = true) (hb : s.heldBack gk g = false) : s.placePersistent gk =
      (s.placeWhole gk false g.count).getD { s with grids := kmod s.grids gk fun g => { g with waits := true } } := by
  simp only [State.placePersistent, hg, hk, hp, hb, Bool.not_true, Bool.or_false, Bool.false_eq_true, if_false]
  cases s.placeWhole gk false g.count <;> rfl

/-! ### Latch changes and expansions (R23, R395) -/

theorem changeLatch_of_wanted {s : State} {c colour : Nat} (hb : (s.core c).blocks = []) (hq : (s.core c).queue = [])
    (hl : (s.core c).latch ≠ colour) (hw : s.latchWanted c = some colour) : s.changeLatch c colour = s.latchCore c colour := by
  simp [State.changeLatch, hb, hq, hl, hw]

theorem expandGrid_of_find {s : State} {launch gk : Nat} {g : Grid}
    (h : s.grids.find? (fun e => e.2.launch == launch && !e.2.expanded) = some (gk, g))
    (hg : g.next ≠ 0 ∨ g.kernel.cluster ≠ 1 ∨ g.kernel.persistent = true) : s.expandGrid launch = { s with
      grids := kset s.grids gk { g with expanded := true }
      launches := kmod s.launches launch fun l => { l with counter := l.counter + g.count - 1 } } := by
  have hnot : (decide (g.next = 0) && decide (g.kernel.cluster = 1) && !g.kernel.persistent) = false := by
    rcases hg with hg | hg | hg <;> simp [hg]
  simp only [State.expandGrid, h, hnot, Bool.false_eq_true, if_false]

/-! ### Retirement (R242, R395, R462) -/

theorem block_setBlock_ne (s : State) {c n c' n' : Nat} (x : Block) (h : (c', n') ≠ (c, n)) :
    (s.setBlock c n x).block c' n' = s.block c' n' := by
  by_cases hc : c' = c
  · subst hc
    have hn : n' ≠ n := fun hn => h (hn ▸ rfl)
    simp [State.block, State.setBlock, kget_kset_ne _ _ hn]
  · simp [State.block, core_setBlock_ne _ _ _ hc]

/-- The blocks of some slots freed. -/
theorem block_foldl_kdel (l : List (Nat × Nat)) (s : State) (c n : Nat) :
    (l.foldl (fun s (c, b) => s.setCore c { s.core c with blocks := kdel (s.core c).blocks b }) s).block c n =
      if (c, n) ∈ l then none else s.block c n := by
  induction l generalizing s with
  | nil => rfl
  | cons p l ih =>
    obtain ⟨c', n'⟩ := p
    rw [List.foldl_cons, ih]
    have hone : (s.setCore c' { s.core c' with blocks := kdel (s.core c').blocks n' }).block c n =
        if (c, n) = (c', n') then none else s.block c n := by
      by_cases hc : c = c'
      · subst hc
        by_cases hn : n = n'
        · simp [State.block, hn]
        · simp [State.block, hn, kget_kdel_ne _ hn]
      · simp [State.block, hc, core_setCore_ne _ _ hc]
    rw [hone]
    by_cases hm : (c, n) ∈ l <;> by_cases hp : (c, n) = (c', n') <;> simp [hm, hp]

theorem freeCluster_spec (s : State) (ck : Nat) (k : Cluster) :
    kget (s.freeCluster ck k).clusters ck = none ∧ ∀ c n, (c, n) ∈ k.members → (s.freeCluster ck k).block c n = none :=
  ⟨kget_kdel_self _ _, fun c n hm => (block_foldl_kdel k.members s c n).trans (if_pos hm)⟩

/-- `t` has the cores and the clusters of `s`. -/
structure SameBlocks (s t : State) : Prop where
  cores : t.cores = s.cores
  clusters : t.clusters = s.clusters

theorem SameBlocks.trans {s t u : State} (h : SameBlocks s t) (h' : SameBlocks t u) : SameBlocks s u :=
  ⟨h'.cores.trans h.cores, h'.clusters.trans h.clusters⟩

theorem SameBlocks.block {s t : State} (h : SameBlocks s t) (c n : Nat) : t.block c n = s.block c n := by
  simp only [State.block, State.core, h.cores]

theorem queueAudit_sameBlocks (s : State) (c : Nat) (b : Block) : SameBlocks s (s.queueAudit c b) := by
  unfold State.queueAudit
  split
  · split
    · exact ⟨rfl, rfl⟩
    · dsimp only
      split <;> exact ⟨rfl, rfl⟩
  · exact ⟨rfl, rfl⟩

theorem expandGrid_sameBlocks (s : State) (launch : Nat) : SameBlocks s (s.expandGrid launch) := by
  unfold State.expandGrid
  split
  · exact ⟨rfl, rfl⟩
  · split <;> exact ⟨rfl, rfl⟩

theorem lowerCounter_sameBlocks (s : State) (gk n : Nat) : SameBlocks s (s.lowerCounter gk n) := by
  cases hg : kget s.grids gk with
  | none =>
    simp only [State.lowerCounter, hg]
    exact ⟨rfl, rfl⟩
  | some g =>
    have h := expandGrid_sameBlocks s g.launch
    simp only [State.lowerCounter, hg]
    split <;> exact ⟨h.cores, h.clusters⟩

theorem dropGrid_sameBlocks (s : State) (gk : Nat) : SameBlocks s (s.dropGrid gk) := by
  unfold State.dropGrid
  split <;> exact ⟨rfl, rfl⟩

/-- A block as its retirement leaves it until its cluster is freed (R242, R262). -/
def Block.retire (b : Block) : Block :=
  { b with retired := true, nTiles := 0, tiles := [], badTiles := [],
           seqr := { b.seqr with status := 0, queue := [], trap := none } }

/-- A block retired, and its digest handed over or queued for its audit (R462). -/
def State.markRetired (s : State) (c bslot : Nat) (b : Block) : State :=
  match b.audit with
  | some key => (s.setBlock c bslot b.retire).endAuditBlock c b key
  | none => (s.setBlock c bslot b.retire).queueAudit c b

/-- What a block's retirement does to its cluster: all of it is freed with its last block (R242). -/
def State.leaveCluster (s : State) (b : Block) : State :=
  match kget s.clusters b.cluster with
  | none => s
  | some k =>
    if k.members.all fun (c, n) => match s.block c n with | some b => b.retired | none => true then
      let s1 := s.freeCluster b.cluster k
      (if b.audit.isSome then s1 else s1.lowerCounter b.grid k.members.length).dropGrid b.grid
    else s

theorem retireBlock_eq {s : State} {c bslot : Nat} {b : Block} (hb : s.block c bslot = some b) (hr : b.retired = false)
    (hw : b.gone.length = b.waves) (hf : b.seqr.flights = []) :
    s.retireBlock c bslot = (s.markRetired c bslot b).leaveCluster b := by
  have hgo : ¬(b.retired || decide (b.gone.length ≠ b.waves) || !b.seqr.flights.isEmpty) = true := by simp [hr, hw, hf]
  simp only [State.retireBlock, hb]
  rw [if_neg hgo]
  rfl

theorem markRetired_sameBlocks (s : State) (c bslot : Nat) (b : Block) :
    SameBlocks (s.setBlock c bslot b.retire) (s.markRetired c bslot b) := by
  unfold State.markRetired
  split
  · exact ⟨rfl, rfl⟩
  · exact queueAudit_sameBlocks _ _ _

theorem leaveCluster_sameBlocks {s : State} {b : Block} {k : Cluster} (hk : kget s.clusters b.cluster = some k)
    (hall : ∀ c n x, (c, n) ∈ k.members → s.block c n = some x → x.retired = true) :
    SameBlocks (s.freeCluster b.cluster k) (s.leaveCluster b) := by
  simp only [State.leaveCluster, hk]
  split
  · split
    · exact dropGrid_sameBlocks _ _
    · exact (lowerCounter_sameBlocks _ _ _).trans (dropGrid_sameBlocks _ _)
  · rename_i hnot
    refine absurd (List.all_eq_true.mpr fun (c, n) hm => ?_) hnot
    dsimp only
    split
    · exact hall c n _ hm ‹_›
    · rfl

/-- The last block of a cluster to retire gives all of the cluster back (R242). -/
theorem retireBlock_last {s : State} {c bslot : Nat} {b : Block} {k : Cluster} (hb : s.block c bslot = some b)
    (hr : b.retired = false) (hw : b.gone.length = b.waves) (hf : b.seqr.flights = []) (hk : kget s.clusters b.cluster = some k)
    (hlast : ∀ c' n x, (c', n) ∈ k.members → (c', n) ≠ (c, bslot) → s.block c' n = some x → x.retired = true) :
    kget (s.retireBlock c bslot).clusters b.cluster = none ∧
      ∀ c' n, (c', n) ∈ k.members → (s.retireBlock c bslot).block c' n = none := by
  have hmark := markRetired_sameBlocks s c bslot b
  have hall : ∀ c' n x, (c', n) ∈ k.members → (s.markRetired c bslot b).block c' n = some x → x.retired = true := by
    intro c' n x hm hx
    rw [hmark.block] at hx
    by_cases hcn : (c', n) = (c, bslot)
    · obtain ⟨rfl, rfl⟩ := Prod.mk.inj hcn
      rw [block_setBlock_self] at hx
      exact Option.some.inj hx ▸ rfl
    · exact hlast c' n x hm hcn ((block_setBlock_ne s _ hcn).symm.trans hx)
  have hleave := leaveCluster_sameBlocks (hmark.clusters ▸ hk) hall
  obtain ⟨hcluster, hblocks⟩ := freeCluster_spec (s.markRetired c bslot b) b.cluster k
  rw [retireBlock_eq hb hr hw hf]
  exact ⟨hleave.clusters ▸ hcluster, fun c' n hm => (hleave.block c' n).trans (hblocks c' n hm)⟩

/-! ### Urgency and time slices (R405, R407) -/

/-- The region whose slice ends: it is pre-empted where another's work waits for its cores, and else begins a further slice (R407). -/
def State.sliceEnded (s : State) (r : Region) : Region :=
  if s.otherWaits r none then { r with why := 1, sliceAt := none }
  else { r with sliceAt := some (s.now (homeDie r.env.partition)) }

theorem endSlice_of_due {s : State} {n since : Nat} {r : Region} (hr : kget s.regions n = some r) (hs : r.sliceAt = some since)
    (hslice : r.slice ≠ 0) (hwhy : r.why = 0) (hdue : since + r.slice * microsecond ≤ s.now (homeDie r.env.partition))
    (hres : s.resident n = true) (hrest : s.restoring n = false) :
    s.endSlice n = { s with regions := kset s.regions n (s.sliceEnded r) } := by
  have hgo : ¬(decide (r.slice = 0) || decide (s.now (homeDie r.env.partition) < since + r.slice * microsecond) || decide (r.why ≠ 0) ||
      !s.resident n || s.restoring n) = true := by
    simp [hslice, hwhy, hres, hrest, Nat.not_lt.mpr hdue]
  simp only [State.endSlice, hr, hs]
  rw [if_neg hgo]
  unfold State.sliceEnded
  split <;> rfl

/-- Settles O31: each event's law carried to it, with the blocks of a cluster stood one after another. -/
theorem distribution : Obligations.Distribution := by
  unfold Obligations.Distribution
  refine ⟨fun grid s g r cs hg hr hk hp hb hc => ?placement, fun grid s g hg hk hp hb => ⟨fun s1 h1 => ?whole, fun h0 => ?waits⟩,
    fun core colour s hb hq hl hw => ?latch, fun launch s grid g hf hg => congrArg _ (expandGrid_of_find hf hg),
    fun core bslot s b k hb hr hw hf hk _ hlast => ⟨_, rfl, retireBlock_last hb hr hw hf hk hlast⟩,
    fun core slot s w hw => congrArg _ (modWave_of s core slot _ hw),
    fun region s r since hr hs hslice hwhy hdue hres hrest => congrArg _ (endSlice_of_due hr hs hslice hwhy hdue hres hrest)⟩
  case placement =>
    obtain ⟨hgrid, ⟨k, hcluster, hmembers, hphase⟩, hstands⟩ := standCluster_spec r.env hg (pickCores_latched hc).1
    exact ⟨_, k, congrArg Host.Outcome.next (placeGrid_of_pickCores hg hr hk hp hb hc), hgrid, hcluster, hmembers, hphase, hstands⟩
  case whole =>
    refine ⟨congrArg _ ((placePersistent_eq hg hk hp hb).trans ?_), placeWhole_done h1⟩
    rw [h1, Option.getD_some]
  case waits =>
    refine congrArg _ ((placePersistent_eq hg hk hp hb).trans ?_)
    rw [h0, Option.getD_none]
  case latch =>
    exact ⟨_, congrArg Host.Outcome.next (changeLatch_of_wanted hb hq hl hw), core_setCore_self _ _ _,
      fun c hc => core_setCore_ne _ _ hc⟩

end Sys2Proof.Machine
end

section
/-!
Lines of the L1, waits for miss entries, segments, refills and errors as they arise (O35).
-/

namespace Sys2Proof

theorem mem_of_kget {α : Type} {m : KMap α} {k : Nat} {v : α} (h : kget m k = some v) : (k, v) ∈ m := by
  induction m with
  | nil => cases h
  | cons e m ih =>
    obtain ⟨k', v'⟩ := e
    unfold kget at h
    split at h
    · obtain rfl := Option.some.inj h
      exact ‹k' = k› ▸ List.mem_cons_self
    · exact List.mem_cons_of_mem _ (ih h)

end Sys2Proof

namespace Sys2Proof.Machine

/-! ### The L1 (R216, R217) -/

/-- Where the general partition has room no line gives way. -/
theorem evict_of_room {k : Core} (h : k.l1Count false < 1536) (choice : Nat) : k.evict choice = k := if_pos h

/-- A line that returns to a general partition with room (R217, R219). -/
theorem fillLine_of_room {s : State} {core line : Nat} {m : Miss}
    (hm : (s.core core).misses.find? (fun m => m.line == line) = some m) (hs : m.stale = false)
    (hc : s.cacheable (128 * line) = true) (hh : (s.granule (128 * line)).home ≠ 2) (hr : (s.core core).l1Count false < 1536) :
    s.fillLine core line = s.setCore core { s.core core with
      misses := (s.core core).misses.filter fun m => m.line != line
      l1 := kset (s.core core).l1 line (s.homeLine core line false) } := by
  have hroom := fun choice => evict_of_room
    (k := { s.core core with misses := (s.core core).misses.filter fun m => m.line != line }) hr choice
  simp only [State.fillLine, hm, hs, hc, hroom, beq_eq_false_iff_ne.mpr hh, Bool.not_true, Bool.or_self, Bool.false_eq_true, if_false]

/-- With no store of the core on its way a line is filled with what memory holds. -/
theorem homeLine_bytes {s : State} {core : Nat} (h : (s.core core).queue = []) (line : Nat) (pinned : Bool) :
    (s.homeLine core line pinned).bytes = s.bytesAt (128 * line) 128 := by
  simp [State.homeLine, h]

/-! ### Rejected accesses (R222) -/

theorem retryMiss_of_due {s : State} {core slot : Nat} {w : Wave} {n since need : Nat} (hw : s.wave core slot = some w)
    (hm : w.waiting = .miss n since need) (hn : n < 8) (hd : since + 16 * coreCycle ≤ s.now (dieOf core)) :
    s.retryMiss core slot = s.setWave core slot { w with waiting := .retry n } := by
  rw [State.retryMiss, modWave_of s core slot _ hw]
  simp [hm, hn, hd]

theorem grantMiss_of_room {s : State} {core slot : Nat} {rest : List Nat} {w : Wave} {n since need : Nat}
    (hr : (s.core core).reserve = slot :: rest) (hw : s.wave core slot = some w) (hm : w.waiting = .miss n since need)
    (hn : need ≤ 256 - (s.core core).misses.length) : s.grantMiss core = s.setWave core slot { w with waiting := .granted } := by
  simp [State.grantMiss, hr, hw, hm, hn]

/-! ### Segments (R101) -/

theorem loadSegment_of_stored {s : State} {core code seg : Nat} {g : Segment} (hg : (s.core core).segment code seg = some g)
    (hl : g.loading = true) (hs : s.storedBefore g.after.1 g.after.2 = true) : s.loadSegment core code seg =
      s.setCore core ((s.core core).modSegment code seg fun x =>
        { x with loading := false, bytes := s.segmentBytes code seg g.size }) := by
  simp [State.loadSegment, hg, hl, hs]

theorem freeSegment_of_idle {s : State} {core code seg : Nat} {g : Segment} (hg : (s.core core).segment code seg = some g)
    (hd : g.dropPending = true) (hl : g.loading = false) (hp : (s.core core).pcIn code seg = false)
    (hq : (s.core core).seqIn code seg = false) : s.freeSegment core code seg = s.setCore core { s.core core with
      segs := (s.core core).segs.filter fun g => !(g.code == code && g.num == seg) } := by
  simp [State.freeSegment, hg, hd, hl, hp, hq]

/-! ### Refills (R84, R85) -/

/-- A mask gathered from lanes none of which counts. -/
theorem foldl_mask_of_none {f : Nat → Bool} {ls : List Nat} (h : ∀ l ∈ ls, f l = false) :
    ls.foldl (fun (m : Mask) l => if f l then m ||| Mask.one l else m) 0 = 0 := by
  induction ls with
  | nil => rfl
  | cons l ls ih =>
    rw [List.foldl_cons, if_neg (by simp [h l List.mem_cons_self])]
    exact ih fun x hx => h x (List.mem_cons_of_mem _ hx)

/-- The bank of a wave with a spilled register back from the backing area at `a` as it was spilled. -/
def State.refilled (s : State) (w : Wave) (a reg : Nat) : Bank :=
  let b := { w.base with v := kset w.base.v reg ⟨.g (w.base.reg reg).val.lanes, (w.base.reg reg).fmt⟩ }
  if reg % 4 = 0 then b.setTags (reg / 4) (w.base.tagsOf (reg / 4) &&& BitVec.ofNat 32 (s.numAt (a + 81920 + 4 * (reg / 4)) 4)) else b

/-- A refill changes one register, and tags of its quad. -/
theorem refilled_eq (s : State) (w : Wave) (a reg : Nat) : s.refilled w a reg =
    { w.base with v := kset w.base.v reg ⟨.g (w.base.reg reg).val.lanes, (w.base.reg reg).fmt⟩
                  vtags := (s.refilled w a reg).vtags } := by
  unfold State.refilled
  dsimp only
  split <;> rfl

/-- The register that is refilled is general, and holds what it held; every other register is as it was. -/
theorem reg_refilled (s : State) (w : Wave) (a reg n : Nat) : (s.refilled w a reg).reg n =
    if n = reg then ⟨.g (w.base.reg reg).val.lanes, (w.base.reg reg).fmt⟩ else w.base.reg n := by
  rw [refilled_eq]
  exact kgetD_kset _ _ _ _ _

/-- A refill from a backing area that holds what was spilled, without an error, outside a sweeper pass (R84). -/
theorem refill_of_kept {s : State} {core slot reg a : Nat} {w : Wave} {b : Block} (hw : s.wave core slot = some w)
    (hr : reg ∈ w.spilled) (hb : s.block core w.bslot = some b) (ha : backingAddr s b (corePos b core) slot = some a)
    (hs : s.sweeper.running = false)
    (hv : Lanes.of (fun l => BitVec.ofNat 32 (s.numAt (a + 128 * reg + 4 * l) 4)) = (w.base.reg reg).val.lanes)
    (hp : ∀ l, l < 32 → s.poisoned (a + 128 * reg + 4 * l) 4 = false) (ht : reg % 4 = 0 → s.poisoned (a + 81920 + reg) 4 = false) :
    s.refill core slot reg = (s.setWave core slot
      { w with base := s.refilled w a reg, spilled := ndel w.spilled reg }).settleChunks core slot := by
  have hbad := foldl_mask_of_none (f := fun l => s.poisoned (a + 128 * reg + 4 * l) 4) (ls := List.range 32)
    fun l hl => hp l (List.mem_range.mp hl)
  have htags : (decide (reg % 4 = 0) && s.poisoned (a + 81920 + reg) 4) = false := by
    by_cases h4 : reg % 4 = 0 <;> simp [h4, ht]
  have hlive : (0 : Mask) &&& w.live = 0 := BitVec.zero_and
  simp only [State.refill, hw, List.contains_iff_mem.mpr hr, hb, ha, hv, hs, hbad, hlive, htags, Bool.not_true, Bool.false_eq_true,
    if_false, if_true, decide_true]
  rfl

/-! ### Errors as they arise (R33, R362) -/

theorem regError_eq {s : State} {core slot : Nat} {w : Wave} (hw : s.wave core slot = some w) (file num lane : Nat) :
    s.regError core slot file num lane = s.setWave core slot { w with errors := w.errors ++ [⟨w.level, file, num, lane⟩] } :=
  modWave_of s core slot _ hw

/-- `t` has the cores, the halt lines, the page requests and the parked requests of `s`. -/
structure SameLines (s t : State) : Prop where
  cores : t.cores = s.cores
  halts : t.halts = s.halts
  pri : t.pri = s.pri
  parked : t.parked = s.parked

theorem store_sameLines (s : State) (a : Nat) (bs : List Byte) : SameLines s (s.store a bs) := by
  have h := countWrite_keeps (SameLines s) (fun _ _ h => ⟨h.cores, h.halts, h.pri, h.parked⟩)
    (fun _ _ h => ⟨h.cores, h.halts, h.pri, h.parked⟩) s a bs.length ⟨rfl, rfl, rfl, rfl⟩
  exact ⟨h.cores, h.halts, h.pri, h.parked⟩

theorem putRecord_sameLines (s : State) (ws : List Nat) : SameLines s (s.putRecord ws) := by
  unfold State.putRecord
  dsimp only
  split
  · exact ⟨rfl, rfl, rfl, rfl⟩
  · have h := store_sameLines s (s.ring.base + 64 * (s.ring.head % 2 ^ s.ring.size)) (dwordBytes ws)
    exact ⟨h.cores, h.halts, h.pri, h.parked⟩

/-- A halt line that is asked for is up afterwards, with those that were, unless an undefined instruction asks. -/
theorem raiseHalt_spec {s : State} (hl : s.loose = false) (top : Nat) (e : EngineId) (code sub slot : Nat) (pc : IAddr)
    (perms : Nat) : (s.raiseHalt top e code sub slot pc perms).cores = s.cores ∧
      (s.raiseHalt top e code sub slot pc perms).loose = false ∧
      ∀ n, n = top ∨ (kget s.halts n).isSome → (kget (s.raiseHalt top e code sub slot pc perms).halts n).isSome := by
  have hset : ∀ (h : Halt) (n : Nat), n = top ∨ (kget s.halts n).isSome → (kget (kset s.halts top h) n).isSome := by
    intro h n hn
    rw [kget_kset]
    split
    · rfl
    · exact hn.resolve_left ‹_›
  unfold State.raiseHalt
  rw [if_neg (by simp [hl])]
  split
  · exact ⟨rfl, hl, hset _⟩
  · rename_i h hh
    split
    · exact ⟨rfl, hl, fun n hn => hn.elim (fun hn => by rw [hn, hh]; rfl) id⟩
    · exact ⟨rfl, hl, hset _⟩

/-- The halt line of every partition in a list of regions raised (R33). -/
theorem foldl_raiseHalt_spec (e : EngineId) (code : Nat) (rs : List (Nat × Region)) {s : State} (hl : s.loose = false) :
    let t := rs.foldl (fun s (n, r) => if r.env.top = n then s.raiseHalt n e code 0 0 0 0 else s) s
    t.cores = s.cores ∧ ∀ n, (∃ r, (n, r) ∈ rs ∧ r.env.top = n) ∨ (kget s.halts n).isSome → (kget t.halts n).isSome := by
  induction rs generalizing s with
  | nil => exact ⟨rfl, fun n hn => hn.elim (fun ⟨_, hr, _⟩ => nomatch hr) id⟩
  | cons x rs ih =>
    obtain ⟨m, x⟩ := x
    simp only [List.foldl_cons]
    by_cases hm : x.env.top = m
    · obtain ⟨hcores, hloose, hhalts⟩ := raiseHalt_spec hl m e code 0 0 0 0
      obtain ⟨hcores', hhalts'⟩ := ih hloose
      rw [if_pos hm]
      refine ⟨hcores'.trans hcores, fun n hn => hhalts' n ?_⟩
      rcases hn with ⟨r, hr, htop⟩ | hn
      · rcases List.mem_cons.mp hr with hr | hr
        · exact .inr (hhalts n (.inl (congrArg Prod.fst hr)))
        · exact .inl ⟨r, hr, htop⟩
      · exact .inr (hhalts n (.inr hn))
    · obtain ⟨hcores, hhalts⟩ := ih hl
      rw [if_neg hm]
      refine ⟨hcores, fun n hn => hhalts n (hn.imp_left fun ⟨r, hr, htop⟩ => ⟨r, ?_, htop⟩)⟩
      rcases List.mem_cons.mp hr with hr | hr
      · obtain ⟨rfl, rfl⟩ := Prod.mk.inj hr
        exact absurd htop hm
      · exact hr

/-- A fault in logic that serves every partition raises the halt line of each, and leaves the cores as they are (R33). -/
theorem sharedFault_spec {s : State} (hl : s.loose = false) (die : Nat) : (s.sharedFault die).cores = s.cores ∧
    ∀ n r, kget s.regions n = some r → r.env.top = n → (kget (s.sharedFault die).halts n).isSome := by
  have hrec := putRecord_sameLines
  obtain ⟨hcores, hhalts⟩ := foldl_raiseHalt_spec (.distributor die) (Config.freeByte s.tick die).toNat s.regions hl
  unfold State.sharedFault
  refine ⟨(hrec _ _).cores.trans hcores, fun n r hr htop => ?_⟩
  rw [State.engineRecord, (hrec _ _).halts]
  exact hhalts n (.inl ⟨r, mem_of_kget hr, htop⟩)

/-- Settles O35: each event's law carried to it. -/
theorem cachesAndRefills : Obligations.CachesAndRefills := by
  unfold Obligations.CachesAndRefills
  refine ⟨fun core line s m hm hs hc hh hr => congrArg Host.Outcome.next (fillLine_of_room hm hs hc hh hr),
    fun s core line hq => homeLine_bytes hq line false,
    fun core line s => rfl,
    fun core slot s w n since need hw hm hn hd => congrArg Host.Outcome.next (retryMiss_of_due hw hm hn hd),
    fun core s slot rest w n since need hr hw hm hn => congrArg Host.Outcome.next (grantMiss_of_room hr hw hm hn),
    fun core code seg s g hg hl hs => congrArg Host.Outcome.next (loadSegment_of_stored hg hl hs),
    fun core code seg s g hg hd hl hp hq => congrArg Host.Outcome.next (freeSegment_of_idle hg hd hl hp hq),
    fun core slot reg s w b a hw hr hb ha hs hv hp ht => ?refill,
    fun core slot s w r l hw => ?wave,
    fun s die hl => ⟨_, rfl, sharedFault_spec hl (die % 10)⟩,
    fun s core copy l => rfl,
    fun core bslot s b x hb => ?block,
    fun u s => rfl, fun line s => rfl⟩
  case refill =>
    refine ⟨_, congrArg Host.Outcome.next (refill_of_kept hw hr hb ha hs hv hp ht), rfl, ?_, fun n hn => ?_, ?_⟩
    · exact (reg_refilled s w a reg reg).trans (if_pos rfl)
    · exact (reg_refilled s w a reg n).trans (if_neg hn)
    · dsimp only
      rw [refilled_eq]
      exact ⟨rfl, rfl, rfl⟩
  case wave =>
    have herr := fun file num lane => congrArg (Host.Outcome.next (φ := Fault) (ρ := Refusal)) (regError_eq hw file num lane)
    exact ⟨herr 0 r (l % 32), herr 1 r 0, herr 2 r 0, herr 3 r 0, herr 4 0 0, herr 4 1 0, herr 4 2 0, herr 4 3 0⟩
  case block =>
    have hmod := fun f => congrArg (Host.Outcome.next (φ := Fault) (ρ := Refusal)) (modBlock_of s core bslot f hb)
    exact ⟨hmod _, hmod _, hmod _, hmod _⟩

end Sys2Proof.Machine
end

section
/-!
The halt line's arrival, the debugger and page requests (O43).
-/

namespace Sys2Proof

/-- A map with every value changed. -/
theorem kget_map {α : Type} (m : KMap α) (f : α → α) (k : Nat) : kget (m.map fun e => (e.1, f e.2)) k = (kget m k).map f := by
  induction m with
  | nil => rfl
  | cons e m ih =>
    obtain ⟨k', v⟩ := e
    simp only [List.map_cons, kget]
    split
    · rfl
    · exact ih

end Sys2Proof

namespace Sys2Proof.Machine

/-! ### What a record or a stored image leaves -/

theorem SameLines.trans {s t u : State} (h : SameLines s t) (h' : SameLines t u) : SameLines s u :=
  ⟨h'.cores.trans h.cores, h'.halts.trans h.halts, h'.pri.trans h.pri, h'.parked.trans h.parked⟩

theorem SameLines.wave {s t : State} (h : SameLines s t) (c slot : Nat) : t.wave c slot = s.wave c slot := by
  simp only [State.wave, State.core, h.cores]

theorem stopRecord_sameLines (s : State) (h : Halt) (r : Region) (top : Nat) (e : EngineId) (colour count d0 d1 : Nat) :
    SameLines s (s.stopRecord h r top e colour count d0 d1) := putRecord_sameLines s _

theorem patch_sameLines (s : State) (a : Nat) (xs ys : List Byte) : SameLines s (s.patch a xs ys) := by
  induction xs generalizing s a ys with
  | nil =>
    unfold State.patch
    split
    · exact ⟨rfl, rfl, rfl, rfl⟩
    · exact store_sameLines s a ys
  | cons x xs ih =>
    cases ys with
    | nil => exact ⟨rfl, rfl, rfl, rfl⟩
    | cons y ys =>
      refine SameLines.trans ?_ (ih _ _ _)
      split
      · exact ⟨rfl, rfl, rfl, rfl⟩
      · exact store_sameLines s a [y]

theorem changeImage_sameLines (s : State) (a : Nat) (f : Image → Image) : SameLines s (s.changeImage a f) := by
  unfold State.changeImage
  split
  · exact ⟨rfl, rfl, rfl, rfl⟩
  · have h := patch_sameLines
    exact ⟨(h _ _ _ _).cores, (h _ _ _ _).halts, (h _ _ _ _).pri, (h _ _ _ _).parked⟩

theorem foldl_changeImage_sameLines (s : State) (as : List Nat) (f : Image → Image) :
    SameLines s (as.foldl (fun s a => s.changeImage a f) s) := by
  induction as generalizing s with
  | nil => exact ⟨rfl, rfl, rfl, rfl⟩
  | cons a as ih => exact (changeImage_sameLines s a f).trans (ih _)

/-! ### The halt line (R24, R360, R361) -/

theorem foldl_halts {α : Type} {f : State → α → State} (hf : ∀ s x, (f s x).halts = s.halts) (l : List α) (s : State) :
    (l.foldl f s).halts = s.halts := by
  induction l generalizing s with
  | nil => rfl
  | cons x l ih => exact (ih _).trans (hf s x)

theorem unqueueChannels_halts (s : State) (b : Block) : (s.unqueueChannels b).halts = s.halts :=
  foldl_halts (fun s q => by split <;> rfl) _ s

theorem liftCluster_halts (s : State) (ck : Nat) (k : Cluster) : (s.liftCluster ck k).halts = s.halts :=
  foldl_halts (fun s p => by
    obtain ⟨c, i⟩ := p
    dsimp only
    split
    · rfl
    · exact unqueueChannels_halts s _) _ s

theorem putImage_halts (s : State) (a : Nat) (x : Image) : (s.putImage a x).halts = s.halts :=
  (store_sameLines _ _ _).halts

/-- Stopping the restores of a partition raises no halt line and lowers none. -/
theorem abortRestores_halts (s : State) (top : Nat) : (s.abortRestores top).halts = s.halts :=
  foldl_halts (fun s p => by
    obtain ⟨n, r⟩ := p
    dsimp only
    split
    · rfl
    · split
      · split
        · exact (putImage_halts _ _ _).trans (foldl_halts (fun s (ck, k) => liftCluster_halts s ck k) _ s)
        · rfl
      · rfl) _ s

/-- A latch change that the line cuts short leaves latch and clean bit 0, on a core with nothing on it (R24). -/
theorem cutLatch_cases (s : State) (top c : Nat) : s.cutLatch top c = s ∨
    (s.core c).blocks = [] ∧ (s.core c).queue = [] ∧ s.cutLatch top c = s.setCore c { s.core c with latch := 0, clean := false } := by
  unfold State.cutLatch
  dsimp only
  split
  · rename_i h
    simp only [Bool.and_eq_true, List.isEmpty_iff] at h
    obtain ⟨⟨⟨hb, hq⟩, _⟩, _⟩ := h
    exact .inr ⟨hb, hq, rfl⟩
  · exact .inl rfl

theorem cutLatch_halts (s : State) (top c : Nat) : (s.cutLatch top c).halts = s.halts := by
  rcases cutLatch_cases s top c with h | ⟨-, -, h⟩ <;> rw [h]
  rfl

/-- The halt line's table once it has stopped an engine. -/
def State.stopEngine (s : State) (top : Nat) (h : Halt) (e : EngineId) : State :=
  { s with halts := kset s.halts top { h with stopped := h.stopped ++ [e] } }

theorem stopEngine_halts (s : State) (top : Nat) (h : Halt) (e : EngineId) :
    kget (s.stopEngine top h e).halts top = some { h with stopped := h.stopped ++ [e] } := kget_kset_self _ _ _

section
variable {s : State} {top : Nat} {h : Halt} {r : Region} (hh : kget s.halts top = some h) (hr : kget s.regions top = some r)
include hh hr

section
variable {e : EngineId} (hgo : (h.stopped.contains e || !servesPartition r.env.partition e) = false)
include hgo

/-- A wave core stops, a latch change of its core cut short or not (R24, R360). -/
theorem haltArrives_waveCore {c : Nat} (he : e = .waveCore c) :
    SameLines ((s.cutLatch top c).stopEngine top h e) (s.haltArrives top e) := by
  subst he
  simp only [State.haltArrives, hh, hr, hgo, Bool.false_eq_true, if_false]
  exact stopRecord_sameLines _ _ _ _ _ _ _ _ _

/-- A copy engine stops; where channels of the partition run, the record comes with each of them (R330, R361). -/
theorem haltArrives_copy {g : Nat} (he : e = .copy g) : SameLines (s.stopEngine top h e) (s.haltArrives top e) := by
  subst he
  simp only [State.haltArrives, hh, hr, hgo, Bool.false_eq_true, if_false]
  split
  · exact ⟨rfl, rfl, rfl, rfl⟩
  · exact stopRecord_sameLines _ _ _ _ _ _ _ _ _

theorem haltArrives_distributor {d : Nat} (he : e = .distributor d) :
    SameLines (s.stopEngine top h e) (s.haltArrives top e) := by
  subst he
  simp only [State.haltArrives, hh, hr, hgo, Bool.false_eq_true, if_false]
  exact stopRecord_sameLines _ _ _ _ _ _ _ _ _

/-- A save engine stops, and the partition's restores with it (R384). -/
theorem haltArrives_save {g : Nat} (he : e = .save g) : (s.haltArrives top e).halts = (s.stopEngine top h e).halts := by
  subst he
  simp only [State.haltArrives, hh, hr, hgo, Bool.false_eq_true, if_false]
  exact (stopRecord_sameLines _ _ _ _ _ _ _ _ _).halts.trans (abortRestores_halts _ _)

/-- An engine that is no matrix engine stops at once (R360). -/
theorem haltArrives_stops (hm : ∀ c, e ≠ .matrix c) :
    kget (s.haltArrives top e).halts top = some { h with stopped := h.stopped ++ [e] } := by
  have hstop : (s.haltArrives top e).halts = (s.stopEngine top h e).halts := by
    cases he : e with
    | matrix c => exact absurd he (hm c)
    | waveCore c =>
      refine he ▸ (haltArrives_waveCore hh hr hgo he).halts.trans ?_
      exact congrArg (kset · top _) (cutLatch_halts s top c)
    | copy g => exact he ▸ (haltArrives_copy hh hr hgo he).halts
    | save g => exact he ▸ haltArrives_save hh hr hgo he
    | distributor d => exact he ▸ (haltArrives_distributor hh hr hgo he).halts
  rw [hstop]
  exact stopEngine_halts s top h e

/-- Where a wave core stops the cores stay, but for a latch change cut short (R24). -/
theorem haltArrives_waveCore_cores {c : Nat} (he : e = .waveCore c) : (s.haltArrives top e).cores = s.cores ∨
    (s.core c).blocks = [] ∧ (s.core c).queue = [] ∧
      (s.haltArrives top e).cores = kset s.cores c { s.core c with latch := 0, clean := false } := by
  have hcores := (haltArrives_waveCore hh hr hgo he).cores
  rcases cutLatch_cases s top c with hcut | ⟨hb, hq, hcut⟩
  · exact .inl (hcores.trans (congrArg State.cores hcut :))
  · exact .inr ⟨hb, hq, hcores.trans (congrArg State.cores hcut :)⟩

end

/-- A matrix engine with none of the partition's operations in flight stops (R360). -/
theorem haltArrives_matrix_idle {c : Nat} (hgo : (h.stopped.contains (.matrix c) || !servesPartition r.env.partition (.matrix c)) = false)
    (hf : s.flightCount top c = 0) : kget (s.haltArrives top (.matrix c)).halts top =
      some { h with stopped := h.stopped ++ [.matrix c] } := by
  simp only [State.haltArrives, hh, hr, hgo, hf, ne_eq, not_true_eq_false, Bool.false_eq_true, if_false]
  rw [(stopRecord_sameLines _ _ _ _ _ _ _ _ _).halts]
  exact stopEngine_halts s top h (.matrix c)

/-- A matrix engine with operations in flight is marked as reached, once, and goes on (R360). -/
theorem haltArrives_matrix_busy {c : Nat} (hgo : (h.stopped.contains (.matrix c) || !servesPartition r.env.partition (.matrix c)) = false)
    (hf : s.flightCount top c ≠ 0) : s.haltArrives top (.matrix c) = if (kget h.reached c).isSome then s else
      { s with halts := kset s.halts top { h with reached := kset h.reached c (s.flightCount top c) } } := by
  simp only [State.haltArrives, hh, hr, hgo, hf, ne_eq, not_false_eq_true, Bool.false_eq_true, if_false, if_true]
end

/-- No operation of a partition is in flight on a core where none of its blocks there has one. -/
theorem flightCount_eq_zero (s : State) (top c : Nat) : s.flightCount top c = 0 ↔
    ∀ n b, (n, b) ∈ (s.core c).blocks → b.env.top = top → b.seqr.flights = [] := by
  simp only [State.flightCount, kvals, List.map_map, List.sum_eq_zero_iff, List.forall_mem_map, Prod.forall]
  refine forall₃_congr fun n b hm => ?_
  by_cases ht : b.env.top = top <;> simp [ht]

/-! ### The debugger's halts (R358, R388) -/

/-- A wave of a core changed by `f` where its block is of the region. -/
def Core.mapWave (k : Core) (region : Nat) (f : Wave → Wave) (w : Wave) : Wave :=
  match kget k.blocks w.bslot with
  | some b => if b.env.region = region then f w else w
  | none => w

theorem mapWave_of_block {k : Core} {w : Wave} {b : Block} (hb : kget k.blocks w.bslot = some b) (region : Nat) (f : Wave → Wave) :
    k.mapWave region f w = if b.env.region = region then f w else w := by
  simp only [Core.mapWave, hb]

/-- A core with the waves of a region changed. -/
def Core.mapRegion (k : Core) (region : Nat) (f : Wave → Wave) : Core :=
  { k with waves := k.waves.map fun e => (e.1, k.mapWave region f e.2) }

theorem core_mapRegion (s : State) (region : Nat) (f : Wave → Wave) (c : Nat) :
    (s.mapRegion region f).core c = (s.core c).mapRegion region f := by
  have hcores : (s.mapRegion region f).cores = s.cores.map fun e => (e.1, e.2.mapRegion region f) := rfl
  unfold State.core kgetD
  rw [hcores, kget_map s.cores (·.mapRegion region f)]
  cases kget s.cores c <;> rfl

/-- A change of a region's waves reaches the waves of its blocks and no other. -/
theorem wave_mapRegion {s : State} {core slot : Nat} {w : Wave} {b : Block} (hw : s.wave core slot = some w)
    (hb : s.block core w.bslot = some b) (region : Nat) (f : Wave → Wave) :
    (s.mapRegion region f).wave core slot = some (if b.env.region = region then f w else w) := by
  have hw' : kget (s.core core).waves slot = some w := hw
  rw [State.wave, core_mapRegion, Core.mapRegion, kget_map, hw', Option.map_some, mapWave_of_block hb]

section
variable {s : State} {func region : Nat} (hd : s.debugsRegion func region = true)
include hd

/-- A halt of a context that is being sealed is held with its waves (R388). -/
theorem debugHalt_of_sealing (hs : s.sealing region = true) : s.debugHalt func region =
    s.mapRegion region fun w => if w.recorded || !w.atBoundary then { w with bkpend := true }
      else { w with recorded := true, bkpend := true } := by
  simp only [State.debugHalt, hd, hs, Bool.not_true, Bool.false_eq_true, if_false, if_true]

/-- A halt stops the waves on the cores; the records of sealed images hold it (R358, R388). -/
theorem debugHalt_sameLines (hs : s.sealing region = false) : SameLines
    (s.mapRegion region fun w => if w.recorded && !s.restoring region then w else { w with dbgHalt := true })
    (s.debugHalt func region) := by
  simp only [State.debugHalt, hd, hs, Bool.not_true, Bool.false_eq_true, if_false]
  exact foldl_changeImage_sameLines _ _ _

theorem debugResume_eq : s.debugResume func region = s.mapRegion region fun w => { w with dbgHalt := false } := if_pos hd

theorem debugArm_eq (arm : Bool) : s.debugArm func region arm = { s with host := { s.host with
    armed := if arm then nins s.host.armed region else ndel s.host.armed region } } := if_pos hd
end

/-- A debugger that may not reach a region changes nothing of it. -/
theorem debug_of_unreachable {s : State} {func region : Nat} (hd : s.debugsRegion func region = false) :
    s.debugHalt func region = s ∧ s.debugResume func region = s ∧ ∀ arm, s.debugArm func region arm = s := by
  simp [State.debugHalt, State.debugResume, State.debugArm, hd]

/-! ### The debugger's writes (R358, R475) -/

/-- A bank with one lane of vector register `n` written by a debugger. -/
def Bank.debugPut (b : Bank) (lane n : Nat) (x : Word) : Bank := b.write (Mask.one lane) Mask.all n (.u x) (b.reg n).fmt

/-- The lane is written, and every other lane of the bank keeps its value. -/
theorem lane_debugPut (b : Bank) {lane n : Nat} (x : Word) (hl : lane < 32) (hn : n ≠ 1023) :
    (∀ l, l < 32 → ((b.debugPut lane n x).reg n).val.lane l = if l = lane then x else (b.reg n).val.lane l) ∧
      ∀ m, m ≠ n → ∀ l, l < 32 → ((b.debugPut lane n x).reg m).val.lane l = (b.reg m).val.lane l := by
  refine ⟨fun l hl' => ?_, fun m hm => (lane_write_ne b _ _ _ _ hm).1⟩
  by_cases hll : l = lane
  · rw [if_pos hll]
    exact lane_write_active b _ _ _ _ hn hl' ((Mask.getLsbD_one lane l hl).trans (decide_eq_true hll))
  · rw [if_neg hll]
    exact lane_write_other b _ _ _ _ hn hl' (by simp only [Mask.all, BitVec.getLsbD_allOnes, hl', decide_true])
      ((Mask.getLsbD_one lane l hl).trans (decide_eq_false hll))

section
variable {s : State} {func core slot v n : Nat} {w : Wave} (hw : s.debugged func = some (core, slot, w))
  (hv : (kgetD s.host.dbgsel func 0).toNat = v) (hn : field v 15 10 = n) (x : Dword)
include hw hv hn

/-- A vector register below the e registers, refilled first where it is spilled. -/
theorem debugWrite_vector {s1 : State} {w2 : Wave} (hk : field v 13 2 = 0) (hlt : n < 640)
    (hs1 : (if n ∈ w.spilled then s.refill core slot n else s) = s1) (hw2 : s1.debugged func = some (core, slot, w2)) :
    s.debugWrite func x = s1.setWave core slot { w2 with base := w2.base.debugPut (field v 25 5) n (lowWord x) } := by
  simp only [State.debugWrite, hw, hv, hn, hk, decide_true, Bool.true_and, List.contains_iff_mem, hs1, hw2, hlt, if_true]
  rfl

/-- An e register of the handler that the wave is in. -/
theorem debugWrite_handler (hk : field v 13 2 = 0) (hge : 640 ≤ n) (hlt : n < 672) (hl : w.level ≠ 0) (hs : n ∉ w.spilled) :
    s.debugWrite func x = s.setWave core slot (w.setBank (w.bank.debugPut (field v 25 5) n (lowWord x))) := by
  simp only [State.debugWrite, hw, hv, hn, hk, decide_true, Bool.true_and, List.contains_iff_mem, hs, if_false]
  rw [if_neg (Nat.not_lt.mpr hge), if_pos (by simp [hlt, hl])]
  rfl

/-- A predicate, a group-wide register or the address: nothing is refilled for them. -/
theorem debugWrite_pred (hk : field v 13 2 = 1) :
    s.debugWrite func x = s.setWave core slot (w.setBank (w.bank.writePred Mask.all n (lowWord x))) := by
  simp only [State.debugWrite, hw, hv, hn, hk, one_ne_zero, decide_false, Bool.false_and, Bool.false_eq_true, if_false]

theorem debugWrite_group (hk : field v 13 2 = 2) : s.debugWrite func x = s.setWave core slot (w.setBank (w.bank.writeGrp n x)) := by
  simp only [State.debugWrite, hw, hv, hn, hk, OfNat.ofNat_ne_zero, decide_false, Bool.false_and, Bool.false_eq_true, if_false]

omit hn in
theorem debugWrite_pc (hk : field v 13 2 = 3) : s.debugWrite func x = s.setWave core slot (w.atPc (lowWord x)) := by
  simp only [State.debugWrite, hw, hv, hk, Wave.atPc, OfNat.ofNat_ne_zero, decide_false, Bool.false_and, Bool.false_eq_true, if_false]
end

/-- A predicate written whole by a debugger, and nothing else of the wave. -/
theorem onlyPred_writePred_all (w : Wave) (n : Nat) (m : Mask) :
    OnlyPred w (w.setBank (w.bank.writePred Mask.all n m)) (destRegs n 1) ∧
      (n ≠ 1023 → (w.setBank (w.bank.writePred Mask.all n m)).bank.pred n = m) := by
  -- Of the context of a write only the active lanes count: here all of them.
  refine ⟨onlyPred_writeP { fetchCtx State.reset 0 0 w 0 with act := Mask.all } w n m, fun hn => ?_⟩
  rw [bank_setBank, pred_writePred _ _ _ _ _ hn, if_pos rfl, Mask.all, BitVec.and_allOnes, BitVec.not_allOnes, BitVec.and_zero,
    BitVec.or_zero]

/-! ### Page requests (R474) -/

theorem serveParked_of_nil {s : State} (h : s.parked = []) : s.serveParked = { s with parked := [] } := by
  simp [State.serveParked, h]

/-- A request that failed is kept with its answer; with no parked request its record is all that follows. -/
theorem failPage_pri {s : State} (hp : s.parked = []) (tag : Nat) (r : PageReq) :
    kget (s.failPage tag r).pri tag = some { r with answer := some false } := by
  have hserve : ∀ t : State, t.parked = [] → t.serveParked.pri = t.pri := fun t ht => by rw [serveParked_of_nil ht]
  have hrec := putRecord_sameLines { s with pri := kset s.pri tag { r with answer := some false } }
  have hpri : (s.failPage tag r).pri = kset s.pri tag { r with answer := some false } :=
    (hserve _ ((hrec _).parked.trans hp)).trans (hrec _).pri
  rw [hpri, kget_kset_self]

section
variable {s : State} {tag : Nat} {r : PageReq} (hr : kget s.pri tag = some r) (ha : r.answer = none)
include hr ha

theorem pageAnswered_eq (ok : Bool) : s.pageAnswered tag ok =
    if ok then ({ s with pri := kdel s.pri tag, hostPresent := nins s.hostPresent r.page }).serveParked else s.failPage tag r := by
  simp [State.pageAnswered, hr, ha]

theorem pageTimeout_of_due (hd : r.sentAt + 100000 * microsecond ≤ s.now 8) : s.pageTimeout tag = s.failPage tag r := by
  simp [State.pageTimeout, hr, ha, Nat.not_lt.mpr hd]
end

/-- Settles O43: each event's law carried to it. -/
theorem haltsDebuggingPages : Obligations.HaltsDebuggingPages := by
  unfold Obligations.HaltsDebuggingPages
  refine ⟨fun top e s h r hh hr hn hp hm => ?engine, fun top c s h r hh hr hn hc => ?matrix,
    fun func region s hd hs => ⟨_, rfl, fun core slot w b hw hb => ?halted⟩,
    fun func region s hd hs => ⟨_, rfl, fun core slot w b hw hb => ?held⟩,
    fun func region s hd => ⟨_, congrArg Host.Outcome.next (debugResume_eq hd), rfl,
      fun core slot w b hw hb => wave_mapRegion hw hb _ _⟩,
    fun func region s hd => ⟨congrArg Host.Outcome.next (debugArm_eq hd true), congrArg Host.Outcome.next (debugArm_eq hd false)⟩,
    fun func region s hd => ?unreachable, fun func x s core slot w hw => ?write, fun tag s r hr ha => ?page⟩
  case engine =>
    have hgo : (h.stopped.contains e || !servesPartition r.env.partition e) = false := by simp [hn, hp]
    refine ⟨_, rfl, haltArrives_stops hh hr hgo hm, fun ⟨d, hd⟩ => ?_, fun c hc => haltArrives_waveCore_cores hh hr hgo hc⟩
    rcases hd with hd | hd
    · exact (haltArrives_copy hh hr hgo hd).cores
    · exact (haltArrives_distributor hh hr hgo hd).cores
  case matrix =>
    have hgo : (h.stopped.contains (.matrix c) || !servesPartition r.env.partition (.matrix c)) = false := by
      simp [hn, hc, servesPartition]
    refine ⟨fun hidle => ⟨_, rfl, haltArrives_matrix_idle hh hr hgo ((flightCount_eq_zero s top c).mpr hidle)⟩,
      fun ⟨n, b, hm, htop, hf⟩ => ?_⟩
    have hbusy := haltArrives_matrix_busy hh hr hgo fun h0 => hf ((flightCount_eq_zero s top c).mp h0 n b hm htop)
    refine ⟨fun hreached => congrArg Host.Outcome.next (hbusy.trans (if_pos (Option.isSome_iff_ne_none.mpr hreached))),
      fun hnone => congrArg Host.Outcome.next (hbusy.trans (if_neg ?_))⟩
    simp [hnone]
  case halted =>
    refine ((debugHalt_sameLines hd hs).wave core slot).trans ((wave_mapRegion hw hb _ _).trans (congrArg some ?_))
    by_cases hreg : b.env.region = region
    · cases hrec : w.recorded <;> cases hres : s.restoring region <;> simp [hreg]
    · simp [hreg]
  case held =>
    refine (congrArg (State.wave · core slot) (debugHalt_of_sealing hd hs)).trans ((wave_mapRegion hw hb _ _).trans ?_)
    simp only [Bool.or_eq_true, Bool.not_eq_true']
  case unreachable =>
    obtain ⟨hhalt, hresume, harm⟩ := debug_of_unreachable hd
    exact ⟨congrArg Host.Outcome.next hhalt, congrArg Host.Outcome.next hresume, congrArg Host.Outcome.next (harm true),
      congrArg Host.Outcome.next (harm false)⟩
  case write =>
    intro v n
    have hlane : field v 25 5 < 32 := Nat.mod_lt _ (Nat.two_pow_pos 5)
    refine ⟨fun hk hlt w2 hw2 => ⟨_, congrArg Host.Outcome.next (debugWrite_vector hw rfl rfl x hk hlt rfl hw2), rfl,
        lane_debugPut w2.base (n := n) (lowWord x) hlane (by omega)⟩,
      fun hk hge hlt hl hs => ⟨_, congrArg Host.Outcome.next (debugWrite_handler hw rfl rfl x hk hge hlt hl hs), ?_⟩,
      fun hk => ⟨_, congrArg Host.Outcome.next (debugWrite_pred hw rfl rfl x hk), onlyPred_writePred_all w n (lowWord x)⟩,
      fun hk => ⟨_, congrArg Host.Outcome.next (debugWrite_group hw rfl rfl x hk),
        wroteGrp_writeG (fetchCtx s core slot w 0) w n x⟩,
      fun hk => congrArg Host.Outcome.next (debugWrite_pc hw rfl x hk)⟩
    rw [bank_setBank]
    exact ⟨rfl, lane_debugPut w.bank (n := n) (lowWord x) hlane (by omega)⟩
  case page =>
    refine ⟨congrArg Host.Outcome.next (pageAnswered_eq hr ha true), congrArg Host.Outcome.next (pageAnswered_eq hr ha false),
      fun hd => congrArg Host.Outcome.next (pageTimeout_of_due hr ha hd), fun hp => ⟨_, failPage_pri hp tag r, rfl, rfl⟩⟩

end Sys2Proof.Machine
end

section
/-!
Decoding and encoding (O53, O54): every instruction decodes from its own word, and every word that decodes is its instruction's own.
-/
/-! ### The encoding of every instruction -/
namespace Sys2Proof.Laws

/-- The laws of the family together: whatever its constructor, a well-formed instruction decodes from its own word. -/
theorem Encoding.every : ∀ i : Instr, Encoding.Statement i
  | .iadd _ => iadd _ | .iaddImm _ => iaddImm _ | .isub _ => isub _ | .isubImm _ => isubImm _ | .imul _ => imul _
  | .imulImm _ => imulImm _ | .imulh _ => imulh _ | .imulhImm _ => imulhImm _ | .imulw _ => imulw _ | .imad _ => imad _
  | .ilea _ => ilea _ | .ileaImm _ => ileaImm _ | .imin _ => imin _ | .iminImm _ => iminImm _ | .imax _ => imax _
  | .imaxImm _ => imaxImm _ | .iabs _ => iabs _ | .ineg _ => ineg _ | .isad _ => isad _ | .idiv _ => idiv _
  | .idivImm _ => idivImm _ | .irem _ => irem _ | .iremImm _ => iremImm _ | .icmp _ => icmp _ | .icmpImm _ => icmpImm _
  | .andBits _ => andBits _ | .andImm _ => andImm _ | .orBits _ => orBits _ | .orImm _ => orImm _ | .xorBits _ => xorBits _
  | .xorImm _ => xorImm _ | .notBits _ => notBits _ | .bfn3 _ => bfn3 _ | .shl _ => shl _ | .shlImm _ => shlImm _ | .shr _ => shr _
  | .shrImm _ => shrImm _ | .rotl _ => rotl _ | .rotlImm _ => rotlImm _ | .fshl _ => fshl _ | .bfx _ => bfx _ | .bfi _ => bfi _
  | .popc _ => popc _ | .clz _ => clz _ | .brev _ => brev _ | .prmb _ => prmb _ | .prmbImm _ => prmbImm _ | .mov _ => mov _
  | .movImm _ => movImm _ | .movGroupWide _ => movGroupWide _ | .movGroupWideImm _ => movGroupWideImm _ | .sel _ => sel _
  | .selGroupWide _ => selGroupWide _ | .groupWideAlu _ => groupWideAlu _ | .fadd _ => fadd _ | .faddImm _ => faddImm _
  | .fsub _ => fsub _ | .fsubImm _ => fsubImm _ | .fmul _ => fmul _ | .fmulImm _ => fmulImm _ | .fma _ => fma _ | .fmin _ => fmin _
  | .fminImm _ => fminImm _ | .fmax _ => fmax _ | .fmaxImm _ => fmaxImm _ | .fmed3 _ => fmed3 _ | .fcmp _ => fcmp _
  | .fcmpImm _ => fcmpImm _ | .fdiv _ => fdiv _ | .frcp _ => frcp _ | .fsqrt _ => fsqrt _ | .frsq _ => frsq _ | .fexp2 _ => fexp2 _
  | .flog2 _ => flog2 _ | .fsin _ => fsin _ | .fcos _ => fcos _ | .fclass _ => fclass _ | .fcps _ => fcps _
  | .fcpsImm _ => fcpsImm _ | .fscl _ => fscl _ | .fsclImm _ => fsclImm _ | .frnd _ => frnd _ | .cvt _ => cvt _
  | .cvtGroupWide _ => cvtGroupWide _ | .pack _ => pack _ | .unpk _ => unpk _ | .qnt _ => qnt _ | .dqnt _ => dqnt _
  | .fdot2 _ => fdot2 _ | .idot4 _ => idot4 _ | .ldot _ => ldot _ | .shfl _ => shfl _ | .shflImm _ => shflImm _ | .swz _ => swz _
  | .vote _ => vote _ | .ballot _ => ballot _ | .matchLanes _ => matchLanes _ | .elect _ => elect _ | .flane _ => flane _
  | .redi _ => redi _ | .redf _ => redf _ | .scani _ => scani _ | .scanf _ => scanf _ | .scanp _ => scanp _ | .cmpct _ => cmpct _
  | .expnd _ => expnd _ | .rdlane _ => rdlane _ | .rdlaneImm _ => rdlaneImm _ | .wrlane _ => wrlane _ | .wrlaneImm _ => wrlaneImm _
  | .bcst _ => bcst _ | .plop _ => plop _ | .plopGroupWide _ => plopGroupWide _ | .pcnt _ => pcnt _ | .p2r _ => p2r _
  | .movrp _ => movrp _ | .shpq _ => shpq _ | .shpx _ => shpx _ | .shpc _ => shpc _ | .fmtq _ => fmtq _ | .fmts _ => fmts _
  | .near _ => near _ | .actq _ => actq _ | .deadq _ => deadq _ | .poisq _ => poisq _ | .ld _ => ld _ | .st _ => st _
  | .ldc _ => ldc _ | .stc _ => stc _ | .ldg _ => ldg _ | .pref _ => pref _ | .cbnd _ => cbnd _ | .cadd _ => cadd _
  | .cset _ => cset _ | .cperm _ => cperm _ | .cseal _ => cseal _ | .cunsl _ => cunsl _ | .cget _ => cget _ | .ctest _ => ctest _
  | .cmov _ => cmov _ | .lds _ => lds _ | .sts _ => sts _ | .ldfe _ => ldfe _ | .stfe _ => stfe _ | .feset _ => feset _
  | .feq _ => feq _ | .atoms _ => atoms _ | .cass _ => cass _ | .binit _ => binit _ | .arrive _ => arrive _
  | .arriveAppliedAtHome _ _ => arriveAppliedAtHome _ _ | .wait _ => wait _ | .trywait _ => trywait _ | .bar _ => bar _
  | .implicitBarrierComplete _ _ _ => implicitBarrierComplete _ _ _ | .atom _ => atom _ | .red _ => red _ | .cas _ => cas _
  | .fence _ => fence _ | .spawn _ => spawn _ | .gbar _ => gbar _ | .gridBarrierGeneration _ => gridBarrierGeneration _
  | .mfence _ => mfence _ | .nbar _ => nbar _ | .nbwait _ => nbwait _ | .zread _ => zread _ | .zwrite _ => zwrite _
  | .badv _ => badv _ | .bqry _ => bqry _ | .rng _ => rng _ | .rngf _ => rngf _ | .rngadv _ => rngadv _ | .rngld _ => rngld _
  | .rngst _ => rngst _ | .rngq _ => rngq _ | .bra _ => bra _ | .brx _ => brx _ | .call _ => call _ | .callx _ => callx _
  | .ret _ => ret _ | .exit _ => exit _ | .recon _ => recon _ | .loop _ => loop _ | .endl _ => endl _ | .breakLoop _ => breakLoop _
  | .jseg _ => jseg _ | .segld _ => segld _ | .segmentLoadComplete _ _ _ => segmentLoadComplete _ _ _ | .segdrop _ => segdrop _
  | .segmentDropFree _ _ _ => segmentDropFree _ _ _ | .segq _ => segq _ | .nop _ => nop _ | .yield _ => yield _ | .live _ => live _
  | .mma _ => mma _ | .mmas _ => mmas _ | .zld _ => zld _ | .zst _ => zst _ | .zclr _ => zclr _
  | .tileOperationResultPoint _ _ => tileOperationResultPoint _ _ | .bwait _ => bwait _ | .bfree _ => bfree _
  | .bfreeApplied _ _ => bfreeApplied _ _ | .nbsig _ => nbsig _ | .nbsigApplied _ _ => nbsigApplied _ _ | .nbsw _ => nbsw _
  | .sloop _ => sloop _ | .sendl _ => sendl _ | .send _ => send _ | .snop _ => snop _ | .invk _ => invk _ | .chstat _ => chstat _
  | .chwait _ => chwait _ | .chcan _ => chcan _ | .cbseal _ => cbseal _ | .cbchk _ => cbchk _ | .trap _ => trap _
  | .bkpt _ => bkpt _ | .movw _ => movw _ | .emret _ => emret _ | .tret _ => tret _ | .srd _ => srd _ | .swr _ => swr _
  | .zemuMark _ => zemuMark _ | .zemuRel _ => zemuRel _ | .zemuQry _ => zemuQry _
  | .asynchronousTrapDelivery _ _ => asynchronousTrapDelivery _ _ | .registerRefill _ _ _ => registerRefill _ _ _
  | .missRejectionRetry _ _ => missRejectionRetry _ _ | .reservationQueueIssue _ => reservationQueueIssue _
  | .l1LineFill _ _ => l1LineFill _ _ | .l1LineAgeInvalidation _ _ => l1LineAgeInvalidation _ _
  | .storeLeavesBuffer _ _ _ => storeLeavesBuffer _ _ _ | .storeWrittenAtHome _ _ => storeWrittenAtHome _ _
  | .storeAcknowledged _ => storeAcknowledged _ | .atomicChainApplied _ _ => atomicChainApplied _ _
  | .hotWordWriteback _ => hotWordWriteback _ | .blockRetirement _ _ => blockRetirement _ _ | .latchChange _ _ => latchChange _ _
  | .blockPlacement _ => blockPlacement _ | .gridExpansion _ => gridExpansion _
  | .persistentGridPlacement _ => persistentGridPlacement _ | .waveBecomesUrgent _ _ => waveBecomesUrgent _ _
  | .timeSliceExpiry _ => timeSliceExpiry _ | .preEmptionSignal _ => preEmptionSignal _
  | .preEmptionWindowEnd _ _ => preEmptionWindowEnd _ _ | .contextSave _ => contextSave _ | .saveComplete _ => saveComplete _
  | .contextRestore _ => contextRestore _ | .haltedSave _ => haltedSave _ | .haltedPartitionDiscard _ => haltedPartitionDiscard _
  | .sealedSave _ => sealedSave _ | .heldChannelWrite _ _ => heldChannelWrite _ _ | .haltLineArrival _ _ => haltLineArrival _ _
  | .channelHaltStop _ _ => channelHaltStop _ _ | .debuggerHalt _ _ => debuggerHalt _ _ | .debuggerResume _ _ => debuggerResume _ _
  | .debuggerArm _ _ => debuggerArm _ _ | .debuggerDisarm _ _ => debuggerDisarm _ _ | .dbgdataWrite _ _ => dbgdataWrite _ _
  | .channelUnitTransfer _ _ => channelUnitTransfer _ _ | .commandCompletionWrite _ _ => commandCompletionWrite _ _
  | .collectiveCancellation _ _ => collectiveCancellation _ _ | .loessIdleFlit _ => loessIdleFlit _
  | .linkTimeout _ => linkTimeout _ | .switchTimeout _ => switchTimeout _ | .groupTimeout _ _ => groupTimeout _ _
  | .flitCrcReplay _ _ => flitCrcReplay _ _ | .read _ _ => read _ _ | .readResponse _ _ => readResponse _ _
  | .write _ _ => write _ _ | .writeAcknowledgement _ _ => writeAcknowledgement _ _ | .atomic _ _ => atomic _ _
  | .atomicResponse _ _ => atomicResponse _ _ | .collectiveData _ _ => collectiveData _ _
  | .collectiveControl _ _ => collectiveControl _ _ | .forerunnerLaunch _ _ => forerunnerLaunch _ _
  | .linkControl _ _ => linkControl _ _ | .remoteFaultArrival _ _ => remoteFaultArrival _ _ | .launch _ => launch _
  | .launchRetirement _ => launchRetirement _ | .indirect _ => indirect _ | .pred _ => pred _ | .loopPacket _ => loopPacket _
  | .waitmem _ => waitmem _ | .waitmemTimeout _ => waitmemTimeout _ | .writePacket _ => writePacket _ | .signal _ => signal _
  | .fetchfence _ => fetchfence _ | .drain _ => drain _ | .regionSet _ => regionSet _ | .regionSave _ => regionSave _
  | .regionRestore _ => regionRestore _ | .regionPrio _ => regionPrio _ | .nopPacket _ => nopPacket _
  | .doorbell _ _ => doorbell _ _ | .queueMap _ => queueMap _ | .queueIdle _ => queueIdle _ | .qmapMap _ => qmapMap _
  | .qmapUnmap _ => qmapUnmap _ | .cpmodeWrite _ => cpmodeWrite _ | .functionLevelReset _ => functionLevelReset _
  | .heartbeat => heartbeat | .firmwareTakeover => firmwareTakeover | .liveUpdate => liveUpdate | .rollbackRaise => rollbackRaise
  | .create => create | .destroy => destroy | .assign => assign | .revoke => revoke | .release => release | .attr => attr
  | .quar => quar | .unquar => unquar | .mint => mint | .table => table | .attest => attest
  | .auditReexecution _ => auditReexecution _ | .auditComparison _ => auditComparison _ | .auditTieBreak _ => auditTieBreak _
  | .cscoreClr _ _ => cscoreClr _ _ | .swreq => swreq | .sweeperPassStart => sweeperPassStart
  | .sweeperPassComplete => sweeperPassComplete | .powerWindow => powerWindow | .pageRequestResponse _ _ => pageRequestResponse _ _
  | .pageRequestTimeout _ => pageRequestTimeout _ | .devnoWrite _ _ => devnoWrite _ _
  | .deviceRegisterWrite _ _ _ => deviceRegisterWrite _ _ _ | .powerOnReset => powerOnReset | .warmReset => warmReset
  | .freeze => freeze | .hostApertureAccess _ _ _ _ => hostApertureAccess _ _ _ _ | .powerLoss => powerLoss
  | .activeComplexFailure => activeComplexFailure | .dieToDieLinkFailure _ _ => dieToDieLinkFailure _ _
  | .idleFlitReceipt _ _ => idleFlitReceipt _ _ | .flitDiscard _ _ => flitDiscard _ _
  | .uncorrectableError _ => uncorrectableError _ | .freezeRelease => freezeRelease

end Sys2Proof.Laws

namespace Sys2Proof

/-- Settles O53: each constructor's own law of its word. -/
theorem decodeEncode : Obligations.DecodeEncode := by
  unfold Obligations.DecodeEncode
  exact Laws.Encoding.every

/-! ### A parsed word packed again (R39 to R48) -/

/-- One bit of a word as a slice of length 1. -/
theorem ofBool_getLsbD {n : Nat} (x : BitVec n) (i : Nat) : BitVec.ofBool (x.getLsbD i) = x.extractLsb' i 1 := by
  apply BitVec.eq_of_getLsbD_eq
  intro j hj
  obtain rfl : j = 0 := by omega
  simp

theorem ofNat_of_opOf {w : Slot} {code : Nat} (h : opOf w = code) : BitVec.ofNat 10 code = w.extractLsb' 0 10 := by
  apply BitVec.eq_of_toNat_eq
  simp [← h, opOf, BitVec.extractLsb'_toNat]

open BitVec (extractLsb'_append_extractLsb'_eq_extractLsb')

theorem Common.pack_parse (w : Slot) : (Common.parse w).pack = w.extractLsb' 40 16 := by
  simp only [Common.pack, Common.parse, ofBool_getLsbD, extractLsb'_append_extractLsb'_eq_extractLsb']

section
variable {w : Slot} {code : Nat} (h : opOf w = code)
include h

theorem VF.pack_parse : (VF.parse w).pack code = w := by
  simp only [VF.pack, VF.parse, Common.pack_parse, ofBool_getLsbD, ofNat_of_opOf h,
    extractLsb'_append_extractLsb'_eq_extractLsb']
  exact slice_all

theorem IF.pack_parse : (IF.parse w).pack code = w := by
  simp only [IF.pack, IF.parse, Common.pack_parse, ofNat_of_opOf h,
    extractLsb'_append_extractLsb'_eq_extractLsb']
  exact slice_all

theorem MF.pack_parse : (MF.parse w).pack code = w := by
  simp only [MF.pack, MF.parse, Common.pack_parse, ofNat_of_opOf h,
    extractLsb'_append_extractLsb'_eq_extractLsb']
  exact slice_all

theorem BF.pack_parse : (BF.parse w).pack code = w := by
  simp only [BF.pack, BF.parse, Common.pack_parse, ofNat_of_opOf h,
    extractLsb'_append_extractLsb'_eq_extractLsb']
  exact slice_all

theorem XF.pack_parse : (XF.parse w).pack code = w := by
  simp only [XF.pack, XF.parse, Common.pack_parse, ofBool_getLsbD, ofNat_of_opOf h,
    extractLsb'_append_extractLsb'_eq_extractLsb']
  exact slice_all

theorem SF.pack_parse : (SF.parse w).pack code = w := by
  simp only [SF.pack, SF.parse, Common.pack_parse, ofNat_of_opOf h,
    extractLsb'_append_extractLsb'_eq_extractLsb']
  exact slice_all
end

/-! ### What a defect-free encoding is not -/

theorem View.fate_of_undefined {v : View} (h : v.undefined = true) (c : FateCtx) : v.fate c = some (1, 0) := by
  simp [View.fate, h]

theorem View.undefined_of_wf {v : View} (h : v.wf = true) : v.undefined = false := by
  by_contra hu
  have hfate := View.fate_of_undefined (eq_true_of_ne_false hu)
  cases v <;> simp [View.wf, View.staticFate, hfate] at h

/-- SUB of a ZEMU without defect names one of its three forms (R350). -/
theorem sub_le_of_zemu_wf {f : VF} (h : (View.alu (f.args .zemu false)).wf = true) : f.sub.toNat ≤ 2 := by
  have hu := View.undefined_of_wf h
  simp only [View.undefined, Bool.or_eq_false_iff] at hu
  obtain ⟨⟨⟨⟨_, hsub⟩, _⟩, _⟩, _⟩ := hu
  have hle : (some (decide (f.sub.toNat ≤ 2)) == some false) = false := hsub
  simpa using hle

/-! ### The word of what a code reads as -/

/-- Whatever `o` reads from the word `w` has `w` as its word, and without defect it is in the row of its code. -/
def Rebuilds (w : Slot) (o : Option Instr) : Prop := ∀ i, o = some i → encode i = w ∧ (i.view.wf = true → i.rowOk = true)

theorem rebuilds_none (w : Slot) : Rebuilds w none := fun i h => absurd h.symm (Option.some_ne_none i)

theorem rebuilds_some {w : Slot} {i : Instr} : Rebuilds w (some i) ↔ encode i = w ∧ (i.view.wf = true → i.rowOk = true) :=
  ⟨fun h => h i rfl, fun h _ hi => Option.some.inj hi ▸ h⟩

theorem Rebuilds.ite {p : Prop} [Decidable p] {w : Slot} {a b : Option Instr} (ha : p → Rebuilds w a) (hb : ¬p → Rebuilds w b) :
    Rebuilds w (if p then a else b) := by
  split
  · exact ha ‹_›
  · exact hb ‹_›

/-- One test on the code in the opcode map. -/
theorem Rebuilds.test {n k : Nat} {w : Slot} {a : n = k → Option Instr} {e : Option Instr} (ha : ∀ h, Rebuilds w (a h))
    (he : Rebuilds w e) : Rebuilds w (if h : n = k then a h else e) := by
  split
  · exact ha _
  · exact he

theorem Op.code_of_ofCode {n : Nat} {op : Op} (h : Op.ofCode n = some op) : op.code = n := by
  simpa using List.find?_some h

theorem rebuilds_parseGroup {n : Nat} {w : Slot} (hn : opOf w = n) : Rebuilds w (parseGroup n w) := by
  unfold parseGroup
  refine .ite (fun _ => rebuilds_none w) fun hlow => ?_
  simp only [Bool.or_eq_true, decide_eq_true_eq, not_or, not_lt, not_le] at hlow
  refine .ite (fun _ => ?reg) fun himm => ?imm
  case reg =>
    cases hop : Op.ofCode (n - 0x100) with
    | none => exact rebuilds_none w
    | some op =>
      have hcode := Op.code_of_ofCode hop
      refine .ite (fun hrow => rebuilds_some.mpr ⟨VF.pack_parse (by omega), fun _ => ?_⟩) fun _ => rebuilds_none w
      exact (Bool.and_eq_true_iff.mp hrow).1
  case imm =>
    cases hop : Op.ofCode (n - 0x180) with
    | none => exact rebuilds_none w
    | some op =>
      have hcode := Op.code_of_ofCode hop
      refine .ite (fun hrow => rebuilds_some.mpr ⟨IF.pack_parse (by omega), fun _ => ?_⟩) fun _ => rebuilds_none w
      exact (Bool.and_eq_true_iff.mp hrow).1

theorem rebuilds_parseZemu {w : Slot} (hn : opOf w = 0x3A7) : Rebuilds w (some (parseZemu w)) := by
  have hword := VF.pack_parse hn
  unfold parseZemu
  dsimp only
  split
  · exact rebuilds_some.mpr ⟨hword, fun _ => ‹_›⟩
  split
  · exact rebuilds_some.mpr ⟨hword, fun _ => ‹_›⟩
  refine rebuilds_some.mpr ⟨hword, fun hwf => ?_⟩
  have hle := sub_le_of_zemu_wf hwf
  simp only [beq_iff_eq, Instr.rowOk] at *
  bv_omega

set_option linter.auxLemma false in
/-- The opcode map (R54 to R60), taken as the chain of tests on the code that its match stands for: a match on so many codes is beyond
what `split` takes apart. Each code but the group-wide ones and ZEMU's packs the fields of its format again. -/
theorem rebuilds_parseCode {n : Nat} {w : Slot} (hn : opOf w = n) : Rebuilds w (parseCode n w) := by
  delta parseCode parseCode.match_1
  repeat' refine Rebuilds.test (fun h => ?_) ?_
  pick_goal -1
  · exact rebuilds_parseGroup hn
  pick_goal -1
  · subst h
    exact rebuilds_parseZemu hn
  all_goals
    subst h
    refine rebuilds_some.mpr ?_
    simp only [encode, Instr.rowOk, VF.pack_parse hn, IF.pack_parse hn, MF.pack_parse hn, BF.pack_parse hn, XF.pack_parse hn,
      SF.pack_parse hn, implies_true, and_self]

/-- What decodes is what the opcode map reads, without defect. -/
theorem parse_of_decode {w : Slot} {i : Instr} (h : decode w = .ok i) : parse w = some i ∧ i.view.wf = true := by
  unfold decode at h
  split at h
  · cases h
  · split at h
    · cases h
      exact ⟨‹_›, ‹_›⟩
    · split at h <;> cases h

/-- Settles O54: what the opcode map reads from a word has that word as its own, and its row where it has no defect. -/
theorem encodeDecode : Obligations.EncodeDecode := by
  unfold Obligations.EncodeDecode
  intro w i h
  obtain ⟨hp, hwf⟩ := parse_of_decode h
  obtain ⟨hword, hrow⟩ := rebuilds_parseCode rfl i hp
  exact ⟨hword, by rw [Instr.wf, hrow hwf, hwf, Bool.and_self]⟩

end Sys2Proof
end

section
/-!
The three words of a slot and the special register numbers (O49, O50).
-/

namespace Sys2Proof

/-! ### Bytes as a number (R6) -/

theorem ofBytes_lt (bs : List Byte) : ofBytes bs < 256 ^ bs.length := by
  induction bs with
  | nil => simp [ofBytes]
  | cons b bs ih =>
    have := b.isLt
    rw [ofBytes, List.length_cons, Nat.pow_succ']
    omega

/-- The value of bytes that follow others stands above theirs. -/
theorem ofBytes_append (as bs : List Byte) : ofBytes (as ++ bs) = ofBytes as + 256 ^ as.length * ofBytes bs := by
  induction as with
  | nil => simp [ofBytes]
  | cons a as ih =>
    rw [List.cons_append, ofBytes, ofBytes, ih, List.length_cons, Nat.pow_succ']
    ring

/-- A field of whole bytes is the number that those bytes hold. -/
theorem field_ofBytes (bs : List Byte) {k n : Nat} (h : k + n ≤ bs.length) :
    field (ofBytes bs) (8 * k) (8 * n) = ofBytes ((bs.drop k).take n) := by
  have hlow := ofBytes_lt (bs.take k)
  have hmid := ofBytes_lt ((bs.drop k).take n)
  have hsplit := ofBytes_append (bs.take k) (bs.drop k)
  have hrest := ofBytes_append ((bs.drop k).take n) ((bs.drop k).drop n)
  simp only [List.take_append_drop, List.length_take, List.length_drop] at hlow hmid hsplit hrest
  rw [min_eq_left (by omega)] at hlow hmid hsplit hrest
  rw [field, pow_mul, pow_mul, show (2 : Nat) ^ 8 = 256 from rfl, hsplit, Nat.add_mul_div_left _ _ (by positivity),
    Nat.div_eq_of_lt hlow, zero_add, hrest, Nat.add_mul_mod_self_left, Nat.mod_eq_of_lt hmid]

theorem take_drop_rangeFrom (a : Nat) {k n m : Nat} (h : k + n ≤ m) : ((rangeFrom a m).drop k).take n = rangeFrom (a + k) n := by
  refine List.ext_getElem (by simp [rangeFrom]; omega) fun i _ _ => ?_
  simp [rangeFrom, Nat.add_assoc]

end Sys2Proof

namespace Sys2Proof.Machine

/-! ### The words of a slot (R39) -/

/-- A slot as a number is its twelve bytes, the first the lowest. -/
theorem toNat_slot (g : Segment) (line sl : Nat) :
    (g.slot line sl).toNat = ofBytes ((rangeFrom (64 * line + 4 + 12 * sl) 12).map fun a => kgetD g.bytes a 0) := by
  have hlt := ofBytes_lt ((rangeFrom (64 * line + 4 + 12 * sl) 12).map fun a => kgetD g.bytes a 0)
  rw [Segment.slot, BitVec.toNat_ofNat]
  exact Nat.mod_eq_of_lt (by simpa [rangeFrom] using hlt)

/-- Settles O50: a word of a slot is a field of four whole bytes. -/
theorem slotWords : Obligations.SlotWords := by
  unfold Obligations.SlotWords
  intro g line sl k hk
  rw [toNat_slot, show 32 * k = 8 * (4 * k) by ring, field_ofBytes (n := 4) _ (by simp [rangeFrom]; omega), ← List.map_drop,
    ← List.map_take, take_drop_rangeFrom _ (by omega)]
  simp [rangeFrom, List.range_succ, ofBytes]
  ring

/-! ### The special register numbers (R51) -/

/-- Settles O49: each number's own arm of `Wave.readIn`, and the arm of `Bank.write` that discards. -/
theorem specialRegisters : Obligations.SpecialRegisters := by
  unfold Obligations.SpecialRegisters
  intro w l _
  refine ⟨?_, fun act live x fmt => by simp [Bank.write]⟩
  simp [Wave.readIn, VVal.lane]

end Sys2Proof.Machine
end

section
/-!
That no step stops (O56), and that an instruction with no active lane only goes on (O60): both by the kind of meaning that `exec` gives.
-/

namespace Sys2Proof.Machine

/-! ### The kinds of meaning -/

/-- The kinds of meaning that `exec` gives an instruction. -/
inductive Meaning (i : Instr) : Prop where
  /-- an effect issued in a wave, under its guard -/
  | wave (body : Body) (hv : i.view ≠ .event) (h : ∀ s, exec i s = issue i.view (encode i) body false s)
  /-- one that acts whatever its guard (R63, R111) -/
  | always (body : Body) (hi : ∃ f, i = .nop f ∨ i = .yield f) (hv : i.view ≠ .event)
    (h : ∀ s, exec i s = issue i.view (encode i) body true s)
  /-- an effect in a block's sequencer (R61) -/
  | sequencer (body : SeqBody) (hv : i.view ≠ .event) (h : ∀ s, exec i s = issueSeq i.view (encode i) body s)
  /-- an event of the part, which asks for no stream -/
  | event (hv : i.view = .event) (h : ∀ s, ∃ t, exec i s = .next t)

theorem exec_meaning (i : Instr) : Meaning i := by
  cases i with
  | nop f => exact .always nopBody ⟨f, .inl rfl⟩ nofun fun _ => rfl
  | yield f => exact .always yieldBody ⟨f, .inr rfl⟩ nofun fun _ => rfl
  | mma | mmas | zld | zst | zclr | bwait | bfree | nbsig | nbsw | sloop | sendl => exact .sequencer _ nofun fun _ => rfl
  | send f => exact .sequencer sendBody nofun fun _ => rfl
  | snop f => exact .sequencer snopBody nofun fun _ => rfl
  | groupWideAlu f => exact .wave _ (by cases f <;> nofun) fun _ => rfl
  | iadd | iaddImm | isub | isubImm | imul | imulImm | imulh | imulhImm | imulw | imad | ilea | ileaImm | imin | iminImm | imax
  | imaxImm | iabs | ineg | isad | idiv | idivImm | irem | iremImm | icmp | icmpImm | andBits | andImm | orBits | orImm | xorBits
  | xorImm | notBits | bfn3 | shl | shlImm | shr | shrImm | rotl | rotlImm | fshl | bfx | bfi | popc | clz | brev | prmb | prmbImm
  | mov | movImm | movGroupWide | movGroupWideImm | sel | selGroupWide | fadd | faddImm | fsub | fsubImm | fmul | fmulImm | fma
  | fmin | fminImm | fmax | fmaxImm | fmed3 | fcmp | fcmpImm | fdiv | frcp | fsqrt | frsq | fexp2 | flog2 | fsin | fcos | fclass
  | fcps | fcpsImm | fscl | fsclImm | frnd | cvt | cvtGroupWide | pack | unpk | qnt | dqnt | fdot2 | idot4 | ldot | shfl | shflImm
  | swz | vote | ballot | matchLanes | elect | flane | redi | redf | scani | scanf | scanp | cmpct | expnd | rdlane | rdlaneImm
  | wrlane | wrlaneImm | bcst | plop | plopGroupWide | pcnt | p2r | movrp | shpq | shpx | shpc | fmtq | fmts | near | actq | deadq
  | poisq | ld | st | ldc | stc | ldg | pref | cbnd | cadd | cset | cperm | cseal | cunsl | cget | ctest | cmov | lds | sts | ldfe
  | stfe | feset | feq | atoms | cass | binit | arrive | wait | trywait | bar | atom | red | cas | fence | spawn | gbar | mfence
  | nbar | nbwait | zread | zwrite | badv | bqry | rng | rngf | rngadv | rngld | rngst | rngq | bra | brx | call | callx | ret
  | exit | recon | loop | endl | breakLoop | jseg | segld | segdrop | segq | live | invk | chstat | chwait | chcan | cbseal | cbchk
  | trap | bkpt | movw | emret | tret | srd | swr | zemuMark | zemuRel | zemuQry => exact .wave _ nofun fun _ => rfl
  | arriveAppliedAtHome | implicitBarrierComplete | gridBarrierGeneration | segmentLoadComplete | segmentDropFree
  | tileOperationResultPoint | bfreeApplied | nbsigApplied | asynchronousTrapDelivery | registerRefill | missRejectionRetry
  | reservationQueueIssue | l1LineFill | l1LineAgeInvalidation | storeLeavesBuffer | storeWrittenAtHome | storeAcknowledged
  | atomicChainApplied | hotWordWriteback | blockRetirement | latchChange | blockPlacement | gridExpansion | persistentGridPlacement
  | waveBecomesUrgent | timeSliceExpiry | preEmptionSignal | preEmptionWindowEnd | contextSave | saveComplete | contextRestore
  | haltedSave | haltedPartitionDiscard | sealedSave | heldChannelWrite | haltLineArrival | channelHaltStop | debuggerHalt
  | debuggerResume | debuggerArm | debuggerDisarm | dbgdataWrite | channelUnitTransfer | commandCompletionWrite
  | collectiveCancellation | loessIdleFlit | linkTimeout | switchTimeout | groupTimeout | flitCrcReplay | read | readResponse
  | write | writeAcknowledgement | atomic | atomicResponse | collectiveData | collectiveControl | forerunnerLaunch | linkControl
  | remoteFaultArrival | launch | launchRetirement | indirect | pred | loopPacket | waitmem | waitmemTimeout | writePacket | signal
  | fetchfence | drain | regionSet | regionSave | regionRestore | regionPrio | nopPacket | doorbell | queueMap | queueIdle | qmapMap
  | qmapUnmap | cpmodeWrite | functionLevelReset | heartbeat | firmwareTakeover | liveUpdate | rollbackRaise | create | destroy
  | assign | revoke | release | attr | quar | unquar | mint | table | attest | auditReexecution | auditComparison | auditTieBreak
  | cscoreClr | swreq | sweeperPassStart | sweeperPassComplete | powerWindow | pageRequestResponse | pageRequestTimeout | devnoWrite
  | deviceRegisterWrite | powerOnReset | warmReset | freeze | hostApertureAccess | powerLoss | activeComplexFailure
  | dieToDieLinkFailure | idleFlitReceipt | flitDiscard | uncorrectableError | freezeRelease => exact .event rfl fun _ => ⟨_, rfl⟩

end Sys2Proof.Machine

namespace Sys2Proof

/-- A map with every value changed by its key. -/
theorem kget_mapKey {α : Type} (m : KMap α) (f : Nat → α → α) (k : Nat) :
    kget (m.map fun e => (e.1, f e.1 e.2)) k = (kget m k).map (f k) := by
  induction m with
  | nil => rfl
  | cons e m ih =>
    obtain ⟨k', v⟩ := e
    simp only [List.map_cons, kget]
    split
    · subst_vars; rfl
    · exact ih

end Sys2Proof

namespace Sys2Proof.Machine

/-! ### A core written as far as its waves and blocks go -/

theorem wave_setCore_of {s : State} {c : Nat} {k : Core} (h : k.waves = (s.core c).waves) (c' n : Nat) :
    (s.setCore c k).wave c' n = s.wave c' n := by
  by_cases hc : c' = c
  · subst hc; simp [State.wave, h]
  · simp [State.wave, core_setCore_ne _ _ hc]

theorem block_setCore_of {s : State} {c : Nat} {k : Core} (h : k.blocks = (s.core c).blocks) (c' n : Nat) :
    (s.setCore c k).block c' n = s.block c' n := by
  by_cases hc : c' = c
  · subst hc; simp [State.block, h]
  · simp [State.block, core_setCore_ne _ _ hc]

/-! ### What a fetch leaves (R35, R103, R405) -/

/-- `t` has the turn and the blocks of `s`, and in each slot a wave of the same block. -/
structure SameStreams (s t : State) : Prop where
  turn : t.turn = s.turn
  block : ∀ c b, t.block c b = s.block c b
  slot : ∀ c n, (t.wave c n).map (·.bslot) = (s.wave c n).map (·.bslot)

theorem SameStreams.refl (s : State) : SameStreams s s := ⟨rfl, fun _ _ => rfl, fun _ _ => rfl⟩

theorem SameStreams.trans {s t u : State} (h : SameStreams s t) (h' : SameStreams t u) : SameStreams s u :=
  ⟨h'.turn.trans h.turn, fun c b => (h'.block c b).trans (h.block c b), fun c n => (h'.slot c n).trans (h.slot c n)⟩

theorem sameStreams_setCore {s : State} {c : Nat} {k : Core} (hw : k.waves = (s.core c).waves)
    (hb : k.blocks = (s.core c).blocks) : SameStreams s (s.setCore c k) :=
  ⟨rfl, block_setCore_of hb, fun c' n => by rw [wave_setCore_of hw]⟩

theorem sameStreams_setWave {s : State} {c slot : Nat} {w x : Wave} (hw : s.wave c slot = some w) (hx : x.bslot = w.bslot) :
    SameStreams s (s.setWave c slot x) := by
  refine ⟨rfl, block_setWave s c slot x, fun c' n => ?_⟩
  by_cases hc : c' = c
  · by_cases hn : n = slot
    · subst hc hn; simp [hw, hx]
    · subst hc; rw [wave_setWave_ne _ _ _ hn]
  · simp [State.wave, core_setWave_ne _ _ _ hc]

theorem sameStreams_loose (s : State) (l : Bool) : SameStreams s { s with loose := l } := ⟨rfl, fun _ _ => rfl, fun _ _ => rfl⟩

theorem sameStreams_cancelDrop (s : State) (c code seg : Nat) : SameStreams s (s.cancelDrop c code seg) :=
  sameStreams_setCore rfl rfl

theorem sameStreams_settlePath {s t : State} {c slot code : Nat} (h : s.settlePath c slot code = .ok t) : SameStreams s t := by
  unfold State.settlePath at h
  split at h
  · cases h; exact .refl s
  next w hw =>
    split at h
    · cases h
    next b popped segs _ =>
      cases h
      refine List.foldlRecOn segs _ (motive := SameStreams s) (sameStreams_setWave hw ?_)
        fun t ht g _ => ht.trans (sameStreams_cancelDrop t c code g)
      split <;> simp

theorem sameStreams_fetchLine {s : State} {core code line : Nat} {g : Segment} {r : Bool × State}
    (h : s.fetchLine core code g line = r) : SameStreams s r.2 := by
  subst h
  unfold State.fetchLine
  split
  · exact .refl s
  · dsimp only
    split <;> exact sameStreams_setCore rfl rfl

/-- The wave `w` of slot `n` once the wave `me` in `slot` of its core has issued: passed over where it is ready for the same port. -/
def State.passWave (s : State) (c slot : Nat) (me : Wave) (n : Nat) (w : Wave) : Wave :=
  if n == slot || s.portAt c w != s.portAt c me || !s.ready c n w then w
  else { w with passed := w.passed + 1, urgentAt := if w.passed = 63 then s.tick else w.urgentAt }

/-- A wave's issue passes other waves of its core over: each keeps its block, and the wave itself is as it was. -/
theorem passOver_eq (s : State) (c slot : Nat) : ∃ f : Nat → Wave → Wave, (∀ n w, (f n w).bslot = w.bslot) ∧ f slot = id ∧
    (s.passOver c slot = s ∨
      s.passOver c slot = s.setCore c { s.core c with waves := (s.core c).waves.map fun e => (e.1, f e.1 e.2) }) := by
  cases hw : s.wave c slot with
  | none => exact ⟨fun _ w => w, fun _ _ => rfl, rfl, .inl (by simp [State.passOver, hw])⟩
  | some me =>
    refine ⟨s.passWave c slot me, fun n w => ?_, funext fun w => ?_, ?_⟩
    · unfold State.passWave
      split <;> rfl
    · simp [State.passWave]
    · simp only [State.passOver, hw]
      split
      · exact .inl rfl
      · exact .inr rfl

theorem sameStreams_passOver (s : State) (c slot : Nat) : SameStreams s (s.passOver c slot) := by
  obtain ⟨f, hf, -, h | h⟩ := passOver_eq s c slot
  · rw [h]
    exact .refl s
  · rw [h]
    refine ⟨rfl, block_setCore_of rfl, fun c' n => ?_⟩
    by_cases hc : c' = c
    · subst hc
      simp [State.wave, kget_mapKey, Function.comp_def, hf]
    · simp [State.wave, core_setCore_ne _ _ hc]

theorem wave_passOver_self (s : State) (c slot : Nat) : (s.passOver c slot).wave c slot = s.wave c slot := by
  obtain ⟨f, -, hf, h | h⟩ := passOver_eq s c slot
  · rw [h]
  · rw [h]
    simp [State.wave, kget_mapKey, hf]

theorem passOver_mem (s : State) (c slot : Nat) : (s.passOver c slot).mem = s.mem := by
  obtain ⟨f, -, -, h | h⟩ := passOver_eq s c slot <;> rw [h]
  rfl

theorem sameStreams_fetchWave {s s1 : State} {core slot : Nat} {b : Block} {bits : Slot}
    (h : fetchWave s core slot b = .instr bits s1) : SameStreams s s1 := by
  unfold fetchWave at h
  split at h
  · cases h
  next s0 hpath =>
    split at h
    · cases h
    split at h
    · cases h
    dsimp only at h
    split at h
    · cases h
    · cases h
    next g _ _ =>
      split at h
      · cases h
      split at h
      · cases h
      split at h
      · cases h
      next s2 hline =>
        split at h
        · cases h
        split at h
        · cases h
        split at h
        · cases h
        cases h
        exact (((sameStreams_settlePath hpath).trans (sameStreams_fetchLine hline)).trans (sameStreams_loose s2 _)).trans
          (sameStreams_passOver _ core slot)

theorem sameStreams_fetchSeq {s s1 : State} {core bslot : Nat} {b : Block} {bits : Slot}
    (h : fetchSeq s core bslot b = .ok (bits, s1)) : SameStreams s s1 := by
  unfold fetchSeq at h
  dsimp only at h
  split at h
  · cases h
  · cases h
  split at h
  · cases h
  split at h
  · cases h
  split at h
  · cases h
  next hline =>
    split at h
    · cases h
    split at h
    · cases h
    split at h
    · cases h
    cases h
    exact (sameStreams_fetchLine hline).trans (sameStreams_loose _ _)

/-! ### No step stops (log 21) -/

/-- A stream has the turn, and its slot is filled. -/
inductive HasStream (s : State) : Prop where
  | wave {core slot : Nat} {w : Wave} {b : Block} (ht : s.turn = .wave core slot) (hw : s.wave core slot = some w)
      (hb : s.block core w.bslot = some b)
  | seqr {core bslot : Nat} {b : Block} (ht : s.turn = .seqr core bslot) (hb : s.block core bslot = some b)

theorem HasStream.of_sameStreams {s t : State} (h : HasStream s) (hst : SameStreams s t) : HasStream t := by
  cases h with
  | @wave core slot w b ht hw hb =>
    have hslot := hst.slot core slot
    rw [hw] at hslot
    obtain ⟨w', hw', hbslot⟩ := Option.map_eq_some_iff.mp hslot
    exact .wave (hst.turn.trans ht) hw' (by rw [hst.block, hbslot, hb])
  | seqr ht hb => exact .seqr (hst.turn.trans ht) ((hst.block _ _).trans hb)

theorem issue_goesOn {s : State} (h : HasStream s) (v : View) (inst : Slot) (body : Body) (always : Bool) :
    ∃ t, issue v inst body always s = .next t := by
  cases h with
  | wave ht hw hb => exact ⟨_, by simp only [issue, ht, hw, hb]; rfl⟩
  | seqr ht hb => exact ⟨_, by simp only [issue, ht, hb]; rfl⟩

theorem issueSeq_goesOn {s : State} (h : HasStream s) (v : View) (inst : Slot) (body : SeqBody) :
    ∃ t, issueSeq v inst body s = .next t := by
  unfold issueSeq
  cases h with
  | wave ht hw hb =>
    simp only [ht]
    exact issue_goesOn (.wave ht hw hb) v inst _ false
  | seqr ht hb =>
    simp only [ht, hb]
    split
    · exact ⟨_, rfl⟩
    split
    · exact ⟨_, rfl⟩
    split <;> exact ⟨_, rfl⟩

/-- Every event goes on, and an instruction whose stream has the turn does. -/
theorem exec_goesOn {i : Instr} {s : State} (h : i.view = .event ∨ HasStream s) : ∃ t, exec i s = .next t := by
  cases exec_meaning i with
  | wave body hv hm => exact hm s ▸ issue_goesOn (h.resolve_left hv) _ _ body false
  | always body _ hv hm => exact hm s ▸ issue_goesOn (h.resolve_left hv) _ _ body true
  | sequencer body hv hm => exact hm s ▸ issueSeq_goesOn (h.resolve_left hv) _ _ body
  | event _ hm => exact hm s

theorem runOwn_goesOn (e : OwnEvent) (s : State) : ∃ t, runOwn e s = .next t := by
  cases e <;> exact ⟨_, rfl⟩

theorem hasStream_of_prepareWave {s s1 : State} {c slot : Nat} {i : Instr} (ht : s.turn = .wave c slot)
    (h : prepareWave s c slot = .run i s1) : HasStream s1 := by
  unfold prepareWave at h
  split at h
  · cases h
  next w hw =>
    split at h
    · cases h
    next b hb =>
      split at h
      · cases h
      split at h
      · cases h
      · cases h
      next hfetch =>
        split at h
        · cases h
          exact (HasStream.wave ht hw hb).of_sameStreams (sameStreams_fetchWave hfetch)
        · split at h <;> cases h

theorem hasStream_of_prepareSeqr {s s1 : State} {c bslot : Nat} {i : Instr} (ht : s.turn = .seqr c bslot)
    (h : prepareSeqr s c bslot = .run i s1) : HasStream s1 := by
  unfold prepareSeqr at h
  split at h
  · cases h
  next b hb =>
    split at h
    · cases h
    split at h
    · cases h
    next hfetch =>
      split at h
      · cases h
        exact (HasStream.seqr ht hb).of_sameStreams (sameStreams_fetchSeq hfetch)
      · cases h

theorem event_of_prepareInput {s s1 : State} {i : Instr} (h : prepareInput s = .run i s1) : i.view = .event := by
  unfold prepareInput at h
  split at h
  · cases h
  dsimp only at h
  split at h
  · cases h
  next hgo =>
    cases h
    simp only [Bool.or_eq_true, not_or, bne_iff_ne, ne_eq, not_not] at hgo
    exact hgo.1

/-- What a step runs is an event, or an instruction of a stream that has the turn. -/
theorem prepare_run {s s1 : State} {i : Instr} (h : prepare s = .run i s1) : i.view = .event ∨ HasStream s1 := by
  unfold prepare at h
  split at h
  next => exact .inl (event_of_prepareInput h)
  next => cases h
  next ht =>
    split at h
    · cases h
    · exact .inr (hasStream_of_prepareWave ht h)
  next ht =>
    split at h
    · cases h
    · exact .inr (hasStream_of_prepareSeqr ht h)
  next => split at h <;> cases h

/-- Settles O56: what a step runs has its stream, so that `exec` stops nowhere. -/
theorem everyStepGoesOn : Obligations.EveryStepGoesOn := by
  unfold Obligations.EveryStepGoesOn
  intro s
  unfold Safe step
  split
  next i s1 hrun =>
    obtain ⟨t, ht⟩ := exec_goesOn (prepare_run hrun)
    exact ⟨afterStep t, by rw [ht]; rfl⟩
  next e s1 _ =>
    obtain ⟨t, ht⟩ := runOwn_goesOn e s1
    exact ⟨afterStep t, by rw [ht]; rfl⟩
  next => exact ⟨_, rfl⟩

/-! ### An instruction with no active lane (R63) -/

/-- An instruction that does nothing moves its wave on (R38). -/
theorem complete_idle {c : Ctx} {v : View} {code : Nat} {s : State} {w : Wave} (hw : s.wave c.core c.slot = some w)
    (hp : NoPop w ((s.core c.core).nextValid code c.pc)) :
    complete c v code false false s s = (s.setWave c.core c.slot ((w.issued c v false w.level).setBank
      { w.bank with pc := (s.core c.core).nextValid code c.pc, mask := w.path })).settleChunks c.core c.slot := by
  have hn : NoPop ((w.setBank { w.bank with pc := (s.core c.core).nextValid code c.pc }).issued c v false w.level)
      ((s.core c.core).nextValid code c.pc) := by
    simpa [NoPop, path_setBank, Wave.path] using hp
  unfold complete
  simp only [hw, Bool.false_and, Bool.false_eq_true, if_false, level_setBank, ne_eq, not_true_eq_false]
  rw [settlePath_noPop code (wave_setWave_self _ _ _ _) (by simpa using hn)]
  simp [issued_setBank, Wave.path]

theorem issue_idle {i : Instr} {s : State} {core slot : Nat} {w : Wave} {b : Block} (h : Ready i s core slot w b) (body : Body)
    (hact : (ctxFor i s core slot w).act = 0) (hp : NoPop w (nextPc s core b w)) :
    issue i.view (encode i) body false s = .next ((s.setWave core slot
      ((w.issued (ctxFor i s core slot w) i.view false w.level).setBank
        { w.bank with pc := nextPc s core b w, mask := w.path })).settleChunks core slot) := by
  simp only [issue, h.turn, h.wave, h.block, issueWave_ready h]
  have hidle : issueActive i.view body false (ctxFor i s core slot w) b w s =
      complete (ctxFor i s core slot w) i.view b.code false false s s := by
    simp [issueActive, tooEarly_nil h.gaps, hact]
  rw [hidle, complete_idle (c := ctxFor i s core slot w) h.wave hp]
  rfl

/-- Settles O60: every meaning but that of NOP and YIELD is issued under its guard, and with no lane its issue only moves the wave on. -/
theorem noActiveLane : Obligations.NoActiveLane := by
  unfold Obligations.NoActiveLane
  intro i s core slot w b h hv hi hact hp
  cases exec_meaning i with
  | wave body _ hm => exact (hm s).trans (issue_idle h body hact hp)
  | always _ hf =>
    obtain ⟨f, hf⟩ := hf
    exact absurd hf (not_or.mpr (hi f))
  | sequencer body _ hm =>
    -- in a wave's stream `issueSeq` issues
    have hs : issueSeq i.view (encode i) body s = issue i.view (encode i) (fun _ _ s => .next s) false s := by
      simp only [issueSeq, h.turn]
    exact (hm s).trans (hs.trans (issue_idle h _ hact hp))
  | event he => exact absurd he hv

end Sys2Proof.Machine
end

section
/-!
What a step runs, and how it closes (O52).
-/

namespace Sys2Proof.Machine

/-! ### What a turn prepares (R38, R62) -/

section
variable {s s1 : State} {core slot : Nat} {w : Wave} {b : Block} {bits : Slot} (hf : s.frozen = false) (hp : s.powered = true)
include hf hp

theorem prepare_wave {i : Instr} (ht : s.turn = .wave core slot) (hw : s.wave core slot = some w)
    (hb : s.block core w.bslot = some b) (hr : w.runs = true) (hc : s.coreStopped core = false)
    (h : fetchWave s core slot b = .instr bits s1) (hi : parse bits = some i) : prepare s = .run i s1 := by
  simp only [prepare, ht, hf, hp, prepareWave, hw, hb, hr, hc, h, hi, Bool.not_true, Bool.or_self, Bool.false_eq_true, if_false]

theorem prepare_unassigned {w1 : Wave} (ht : s.turn = .wave core slot) (hw : s.wave core slot = some w)
    (hb : s.block core w.bslot = some b) (hr : w.runs = true) (hc : s.coreStopped core = false)
    (h : fetchWave s core slot b = .instr bits s1) (hi : parse bits = none) (hw1 : s1.wave core slot = some w1) :
    prepare s = .done ((s1.enterLine core slot).raise (fetchCtx s1 core slot w1 bits) .event (0, 0) (.emu 1 0)) := by
  simp only [prepare, ht, hf, hp, prepareWave, hw, hb, hr, hc, h, hi, hw1, Bool.not_true, Bool.or_self, Bool.false_eq_true, if_false]

theorem prepare_seqr {bslot : Nat} {i : Instr} (ht : s.turn = .seqr core bslot) (hb : s.block core bslot = some b)
    (hr : s.seqrRuns core b = true) (h : fetchSeq s core bslot b = .ok (bits, s1)) (hi : parse bits = some i) :
    prepare s = .run i s1 := by
  simp only [prepare, ht, hf, hp, prepareSeqr, hb, hr, h, hi, Bool.not_true, Bool.or_self, Bool.false_eq_true, if_false]

theorem prepare_own {e : OwnEvent} (ht : s.turn = .own e) : prepare s = .own e s := by
  simp [prepare, ht, hf, hp]

theorem prepare_input {i : Instr} {rest : List Instr} (ht : s.turn = .input) (hi : s.inputs = i :: rest) (hv : i.view = .event) :
    prepare s = .run i { s with inputs := rest } := by
  simp [prepare, prepareInput, ht, hi, hv, hf, hp]
end

/-! ### The fetch of a sound line (R35, R38, R99) -/

theorem xfer_go {k : Core} {code : Nat} {x : IAddr} {g : Segment} {sl : Nat} (h : k.xfer code x = .go)
    (hs : slotAt (offOf x % 64) = some sl) (hg : k.segment code (segOf x) = some g) :
    g.loading = false ∧ offOf x < g.size * 8192 ∧ validBit (g.header (offOf x / 64)) sl = true := by
  simp only [Core.xfer, hs, hg] at h
  split at h
  · cases h
  next hl =>
    split at h
    next hv =>
      simp only [Bool.and_eq_true, decide_eq_true_eq] at hv
      exact ⟨eq_false_of_ne_true hl, hv⟩
    · cases h

theorem fetchLine_of_parityOk {s : State} {core code line : Nat} {g : Segment} (h : parityOk (g.line line) = true) :
    s.fetchLine core code g line = (true, s) := by
  simp [State.fetchLine, h]

theorem fetched_of_imageKept {s : State} {code : Nat} {g : Segment} (h : s.imageKept code g = true) (bits : Slot) :
    s.fetched code g bits = bits := by
  simp [State.fetched, h]

theorem fetchWave_of_sound {s : State} {core slot : Nat} {w : Wave} {b : Block} {g : Segment} {sl : Nat}
    (hw : s.wave core slot = some w) (hn : NoPop w w.bank.pc) (hpath : w.path ≠ 0)
    (hx : (s.core core).xfer b.code w.bank.pc = .go) (hg : (s.core core).segment b.code (segOf w.bank.pc) = some g)
    (hsl : slotAt (offOf w.bank.pc % 64) = some sl) (hpar : parityOk (g.line (offOf w.bank.pc / 64)) = true)
    (hseg : g.header (offOf w.bank.pc / 64) % 256 = segOf w.bank.pc) (hk : s.imageKept b.code g = true) :
    fetchWave s core slot b = .instr (g.slot (offOf w.bank.pc / 64) sl)
      ({ s.setWave core slot (w.setBank { w.bank with mask := w.path }) with loose := false }.passOver core slot) := by
  obtain ⟨hload, hsize, hvalid⟩ := xfer_go hx hsl hg
  set s0 := s.setWave core slot (w.setBank { w.bank with mask := w.path }) with hs0
  have hw0 : s0.wave core slot = some (w.setBank { w.bank with mask := w.path }) := wave_setWave_self _ _ _ _
  have hg0 : (s0.core core).segment b.code (segOf w.bank.pc) = some g := by
    simpa [hs0, Core.segment] using hg
  have hk0 : s0.imageKept b.code g = true := hk
  have hpath0 : (w.setBank { w.bank with mask := w.path }).path ≠ 0 := by
    simpa [path_setBank, Wave.path, BitVec.and_assoc] using hpath
  unfold fetchWave
  rw [settlePath_noPop b.code hw hn]
  simp only [← hs0, hw0, hpath0, if_false, bank_setBank, hsl, hg0, hload, Bool.false_eq_true, Nat.not_le.mpr hsize,
    fetchLine_of_parityOk hpar, hseg, ne_eq, not_true_eq_false, hvalid, Bool.not_true, fetched_of_imageKept hk0, hk0]

/-! ### The close of a step (R5, R99, R292) -/

/-- `t` has the memory, the tags and the waves of `s`. -/
structure SameWaves (s t : State) : Prop where
  mem : t.mem = s.mem
  tags : t.tags = s.tags
  wave : ∀ c n, t.wave c n = s.wave c n

theorem SameWaves.refl (s : State) : SameWaves s s := ⟨rfl, rfl, fun _ _ => rfl⟩

theorem SameWaves.trans {s t u : State} (h : SameWaves s t) (h' : SameWaves t u) : SameWaves s u :=
  ⟨h'.mem.trans h.mem, h'.tags.trans h.tags, fun c n => (h'.wave c n).trans (h.wave c n)⟩

/-- Steps that each keep the waves keep them together. -/
theorem sameWaves_foldl {α : Type} (l : List α) {f : State → α → State} (hf : ∀ s x, SameWaves s (f s x)) (s : State) :
    SameWaves s (l.foldl f s) :=
  List.foldlRecOn l f (motive := SameWaves s) (.refl s) fun t ht x _ => ht.trans (hf t x)

theorem sameWaves_watchFlights (s : State) : SameWaves s s.watchFlights := by
  refine sameWaves_foldl _ (fun t (c, k) => sameWaves_foldl _ (fun u (n, b) => ?_) t) s
  dsimp only
  split
  · exact .refl u
  · exact ⟨rfl, rfl, wave_setBlock u c n _⟩

theorem sameWaves_noteImages (s : State) : SameWaves s s.noteImages := by
  refine sameWaves_foldl _ (fun t (c, k) => ?_) s
  dsimp only
  split
  · exact .refl t
  · exact ⟨rfl, rfl, wave_setCore_of rfl⟩

theorem sameWaves_noteInputs (s : State) : SameWaves s s.noteInputs := by
  refine sameWaves_foldl _ (fun t (n, g) => ?_) s
  dsimp only
  split
  · exact .refl t
  · split
    · exact .refl t
    · exact ⟨rfl, rfl, fun _ _ => rfl⟩

theorem sameWaves_noteQueues (s : State) : SameWaves s s.noteQueues := ⟨rfl, rfl, fun _ _ => rfl⟩

theorem sameWaves_afterStep (s : State) : SameWaves s (afterStep s) :=
  (((sameWaves_watchFlights s).trans (sameWaves_noteImages _)).trans (sameWaves_noteInputs _)).trans
    ⟨rfl, rfl, fun _ _ => rfl⟩

/-- Settles O52: what each kind of turn prepares, the fetch of a sound line, and the close of a step. -/
theorem stepRunsTheInstruction : Obligations.StepRunsTheInstruction := by
  unfold Obligations.StepRunsTheInstruction
  refine ⟨?wave, ?fetch, ?unassigned, ?sequencer, ?own, ?input, ?idle, ?close⟩
  case wave =>
    intro s core slot w b bits s1 i ht hf hp hw hb hr hc h hd
    simp only [step, prepare_wave hf hp ht hw hb hr hc h (parse_of_decode hd).1]
  case fetch =>
    intro s core slot w b g sl hw hn hpath hx hg hsl hpar hseg hk
    refine ⟨_, fetchWave_of_sound hw hn hpath hx hg hsl hpar hseg hk, passOver_mem _ _ _, ?_⟩
    exact (wave_passOver_self _ _ _).trans (wave_setWave_self _ _ _ _)
  case unassigned =>
    intro s core slot w b bits s1 w1 ht hf hp hw hb hr hc h hnone hw1
    simp only [step, prepare_unassigned hf hp ht hw hb hr hc h hnone hw1]
  case sequencer =>
    intro s core bslot b bits s1 i ht hf hp hb hr h hd
    simp only [step, prepare_seqr hf hp ht hb hr h (parse_of_decode hd).1]
  case own =>
    intro s e ht hf hp
    simp only [step, prepare_own hf hp ht]
  case input =>
    intro s i rest ht hi hv hf hp
    simp only [step, prepare_input hf hp ht hi hv]
  case idle =>
    intro s ht
    simp only [step, prepare, ht]
  case close =>
    intro t
    have h := sameWaves_afterStep t
    exact ⟨rfl, rfl, h.mem, h.tags, h.wave⟩

end Sys2Proof.Machine
end

section
/-!
Where an instruction of control flow leads: a write of its wave that goes on at the next address, a jump, or a
fenced transfer (R106).
-/

namespace Sys2Proof.Machine

/-! ### Completion along a path -/

/-- The wave that is led to takes the place of what was written of it before. -/
theorem leads_setWave {i : Instr} {s s1 : State} {core slot : Nat} {w x w1 : Wave} {b : Block}
    (h : Leads i s core slot w b (s1.setWave core slot x) w1) : Leads i s core slot w b s1 w1 := by
  simpa only [Leads, setWave_setWave] using h

/-- Waves and a drop cancelled stand in different parts of a core. -/
theorem cancelDrop_setWave (s : State) (c slot code seg : Nat) (x : Wave) :
    (s.setWave c slot x).cancelDrop c code seg = (s.cancelDrop c code seg).setWave c slot x := by
  simp [State.cancelDrop, State.setWave, State.setCore, State.core, Core.modSegment]

section
variable {i : Instr} {s : State} {core slot : Nat} {w : Wave} {b : Block} {body : Body} {always : Bool}
  (he : exec i s = issue i.view (encode i) body always s) (h : Ready i s core slot w b)
  (hact : (ctxFor i s core slot w).act ≠ 0 ∨ always = true)
include he h hact

/-- An instruction that leaves its wave at `w1`, to go on at the next address `x`. -/
theorem leads_of_next {s1 : State} {w1 : Wave} {x : IAddr} (hb : body (ctxFor i s core slot w) w s = .next s1)
    (hw : s1.wave core slot = some w1) (hl : w1.level = w.level) (hsp : w1.spilled = w.spilled)
    (hs : s1.sweeper.running = s.sweeper.running) (hx : nextPc s1 core b w = x) :
    Leads i s core slot w b s1 (w1.atPc x) := fun _ h3 =>
  he.trans (leads_next h body always hact hb hw hl (hsp.trans h.spilled) (hs.trans h.sweep) (hx ▸ h3))

/-- An instruction that writes its own wave alone and goes on at the next address. -/
theorem leads_of_setWave {w1 : Wave} (hb : body (ctxFor i s core slot w) w s = .next (s.setWave core slot w1))
    (hl : w1.level = w.level) (hsp : w1.spilled = w.spilled) : Leads i s core slot w b s (w1.atPc (nextPc s core b w)) :=
  leads_setWave (leads_of_next he h hact hb (wave_setWave_self _ _ _ _) hl hsp rfl (nextValid_congr (by simp) _ _))

/-- An instruction that writes the bank of its wave alone and goes on at the next address. -/
theorem leads_of_setBank {k : Bank} (hb : body (ctxFor i s core slot w) w s = .next (s.setWave core slot (w.setBank k))) :
    Leads i s core slot w b s ((w.setBank k).atPc (nextPc s core b w)) :=
  leads_of_setWave he h hact hb (level_setBank _ _) (setBank_spilled _ _)

/-- An instruction that sets its wave's address and changes nothing outside the wave. -/
theorem leads_of_jump {w1 : Wave} (hb : body (ctxFor i s core slot w) w s = .jumped (s.setWave core slot w1))
    (hl : w1.level = w.level) : Leads i s core slot w b s w1 :=
  leads_setWave fun _ h3 => he.trans (leads_jump h body always hact hb (wave_setWave_self _ _ _ _) hl h.sweep h3)

/-- An instruction that sets its wave's address by a fenced transfer. -/
theorem leads_of_fenced {w1 : Wave} {code seg : Nat}
    (hb : body (ctxFor i s core slot w) w s = .jumped ((s.setWave core slot w1).cancelDrop core code seg))
    (hl : w1.level = w.level) : Leads i s core slot w b (s.cancelDrop core code seg) w1 := by
  rw [cancelDrop_setWave] at hb
  exact leads_setWave fun _ h3 => he.trans (leads_jump h body always hact hb (wave_setWave_self _ _ _ _) hl h.sweep h3)
end

/-- The code object of the block in which an instruction runs. -/
theorem Ready.code {i : Instr} {s : State} {core slot : Nat} {w : Wave} {b : Block} (h : Ready i s core slot w b) :
    (ctxFor i s core slot w).code s = b.code := by
  have hb : s.block (ctxFor i s core slot w).core (ctxFor i s core slot w).bslot = some b := h.block
  simp only [Ctx.code, hb]

/-! ### Transfers (R100, R106) -/

@[simp] theorem level_goTo (w : Wave) (x : IAddr) : (w.goTo x).level = w.level := level_setBank w _

theorem transfer_of_go {c : Ctx} {s : State} {x : IAddr} (w : Wave) (fenced : Bool)
    (hx : (s.core c.core).xfer (c.code s) x = .go) : transfer c s w x fenced =
      .jumped (if fenced || segOf x ≠ segOf c.pc then (s.setWave c.core c.slot (w.goTo x)).cancelDrop c.core (c.code s) (segOf x)
        else s.setWave c.core c.slot (w.goTo x)) := by
  simp only [transfer, hx, Xfer.exc]

/-- A transfer within the segment. -/
theorem transfer_within {c : Ctx} {s : State} {x : IAddr} (w : Wave) (hx : (s.core c.core).xfer (c.code s) x = .go)
    (hg : segOf x = segOf c.pc) : transfer c s w x = .jumped (s.setWave c.core c.slot (w.goTo x)) := by
  simp [transfer_of_go w false hx, hg]

/-- A fenced transfer: JSEG's, or one to another segment. -/
theorem transfer_fenced {c : Ctx} {s : State} {x : IAddr} (w : Wave) {fenced : Bool}
    (hx : (s.core c.core).xfer (c.code s) x = .go) (hg : fenced = true ∨ segOf x ≠ segOf c.pc) : transfer c s w x fenced =
      .jumped ((s.setWave c.core c.slot (w.goTo x)).cancelDrop c.core (c.code s) (segOf x)) := by
  rw [transfer_of_go w fenced hx, if_pos (by simpa using hg)]

end Sys2Proof.Machine
end

section
/-!
BRA, LOOP, ENDL and BREAK (O15).
-/

namespace Sys2Proof.Machine

/-! ### BRA (R107) -/

section
variable {f : BF} {c : Ctx} {w : Wave} {s : State} {t j : IAddr}
  (ht : (s.core c.core).relative (c.code s) c.pc f.target.toInt = .ok t)
include ht

/-- BRA of the whole path. -/
theorem braBody_whole (hstay : w.path &&& ~~~c.act = 0) : braBody f c w s = .jumped (s.setWave c.core c.slot (w.goTo t)) := by
  simp only [braBody, ht, hstay, if_true]

/-- BRA of a part of the path, without a reconvergence point. -/
theorem braBody_part (hstay : w.path &&& ~~~c.act ≠ 0) (hj : f.reconv = 0) (hroom : w.bank.ctl.length + 1 ≤ c.stackLimit) :
    braBody f c w s = .next (s.setWave c.core c.slot
      (w.setBank { w.bank.push .path t c.act w.bank.rpc with mask := w.path &&& ~~~c.act })) := by
  simp only [braBody, ht, hstay, hj, Nat.not_lt.mpr hroom, if_true, if_false]

/-- BRA of a part of the path, which is to join again at `j`. -/
theorem braBody_join (hstay : w.path &&& ~~~c.act ≠ 0) (hj : f.reconv ≠ 0)
    (hrel : (s.core c.core).relative (c.code s) c.pc f.reconv.toInt = .ok j) (hroom : w.bank.ctl.length + 2 ≤ c.stackLimit) :
    braBody f c w s = .next (s.setWave c.core c.slot (w.setBank
      { (w.bank.push .join j w.path w.bank.rpc).push .path t c.act (some j) with
        mask := w.path &&& ~~~c.act, rpc := some j })) := by
  simp only [braBody, ht, hstay, hj, hrel, Nat.not_lt.mpr hroom, if_false]
end

/-! ### Loops (R113) -/

section
variable {f : BF} {c : Ctx} {w : Wave} {s : State} {e : IAddr}
  (he : (s.core c.core).relative (c.code s) c.pc f.target.toInt = .ok e)
include he

theorem loopBody_zero (hn : c.readG w (f.sub.toNat % 64) = 0) :
    loopBody f c w s = .jumped (s.setWave c.core c.slot (w.goTo ((s.core c.core).nextValid (c.code s) e))) := by
  simp only [loopBody, he, hn, if_true]

theorem loopBody_enter (hn : c.readG w (f.sub.toNat % 64) ≠ 0) (hroom : w.bank.loops.length ≠ 8) :
    loopBody f c w s = .next (s.setWave c.core c.slot (w.setBank { w.bank with
      loops := { count := c.readG w (f.sub.toNat % 64), start := (s.core c.core).nextValid (c.code s) c.pc, stop := e,
                 cdepth := w.bank.ctl.length } :: w.bank.loops })) := by
  simp only [loopBody, he, hn, hroom, if_false]
end

theorem loopTransfer_within {c : Ctx} {x : IAddr} (s : State) (w : Wave) (hg : segOf x = segOf c.pc) :
    loopTransfer c s w x = .jumped (s.setWave c.core c.slot (w.goTo x)) := if_pos hg

theorem loopTransfer_away {c : Ctx} {s : State} {x : IAddr} (w : Wave) (hg : segOf x ≠ segOf c.pc)
    (hx : (s.core c.core).xfer (c.code s) x = .go) :
    loopTransfer c s w x = .jumped ((s.setWave c.core c.slot (w.goTo x)).cancelDrop c.core (c.code s) (segOf x)) :=
  (if_neg hg).trans (transfer_fenced w hx (.inr hg))

section
variable {c : Ctx} {w : Wave} {s : State} {top : LoopEntry} {rest : List LoopEntry} (hl : w.bank.loops = top :: rest)
  (hd : top.cdepth = w.bank.ctl.length)
include hl hd

theorem endlBody_again (hn : top.count - 1 ≠ 0) : endlBody c w s = loopTransfer c s
    (w.setBank { w.bank with loops := { top with count := top.count - 1 } :: rest }) top.start := by
  simp only [endlBody, hl, hd, hn, ne_eq, not_true_eq_false, not_false_eq_true, if_true, if_false]

theorem endlBody_last (hn : top.count - 1 = 0) :
    endlBody c w s = .next (s.setWave c.core c.slot (w.setBank { w.bank with loops := rest })) := by
  simp only [endlBody, hl, hd, hn, ne_eq, not_true_eq_false, if_false]

theorem breakBody_resident {g : Segment} (hs : (s.core c.core).segment (c.code s) (segOf top.stop) = some g)
    (hg : g.loading = false) : breakBody c w s = loopTransfer c s (w.setBank { w.bank with loops := rest })
      ((s.core c.core).nextValid (c.code s) top.stop) := by
  simp only [breakBody, hl, hd, hs, hg, ne_eq, not_true_eq_false, Bool.false_eq_true, if_false]
end

/-- Settles O15: each instruction's meaning in the case at hand is a jump, a fenced transfer or a write of its wave. -/
theorem branchesAndLoops : Obligations.BranchesAndLoops := by
  unfold Obligations.BranchesAndLoops
  refine ⟨?bra, ?loop, ?endl, ?breakLoop⟩
  case bra =>
    intro f s core slot w b t h act stay hact ht
    replace ht := h.code.symm ▸ ht
    refine ⟨fun hstay => ?_, fun hstay hj hroom => ?_, fun j hstay hj hrel hroom => ?_⟩
    · exact leads_of_jump rfl h (.inl hact) (braBody_whole ht hstay) (level_goTo w t)
    · exact leads_of_setBank rfl h (.inl hact) (braBody_part ht hstay hj hroom)
    · exact leads_of_setBank rfl h (.inl hact) (braBody_join ht hstay hj (h.code.symm ▸ hrel) hroom)
  case loop =>
    intro f s core slot w b e h c n hact he
    replace he := h.code.symm ▸ he
    refine ⟨fun hn => ?_, fun hn hroom => ?_⟩
    · exact leads_of_jump rfl h (.inl hact) (h.code ▸ loopBody_zero he hn) (level_goTo w _)
    · have hbody := loopBody_enter (c := c) (w := w) he hn hroom
      rw [h.code] at hbody
      exact leads_of_setBank rfl h (.inl hact) hbody
  case endl =>
    intro f s core slot w b top rest h hact hl hd w1
    have hlevel : w1.level = w.level := by simp [w1]
    refine ⟨fun hn hg => ?_, fun hn hg hx => ?_, fun hn => ?_⟩
    · exact leads_of_jump rfl h (.inl hact) ((endlBody_again hl hd hn).trans (loopTransfer_within s _ hg)) hlevel
    · exact leads_of_fenced rfl h (.inl hact)
        (h.code ▸ (endlBody_again hl hd hn).trans (loopTransfer_away _ hg (h.code.symm ▸ hx))) hlevel
    · exact leads_of_setBank rfl h (.inl hact) (endlBody_last hl hd hn)
  case breakLoop =>
    intro f s core slot w b top rest g h hact hl hd hs hload x w1
    have hlevel : w1.level = w.level := by simp [w1]
    have hbody := breakBody_resident (c := ctxFor (.breakLoop f) s core slot w) hl hd (h.code.symm ▸ hs) hload
    rw [h.code] at hbody
    refine ⟨fun hg => ?_, fun hg hx => ?_⟩
    · exact leads_of_jump rfl h (.inl hact) (hbody.trans (loopTransfer_within s _ hg)) hlevel
    · exact leads_of_fenced rfl h (.inl hact) (h.code ▸ hbody.trans (loopTransfer_away _ hg (h.code.symm ▸ hx))) hlevel

end Sys2Proof.Machine
end

section
/-!
CALL, BRX and CALLX (O16).
-/

namespace Sys2Proof.Machine

/-- CALL of a target that stands, with room for its entry (R109). -/
theorem callBody_of_target {f : BF} {c : Ctx} {w : Wave} {s : State} {t : IAddr}
    (ht : (s.core c.core).relative (c.code s) c.pc f.target.toInt = .ok t) (hroom : w.bank.ctl.length + 1 ≤ c.stackLimit) :
    callBody f c w s = .jumped (s.setWave c.core c.slot ((w.setBank
      { w.bank.push .call ((s.core c.core).nextValid (c.code s) c.pc) w.path w.bank.rpc with mask := c.act, rpc := none }).goTo
        t)) := by
  simp only [callBody, ht, Nat.not_lt.mpr hroom, if_false]

/-! ### The groups of BRX and CALLX (R105, R108) -/

@[simp] theorem ctl_push (b : Bank) (k : EntryKind) (x : IAddr) (m : Mask) (r : Option IAddr) :
    (b.push k x m r).ctl = ⟨k, x, m, r⟩ :: b.ctl := rfl

/-- The entries that run groups of lanes, the first group's on top. -/
def groupEntries (groups : List (IAddr × Mask)) (r : Option IAddr) : List StackEntry :=
  groups.map fun g => ⟨.path, g.1, g.2, r⟩

/-- Groups pushed last first stand in their order. -/
theorem foldr_push_groups (groups : List (IAddr × Mask)) (r : Option IAddr) (b : Bank) :
    groups.foldr (fun g b => b.push .path g.1 g.2 r) b = { b with ctl := groupEntries groups r ++ b.ctl } := by
  induction groups with
  | nil => rfl
  | cons g gs ih => rw [List.foldr_cons, ih]; rfl

/-- No lane's target is misaligned. -/
theorem find_misaligned {ls : List Nat} {t : Nat → IAddr} (h : ∀ l ∈ ls, (slotAt (offOf (t l) % 64)).isSome) :
    (ls.find? fun l => (slotAt (offOf (t l) % 64)).isNone) = none :=
  List.find?_eq_none.mpr fun l hl => by simp [Option.isSome_iff_ne_none.mp (h l hl)]

section
variable {x : VArgs} {c : Ctx} {w : Wave} {s : State} {t1 : IAddr} {m1 : Mask} {rest : List (IAddr × Mask)}
  (hslot : ∀ l ∈ c.lanes, (slotAt (offOf (c.lane w x.a l) % 64)).isSome)
  (hgroups : targetGroups c (fun l => c.lane w x.a l) = (t1, m1) :: rest)
include hslot hgroups

/-- BRX where no lane stays: the first group runs, the others after it. -/
theorem brxBody_whole (hstay : w.path &&& ~~~c.act = 0)
    (hroom : (groupEntries rest w.bank.rpc ++ w.bank.ctl).length ≤ c.stackLimit) :
    brxBody x false c w s = transfer c s
      (w.setBank { w.bank with ctl := groupEntries rest w.bank.rpc ++ w.bank.ctl, mask := m1 }) t1 := by
  simp only [brxBody, find_misaligned hslot, hgroups, List.foldl_reverse, foldr_push_groups, hstay, Nat.not_lt.mpr hroom, ne_eq,
    not_true_eq_false, decide_false, Bool.false_and, Bool.false_eq_true, if_false]

/-- BRX where lanes stay: they go on first. -/
theorem brxBody_part (hstay : w.path &&& ~~~c.act ≠ 0)
    (hroom : (groupEntries rest w.bank.rpc ++ w.bank.ctl).length + 1 ≤ c.stackLimit) :
    brxBody x false c w s = .next (s.setWave c.core c.slot (w.setBank { w.bank with
      ctl := ⟨.path, t1, m1, w.bank.rpc⟩ :: (groupEntries rest w.bank.rpc ++ w.bank.ctl), mask := w.path &&& ~~~c.act })) := by
  simp only [brxBody, find_misaligned hslot, hgroups, List.foldl_reverse, foldr_push_groups, hstay, ctl_push, List.length_cons,
    Nat.not_lt.mpr hroom, ne_eq, not_false_eq_true, decide_true, Bool.not_false, Bool.and_self, Bool.false_eq_true,
    if_true, if_false]
  rfl

/-- CALLX: the first group runs, the others after it, and the call returns once all have. -/
theorem brxBody_call (hroom : (groupEntries rest none ++
      ⟨.call, (s.core c.core).nextValid (c.code s) c.pc, w.path, w.bank.rpc⟩ :: w.bank.ctl).length ≤ c.stackLimit) :
    brxBody x true c w s = transfer c s (w.setBank { w.bank with
      ctl := groupEntries rest none ++ ⟨.call, (s.core c.core).nextValid (c.code s) c.pc, w.path, w.bank.rpc⟩ :: w.bank.ctl
      mask := m1, rpc := none }) t1 := by
  simp only [brxBody, find_misaligned hslot, hgroups, List.foldl_reverse, foldr_push_groups, ctl_push, Nat.not_lt.mpr hroom,
    Bool.not_true, Bool.and_false, Bool.false_eq_true, if_true, if_false]
  rfl
end

/-- Settles O16: the groups pushed stand in ascending order, and the first target lies in the segment. -/
theorem callsAndIndirect : Obligations.CallsAndIndirect := by
  unfold Obligations.CallsAndIndirect
  refine ⟨?call, ?brx, ?callx⟩
  case call =>
    intro f s core slot w b t h c hact ht hroom
    have hbody := callBody_of_target (c := c) (h.code.symm ▸ ht) hroom
    rw [h.code] at hbody
    exact leads_of_jump rfl h (.inl hact) hbody (by simp)
  case brx =>
    intro f s core slot w b t1 m1 rest h c ctl hact hslot hgroups
    refine ⟨fun hstay hroom hg hx => ?_, fun hstay hroom => ?_⟩
    · have hbody := (brxBody_whole (x := f.args .brx false) hslot hgroups hstay hroom).trans
        (transfer_within _ (h.code.symm ▸ hx) hg)
      exact leads_of_jump rfl h (.inl hact) hbody (by simp)
    · exact leads_of_setBank rfl h (.inl hact) (brxBody_part (x := f.args .brx false) hslot hgroups hstay hroom)
  case callx =>
    intro f s core slot w b t1 m1 rest h c ctl hact hslot hgroups hroom hg hx
    have hbody := (brxBody_call (x := f.args .callx false) (c := c) (s := s) hslot hgroups (h.code.symm ▸ hroom)).trans
      (transfer_within _ (h.code.symm ▸ hx) hg)
    rw [h.code] at hbody
    exact leads_of_jump rfl h (.inl hact) hbody (by simp)

end Sys2Proof.Machine
end

section
/-!
RET, EXIT, RECON, NOP and YIELD (O17).
-/

namespace Sys2Proof.Machine

/-! ### The end of lanes (R109) -/

@[simp] theorem exitLanes_bank (w : Wave) (act : Mask) : (w.exitLanes act).bank =
    { w.bank with ctl := maskEntries act w.bank.ctl, mask := w.path &&& ~~~act } := bank_setBank w _

@[simp] theorem exitLanes_level (w : Wave) (act : Mask) : (w.exitLanes act).level = w.level := level_setBank w _

@[simp] theorem exitLanes_exited (w : Wave) (act : Mask) : (w.exitLanes act).exited = w.exited ||| act :=
  congrArg (· ||| act) (setBank_exited w _)

@[simp] theorem exitLanes_dead (w : Wave) (act : Mask) : (w.exitLanes act).dead = w.dead := setBank_dead w _

@[simp] theorem exitLanes_spilled (w : Wave) (act : Mask) : (w.exitLanes act).spilled = w.spilled := setBank_spilled w _

/-! ### RET (R109) -/

/-- A stack cut at the first entry that meets a test. -/
theorem takeWhile_dropWhile_cut {α : Type} {p : α → Bool} {above : List α} {e : α} {below : List α}
    (ha : ∀ x ∈ above, p x = true) (he : p e = false) :
    (above ++ e :: below).takeWhile p = above ∧ (above ++ e :: below).dropWhile p = e :: below := by
  rw [List.takeWhile_append_of_pos ha, List.dropWhile_append_of_pos ha]
  simp [he]

/-- RET within a call: the entries above the nearest call lose the lanes. -/
theorem retBody_called {c : Ctx} {w : Wave} (s : State) {above below : List StackEntry} {call : StackEntry}
    (hctl : w.bank.ctl = above ++ call :: below) (hcall : call.kind = .call) (habove : ∀ e ∈ above, e.kind ≠ .call) :
    retBody c w s = .next (s.setWave c.core c.slot (w.setBank
      { w.bank with ctl := maskEntries c.act above ++ call :: below, mask := w.path &&& ~~~c.act })) := by
  obtain ⟨htake, hdrop⟩ := takeWhile_dropWhile_cut (p := fun e : StackEntry => e.kind != .call) (e := call) (below := below)
    (fun e he => bne_iff_ne.mpr (habove e he)) (by simp [hcall])
  have hany : (above ++ call :: below).any (fun e => e.kind == .call) = true := by simp [hcall]
  simp only [retBody, hctl, hany, htake, hdrop, if_true]

/-- RET without a call: the lanes end. -/
theorem retBody_uncalled {c : Ctx} {w : Wave} (s : State) (h : ∀ e ∈ w.bank.ctl, e.kind ≠ .call) :
    retBody c w s = .next (s.setWave c.core c.slot (w.exitLanes c.act)) := by
  have hany : w.bank.ctl.any (fun e => e.kind == .call) = false := by simpa using h
  simp only [retBody, hany, Bool.false_eq_true, if_false]

/-! ### RECON (R110) -/

theorem reconBody_of_target {f : BF} {c : Ctx} {w : Wave} {s : State} {j : IAddr}
    (hj : (s.core c.core).relative (c.code s) c.pc f.target.toInt = .ok j) (hroom : w.bank.ctl.length + 1 ≤ c.stackLimit) :
    reconBody f c w s = .next (s.setWave c.core c.slot
      (w.setBank { w.bank.push .join j w.path w.bank.rpc with rpc := some j })) := by
  simp only [reconBody, hj, Nat.not_lt.mpr hroom, if_false]

/-- Settles O17: each of the five writes its own wave alone. -/
theorem returnsAndExits : Obligations.ReturnsAndExits := by
  unfold Obligations.ReturnsAndExits
  refine ⟨?ret, ?exit, ?recon, ?nop, ?yield⟩
  case ret =>
    intro f s core slot w b h act hact
    refine ⟨fun above call below hctl hcall habove => ?_, fun hnone => ?_⟩
    · exact leads_of_setBank rfl h (.inl hact) (retBody_called s hctl hcall habove)
    · exact leads_of_setWave rfl h (.inl hact) (retBody_uncalled s hnone) (exitLanes_level w _) (exitLanes_spilled w _)
  case exit =>
    intro f s core slot w b h act hact
    refine ⟨w.exitLanes act, ?_, exitLanes_exited w act, exitLanes_bank w act, exitLanes_dead w act⟩
    exact leads_of_setWave (body := exitBody) rfl h (.inl hact) rfl (exitLanes_level w _) (exitLanes_spilled w _)
  case recon =>
    intro f s core slot w b j h hact hj hroom
    exact leads_of_setBank rfl h (.inl hact) (reconBody_of_target (h.code.symm ▸ hj) hroom)
  case nop =>
    intro f s core slot w b h
    exact leads_of_next (body := nopBody) rfl h (.inr rfl) rfl h.wave rfl rfl rfl rfl
  case yield =>
    intro f s core slot w b h
    exact leads_of_setWave (body := yieldBody) rfl h (.inr rfl) rfl rfl rfl

end Sys2Proof.Machine
end

section
/-!
JSEG, SEGLD, SEGDROP and SEGQ (O18).
-/

namespace Sys2Proof.Machine

/-! ### A drop marked or cancelled (R101) -/

theorem wave_modSegment (s : State) (c code num : Nat) (f : Segment → Segment) (c' n : Nat) :
    (s.setCore c ((s.core c).modSegment code num f)).wave c' n = s.wave c' n :=
  wave_setCore_of (k := (s.core c).modSegment code num f) rfl c' n

theorem segment_modSegment (k : Core) (code num : Nat) (f : Segment → Segment)
    (hf : ∀ g, (f g).code = g.code ∧ (f g).num = g.num) (code' num' : Nat) : (k.modSegment code num f).segment code' num' =
      (k.segment code' num').map fun g => if g.code == code && g.num == num then f g else g := by
  unfold Core.segment Core.modSegment
  rw [List.find?_map]
  congr 2
  funext g
  simp only [Function.comp_apply]
  split
  · rw [(hf g).1, (hf g).2]
  · rfl

theorem validFrom_dropPending (g : Segment) (d : Bool) (n line : Nat) :
    ({ g with dropPending := d } : Segment).validFrom n line = g.validFrom n line := by
  induction n generalizing line with
  | zero => rfl
  | succ n ih =>
    unfold Segment.validFrom
    rw [ih]
    rfl

/-- Where an instruction stands does not depend on a pending drop. -/
theorem nextOff_dropPending (g : Segment) (d : Bool) (off : Nat) :
    ({ g with dropPending := d } : Segment).nextOff off = g.nextOff off := by
  unfold Segment.nextOff
  simp only [validFrom_dropPending]
  rfl

theorem nextValid_dropPending (k : Core) (code num : Nat) (d : Bool) (code' : Nat) (pc : IAddr) :
    (k.modSegment code num fun g => { g with dropPending := d }).nextValid code' pc = k.nextValid code' pc := by
  unfold Core.nextValid
  rw [segment_modSegment k code num (fun g => { g with dropPending := d }) fun _ => ⟨rfl, rfl⟩]
  cases k.segment code' (segOf pc) with
  | none => rfl
  | some g =>
    simp only [Option.map_some]
    split
    · rw [nextOff_dropPending]
    · rfl

/-! ### SEGLD (R101) -/

section
variable {s : State} {c : Ctx} {w : Wave} {num : Nat}

theorem segldCore_present {g : Segment} (hg : (s.core c.core).segment (c.code s) num = some g) : segldCore s c w num =
    (if g.loading then 2 else 1, (s.core c.core).modSegment (c.code s) num fun g => { g with dropPending := false }) := by
  simp only [segldCore, hg]

variable (hg : (s.core c.core).segment (c.code s) num = none)
include hg

theorem segldCore_unlisted (hn : (s.segEntry (c.code s) num).1 = 0) : segldCore s c w num = (4, s.core c.core) := by
  simp only [segldCore, hg, hn, if_true]

theorem segldCore_noRoom (hn : (s.segEntry (c.code s) num).1 ≠ 0)
    (hfree : (s.core c.core).freeSlots.length < (s.segEntry (c.code s) num).1) : segldCore s c w num = (3, s.core c.core) := by
  simp only [segldCore, hg, hn, takeSlots, hfree, if_true, if_false]

theorem segldCore_started (hn : (s.segEntry (c.code s) num).1 ≠ 0)
    (hfree : (s.segEntry (c.code s) num).1 ≤ (s.core c.core).freeSlots.length) : segldCore s c w num =
      (0, { s.core c.core with segs := (s.core c.core).segs ++ [{
        code := c.code s, num, size := (s.segEntry (c.code s) num).1,
        slots := (s.core c.core).freeSlots.take (s.segEntry (c.code s) num).1, loading := true, dropPending := false, bytes := [],
        after := (w.uid, w.nextSerial), changed := false }] }) := by
  simp only [segldCore, hg, hn, takeSlots, Nat.not_lt.mpr hfree, if_false]
end

/-- SEGLD that gives status `st` and leaves its core as `k` completes so. -/
theorem segld_leads {f : IF} {s : State} {core slot : Nat} {w : Wave} {b : Block} (h : Ready (.segld f) s core slot w b)
    (hact : (ctxFor (.segld f) s core slot w).act ≠ 0) {st : Nat} {k : Core}
    (hk : segldCore s (ctxFor (.segld f) s core slot w) w (f.imm.toNat % 256) = (st, k)) :
    Leads (.segld f) s core slot w b (s.setCore core k)
      (((ctxFor (.segld f) s core slot w).writeG w f.d.toNat (BitVec.ofNat 64 st)).atPc (k.nextValid b.code w.bank.pc)) := by
  have hbody : segldBody f (ctxFor (.segld f) s core slot w) w s = .next ((s.setCore core k).setWave core slot
      ((ctxFor (.segld f) s core slot w).writeG w f.d.toNat (BitVec.ofNat 64 st))) := by
    simp only [segldBody, hk]
    rfl
  exact leads_setWave (leads_of_next rfl h (.inl hact) hbody (wave_setWave_self _ _ _ _) (level_setBank _ _)
    (setBank_spilled _ _) rfl (nextValid_congr (by simp) _ _))

/-- SEGDROP of a segment that holds no handler's entry. -/
theorem segdropBody_marks {f : IF} {c : Ctx} {s : State} (w : Wave)
    (h : handlerSegment (s.core c.core) (c.code s) (f.imm.toNat % 256) = false) : segdropBody f c w s = .next (s.setCore c.core
      ((s.core c.core).modSegment (c.code s) (f.imm.toNat % 256) fun g => { g with dropPending := true })) := by
  simp only [segdropBody, h, Bool.false_eq_true, if_false]

/-- Settles O18: a fenced transfer, a status with the core it goes with, a mark on a segment, and a report. -/
theorem segments : Obligations.Segments := by
  unfold Obligations.Segments
  refine ⟨?jseg, ?segld, ?segdrop, ?segq⟩
  case jseg =>
    intro f s core slot w b h hact hx
    have hbody := transfer_fenced (c := ctxFor (.jseg f) s core slot w) w (fenced := true) (h.code.symm ▸ hx) (.inl rfl)
    rw [h.code] at hbody
    exact leads_of_fenced (body := jsegBody f) rfl h (.inl hact) hbody (level_goTo w _)
  case segld =>
    intro f s core slot w b h hact num k done
    refine ⟨fun g hg => ?_, fun hg => ⟨fun hn => ?_, fun hn hfree => ?_, fun hn hfree => ?_⟩⟩
    all_goals refine segld_leads h hact ?_
    · have hk := segldCore_present (w := w) (c := ctxFor (.segld f) s core slot w) (h.code.symm ▸ hg)
      rwa [h.code] at hk
    · exact segldCore_unlisted (h.code.symm ▸ hg) (h.code.symm ▸ hn)
    · exact segldCore_noRoom (h.code.symm ▸ hg) (h.code.symm ▸ hn) (h.code.symm ▸ hfree)
    · have hk := segldCore_started (w := w) (c := ctxFor (.segld f) s core slot w) (h.code.symm ▸ hg) (h.code.symm ▸ hn)
        (h.code.symm ▸ hfree)
      rwa [h.code] at hk
  case segdrop =>
    intro f s core slot w b h hact hh
    have hbody := segdropBody_marks (c := ctxFor (.segdrop f) s core slot w) w (h.code.symm ▸ hh)
    rw [h.code] at hbody
    refine leads_of_next rfl h (.inl hact) hbody ((wave_modSegment _ _ _ _ _ _ _).trans h.wave) rfl rfl rfl ?_
    rw [nextPc, core_setCore_self, nextValid_dropPending]
    rfl
  case segq =>
    intro f s core slot w b h hact num state
    refine leads_of_setBank (body := segqBody f) rfl h (.inl hact) ?_
    simp only [segqBody, h.code]
    rfl

end Sys2Proof.Machine
end

section
/-!
The active lanes of an instruction (O48).
-/

namespace Sys2Proof.Machine

theorem getLsbD_live (w : Wave) {l : Nat} (h : l < 32) :
    w.live.getLsbD l = true ↔ w.dead.getLsbD l = false ∧ w.exited.getLsbD l = false := by
  simp [Wave.live, h]

/-- A guard leaves lanes of the path alone (R41, R75). -/
theorem guardLanes_path {w : Wave} {onQ : Bool} {com : Common} {tick l : Nat} (h : (guardLanes w onQ com tick).getLsbD l = true) :
    w.path.getLsbD l = true := by
  unfold guardLanes at h
  dsimp only at h
  split at h
  · exact h
  · split at h
    · split at h
      · simp at h
      · exact h
    · rw [BitVec.getLsbD_and, Bool.and_eq_true] at h
      exact h.1

/-- GP = 127 guards no lane out (R41). -/
theorem guardLanes_always (w : Wave) (onQ : Bool) {com : Common} (tick : Nat) (h : com.gp = 127) :
    guardLanes w onQ com tick = w.path := by
  simp [guardLanes, h]

/-- Settles O48: an instruction's lanes are its guard's. -/
theorem activeLanes : Obligations.ActiveLanes := by
  unfold Obligations.ActiveLanes
  intro i s core slot w
  refine ⟨fun l hl => getLsbD_live w hl, fun l hact => ?active, fun l hpath => ?path, fun com hcom hgp => ?always⟩
  case active =>
    cases hcom : i.view.com with
    | none => simp [ctxFor, ctxOf, hcom] at hact
    | some com =>
      simp only [ctxFor, ctxOf, hcom] at hact
      exact guardLanes_path hact
  case path =>
    rw [Wave.path, BitVec.getLsbD_and, Bool.and_eq_true] at hpath
    exact hpath.2
  case always =>
    simp only [ctxFor, ctxOf, hcom]
    exact guardLanes_always w _ s.tick hgp

end Sys2Proof.Machine
end

section
/-!
MOV, SEL and NEAR (O8).
-/

namespace Sys2Proof.Machine

/-! ### The write of a pair in any shape (R80 to R83) -/

/-- The write of a pair whose registers hold the words of a result in each active lane. -/
theorem wrote_writePair (c : Ctx) (w : Wave) {d ty : Nat} (x y : VVal) (f : Nat → Nat) (hw : wide ty = true) (hd : d + 1 ≠ 1023)
    (hx : ∀ l, l < 32 → c.act.getLsbD l = true → (pairOf (x.lane l) (y.lane l)).toNat = f l % 2 ^ 64) :
    Wrote c w (w.setBank (w.bank.writePair c.act c.live d x y (resultFmt ty) (resultFmtHi ty))) d ty f := by
  have hne : d ≠ d + 1 := Nat.ne_of_lt (Nat.lt_succ_self d)
  have hbank : d ≠ 1023 → w.bank.writePair c.act c.live d x y (resultFmt ty) (resultFmtHi ty) =
      (w.bank.write c.act c.live d x (resultFmt ty)).write c.act c.live (d + 1) y (resultFmtHi ty) := fun h => if_neg h
  refine ⟨?only, fun h l hl ha => ?active, fun h l hl hv ha => ?others, fun h => ?format, fun h _ => ?formatHi,
    fun h hp => ?general, fun h l ha => ?cleared⟩
  case only => simpa [tyRegs_eq, hw] using onlyVec_writePair c w d x y (resultFmt ty) (resultFmtHi ty)
  case active =>
    obtain ⟨hlo, hhi⟩ := (lane_writePair c w d x y (resultFmt ty) (resultFmtHi ty) h hd hl).1 ha
    simp only [Wave.value, hw, if_true, hlo, hhi, tyBits, hx l hl ha]
  case others =>
    obtain ⟨hlo, hhi⟩ := (lane_writePair c w d x y (resultFmt ty) (resultFmtHi ty) h hd hl).2 hv ha
    simp only [Wave.value, hw, if_true, hlo, hhi]
  case format => rw [bank_setBank, hbank h, (lane_write_ne _ _ _ _ _ hne).2, fmt_write _ _ _ _ _ h, Ctx.tagged]
  case formatHi => rw [bank_setBank, hbank h, fmt_write _ _ _ _ _ hd, (lane_write_ne _ _ _ _ _ hne.symm).2, Ctx.tagged]
  case general =>
    rw [bank_setBank, hbank h, reg_write _ _ _ _ _ _ hd, if_neg hne]
    split
    · rfl
    · exact isG_write _ _ _ _ _ h hp
  case cleared =>
    rw [bank_setBank, hbank h]
    by_cases hq : (d + 1) / 4 = d / 4
    · exact hq ▸ tag_write _ _ _ _ _ hd ha
    · rw [tagsOf_write _ _ _ _ _ _ hq]
      exact tag_write _ _ _ _ _ h ha

/-! ### Moves of registers as they stand (R92, R93) -/

/-- The odd register of a pair; 1023 reads 0 (R51, R52). -/
def Ctx.oddVal (c : Ctx) (w : Wave) (n : Nat) : VVal := if n = 1023 then .u 0 else (c.readV w (n + 1)).val

theorem bits_b32 (c : Ctx) (w : Wave) (n l : Nat) : c.bits w tB32 n l = ((c.readV w n).val.lane l).toNat := rfl

theorem readV_1023 (c : Ctx) {w : Wave} (h : w.early = []) : (c.readV w 1023).val = .u 0 := by
  simp [Ctx.readV, Wave.readIn, h]

theorem bits_b64 (c : Ctx) {w : Wave} (h : w.early = []) (n l : Nat) :
    c.bits w tB64 n l = (pairOf ((c.readV w n).val.lane l) ((c.oddVal w n).lane l)).toNat := by
  show (c.lane64 w n l).toNat = _
  unfold Ctx.lane64 Ctx.oddVal
  split
  next hn =>
    rw [hn, readV_1023 c h]
    exact (by decide : (0 : Dword).toNat = (pairOf 0 0).toNat)
  next => rfl

theorem pairOf_toNat_mod (x y : Word) : (pairOf x y).toNat = (pairOf x y).toNat % 2 ^ 64 :=
  (Nat.mod_eq_of_lt (pairOf x y).isLt).symm

/-- The value SEL takes in an active lane, whatever the shape of its result. -/
theorem lane_selVal (c : Ctx) (p : Mask) (a b : VVal) {l : Nat} (hl : l < 32) (ha : c.act.getLsbD l = true) :
    (selVal c p a b).lane l = if p.getLsbD l then a.lane l else b.lane l := by
  have hbit : (p &&& c.act).getLsbD l = p.getLsbD l := by rw [BitVec.getLsbD_and, ha, Bool.and_true]
  unfold selVal
  split
  next h =>
    rw [h, ha] at hbit
    rw [← hbit, if_pos rfl]
  next =>
    split
    next h =>
      rw [h] at hbit
      rw [← hbit]
      simp
    next => exact Lanes.at_of _ hl

/-- An instruction of 32 or 64 bits writes a vector result of either width. -/
theorem writesVec_bitTypes {i : Instr} {x : VArgs} {body : WaveBody} {f : Ctx → Wave → Nat → Nat} (hv : i.view = .alu x)
    (he : ∀ s, exec i s = issueLocal i.view (encode i) body s) (ht : x.types = some bitTypes)
    (hd : x.od (.vec (tyRegs x.ty)) ∈ x.operands)
    (h32 : ∀ c w, x.ty = tB32 → w.early = [] → ∃ v, body c w = .ok (c.write w x.d v 0) ∧
      ∀ l, l < 32 → c.act.getLsbD l = true → v.lane l = BitVec.ofNat 32 (f c w l))
    (h64 : ∀ c w, x.ty = tB64 → w.early = [] → ∃ lo hi,
      body c w = .ok (w.setBank (w.bank.writePair c.act c.live x.d lo hi 0 0)) ∧
      ∀ l, l < 32 → c.act.getLsbD l = true → (pairOf (lo.lane l) (hi.lane l)).toNat = f c w l % 2 ^ 64) :
    WritesVec i x.d x.ty f := by
  intro s core slot w b h _
  have hd' : x.d + 1 ≠ 1023 := dst_not_1022 (ready_operands h.toReady _ (by rw [hv]; exact hd))
  have hty : x.ty = tB32 ∨ x.ty = tB64 := by
    have hdef := (ready_fate h.toReady).1
    simp only [hv, View.undefined, ht, Bool.or_eq_false_iff] at hdef
    obtain ⟨⟨⟨⟨⟨-, hmem⟩, -⟩, -⟩, -⟩, -⟩ := hdef
    simpa only [bitTypes, Bool.not_eq_false', List.contains_iff_mem, List.mem_cons, List.not_mem_nil, or_false] using hmem
  rcases hty with hty | hty
  · obtain ⟨v, hb, hl⟩ := h32 (ctxFor i s core slot w) w hty h.early
    have hw := wrote_write (ctxFor i s core slot w) w x.d tB32 v 0 _ rfl rfl hl
    exact ⟨_, completes_local (he s) h hb hw.only.samePath, hty ▸ hw⟩
  · obtain ⟨lo, hi, hb, hl⟩ := h64 (ctxFor i s core slot w) w hty h.early
    have hw := wrote_writePair (ctxFor i s core slot w) w (ty := tB64) lo hi _ rfl hd' hl
    exact ⟨_, completes_local (he s) h hb hw.only.samePath, hty ▸ hw⟩

/-! ### What MOV and SEL write (R92, R93) -/

section
variable {x : VArgs} (c : Ctx) (w : Wave)

theorem movBody_b32 (hi : x.imm = none) (ht : x.ty = tB32) : movBody x c w = .ok (c.write w x.d (c.readV w x.b).val 0) := by
  simp only [movBody, hi, ht]
  rfl

theorem movBody_b64 (hi : x.imm = none) (ht : x.ty = tB64) : movBody x c w =
    .ok (w.setBank (w.bank.writePair c.act c.live x.d (c.readV w x.b).val (c.oddVal w x.b) 0 0)) := by
  simp only [movBody, hi, ht, if_true, Ctx.oddVal]
  congr
  split <;> rfl

theorem movBody_imm32 {v : Word} (hi : x.imm = some v) (ht : x.ty = tB32) : movBody x c w = .ok (c.write w x.d (.u v) 0) := by
  simp only [movBody, hi, ht]
  rfl

theorem movBody_imm64 {v : Word} (hi : x.imm = some v) (ht : x.ty = tB64) : movBody x c w =
    .ok (w.setBank (w.bank.writePair c.act c.live x.d (.u (lowWord (immWide tB64 v))) (.u (highWord (immWide tB64 v))) 0 0)) := by
  simp only [movBody, hi, ht, if_true]
  rfl

theorem selBody_b32 (ht : x.ty = tB32) : selBody x c w =
    .ok (c.write w x.d (selVal c (c.readP w x.c) (c.readV w x.a).val (c.readV w x.b).val) 0) := by
  simp only [selBody, ht]
  rfl

theorem selBody_b64 (ht : x.ty = tB64) : selBody x c w = .ok (w.setBank (w.bank.writePair c.act c.live x.d
    (selVal c (c.readP w x.c) (c.readV w x.a).val (c.readV w x.b).val)
    (selVal c (c.readP w x.c) (c.oddVal w x.a) (c.oddVal w x.b)) 0 0)) := by
  simp only [selBody, ht, if_true]
  rfl
end

/-- Settles O8: MOV and SEL write what stands in their sources' registers; the rest follow from their meanings. -/
theorem moves : Obligations.Moves := by
  unfold Obligations.Moves
  refine ⟨fun f => ?mov, fun f => ?movImm, fun f => ?sel, fun f => ?movGroup, fun f => ?movGroupImm, fun f => ?selGroup,
    fun f => ?near⟩
  case mov =>
    refine writesVec_bitTypes (x := f.args .mov false) rfl (fun _ => rfl) rfl
      (by simp [VArgs.operands, VArgs.vectorOperands, VF.args])
      (fun c w ht _ => ⟨_, movBody_b32 c w rfl ht, fun l _ _ => ?_⟩)
      (fun c w ht he => ⟨_, _, movBody_b64 c w rfl ht, fun l _ _ => ?_⟩)
    all_goals replace ht : f.ty.toNat = _ := ht
    · rw [ht, bits_b32, BitVec.ofNat_toNat, BitVec.setWidth_eq]; rfl
    · rw [ht, bits_b64 c he, ← pairOf_toNat_mod]; rfl
  case movImm =>
    refine writesVec_bitTypes (x := f.args .mov false) rfl (fun _ => rfl) rfl
      (by simp [VArgs.operands, VArgs.vectorOperands, IF.args])
      (fun c w ht _ => ⟨_, movBody_imm32 c w rfl ht, fun l _ _ => ?_⟩)
      (fun c w ht _ => ⟨_, _, movBody_imm64 c w rfl ht, fun l _ _ => ?_⟩)
    all_goals replace ht : f.ty.toNat = _ := ht
    · rw [ht, if_neg (by decide), BitVec.ofNat_toNat, BitVec.setWidth_eq]; rfl
    · have hv := toNat_pairOf (immWide tB64 f.imm).toNat
      rw [BitVec.ofNat_toNat, BitVec.setWidth_eq] at hv
      rw [ht, if_pos (show wide tB64 = true from rfl)]
      exact hv
  case sel =>
    refine writesVec_bitTypes (x := f.args .sel false) rfl (fun _ => rfl) rfl
      (by simp [VArgs.operands, VArgs.vectorOperands, VF.args])
      (fun c w ht _ => ⟨_, selBody_b32 c w ht, fun l hl ha => ?_⟩)
      (fun c w ht he => ⟨_, _, selBody_b64 c w ht, fun l hl ha => ?_⟩)
    all_goals replace ht : f.ty.toNat = _ := ht
    · rw [lane_selVal c _ _ _ hl ha, ht, bits_b32, bits_b32]
      cases hp : (c.readP w f.c.toNat).getLsbD l <;> simp [VF.args, hp]
    · rw [lane_selVal c _ _ _ hl ha, lane_selVal c _ _ _ hl ha, ht, bits_b64 c he, bits_b64 c he]
      cases hp : (c.readP w f.c.toNat).getLsbD l <;> simp only [VF.args, hp, if_true, Bool.false_eq_true, if_false] <;>
        exact pairOf_toNat_mod _ _
  case movGroup => exact writesGrpAnd_of (fun _ => rfl) (fun _ _ => rfl) fun _ _ w1 => SamePath.refl w1
  case movGroupImm => exact writesGrpAnd_of (fun _ => rfl) (fun _ _ => rfl) fun _ _ w1 => SamePath.refl w1
  case selGroup => exact writesGrpAnd_of (fun _ => rfl) (fun _ _ => rfl) fun _ _ w1 => SamePath.refl w1
  case near =>
    intro s core slot w b h
    exact completes_local rfl h rfl .of_bank

end Sys2Proof.Machine
end

section
/-!
The integer and bit instructions, vector and group-wide (O1, O2, O3, O9, O47).
-/

namespace Sys2Proof.Machine

/-! ### A vector form of an integer or bit operation (R130, R134) -/

/-- A form of an operation of the integer and bit chapters writes what `f` names, where `f` is its operation's result. What is asked
of the form itself is read off its constructor. -/
theorem writesVec_intLane {i : Instr} {x : VArgs} {d ty : Nat} {f : Ctx → Wave → Nat → Nat} (hf : intLane x = f)
    (hd : x.d = d := by rfl) (hr : intResTy x.op x.ty = ty := by rfl) (hv : i.view = .alu x := by rfl)
    (he : ∀ s, exec i s = issueLocal i.view (encode i) (intBody x) s := by exact fun _ => rfl)
    (hg : x.gw = false := by rfl) (ho : intOps.contains x.op = true := by rfl) : WritesVec i d ty f := by
  subst hf hd hr
  exact writesVec_int i x hv he hg (List.contains_iff_mem.mp ho)

/-- PRMB alone reads no C where operand B is an immediate (R136). -/
theorem intLane_eq_intOf {x : VArgs} (c : Ctx) (w : Wave) (l : Nat) (h : x.op ≠ .prmb ∨ x.imm = none) :
    intLane x c w l = intOf x.op x.ty x.sub x.sat (c.bits w x.ty x.a l) (c.bitsB w x l) (c.bits w x.ty x.c l) (c.countB w x l)
      (c.lane w x.c l).toNat := by
  have hc : (x.op == .prmb && x.imm.isSome) = false := by
    rcases h with h | h
    · rw [beq_false_of_ne h, Bool.false_and]
    · rw [h, Option.isSome_none, Bool.and_false]
  rw [intLane, hc, if_neg Bool.false_ne_true]

section
variable {x : VArgs} (hC : x.op ≠ .prmb ∨ x.imm = none)
include hC

/-- An operation on the values of A, B and C whose result is wrapped or clamped (R131). -/
theorem intLane_arith {sat : Bool} {g : Int → Int → Int → Int}
    (h : ∀ a b c n m, intOf x.op x.ty x.sub x.sat a b c n m = finish x.ty sat (g (tyVal x.ty a) (tyVal x.ty b) (tyVal x.ty c))) :
    intLane x = arith x sat g := by
  funext c w l
  rw [intLane_eq_intOf c w l hC, h]
  rfl

/-- An operation on the bits of A, B and C (R135). -/
theorem intLane_bitwise {g : Nat → Nat → Nat → Nat → Nat}
    (h : ∀ a b c n m, intOf x.op x.ty x.sub x.sat a b c n m = g (tyBits x.ty) a b c) : intLane x = bitwise x g := by
  funext c w l
  rw [intLane_eq_intOf c w l hC, h]
  rfl

/-- An operation on the bits of A and C and the untyped bits of B (R128). -/
theorem intLane_counted {g : Nat → Nat → Nat → Nat → Nat}
    (h : ∀ a b c n m, intOf x.op x.ty x.sub x.sat a b c n m = g (tyBits x.ty) a n c) : intLane x = counted x g := by
  funext c w l
  rw [intLane_eq_intOf c w l hC, h]
  rfl
end

/-- Settles O1: each operation's row of `intOf` is its exact result, kept by `finish`. -/
theorem integerArithmetic : Obligations.IntegerArithmetic := by
  unfold Obligations.IntegerArithmetic
  refine ⟨?iadd, ?iaddImm, ?isub, ?isubImm, ?imul, ?imulImm, ?imulh, ?imulhImm, ?imulw, ?imad, ?ilea, ?ileaImm, ?imin, ?iminImm,
    ?imax, ?imaxImm, ?iabs, ?ineg, ?isad⟩
  case imulh => exact fun f => writesVec_intLane (x := f.args .imulh false) rfl
  case imulhImm => exact fun f => writesVec_intLane (x := f.args .imulh false) rfl
  case imulw => exact fun f => writesVec_intLane (x := f.args .imulw false) rfl
  all_goals exact fun f => writesVec_intLane (intLane_arith (.inl Op.noConfusion) fun _ _ _ _ _ => rfl)

/-! ### Group-wide forms (R129, R168) -/

section
variable {x : VArgs}

/-- The group-wide form of an integer or bit operation but ICMP. -/
theorem groupBody_int (hn : x.op ≠ .icmp) (hc : x.op.code < 0x30) (c : Ctx) (w : Wave) :
    groupBody x c w = .ok (c.writeG w x.d (BitVec.ofNat 64 (intOf x.op x.ty x.sub x.sat (c.groupBits w x.ty x.a) (c.groupB w x)
      (if x.op == .prmb && x.imm.isSome then 0 else c.groupBits w x.ty x.c) (c.groupCount w x) (c.groupBits w tB32 x.c)))) := by
  unfold groupBody
  dsimp only
  split
  next h => exact absurd h hn
  next h => exact absurd hc (by rw [h]; decide)
  next h => exact absurd hc (by rw [h]; decide)
  next => rw [if_neg (by omega)]

/-- The group-wide form of a floating operation but FCMP and FCLASS. -/
theorem groupBody_float (hn : x.op ≠ .fcmp) (hk : x.op ≠ .fclass) (hc : 0x30 ≤ x.op.code) (c : Ctx) (w : Wave) :
    groupBody x c w = .ok (c.writeG w x.d (BitVec.ofNat 64 (floatElems x (modeOf w x.round) (c.groupBits w x.ty x.a)
      (c.groupB w x) (c.groupBits w x.ty x.c) (c.groupCount w x)))) := by
  unfold groupBody
  dsimp only
  split
  next h => exact absurd hc (by rw [h]; decide)
  next h => exact absurd h hn
  next h => exact absurd h hk
  next => rw [if_pos hc]

theorem groupBody_icmp (h : x.op = .icmp) (c : Ctx) (w : Wave) : groupBody x c w =
    .ok (c.writeQ w x.d (intCond x.sub (tyVal x.ty (c.groupBits w x.ty x.a)) (tyVal x.ty (c.groupB w x)))) := by
  simp only [groupBody, h]

theorem groupBody_fcmp (h : x.op = .fcmp) (c : Ctx) (w : Wave) :
    groupBody x c w = .ok (c.writeQ w x.d (fcmpOf x (c.groupBits w x.ty x.a) (c.groupB w x))) := by
  simp only [groupBody, h]

theorem groupBody_fclass (h : x.op = .fclass) (c : Ctx) (w : Wave) :
    groupBody x c w = .ok (c.writeG w x.d (BitVec.ofNat 64 (classOf x.ty (c.groupBits w x.ty x.a)))) := by
  simp only [groupBody, h]
end

/-- A group-wide form whose operation writes a register completes with it (R168). -/
theorem writesGrp_groupWideAlu {f : GwForm} {g : Ctx → Wave → Dword}
    (h : ∀ c w, groupBody (GwForm.args f) c w = .ok (c.writeG w (GwForm.args f).d (g c w))) :
    WritesGrp (.groupWideAlu f) (GwForm.args f).d g :=
  writesGrpAnd_of (fun _ => rfl) h fun _ _ w1 => SamePath.refl w1

/-- A group-wide comparison completes with its predicate (R168). -/
theorem writesQ_groupWideAlu {f : GwForm} {g : Ctx → Wave → Bool}
    (h : ∀ c w, groupBody (GwForm.args f) c w = .ok (c.writeQ w (GwForm.args f).d (g c w))) :
    WritesQ (.groupWideAlu f) (GwForm.args f).d g :=
  writesQ_of (fun _ => rfl) h

/-- Settles O9: the class of an operation says which of the five group-wide effects it has. -/
theorem groupWide : Obligations.GroupWide := by
  unfold Obligations.GroupWide
  refine ⟨fun f => ⟨?icmp, ?fcmp, ?fclass, ?integer, ?floating⟩, fun f => ?cvt, fun f => ?plop⟩
  case icmp => exact fun h => writesQ_groupWideAlu (groupBody_icmp h)
  case fcmp => exact fun h => writesQ_groupWideAlu (groupBody_fcmp h)
  case fclass => exact fun h => writesGrp_groupWideAlu (groupBody_fclass h)
  case integer => exact fun hn hc => writesGrp_groupWideAlu (groupBody_int hn hc)
  case floating => exact fun hn hk hc => writesGrp_groupWideAlu (groupBody_float hn hk hc)
  case cvt => exact writesGrpAnd_of (fun _ => rfl) (fun _ _ => rfl) fun _ _ w1 => SamePath.refl w1
  case plop => exact writesQ_of (fun _ => rfl) fun _ _ => rfl

/-! ### Division (R132) -/

theorem divOf_quotient (ty : Nat) (sat : Bool) (a b : Nat) : divOf ty sat false a b =
    if tyVal ty b = 0 then 2 ^ tyBits ty - 1 else finish ty sat ((tyVal ty a).tdiv (tyVal ty b)) := rfl

theorem divOf_remainder (ty : Nat) (sat : Bool) (a b : Nat) : divOf ty sat true a b =
    if tyVal ty b = 0 then a % 2 ^ tyBits ty else finish ty false ((tyVal ty a).tmod (tyVal ty b)) := rfl

/-- Settles O2: the rows of IDIV and IREM are the two results of `divOf`. -/
theorem integerDivision : Obligations.IntegerDivision := by
  unfold Obligations.IntegerDivision
  refine ⟨fun f => ?idiv, fun f => ?idivImm, fun f => ?irem, fun f => ?iremImm, fun f => ⟨fun h => ?idivGroup, fun h => ?iremGroup⟩⟩
  case idiv => exact writesVec_intLane (x := f.args .idiv false) (funext₃ fun _ _ _ => divOf_quotient ..)
  case idivImm => exact writesVec_intLane (x := f.args .idiv false) (funext₃ fun _ _ _ => divOf_quotient ..)
  case irem => exact writesVec_intLane (x := f.args .irem false) (funext₃ fun _ _ _ => divOf_remainder ..)
  case iremImm => exact writesVec_intLane (x := f.args .irem false) (funext₃ fun _ _ _ => divOf_remainder ..)
  case idivGroup =>
    refine writesGrp_groupWideAlu fun c w => ?_
    rw [groupBody_int (by rw [h]; decide) (by rw [h]; decide)]
    simp only [h, intOf, divOf_quotient]
  case iremGroup =>
    refine writesGrp_groupWideAlu fun c w => ?_
    rw [groupBody_int (by rw [h]; decide) (by rw [h]; decide)]
    simp only [h, intOf, divOf_remainder]

/-! ### Logic, shifts, counts and fields (R135, R136) -/

/-- Settles O3: each operation is a function of bits (R135), or of bits and an untyped count or descriptor (R136). -/
theorem bitLogicAndFields : Obligations.BitLogicAndFields := by
  unfold Obligations.BitLogicAndFields
  refine ⟨?andBits, ?andImm, ?orBits, ?orImm, ?xorBits, ?xorImm, ?notBits, ?bfn3, ?shl, ?shlImm, ?shr, ?shrImm, ?rotl, ?rotlImm,
    ?fshl, ?popc, ?clz, ?brev, ?bfx, ?bfi, ?prmb, ?prmbImm⟩
  case andBits | andImm | orBits | orImm | xorBits | xorImm | notBits | bfn3 | popc | clz | brev =>
    exact fun f => writesVec_intLane (intLane_bitwise (.inl Op.noConfusion) fun _ _ _ _ _ => rfl)
  case fshl => exact fun f => writesVec_intLane (x := f.args .fshl false) rfl
  case prmb => exact fun f => writesVec_intLane (intLane_counted (.inr rfl) fun _ _ _ _ _ => rfl)
  case prmbImm => exact fun f => writesVec_intLane (x := f.args .prmb false) rfl
  all_goals exact fun f => writesVec_intLane (intLane_counted (.inl Op.noConfusion) fun _ _ _ _ _ => rfl)

/-! ### Comparison (R133) -/

/-- A signed TYPE reads a value's bits as two's complement. -/
theorem sext_toNat {n : Nat} (x : BitVec n) (hn : 0 < n) : sext n x.toNat = x.toInt := by
  have h2 : 2 ^ n = 2 * 2 ^ (n - 1) := (mul_pow_sub_one hn.ne' 2).symm
  rw [sext, Nat.mod_eq_of_lt x.isLt, BitVec.toInt_eq_toNat_cond]
  exact if_congr (by omega) rfl rfl

theorem writesPred_icmp {i : Instr} {x : VArgs} (he : ∀ s, exec i s = issueLocal i.view (encode i) (icmpBody x) s) :
    WritesPred i x.d fun c w l => intCond x.sub (valA x c w l) (valB x c w l) :=
  writesPred_of he (fun _ _ => rfl) fun _ _ _ hl _ => Mask.getLsbD_of _ hl

/-- Settles O47: the statement's conditions are `intCond`, and TYPE's signedness is that of `sext`. -/
theorem integerCompare : Obligations.IntegerCompare := by
  unfold Obligations.IntegerCompare
  intro cond
  have hcond : cond = intCond := by
    funext n a b
    rcases n with _ | _ | _ | _ | _ | n <;> rfl
  rw [hcond]
  refine ⟨fun f => ?reg, fun f => ?imm, fun f h => ?group, fun x => ⟨?_, ?_, ?_⟩, fun x => ⟨?_, ?_, ?_⟩⟩
  case reg => exact writesPred_icmp (x := f.args .icmp false) fun _ => rfl
  case imm => exact writesPred_icmp (x := f.args .icmp false) fun _ => rfl
  case group => exact writesQ_groupWideAlu (groupBody_icmp h)
  · exact sext_toNat x (by decide)
  · exact congrArg Nat.cast (Nat.mod_eq_of_lt x.isLt)
  · exact congrArg Nat.cast (Nat.mod_eq_of_lt x.isLt)
  · exact sext_toNat x (by decide)
  · exact congrArg Nat.cast (Nat.mod_eq_of_lt x.isLt)
  · exact congrArg Nat.cast (Nat.mod_eq_of_lt x.isLt)

end Sys2Proof.Machine
end

section
/-!
The floating instructions, conversions, quantisation and dot products (O4, O5, O6, O7).
-/

namespace Sys2Proof.Machine

/-! ### A vector form of a floating operation (R137) -/

/-- A form of an operation of the floating chapter writes what `f` names, where `f` is its operation's result. What is asked of the
form itself is read off its constructor. -/
theorem writesVec_floatLane {i : Instr} {x : VArgs} {d ty : Nat} {f : Ctx → Wave → Nat → Nat} (hf : floatLane x = f)
    (hd : x.d = d := by rfl) (ht : x.ty = ty := by rfl) (hv : i.view = .alu x := by rfl)
    (he : ∀ s, exec i s = issueLocal i.view (encode i) (floatBody x) s := by exact fun _ => rfl)
    (hg : x.gw = false := by rfl) (ho : floatOps.contains x.op = true := by rfl) : WritesVec i d ty f := by
  subst hf hd ht
  exact writesVec_float i x hv he hg (List.contains_iff_mem.mp ho)

/-- An operation on the modified bits of the sources, element by element (R120, R126). -/
theorem floatLane_floating {x : VArgs} {g : FFmt → Nat → Nat → Nat → Nat → Nat}
    (h : ∀ f mode a b z n, floatOf x.op f mode x.sat a b z n = g f mode a b z) : floatLane x = floating x g := by
  funext c w l
  simp only [floatLane, floatElems, floating, h]

/-- An operation whose exact result is rounded once, and clamped by SAT (R127, R138). -/
theorem floatLane_rounded {x : VArgs} {sat : Bool} {g : Nat → FVal → FVal → FVal → FVal}
    (h : ∀ (f : FFmt) mode a b z n, floatOf x.op f mode x.sat a b z n =
      if sat then clampUnit f (f.roundTo mode (g mode (f.value a) (f.value b) (f.value z)))
      else f.roundTo mode (g mode (f.value a) (f.value b) (f.value z))) : floatLane x = rounded x sat g :=
  floatLane_floating h

/-- Settles O4: each operation's row of `floatOf` is its exact result, rounded once. -/
theorem floatArithmetic : Obligations.FloatArithmetic := by
  unfold Obligations.FloatArithmetic
  refine ⟨?fadd, ?faddImm, ?fsub, ?fsubImm, ?fmul, ?fmulImm, ?fma, ?fdiv, ?frcp, ?fsqrt, ?frsq⟩
  all_goals exact fun f => writesVec_floatLane (floatLane_rounded fun _ _ _ _ _ _ => rfl)

/-! ### Functions, selections and comparisons (R139 to R143) -/

/-- FSCL scales by the untyped exponent of the lane (R128, R141). -/
theorem floatLane_fscl {x : VArgs} (h : x.op = .fscl) : floatLane x = fun c w l => floating x
    (fun m mode a _ _ => m.roundTo mode ((m.value a).scale (sext 32 (c.countB w x l)))) c w l := by
  funext c w l
  simp only [floatLane, floatElems, floating, floatOf, h]

theorem writesPred_fcmp {i : Instr} {x : VArgs} (he : ∀ s, exec i s = issueLocal i.view (encode i) (fcmpBody x) s) :
    WritesPred i x.d fun c w l => fcmpOf x (c.bits w x.ty x.a l) (c.bitsB w x l) :=
  writesPred_of he (fun _ _ => rfl) fun _ _ _ hl _ => Mask.getLsbD_of _ hl

/-- Settles O5: the functions are rounded once (R139), the selections and FRND are functions of the modified bits (R140, R141). -/
theorem floatFunctionsAndSelection : Obligations.FloatFunctionsAndSelection := by
  unfold Obligations.FloatFunctionsAndSelection
  refine ⟨?fexp2, ?flog2, ?fsin, ?fcos, ?fmin, ?fminImm, ?fmax, ?fmaxImm, ?fmed3, ?fcps, ?fcpsImm, ?fscl, ?fsclImm, ?frnd, ?fclass,
    ?fcmp, ?fcmpImm⟩
  case fexp2 | flog2 | fsin | fcos => exact fun f => writesVec_floatLane (floatLane_rounded fun _ _ _ _ _ _ => rfl)
  case fscl | fsclImm => exact fun f => writesVec_floatLane (floatLane_fscl rfl)
  case fclass => exact writesVec_fclass
  case fcmp => exact fun f => writesPred_fcmp (x := f.args .fcmp false) fun _ => rfl
  case fcmpImm => exact fun f => writesPred_fcmp (x := f.args .fcmp false) fun _ => rfl
  all_goals exact fun f => writesVec_floatLane (floatLane_floating fun _ _ _ _ _ _ => rfl)

/-! ### Conversions, quantisation and dot products (R144 to R148) -/

/-- Settles O6: `cvtOf` is the one conversion of CVT, spelled out. -/
theorem conversions : Obligations.Conversions := by
  unfold Obligations.Conversions
  exact ⟨writesVec_cvt, writesVec_pack, writesRegs_unpk⟩

/-- Settles O7: each dot product's sum is its row of `dotBody`. -/
theorem quantisationAndDotProducts : Obligations.QuantisationAndDotProducts := by
  unfold Obligations.QuantisationAndDotProducts
  refine ⟨writesVec_qnt, writesRegs_dqnt, fun f => ?fdot2, fun f => ?idot4, fun f => ?ldot⟩
  case fdot2 => exact writesVec_dot (.fdot2 f) (f.args .fdot2 false) rfl (fun _ => rfl) rfl rfl (.inl rfl)
  case idot4 => exact writesVec_dot (.idot4 f) (f.args .idot4 false) rfl (fun _ => rfl) rfl rfl (.inr (.inl rfl))
  case ldot => exact writesVec_dot (.ldot f) (f.args .ldot false) rfl (fun _ => rfl) rfl rfl (.inr (.inr rfl))

end Sys2Proof.Machine
end

section
/-!
Words written out from the encoding tables (O55).
-/

namespace Sys2Proof.Machine

/-- Settles O55: the decoder evaluated on each word. -/
theorem writtenWords : Obligations.WrittenWords := by
  unfold Obligations.WrittenWords
  exact ⟨rfl, rfl, rfl, rfl, rfl⟩

end Sys2Proof.Machine
end

section
/-!
Shuffles, lanes and group-wide registers (O10).
-/

namespace Sys2Proof.Machine

/-! ### The lowest active lane and uniform sources -/

/-- Where a lane is active, so is the lowest one. -/
theorem Ctx.lowest_active {c : Ctx} {l : Nat} (h : c.act.getLsbD l = true) : c.lowest < 32 ∧ c.act.getLsbD c.lowest = true := by
  have hne : c.act ≠ 0 := fun h0 => by simp [h0] at h
  obtain ⟨m, hm, hlt, hact⟩ := Mask.lowest_mem hne
  rw [Ctx.lowest, hm]
  exact ⟨hlt, hact⟩

theorem Ctx.mem_lanes {c : Ctx} {l : Nat} : l ∈ c.lanes ↔ l < 32 ∧ c.act.getLsbD l = true := Mask.mem_lanes c.act l

/-- A uniform register or pair holds one value of its TYPE. -/
theorem bits_of_allU {c : Ctx} {w : Wave} {ty n : Nat} {hh : Bool} (h : c.allU w n (tyRegs ty) = true)
    (ho : Operand.ok hh ⟨.a, .vec (tyRegs ty), n, .src, none⟩ = true) (l : Nat) : c.bits w ty n l = c.bits w ty n 0 :=
  bits_of_uniform (ops := [⟨.a, .vec (tyRegs ty), n, .src, none⟩]) (by simpa [Ctx.uniform] using h)
    (fun _ hm => List.mem_singleton.mp hm ▸ ho) (List.mem_singleton_self _) Role.noConfusion l

/-! ### Results whose shape is not that of their sources (R80) -/

section
variable {i : Instr} {x : VArgs} {body : WaveBody} {ty k : Nat} {post : Ctx → Wave → Wave → Wave}

/-- An instruction whose result, where it is uniform, is that of the lowest active lane, which the other active lanes share. -/
theorem writesVecAnd_lowest {u : Ctx → Wave → Bool} {f : Ctx → Wave → Nat → Nat}
    (he : ∀ s, exec i s = issueLocal i.view (encode i) body s)
    (hb : ∀ c w, body c w = .ok (post c w (c.writeTy w x.d (u c w) ty fun l => f c w (if u c w then c.lowest else l))))
    (hu : ∀ c w hh, (∀ o ∈ x.operands, o.ok hh = true) → u c w = true → ∀ m ∈ c.lanes, ∀ l ∈ c.lanes, f c w m = f c w l)
    (hp : ∀ c w w1, SamePath w1 (post c w w1) := by exact fun _ _ w1 => .refl w1) (hv : i.view = .alu x := by rfl)
    (hd : x.od (.vec k) ∈ x.operands := by exact .head _) : WritesVecAnd i x.d ty f post := by
  refine writesVecIf_of hv he (fun c w _ => hb c w) hp ⟨_, _, _, _, hd, Role.noConfusion⟩
    (fun c w _ _ _ _ h l _ => by simp only [h, if_true]) fun c w hh hok l hl ha => ?_
  cases h : u c w
  · rfl
  · exact hu c w hh hok h _ (Ctx.mem_lanes.mpr (Ctx.lowest_active ha)) _ (Ctx.mem_lanes.mpr ⟨hl, ha⟩)

/-- An instruction whose effect is one general result, with more done to its wave after it. -/
theorem writesVecAnd_general {f : Ctx → Wave → Nat → Nat} (he : ∀ s, exec i s = issueLocal i.view (encode i) body s)
    (hb : ∀ c w, body c w = .ok (post c w (c.writeTy w x.d false ty (f c w))))
    (hp : ∀ c w w1, SamePath w1 (post c w w1) := by exact fun _ _ w1 => .refl w1) (hv : i.view = .alu x := by rfl)
    (hd : x.od (.vec k) ∈ x.operands := by exact .head _) : WritesVecAnd i x.d ty f post :=
  writesVecAnd_lowest (u := fun _ _ => false) he hb (fun _ _ _ _ h => Bool.noConfusion h) hp hv hd

/-- An instruction whose effect is one uniform result, with more done to its wave after it. -/
theorem writesVecAnd_uniform {n : Ctx → Wave → Nat} (he : ∀ s, exec i s = issueLocal i.view (encode i) body s)
    (hb : ∀ c w, body c w = .ok (post c w (c.writeTy w x.d true ty fun _ => n c w)))
    (hp : ∀ c w w1, SamePath w1 (post c w w1) := by exact fun _ _ w1 => .refl w1) (hv : i.view = .alu x := by rfl)
    (hd : x.od (.vec k) ∈ x.operands := by exact .head _) : WritesVecAnd i x.d ty (fun c w _ => n c w) post :=
  writesVecAnd_lowest (u := fun _ _ => true) he hb (fun _ _ _ _ _ _ _ _ _ => rfl) hp hv hd
end

/-! ### Shuffles (R152, R153) -/

theorem SamePath.poisonIf (w : Wave) (dead : Bool) : SamePath w (w.poisonIf dead) := by
  cases dead <;> exact .of_bank

/-- A uniform shuffle takes the value its lowest active lane reads. -/
theorem moveLanes_eq (c : Ctx) (w : Wave) (x : VArgs) (u : Bool) (src : Nat → Nat) : moveLanes c w x u src =
    (c.writeTy w x.d u x.ty fun l => readLane c w x.ty x.a (src (if u then c.lowest else l))).poisonIf
      (c.lanes.any fun l => w.dead.getLsbD (src l)) := by
  cases u <;> rfl

/-- A shuffle, where the lanes of a uniform result read one value. -/
theorem writesVecAnd_moveLanes {i : Instr} {x : VArgs} {body : WaveBody} {u : Ctx → Wave → Bool} {src : Ctx → Wave → Nat → Nat}
    (he : ∀ s, exec i s = issueLocal i.view (encode i) body s) (hb : ∀ c w, body c w = .ok (moveLanes c w x (u c w) (src c w)))
    (hu : ∀ c w hh, (∀ o ∈ x.operands, o.ok hh = true) → u c w = true → ∀ m ∈ c.lanes, ∀ l ∈ c.lanes,
      readLane c w x.ty x.a (src c w m) = readLane c w x.ty x.a (src c w l))
    (hv : i.view = .alu x := by rfl) (hd : x.od (.vec (tyRegs x.ty)) ∈ x.operands := by exact .head _) :
    WritesVecAnd i x.d x.ty (fun c w l => readLane c w x.ty x.a (src c w l)) fun c w w1 =>
      w1.poisonIf (c.lanes.any fun l => w.dead.getLsbD (src c w l)) :=
  writesVecAnd_lowest he (fun c w => (hb c w).trans (congrArg _ (moveLanes_eq ..))) hu (fun _ _ w1 => .poisonIf w1 _) hv hd

/-- Live lanes of a uniform register or pair read one value (R149). -/
theorem readLane_of_allU {c : Ctx} {w : Wave} {ty n : Nat} {hh : Bool} (h : c.allU w n (tyRegs ty) = true)
    (ho : Operand.ok hh ⟨.a, .vec (tyRegs ty), n, .src, none⟩ = true) {s : Nat} (hs : w.dead.getLsbD s = false) :
    readLane c w ty n s = c.bits w ty n 0 := by
  rw [readLane, hs]
  exact bits_of_allU h ho s

/-- The first case of R153: A is uniform and no active lane reads a dead lane. -/
theorem readLane_noDead {c : Ctx} {w : Wave} {ty n : Nat} {hh : Bool} {src : Nat → Nat}
    (h : (c.allU w n (tyRegs ty) && c.lanes.all fun l => !w.dead.getLsbD (src l)) = true)
    (ho : Operand.ok hh ⟨.a, .vec (tyRegs ty), n, .src, none⟩ = true) {m l : Nat} (hm : m ∈ c.lanes) (hl : l ∈ c.lanes) :
    readLane c w ty n (src m) = readLane c w ty n (src l) := by
  obtain ⟨hU, hlive⟩ := Bool.and_eq_true_iff.mp h
  have live : ∀ j ∈ c.lanes, w.dead.getLsbD (src j) = false := fun j hj => by simpa using List.all_eq_true.mp hlive j hj
  rw [readLane_of_allU hU ho (live m hm), readLane_of_allU hU ho (live l hl)]

/-- Mode .IDX over the whole wave names lane n mod 32. -/
theorem shuffleFrom_idx32 (n : Nat) {l : Nat} (hl : l < 32) : shuffleFrom (5 * 8) n l = n % 32 := by
  simp [shuffleFrom, Nat.mod_eq_of_lt hl]

/-- SHFL: in the second case of R153 every lane reads the same one. -/
theorem writesVecAnd_shfl {i : Instr} {x : VArgs} (he : ∀ s, exec i s = issueLocal i.view (encode i) (shflBody x) s)
    (hv : i.view = .alu x := by rfl) (hd : x.od (.vec (tyRegs x.ty)) ∈ x.operands := by exact .head _)
    (ha : x.oa (.vec (tyRegs x.ty)) ∈ x.operands := by exact .tail _ (.head _)) :
    WritesVecAnd i x.d x.ty (fun c w l => readLane c w x.ty x.a (shuffleFrom x.sub (c.countB w x l) l)) fun c w w1 =>
      w1.poisonIf (c.lanes.any fun l => w.dead.getLsbD (shuffleFrom x.sub (c.countB w x l) l)) := by
  refine writesVecAnd_moveLanes he (fun _ _ => rfl) (fun c w hh hok hu m hm l hl => ?_) hv hd
  rcases Bool.or_eq_true_iff.mp hu with hu | hone
  · exact readLane_noDead hu (hok _ ha) hm hl
  · simp only [Bool.and_eq_true, Bool.or_eq_true, decide_eq_true_eq] at hone
    obtain ⟨⟨hsub, hB⟩, -⟩ := hone
    have hn : ∀ j, c.countB w x j = c.countB w x 0 := fun j => by
      unfold Ctx.countB
      split
      · rfl
      next h => rw [lane_of_allU (hB.resolve_left (by simp [h])) j]
    rw [hsub, shuffleFrom_idx32 _ (Ctx.mem_lanes.mp hm).1, shuffleFrom_idx32 _ (Ctx.mem_lanes.mp hl).1, hn m, hn l]

/-! ### One lane (R162) -/

/-- RDLANE reads one lane of A. -/
theorem writesGrpAnd_rdlane {i : Instr} {x : VArgs} (he : ∀ s, exec i s = issueLocal i.view (encode i) (rdlaneBody x) s) :
    WritesGrpAnd i x.d (fun c w => BitVec.ofNat 64 (readLane c w x.ty x.a (c.countB w x c.lowest % 32)))
      fun c w w1 => w1.poisonIf (w.dead.getLsbD (c.countB w x c.lowest % 32)) :=
  writesGrpAnd_of he (fun _ _ => rfl) fun _ _ w1 => .poisonIf w1 _

/-- WRLANE writes the one lane it names, unless it is dead. -/
theorem completes_wrlane {i : Instr} {x : VArgs} (he : ∀ s, exec i s = issueLocal i.view (encode i) (wrlaneBody x) s)
    (hv : i.view = .alu x := by rfl) (hd : x.od (.vec (tyRegs x.ty)) ∈ x.operands := by exact .head _)
    (s : State) (core slot : Nat) (w : Wave) (b : Block) (h : Runs i s core slot w b) :
    let c := ctxFor i s core slot w
    let n := c.countB w x c.lowest % 32
    if w.dead.getLsbD n then Completes i s core slot w b w
    else ∃ w1, Completes i s core slot w b w1 ∧
      Wrote { c with act := Mask.one n } w w1 x.d x.ty fun _ => (c.readG w x.a).toNat := by
  intro c n
  split
  next hdead => exact completes_local (he s) h (if_pos hdead) (.refl w)
  next hlive =>
    have hd' : x.d + 1 ≠ 1023 := dst_not_1022 (ready_operands h.toReady _ (by rw [hv]; exact hd))
    have hw := wrote_writeTy { c with act := Mask.one n } w x.d false x.ty (fun _ => (c.readG w x.a).toNat) hd' Bool.noConfusion
    exact ⟨_, completes_local (he s) h (if_neg hlive) hw.only.samePath, hw⟩

/-- Settles O10: a shuffle's two uniform cases read one value, the rest follow from their meanings. -/
theorem laneReads : Obligations.LaneReads := by
  unfold Obligations.LaneReads
  refine ⟨fun f => ?shfl, fun f => ?shflImm, fun f => ?swz, fun f => ?rdlane, fun f => ?rdlaneImm, fun f => ?wrlane,
    fun f => ?wrlaneImm, fun f => ?bcst⟩
  case shfl => exact writesVecAnd_shfl (x := f.args .shfl false) fun _ => rfl
  case shflImm => exact writesVecAnd_shfl (x := f.args .shfl false) fun _ => rfl
  case swz =>
    exact writesVecAnd_moveLanes (x := f.args .swz false) (fun _ => rfl) (fun _ _ => rfl) fun _ _ _ hok hu _ hm _ hl =>
      readLane_noDead hu (hok _ (.tail _ (.head _))) hm hl
  case rdlane => exact writesGrpAnd_rdlane (x := f.args .rdlane false) fun _ => rfl
  case rdlaneImm => exact writesGrpAnd_rdlane (x := f.args .rdlane false) fun _ => rfl
  case wrlane => exact completes_wrlane (x := f.args .wrlane false) fun _ => rfl
  case wrlaneImm => exact completes_wrlane (x := f.args .wrlane false) fun _ => rfl
  case bcst => exact writesVecAnd_uniform (x := f.args .bcst false) (fun _ => rfl) fun _ _ => rfl

end Sys2Proof.Machine
end

section
/-!
Votes, ballots, reductions, scans and compactions (O11).
-/

namespace Sys2Proof.Machine

/-! ### Votes and matching (R155) -/

theorem Mask.getLsbD_all {l : Nat} (hl : l < 32) : Mask.all.getLsbD l = true :=
  BitVec.getLsbD_allOnes.trans (decide_eq_true hl)

/-- VOTE gives each active lane the one outcome. -/
theorem writesPred_vote (f : VF) : WritesPred (.vote f) f.d.toNat fun c w _ => voteCond f.sub.toNat (c.readP w f.a.toNat) c.act := by
  refine writesPred_of (body := voteBody (f.args .vote false)) (fun _ => rfl) (fun _ _ => rfl) fun c w l hl _ => ?_
  cases h : voteCond f.sub.toNat (c.readP w f.a.toNat) c.act
  · simp [VF.args, h]
  · simp only [VF.args, h, if_true, Mask.getLsbD_all hl]

/-- ELECT picks the lowest active lane. -/
theorem writesPred_elect (f : VF) : WritesPred (.elect f) f.d.toNat fun c _ l => l == c.lowest :=
  writesPred_of (body := electBody (f.args .elect false)) (fun _ => rfl) (fun _ _ => rfl) fun _ _ l _ ha =>
    Mask.getLsbD_one _ l (Ctx.lowest_active ha).1

/-- MATCH: active lanes that hold one value match the same lanes. -/
theorem writesVec_matchLanes (f : VF) : WritesVec (.matchLanes f) f.d.toNat tW32 fun c w l =>
    (Mask.of fun m => c.act.getLsbD m && c.bits w f.ty.toNat f.a.toNat m == c.bits w f.ty.toNat f.a.toNat l).toNat :=
  writesVecAnd_lowest (x := f.args .matchLanes false) (fun _ => rfl) (fun _ _ => rfl) fun c w _ hok hu m _ l _ => by
    have hA : ∀ l, c.bits w f.ty.toNat f.a.toNat l = c.bits w f.ty.toNat f.a.toNat 0 :=
      bits_of_allU hu (hok _ (.tail _ (.head _)))
    rw [hA m, hA l]

/-- FLANE takes one end of the list of lanes, or all ones where it is empty. -/
theorem flaneBody_eq (x : VArgs) (c : Ctx) (w : Wave) : flaneBody x c w =
    let set := (c.readP w x.a &&& c.act).lanes
    .ok (c.writeU w x.d ((if x.sub = 0 then set.head? else set.getLast?).getD 0xFFFFFFFF)) := by
  unfold flaneBody
  dsimp only
  generalize (if x.sub = 0 then (c.readP w x.a &&& c.act).lanes.head? else (c.readP w x.a &&& c.act).lanes.getLast?) = o
  cases o <;> rfl

/-! ### Scans (R157, R159) -/

/-- The lanes a scan with code `n` combines for lane `l`, of which `p` picks some. -/
theorem filter_scanLanes (c : Ctx) (n l : Nat) (p : Nat → Bool) : (scanLanes c (8 ≤ n) l).filter p =
    c.lanes.filter fun m => (if 8 ≤ n then m < l else m ≤ l) && p m := by
  simp only [scanLanes, decide_eq_true_eq, List.filter_filter]
  exact List.filter_congr fun m _ => Bool.and_comm ..

theorem scanLanes_eq (c : Ctx) (n l : Nat) :
    scanLanes c (8 ≤ n) l = c.lanes.filter fun m => if 8 ≤ n then m < l else m ≤ l := by
  simp only [scanLanes, decide_eq_true_eq]

theorem scaniBody_eq (x : VArgs) (c : Ctx) (w : Wave) : scaniBody x c w = .ok (c.writeTy w x.d false x.ty fun l =>
    finish x.ty x.sat (redInt x.ty (x.sub % 8)
      ((c.lanes.filter fun m => if 8 ≤ x.sub then m < l else m ≤ l).map fun m => c.bits w x.ty x.a m))) := by
  simp only [scaniBody, scanLanes_eq]

theorem scanpBody_eq (x : VArgs) (c : Ctx) (w : Wave) : scanpBody x c w = .ok (c.writeTy w x.d false tW32 fun l =>
    (c.lanes.filter fun m => (if 8 ≤ x.sub then m < l else m ≤ l) && (c.readP w x.a).getLsbD m).length) := by
  simp only [scanpBody, filter_scanLanes]

/-- Settles O11: each row's one value, or one value per lane, is what its meaning writes. -/
theorem votesReductionsScans : Obligations.VotesReductionsScans := by
  unfold Obligations.VotesReductionsScans
  refine ⟨writesPred_vote, fun f => ?ballot, writesVec_matchLanes, writesPred_elect, fun f => ?flane, fun f => ?pcnt, fun f => ?redi,
    fun f => ?redf, fun f => ?scani, fun f => ?scanf, fun f => ?scanp, fun f => ?cmpct, fun f => ?expnd⟩
  case ballot => exact writesVecAnd_uniform (x := f.args .ballot false) (fun _ => rfl) fun _ _ => rfl
  case flane => exact writesVecAnd_uniform (x := f.args .flane false) (fun _ => rfl) (flaneBody_eq _)
  case pcnt => exact writesVecAnd_uniform (x := f.args .pcnt false) (fun _ => rfl) fun _ _ => rfl
  case redi => exact writesVecAnd_uniform (x := f.args .redi false) (fun _ => rfl) fun _ _ => rfl
  case redf => exact writesVecAnd_uniform (x := f.args .redf false) (fun _ => rfl) fun _ _ => rfl
  case scani => exact writesVecAnd_general (x := f.args .scani false) (fun _ => rfl) (scaniBody_eq _)
  case scanf => exact writesVecAnd_general (x := f.args .scanf false) (fun _ => rfl) fun _ _ => rfl
  case scanp => exact writesVecAnd_general (x := f.args .scanp false) (fun _ => rfl) (scanpBody_eq _)
  case cmpct => exact writesVecAnd_general (x := f.args .cmpct false) (fun _ => rfl) fun _ _ => rfl
  case expnd => exact writesVecAnd_general (x := f.args .expnd false) (fun _ => rfl) fun _ _ => rfl

end Sys2Proof.Machine
end

section
/-!
Predicates, masks, shapes and formats (O12).
-/

namespace Sys2Proof.Machine

/-! ### Predicates (R53, R164) -/

theorem OnlyPred.refl (w : Wave) (rs : List Nat) : OnlyPred w w rs := ⟨(setBank_bank w).symm, fun _ _ => rfl⟩

theorem OnlyPred.trans {w w1 w2 : Wave} {rs : List Nat} (h : OnlyPred w w1 rs) (h' : OnlyPred w1 w2 rs) : OnlyPred w w2 rs := by
  refine ⟨?_, fun n hn => (h'.kept n hn).trans (h.kept n hn)⟩
  have hb : w1.bank = { w.bank with p := w1.bank.p } := by
    have := congrArg Wave.bank h.rest
    rwa [bank_setBank] at this
  calc w2 = w1.setBank { w1.bank with p := w2.bank.p } := h'.rest
    _ = w1.setBank { w.bank with p := w2.bank.p } := by rw [hb]
    _ = w.setBank { w.bank with p := w2.bank.p } := by rw [h.rest, setBank_setBank]

theorem OnlyPred.mono {w w1 : Wave} {rs rs' : List Nat} (h : OnlyPred w w1 rs) (hs : ∀ n ∈ rs, n ∈ rs') : OnlyPred w w1 rs' :=
  ⟨h.rest, fun n hn => h.kept n fun hm => hn (hs n hm)⟩

/-- A lane of a predicate after a write of predicate `d`. -/
theorem pred_writeP (c : Ctx) (w : Wave) {d : Nat} (m : Mask) (n : Nat) {l : Nat} (hd : d ≠ 1023) (hl : l < 32) :
    ((c.writeP w d m).bank.pred n).getLsbD l =
      if n = d ∧ c.act.getLsbD l = true then m.getLsbD l else (w.bank.pred n).getLsbD l := by
  rw [Ctx.writeP, bank_setBank, pred_writePred _ _ _ _ _ hd]
  by_cases hn : n = d
  · subst hn
    cases ha : c.act.getLsbD l <;> simp [ha, hl, -BitVec.getLsbD_eq_getElem]
  · simp [hn]

/-- The writes of the `n` predicates from `d`. -/
def Ctx.writePreds (c : Ctx) (w : Wave) (d n : Nat) (m : Nat → Mask) : Wave :=
  (List.range n).foldl (fun w' j => c.writeP w' (d + j) (m j)) w

theorem Ctx.writePreds_succ (c : Ctx) (w : Wave) (d n : Nat) (m : Nat → Mask) :
    c.writePreds w d (n + 1) m = c.writeP (c.writePreds w d n m) (d + n) (m n) := by
  simp [Ctx.writePreds, List.range_succ]

theorem onlyPred_writePreds (c : Ctx) (w : Wave) (d n : Nat) (m : Nat → Mask) :
    OnlyPred w (c.writePreds w d n m) (rangeFrom d n) := by
  induction n with
  | zero => exact .refl w _
  | succ n ih =>
    rw [Ctx.writePreds_succ]
    refine (ih.mono fun j hj => ?_).trans ((onlyPred_writeP ..).mono fun j hj => ?_)
    · simp only [mem_rangeFrom] at hj ⊢
      omega
    · unfold destRegs at hj
      split at hj
      · cases hj
      · simp only [mem_rangeFrom] at hj ⊢
        omega

theorem pred_writePreds (c : Ctx) (w : Wave) {d n : Nat} (m : Nat → Mask) (hd : d + n ≤ 1023) (j : Nat) {l : Nat} (hl : l < 32) :
    ((c.writePreds w d n m).bank.pred (d + j)).getLsbD l =
      if j < n ∧ c.act.getLsbD l = true then (m j).getLsbD l else (w.bank.pred (d + j)).getLsbD l := by
  induction n with
  | zero => simp [Ctx.writePreds]
  | succ n ih =>
    rw [Ctx.writePreds_succ, pred_writeP c _ _ _ (by omega) hl, ih (by omega)]
    by_cases hj : j = n
    · subst hj
      simp
    · have hne : d + j ≠ d + n := by omega
      have hlt : j < n + 1 ↔ j < n := by omega
      simp only [hne, false_and, if_false, hlt]

/-- MOVRP writes its group of predicates, whose base is at most 64 (R163). -/
theorem completes_movrp (f : VF) (s : State) (core slot : Nat) (w : Wave) (b : Block) (h : Runs (.movrp f) s core slot w b) :
    let c := ctxFor (.movrp f) s core slot w
    ∃ w1, Completes (.movrp f) s core slot w b w1 ∧ OnlyPred w w1 (rangeFrom f.d.toNat (predCount c)) ∧
      ∀ j l, j < predCount c → l < 32 → (w1.bank.pred (f.d.toNat + j)).getLsbD l =
        if c.act.getLsbD l then (c.lane w f.a.toNat l).getLsbD j else (w.bank.pred (f.d.toNat + j)).getLsbD l := by
  intro c
  have hd : Operand.ok (w.stream == .handler) ⟨.d, .preds, f.d.toNat, .dst, none⟩ = true := ready_operands h.toReady _ (.head _)
  have hbase : f.d.toNat ≤ 64 := by
    simp only [Operand.ok] at hd
    split at hd <;> simp at hd <;> omega
  have hcount : predCount c ≤ 32 := by
    unfold predCount
    split <;> omega
  have ho := onlyPred_writePreds c w f.d.toNat (predCount c) fun j => Mask.of fun l => (c.lane w f.a.toNat l).getLsbD j
  refine ⟨_, completes_local rfl h ?_ ho.samePath, ho, fun j l hj hl => ?_⟩
  · rfl
  · rw [pred_writePreds c w _ (by omega) j hl, Mask.getLsbD_of _ hl]
    simp only [hj, true_and]

/-! ### A register with another shape or format (R77, R83, R166) -/

theorem reg_kset (b : Bank) (n : Nat) (r : VReg) (m : Nat) :
    Bank.reg { b with v := kset b.v n r } m = if m = n then r else b.reg m := kgetD_kset ..

/-- A register replaced by one that holds the same lanes in the same format, or that is to change. -/
theorem onlyVec_kset (w : Wave) (n : Nat) (r : VReg) (rs : List Nat)
    (h : n ∉ rs → (∀ l, l < 32 → r.val.lane l = w.lane n l) ∧ r.fmt = (w.bank.reg n).fmt) :
    OnlyVec w (w.setBank { w.bank with v := kset w.bank.v n r }) rs := by
  refine ⟨by rw [bank_setBank], fun m hm => ?_, fun q _ => by rw [bank_setBank]; rfl⟩
  simp only [Wave.lane, bank_setBank, reg_kset]
  by_cases hmn : m = n
  · subst hmn
    rw [if_pos rfl]
    exact h hm
  · simp [hmn]

theorem reg_reshape (w : Wave) (n : Nat) (f : VVal → VVal) (m : Nat) : (w.reshape n f).bank.reg m =
    if m = n then ⟨f (w.bank.reg n).val, (w.bank.reg n).fmt⟩ else w.bank.reg m := by
  rw [Wave.reshape, bank_setBank, reg_kset]

/-- A change of shape that keeps every lane changes nothing else. -/
theorem onlyVec_reshape (w : Wave) (n : Nat) {f : VVal → VVal} (hf : ∀ v l, l < 32 → (f v).lane l = v.lane l) :
    OnlyVec w (w.reshape n f) [] :=
  onlyVec_kset w n _ [] fun _ => ⟨fun l hl => hf _ l hl, rfl⟩

/-- A step on one register at a time that keeps values and formats, done to a list of registers: each is changed once, in a wave
with the same values and formats. -/
theorem onlyVec_foldl {g : Wave → Nat → Wave} (hv : ∀ w n, OnlyVec w (g w n) [])
    (hk : ∀ w n m, m ≠ n → (g w n).bank.reg m = w.bank.reg m) {ns : List Nat} (hn : ns.Nodup) (w : Wave) :
    OnlyVec w (ns.foldl g w) [] ∧ (∀ n, n ∉ ns → (ns.foldl g w).bank.reg n = w.bank.reg n) ∧
      ∀ n ∈ ns, ∃ w', OnlyVec w w' [] ∧ w'.bank.reg n = w.bank.reg n ∧ (ns.foldl g w).bank.reg n = (g w' n).bank.reg n := by
  induction ns generalizing w with
  | nil => exact ⟨.refl w [], fun _ _ => rfl, fun n h => absurd h List.not_mem_nil⟩
  | cons a ns ih =>
    obtain ⟨ha, hns⟩ := List.nodup_cons.mp hn
    obtain ⟨hval, hout, hin⟩ := ih hns (g w a)
    refine ⟨(hv w a).trans hval, fun n h => ?_, fun n h => ?_⟩
    · rw [List.mem_cons, not_or] at h
      exact (hout n h.2).trans (hk w a n h.1)
    · rcases List.mem_cons.mp h with rfl | h
      · exact ⟨w, .refl w [], rfl, hout n ha⟩
      · obtain ⟨w', h', hreg, hres⟩ := hin n h
        exact ⟨w', (hv w a).trans h', hreg.trans (hk w a n fun e => ha (e ▸ h)), hres⟩

theorem nodup_rangeFrom (lo n : Nat) : (rangeFrom lo n).Nodup := List.nodup_range.map fun _ _ h => Nat.add_left_cancel h

theorem destRegs_nodup (d k : Nat) : (destRegs d k).Nodup := by
  unfold destRegs
  split
  · exact List.nodup_nil
  · exact nodup_rangeFrom d k

/-- The registers a destination names, done one after the other. -/
theorem foldl_destRegs (g : Wave → Nat → Wave) (d k : Nat) (w : Wave) :
    (if d = 1023 then w else (rangeFrom d k).foldl g w) = (destRegs d k).foldl g w := by
  unfold destRegs
  split <;> rfl

/-! ### SHPX (R166) -/

/-- SHPX leaves each register general. -/
theorem completes_shpx (f : VF) (s : State) (core slot : Nat) (w : Wave) (b : Block) (h : Runs (.shpx f) s core slot w b) :
    ∃ w1, Completes (.shpx f) s core slot w b w1 ∧ OnlyVec w w1 [] ∧
      ∀ n ∈ destRegs f.d.toNat (tyRegs f.ty.toNat), (w1.bank.reg n).val.isG = true := by
  obtain ⟨hval, -, hin⟩ := onlyVec_foldl (g := fun w n => w.reshape n fun v => .g v.lanes)
    (fun w n => onlyVec_reshape w n fun v _ hl => VVal.at_lanes v hl) (fun w n m hm => by rw [reg_reshape, if_neg hm])
    (destRegs_nodup f.d.toNat (tyRegs f.ty.toNat)) w
  refine ⟨_, completes_local rfl h ?_ hval.samePath, hval, fun n hn => ?_⟩
  · exact congrArg Except.ok (foldl_destRegs ..)
  · obtain ⟨w', -, -, hres⟩ := hin n hn
    rw [hres, reg_reshape, if_pos rfl]
    rfl

/-! ### SHPC (R166) -/

/-- A value as SHPC compacts it keeps its lanes. -/
theorem VVal.lane_compact (v : VVal) {l : Nat} (hl : l < 32) : v.compact.lane l = v.lane l := by
  cases v with
  | u x => rfl
  | a p t => rfl
  | g x =>
    simp only [VVal.compact]
    split
    next h => exact (beq_iff_eq.mp (List.all_eq_true.mp h l ((mem_laneList l).mpr hl))).symm
    next =>
      split
      next h => exact (beq_iff_eq.mp (List.all_eq_true.mp h l ((mem_laneList l).mpr hl))).symm
      next => rfl

/-- Lanes that hold one value compact to a uniform value. -/
theorem VVal.isU_compact {v : VVal} (h : ∀ l, l < 32 → v.lane l = v.lane 0) (ha : v.isA = false) : v.compact.isU = true := by
  cases v with
  | u x => rfl
  | a p t => cases ha
  | g x =>
    have hall : (laneList.all fun l => x.at l == x.at 0) = true :=
      List.all_eq_true.mpr fun l hl => beq_iff_eq.mpr (h l ((mem_laneList l).mp hl))
    simp only [VVal.compact, hall, if_true]
    rfl

/-- Lanes on one line compact to a value that is not general. -/
theorem VVal.isG_compact {v : VVal} {p t : Word} (h : ∀ l, l < 32 → v.lane l = p + BitVec.ofNat 32 l * t) :
    v.compact.isG = false := by
  cases v with
  | u x => rfl
  | a p t => rfl
  | g x =>
    have h0 : x.at 0 = p := (h 0 (by omega)).trans (by simp)
    have h1 : x.at 1 - x.at 0 = t := by
      rw [h0, show x.at 1 = p + t from (h 1 (by omega)).trans (by simp)]
      exact add_sub_cancel_left p t
    have hall : (laneList.all fun l => x.at l == x.at 0 + BitVec.ofNat 32 l * (x.at 1 - x.at 0)) = true :=
      List.all_eq_true.mpr fun l hl => beq_iff_eq.mpr (by rw [h1, h0]; exact h l ((mem_laneList l).mp hl))
    simp only [VVal.compact, hall, if_true]
    split <;> rfl

/-- One register as SHPC leaves it: a quad with a tag stays as it is. -/
def Wave.compacted (w : Wave) (n : Nat) : Wave := if w.bank.tagsOf (n / 4) ≠ 0 then w else w.reshape n VVal.compact

theorem onlyVec_compacted (w : Wave) (n : Nat) : OnlyVec w (w.compacted n) [] := by
  unfold Wave.compacted
  split
  · exact .refl w []
  · exact onlyVec_reshape w n fun v _ hl => v.lane_compact hl

theorem reg_compacted_ne (w : Wave) {n m : Nat} (h : m ≠ n) : (w.compacted n).bank.reg m = w.bank.reg m := by
  unfold Wave.compacted
  split
  · rfl
  · rw [reg_reshape, if_neg h]

/-- SHPC compacts each register of a quad without tags. -/
theorem completes_shpc (f : VF) (s : State) (core slot : Nat) (w : Wave) (b : Block) (h : Runs (.shpc f) s core slot w b) :
    ∃ w1, Completes (.shpc f) s core slot w b w1 ∧ OnlyVec w w1 [] ∧
      ∀ n ∈ destRegs f.d.toNat (tyRegs f.ty.toNat), w.bank.tagsOf (n / 4) = 0 →
        ((∀ l, l < 32 → w.lane n l = w.lane n 0) → (w.bank.reg n).val.isA = false → (w1.bank.reg n).val.isU = true) ∧
        (∀ b t, (∀ l, l < 32 → w.lane n l = b + BitVec.ofNat 32 l * t) → (w1.bank.reg n).val.isG = false) := by
  obtain ⟨hval, -, hin⟩ := onlyVec_foldl onlyVec_compacted (fun w _ _ => reg_compacted_ne w)
    (destRegs_nodup f.d.toNat (tyRegs f.ty.toNat)) w
  refine ⟨_, completes_local rfl h ?_ hval.samePath, hval, fun n hn htag => ?_⟩
  · exact congrArg Except.ok (foldl_destRegs ..)
  · obtain ⟨w', hw', hreg, hres⟩ := hin n hn
    have htag' : w'.bank.tagsOf (n / 4) = 0 := (hw'.tags _ fun _ hm => absurd hm List.not_mem_nil).trans htag
    rw [hres, Wave.compacted, if_neg (not_not.mpr htag'), reg_reshape, if_pos rfl, hreg]
    exact ⟨VVal.isU_compact, fun _ _ => VVal.isG_compact⟩

/-! ### FMTS and POISQ (R166) -/

/-- FMTS changes the format of one register. -/
theorem completes_fmts (f : VF) (s : State) (core slot : Nat) (w : Wave) (b : Block) (h : Runs (.fmts f) s core slot w b) :
    ∃ w1, Completes (.fmts f) s core slot w b w1 ∧ OnlyVec w w1 (destRegs f.d.toNat 1) ∧ w1.bank.vtags = w.bank.vtags ∧
      (f.d.toNat ≠ 1023 → (w1.bank.reg f.d.toNat).val = (w.bank.reg f.d.toNat).val ∧
        (w1.bank.reg f.d.toNat).fmt = f.sub.toNat) := by
  by_cases hd : f.d.toNat = 1023
  · exact ⟨w, completes_local rfl h (congrArg Except.ok (if_pos hd)) (.refl w), .refl w _, rfl, fun hne => absurd hd hne⟩
  · have ho := onlyVec_kset w f.d.toNat ⟨(w.bank.reg f.d.toNat).val, f.sub.toNat⟩ (destRegs f.d.toNat 1) fun hn =>
      absurd (by simp [destRegs, hd]) hn
    refine ⟨_, completes_local rfl h ?_ ho.samePath, ho, by rw [bank_setBank], fun _ => ?_⟩
    · exact congrArg Except.ok (if_neg hd)
    · rw [bank_setBank, reg_kset, if_pos rfl]
      exact ⟨rfl, rfl⟩

/-- POISQ.CLR clears the poison bit after its result. -/
theorem SamePath.clearPoison (w : Wave) (p : Prop) [Decidable p] : SamePath w (if p then { w with pois := false } else w) := by
  split <;> exact .of_bank

/-- Settles O12: the predicates of a group and the registers of a shape are written one by one, the rest hold one value. -/
theorem predicatesMasksShapes : Obligations.PredicatesMasksShapes := by
  unfold Obligations.PredicatesMasksShapes
  refine ⟨fun f => ?plop, fun f => ?p2r, completes_movrp, fun f => ?shpq, fun f => ?fmtq, completes_shpx, completes_shpc,
    completes_fmts, fun f => ?actq, fun f => ?deadq, fun f => ?poisq⟩
  case plop =>
    exact writesPred_of (body := plopBody (f.args .plop false)) (fun _ => rfl) (fun _ _ => rfl) fun _ _ _ hl _ =>
      Mask.getLsbD_of _ hl
  case p2r => exact writesVecAnd_general (x := f.args .p2r false) (fun _ => rfl) fun _ _ => rfl
  case shpq => exact writesVecAnd_uniform (x := f.args .shpq false) (fun _ => rfl) fun _ _ => rfl
  case fmtq => exact writesVecAnd_uniform (x := f.args .fmtq false) (fun _ => rfl) fun _ _ => rfl
  case actq => exact writesVecAnd_uniform (x := f.args .actq false) (fun _ => rfl) fun _ _ => rfl
  case deadq => exact writesVecAnd_uniform (x := f.args .deadq false) (fun _ => rfl) fun _ _ => rfl
  case poisq =>
    exact writesVecAnd_uniform (x := f.args .poisq false) (fun _ => rfl) (fun _ _ => rfl) fun _ _ w1 => .clearPoison w1 _

end Sys2Proof.Machine
end

section
/-!
The generator (O14).
-/

namespace Sys2Proof.Machine

theorem SamePath.advance (w : Wave) : SamePath w w.advance := .of_bank

/-! ### A pair written without a tag (R185, R190) -/

/-- The two registers of a pair hold its 128 bits. -/
theorem pair_of_halves (x : BitVec 128) : (x >>> 64).setWidth 64 ++ x.setWidth 64 = x := by
  refine BitVec.eq_of_getLsbD_eq fun k hk => ?_
  rw [BitVec.getLsbD_append]
  split
  next h => simp [h]
  next h => simp [show k - 64 < 64 by omega, show 64 + (k - 64) = k by omega]

theorem WrotePair.samePath {w w1 : Wave} {d : Nat} {x : Cap} (h : WrotePair w w1 d x) : SamePath w w1 := by
  rw [h.rest]
  exact .setBank rfl rfl rfl rfl

theorem wrotePair_writePair64 (w : Wave) {d : Nat} (x : BitVec 128) (hd : d % 2 = 0) :
    WrotePair w (w.setBank (w.bank.writePair64 d x)) d ⟨x, false⟩ := by
  have hlo : d / 2 * 2 = d := by omega
  have hhi : (d + 1) / 2 * 2 = d := by omega
  have hgrp : ∀ n, (w.bank.writePair64 d x).grp n =
      if n = d + 1 then (x >>> 64).setWidth 64 else if n = d then x.setWidth 64 else w.bank.grp n := fun n => by
    simp only [Bank.writePair64, Bank.writeGrp, Bank.grp, kgetD_kput]
  have htags : ∀ n, n ∈ (w.bank.writePair64 d x).gtags ↔ n ≠ d ∧ n ∈ w.bank.gtags := fun n => by
    simp only [Bank.writePair64, Bank.writeGrp, mem_ndel, hlo, hhi, and_self_left]
  refine ⟨by rw [bank_setBank]; rfl, ?value, fun n h h' => ?kept, fun n h => ?tags⟩
  case value =>
    have htag : (w.bank.writePair64 d x).gtags.contains d = false := by simp [htags]
    rw [bank_setBank, Bank.pairCap, Bank.pair, hgrp, hgrp, if_pos rfl, if_neg d.lt_succ_self.ne, if_pos rfl, pair_of_halves, htag]
  case kept => rw [bank_setBank, hgrp, if_neg h', if_neg h]
  case tags => rw [bank_setBank, htags, and_iff_right h]

/-! ### The instructions (R173) -/

/-- RNGST writes a pair, whose number is even (R52). -/
theorem writesPair_rngst (f : VF) : WritesPair (.rngst f) (fun _ _ => True) f.d.toNat
    (fun _ w => ⟨if f.sub.toNat = 0 then w.rngC else w.rngK, false⟩) fun w1 => w1 := by
  intro s core slot w b h _
  have hd : Operand.ok (w.stream == .handler) ⟨.d, .pair, f.d.toNat, .dst, none⟩ = true := ready_operands h.toReady _ (.head _)
  have heven : f.d.toNat % 2 = 0 := by
    simp only [Operand.ok, Bool.and_eq_true, beq_iff_eq] at hd
    exact hd.1
  have hw := wrotePair_writePair64 w (if f.sub.toNat = 0 then w.rngC else w.rngK) heven
  exact ⟨_, completes_local rfl h rfl hw.samePath, hw⟩

/-- Settles O14: each draw is read off the wave's key and counter, and the registers or the pair written follow. -/
theorem generator : Obligations.Generator := by
  unfold Obligations.Generator
  refine ⟨fun f => ?rng, fun f => ?rngf, fun f => ?rngq, fun f => ?rngadv, fun f => ?rngld, writesPair_rngst⟩
  case rng =>
    exact writesRegs_of (x := f.args .rng false) rfl (fun _ => rfl) rfl .advance (fun _ _ _ => rfl)
      ⟨_, _, _, .head _, Role.noConfusion⟩ fun _ _ _ _ _ h => Bool.noConfusion h
  case rngf =>
    exact writesVecAnd_general (x := f.args .rngf false) (fun _ => rfl) (fun _ _ => rfl) fun _ _ w1 => .advance w1
  case rngq => exact writesVecAnd_general (x := f.args .rngq false) (fun _ => rfl) fun _ _ => rfl
  case rngadv => exact fun _ _ _ _ _ h => completes_local rfl h rfl .of_bank
  case rngld => exact fun _ _ _ _ _ h => completes_local rfl h rfl .of_bank

end Sys2Proof.Machine
end

section
/-!
The capability instructions (O13): derivations of a quad, the fields of a capability, and CMOV between quads and pairs.
-/

namespace Sys2Proof.Machine

/-! ### Derivations (R200 to R204) -/

/-- A derivation from a quad and B completes with it, where a uniform B makes it the same function in every lane. -/
theorem writesCaps_capDerive {i : Instr} {x : VArgs} {d bRegs : Nat} {f : Ctx → Wave → Nat → Cap → Cap} {g : Ctx → Wave → Nat → Cap}
    (hg : ∀ c w l, g c w l = f c w l (c.quadCap w x.a l))
    (hB : ∀ c w hh, (∀ o ∈ x.operands, o.ok hh = true) → w.bank.OneTag → c.allU w x.b bRegs = true →
      ∀ l, l < 32 → f c w l = f c w 0)
    (hv : i.view = .alu x := by rfl) (hx : x.d = d := by rfl)
    (he : ∀ s, exec i s = issueLocal i.view (encode i) (capDerive x bRegs f) s := by exact fun _ => rfl)
    (hd : x.od (.vec 4) ∈ x.operands := by exact .head _) (ha : x.oa (.vec 4) ∈ x.operands := by exact .tail _ (.head _)) :
    WritesCaps i d g := by
  obtain rfl : g = fun c w l => f c w l (c.quadCap w x.a l) := by
    funext c w l
    exact hg c w l
  subst hx
  refine writesCaps_of hv he (fun _ _ => rfl) ⟨_, _, _, hd, Role.noConfusion⟩ fun c w hh hok htag hu l hl => ?_
  obtain ⟨hA, hU⟩ := Bool.and_eq_true_iff.mp hu
  rw [hB c w hh hok htag hU l hl, quadCap_of_allU hA htag (quad_src_ok (hok _ ha)) hl]

/-- A value operand that is uniform is the same in every lane (R200). -/
theorem capValue_of_allU {x : VArgs} {c : Ctx} {w : Wave} {hh : Bool} {t : Option Nat}
    (ho : Operand.ok hh ⟨.b, .vec (tyRegs x.ty), x.b, .src, t⟩ = true) (h : c.allU w x.b (tyRegs x.ty) = true) (l : Nat) :
    c.capValue w x l = c.capValue w x 0 :=
  bits_of_allU h ho l

/-! ### The fields of a capability (R205) -/

/-- CGET writes a field of 64 bits, or the low word of a smaller one. -/
theorem cgetBody_eq (x : VArgs) (c : Ctx) (w : Wave) : cgetBody x c w =
    .ok (c.writeTy w x.d (c.allU w x.a 4) (if x.sub < 4 then tW64 else tW32) fun l =>
      (cgetOf x.sub (c.quadCap w x.a l)).toNat) := by
  have hword : ∀ y : Dword, BitVec.ofNat 32 y.toNat = lowWord y := fun y => rfl
  unfold cgetBody Ctx.writeTy
  split
  · simp only [BitVec.ofNat_toNat, BitVec.setWidth_eq]
    rfl
  · simp only [hword]
    rfl

theorem writesVecIf_cget (f : VF) :
    WritesVecIf (.cget f) (fun _ w => w.bank.OneTag) f.d.toNat (if f.sub.toNat < 4 then tW64 else tW32)
      (fun c w l => (cgetOf f.sub.toNat (c.quadCap w f.a.toNat l)).toNat) fun _ _ w1 => w1 := by
  intro s core slot w b h htag
  have hok : ∀ o ∈ (f.args .cget false).operands, o.ok (w.stream == .handler) = true := fun o ho => ready_operands h.toReady o ho
  have hw := wrote_writeTy (ctxFor (.cget f) s core slot w) w f.d.toNat ((ctxFor (.cget f) s core slot w).allU w f.a.toNat 4)
    (if f.sub.toNat < 4 then tW64 else tW32) (fun l => (cgetOf f.sub.toNat ((ctxFor (.cget f) s core slot w).quadCap w f.a.toNat l)).toNat)
    (dst_not_1022 (hok _ (.head _))) fun hu l hl => by
      rw [quadCap_of_allU hu htag (quad_src_ok (hok _ (.tail _ (.head _)))) hl]
  exact ⟨_, completes_local rfl h (cgetBody_eq (f.args .cget false) _ w) hw.only.samePath, hw⟩

/-! ### CMOV (R207) -/

/-- A capability written to an even pair, with its tag. -/
theorem wrotePair_writeCap (w : Wave) {d : Nat} (x : Cap) (hd : d % 2 = 0) : WrotePair w (w.setBank (w.bank.writeCap d x)) d x := by
  have h := wrotePair_writePair64 w x.bits hd
  obtain ⟨bits, tag⟩ := x
  cases tag with
  | false => exact h
  | true =>
    obtain ⟨-, hvalue, hkept, htags⟩ := h
    simp only [bank_setBank] at hvalue hkept htags
    refine ⟨by rw [bank_setBank]; rfl, ?_, fun n h h' => ?_, fun n h => ?_⟩
    · have hpair : (w.bank.writePair64 d bits).pair d = bits := congrArg Cap.bits hvalue
      have htag : (nins (w.bank.writePair64 d bits).gtags d).contains d = true := by simp
      rw [bank_setBank, Bank.writeCap, if_pos rfl, Bank.pairCap, htag]
      exact congrArg (Cap.mk · true) hpair
    · rw [bank_setBank, Bank.writeCap, if_pos rfl]
      exact hkept n h h'
    · rw [bank_setBank, Bank.writeCap, if_pos rfl, mem_nins, htags n h, or_iff_right h]

/-- An instruction whose effect is one pair with its tag, with more done to its wave after it. -/
theorem writesPair_of {i : Instr} {body : WaveBody} {P : Ctx → Wave → Prop} {d : Nat} {f : Ctx → Wave → Cap} {post : Wave → Wave}
    (he : ∀ s, exec i s = issueLocal i.view (encode i) body s)
    (hb : ∀ c w, P c w → body c w = .ok (post (w.setBank (w.bank.writeCap d (f c w)))))
    (hd : (⟨.d, .pair, d, .dst, none⟩ : Operand) ∈ i.view.operands) (hp : ∀ w, SamePath w (post w)) : WritesPair i P d f post := by
  intro s core slot w b h hP
  have hok : Operand.ok (w.stream == .handler) ⟨.d, .pair, d, .dst, none⟩ = true := ready_operands h.toReady _ hd
  have heven : d % 2 = 0 := by
    simp only [Operand.ok, Bool.and_eq_true, beq_iff_eq] at hok
    exact hok.1
  have hw := wrotePair_writeCap w (f (ctxFor i s core slot w) w) heven
  exact ⟨_, completes_local (he s) h (hb _ _ hP) (hw.samePath.trans (hp _)), hw⟩

section
variable {f : VF}

/-- CMOV within quads. -/
theorem writesCaps_cmovQuad (h : f.sub.toNat = 0) : WritesCaps (.cmov f) f.d.toNat fun c w l => c.quadCap w f.a.toNat l := by
  have hops : (f.args .cmov false).operands = [(f.args .cmov false).od (.vec 4), (f.args .cmov false).oa (.vec 4)] := by
    simp [VArgs.operands, VArgs.vectorOperands, VF.args, h]
  refine writesCaps_of (x := f.args .cmov false) (u := fun c w => c.allU w f.a.toNat 4) rfl (fun _ => rfl) (fun c w => ?_)
    ⟨_, _, _, by rw [hops]; exact .head _, Role.noConfusion⟩ fun c w hh hok htag hu l hl => ?_
  · simp only [cmovBody, VF.args, h]
  · exact quadCap_of_allU hu htag (quad_src_ok (hok _ (by rw [hops]; exact .tail _ (.head _)))) hl

/-- CMOV of a pair to a quad. -/
theorem writesCaps_cmovPair (h : f.sub.toNat = 2) : WritesCaps (.cmov f) f.d.toNat fun c w _ => c.readCap w f.a.toNat := by
  have hops : (f.args .cmov false).operands = [(f.args .cmov false).od (.vec 4), (f.args .cmov false).oa .pair] := by
    simp [VArgs.operands, VArgs.vectorOperands, VF.args, h]
  refine writesCaps_of (x := f.args .cmov false) (u := fun _ _ => true) rfl (fun _ => rfl) (fun c w => ?_)
    ⟨_, _, _, by rw [hops]; exact .head _, Role.noConfusion⟩ fun _ _ _ _ _ _ _ _ => rfl
  simp only [cmovBody, VF.args, h]
end

/-- Settles O13: the derivations lane by lane, the field of each lane's capability, and the pair that CMOV writes. -/
theorem capabilityInstructions : Obligations.CapabilityInstructions := by
  unfold Obligations.CapabilityInstructions
  have hpair : ∀ f : VF, f.sub.toNat = 1 ∨ f.sub.toNat = 3 → (f.args .cmov false).od .pair ∈ (f.args .cmov false).operands := by
    rintro f (h | h) <;> simp [VArgs.operands, VArgs.vectorOperands, VF.args, h]
  refine ⟨fun f => ?cbnd, fun f => ?cadd, fun f => ?cset, fun f => ?cperm, fun f => ?cseal, fun f => ?cunsl, writesVecIf_cget,
    fun f => ?ctest, fun f => writesCaps_cmovQuad, fun f h => ⟨?dead, ?lane⟩, fun f => writesCaps_cmovPair, fun f h => ?pairs⟩
  case cbnd | cadd | cset =>
    refine writesCaps_capDerive (fun _ _ _ => rfl) fun c w hh hok _ hU l _ => ?_
    have hvalue := capValue_of_allU (hok _ (.tail _ (.tail _ (.head _)))) hU l
    funext k
    rw [hvalue]
  case cperm =>
    refine writesCaps_capDerive (fun _ _ _ => rfl) fun c w hh _ _ hU l _ => ?_
    funext k
    rw [lane_of_allU hU l]
  case cseal | cunsl =>
    refine writesCaps_capDerive (fun _ _ _ => rfl) fun c w hh hok htag hU l hl => ?_
    funext k
    rw [quadCap_of_allU hU htag (quad_src_ok (hok _ (.tail _ (.tail _ (.head _))))) hl]
  case ctest =>
    refine writesPred_of (fun _ => rfl) (fun _ _ => rfl) fun c w l hl _ => ?_
    rw [Mask.getLsbD_of _ hl]
    dsimp only [VF.args]
    split
    next h0 => rw [if_pos h0]
    next h1 => rw [if_neg (by omega), if_pos h1]
    next h0 h1 => rw [if_neg h0, if_neg h1]
  case dead =>
    refine writesPair_of (body := cmovBody (f.args .cmov false)) (fun _ => rfl) (fun c w hdead => ?_) (hpair f (.inl h)) fun w => .of_bank
    simp only [cmovBody, VF.args, h]
    exact if_pos hdead
  case lane =>
    refine writesPair_of (body := cmovBody (f.args .cmov false)) (fun _ => rfl) (fun c w hlive => ?_) (hpair f (.inl h)) SamePath.refl
    simp only [cmovBody, VF.args, h]
    exact if_neg (by rw [Bool.not_eq_true]; exact hlive)
  case pairs =>
    refine writesPair_of (body := cmovBody (f.args .cmov false)) (fun _ => rfl) (fun c w _ => ?_) (hpair f (.inr h)) SamePath.refl
    simp only [cmovBody, VF.args, h]

end Sys2Proof.Machine
end

section
/-!
Completion beside the wave: steps of a meaning that leave every wave, the resident segments and the sweeper as they were, and what
an instruction that makes them, or that waits, comes to.
-/

namespace Sys2Proof.Machine

/-- `t` has the waves, the resident segments and the sweeper of `s`: an instruction of a wave goes on in `t` as it would in `s`. -/
structure SameIssue (s t : State) : Prop where
  wave : ∀ c n, t.wave c n = s.wave c n
  segs : ∀ c, (t.core c).segs = (s.core c).segs
  sweeper : t.sweeper = s.sweeper

theorem SameIssue.refl (s : State) : SameIssue s s := ⟨fun _ _ => rfl, fun _ => rfl, rfl⟩

theorem SameIssue.trans {s t u : State} (h : SameIssue s t) (h' : SameIssue t u) : SameIssue s u :=
  ⟨fun c n => (h'.wave c n).trans (h.wave c n), fun c => (h'.segs c).trans (h.segs c), h'.sweeper.trans h.sweeper⟩

/-- A step that leaves the cores leaves their waves and segments. -/
theorem SameIssue.of_cores {s t : State} (hc : t.cores = s.cores := by rfl) (hs : t.sweeper = s.sweeper := by rfl) :
    SameIssue s t := by
  have hcore : ∀ c, t.core c = s.core c := fun c => by simp only [State.core, hc]
  exact ⟨fun c n => by rw [State.wave, State.wave, hcore], fun c => by rw [hcore], hs⟩

theorem SameIssue.setCore (s : State) (c : Nat) {k : Core} (hw : k.waves = (s.core c).waves := by rfl)
    (hk : k.segs = (s.core c).segs := by rfl) : SameIssue s (s.setCore c k) := by
  refine ⟨wave_setCore_of hw, fun c' => ?_, rfl⟩
  by_cases hc : c' = c
  · rw [hc, core_setCore_self, hk]
  · rw [core_setCore_ne _ _ hc]

theorem SameIssue.setBlock (s : State) (c n : Nat) (x : Block) : SameIssue s (s.setBlock c n x) := .setCore s c

theorem SameIssue.ite {s t u : State} {p : Prop} [Decidable p] (ht : SameIssue s t) (hu : SameIssue s u) :
    SameIssue s (if p then t else u) := by
  split
  · exact ht
  · exact hu

theorem exclude_sameIssue (s : State) (core bslot : Nat) : SameIssue s (s.exclude core bslot) := by
  unfold State.exclude
  split
  · exact .refl s
  · exact .ite (.refl s) (.ite (.setBlock s core bslot _) ((SameIssue.setBlock s core bslot _).trans .of_cores))

theorem acquire_sameIssue (s : State) (core scope : Nat) : SameIssue s (s.acquire core scope) :=
  .ite (.refl s) (.setCore s core)

/-- The wave as it waits: its line is its latest (R36), and a waiting instruction gives up its urgency (R405, R406). -/
def Wave.stayed (w : Wave) (k : WaitKind) : Wave :=
  ({ w with waiting := k, early := [], errors := [], passed := if k.holds then 0 else w.passed,
            urgent := !k.holds && w.urgent } : Wave).onLine

section
variable {i : Instr} {s : State} {core slot : Nat} {w : Wave} {b : Block} {body : Body}
  (he : exec i s = issue i.view (encode i) body false s) (h : Runs i s core slot w b)
include he h

/-- An instruction that changes the part beside the waves, and writes its wave last, completes. -/
theorem completesAt_of_setWave {s2 : State} {w2 : Wave} (hb : body (ctxFor i s core slot w) w s = .next (s2.setWave core slot w2))
    (hp : SamePath w w2) (hs : SameIssue s s2) : CompletesAt i s core slot w b s2 w2 := by
  have hc := completesAt_of he h hb (wave_setWave_self _ _ _ _) hp (by rw [core_setWave_segs, hs.segs])
    (by rw [setWave_sweeper, hs.sweeper, h.sweep])
  have hx : nextPc (s2.setWave core slot w2) core b w = nextPc s2 core b w := nextValid_congr (core_setWave_segs ..) _ _
  rwa [CompletesAt, hx, setWave_setWave] at hc

/-- An instruction that changes the part beside the waves, and then its own wave, completes. -/
theorem completesAt_of_modWave {s2 : State} {g : Wave → Wave}
    (hb : body (ctxFor i s core slot w) w s = .next (s2.modWave core slot g)) (hp : SamePath w (g w)) (hs : SameIssue s s2) :
    CompletesAt i s core slot w b s2 (g w) := by
  rw [modWave_of _ _ _ _ ((hs.wave core slot).trans h.wave)] at hb
  exact completesAt_of_setWave he h hb hp hs

/-- An instruction that changes the part beside the waves alone completes. -/
theorem completesAt_of_sameIssue {s2 : State} (hb : body (ctxFor i s core slot w) w s = .next s2) (hs : SameIssue s s2) :
    CompletesAt i s core slot w b s2 w :=
  completesAt_of he h hb ((hs.wave core slot).trans h.wave) (.refl w) (hs.segs core) (by rw [hs.sweeper, h.sweep])

/-- An instruction that waits leaves its wave waiting. -/
theorem exec_of_stay {k : WaitKind} {s2 : State} {w2 : Wave} (hb : body (ctxFor i s core slot w) w s = .stay k s2)
    (hw : s2.wave core slot = some w2) : exec i s = .next (s2.setWave core slot (w2.stayed k)) := by
  rw [he]
  unfold issue
  simp only [h.turn, h.wave, h.block]
  rw [issueWave_ready h.toReady, issueActive_ready h.toReady body false (.inl h.active), hb]
  simp only [modWave_of _ _ _ _ hw, State.enterLine, modWave_of _ _ _ _ (wave_setWave_self _ _ _ _), setWave_setWave]
  rfl

end

/-! ### Accesses that stay in the part (R193, R194) -/

/-- Accesses to the part's own memory leave nothing to ask for elsewhere. -/
theorem outside_of_home {s : State} {reqs : List LaneReq}
    (h : ∀ r ∈ reqs, s.isRemote r.va = false ∧ rangeOf (localOf r.va) ≠ .host) (c : Ctx) (w : Wave) (kind n : Nat)
    (mk : LaneReq → Nat → List Flit) : s.outside c w kind n reqs mk = .ready [] [] s := by
  have hfar : (reqs.filter fun r => s.isRemote r.va) = [] := List.filter_eq_nil_iff.mpr fun r hr => by simp [(h r hr).1]
  have hhost : (reqs.filter fun r => !s.isRemote r.va && rangeOf (localOf r.va) == .host) = [] :=
    List.filter_eq_nil_iff.mpr fun r hr => by simp [(h r hr).2]
  simp only [State.outside, hfar, hhost, List.flatMap_nil, State.paged, List.isEmpty_nil, if_true]

end Sys2Proof.Machine
end

section
/-!
SPAWN and GBAR (O30).
-/

namespace Sys2Proof.Machine

/-! ### The launch of a child grid (R396) -/

theorem noteRegions_sameIssue (s : State) (path : List Rcb) : SameIssue s (s.noteRegions path) := by
  induction path with
  | nil => exact .refl s
  | cons r rest ih => exact ih.trans .of_cores

theorem addGrid_sameIssue (s : State) (x : Accepted) (launch : Nat) (expanded : Bool) :
    SameIssue s (s.addGrid x launch expanded) := by
  have hplan : ∀ (t : State) (p : Prop) [Decidable p],
      SameIssue t (if p then { t with sorrel := { t.sorrel with inelig := min 65535 (t.sorrel.inelig + 1) } } else t) :=
    fun t _ _ => .ite .of_cores (.refl t)
  exact ((noteRegions_sameIssue s x.path).trans (hplan _ _)).trans .of_cores

section
variable {s : State} {b : Block} {bs : List Byte} {ts : List Bool}

theorem spawnRecord_of_ok {g : Grid} {x : Accepted} (hg : kget s.grids b.grid = some g)
    (hx : s.judge (.wave b.env.region g.launch) bs ts = .ok x) : s.spawnRecord b bs ts =
      (0, { s.addGrid x g.launch true with
        launches := kmod (s.addGrid x g.launch true).launches g.launch fun l => { l with counter := l.counter + x.count } }) := by
  simp only [State.spawnRecord, hg, hx]

theorem spawnRecord_of_error {g : Grid} {code : Nat} (hg : kget s.grids b.grid = some g)
    (hx : s.judge (.wave b.env.region g.launch) bs ts = .error code) : s.spawnRecord b bs ts = (code, s) := by
  simp only [State.spawnRecord, hg, hx]

theorem spawnRecord_sameIssue (s : State) (b : Block) (bs : List Byte) (ts : List Bool) : SameIssue s (s.spawnRecord b bs ts).2 := by
  cases hg : kget s.grids b.grid with
  | none => simpa only [State.spawnRecord, hg] using SameIssue.refl s
  | some g =>
    cases hx : s.judge (.wave b.env.region g.launch) bs ts with
    | error code => simpa only [spawnRecord_of_error hg hx] using SameIssue.refl s
    | ok x =>
      rw [spawnRecord_of_ok hg hx]
      exact (addGrid_sameIssue s x g.launch true).trans .of_cores
end

/-! ### SPAWN (R396) -/

/-- The capability of a launch record as SPAWN reads it: the lowest active lane's, unsealed. -/
def Ctx.recordCap (c : Ctx) (w : Wave) (f : MF) : Cap := unsealRecord (c.quadCap w f.a.toNat c.lowest)

/-- SPAWN's access to its launch record. -/
def Ctx.recordReq (c : Ctx) (w : Wave) (f : MF) : LaneReq :=
  ⟨c.lowest, c.recordCap w f, capCursor (c.recordCap w f).bits + sext 24 f.offset.toNat⟩

/-- The check of R195 that SPAWN's access fails. -/
def State.recordCheck (s : State) (core : Nat) (r : LaneReq) : Option Nat :=
  s.check (s.agent core) { need := permLoad, align := 128, size := 128, stored := none } r.cap r.addr

section
variable {f : MF} {c : Ctx} {w : Wave} {s : State} {b : Block} (hb : s.block c.core c.bslot = some b)
  (hr : s.released w 3 255 = true)
include hb hr

theorem spawnBody_of_check {k : Nat} (hk : s.recordCheck c.core (c.recordReq w f) = some k) : spawnBody f c w s =
    .next ((s.exclude c.core c.bslot).modWave c.core c.slot fun w1 => c.writeU w1 f.d.toNat (12 + k * 256)) := by
  simp only [State.recordCheck, Ctx.recordReq, Ctx.recordCap] at hk
  simp only [spawnBody, hb, hr, Bool.not_true, Bool.false_eq_true, if_false, hk]

/-- A record in the part's own HBM is read as it stands, with its tags. -/
theorem spawnBody_of_home (hk : s.recordCheck c.core (c.recordReq w f) = none)
    (hlocal : s.isRemote (c.recordReq w f).va = false) (hbm : rangeOf (localOf (c.recordReq w f).va) = .hbm) :
    let a := localOf (c.recordReq w f).va
    let rec_ := (s.exclude c.core c.bslot).spawnRecord b (s.bytesAt a 128) ((List.range 8).map fun i => s.tags.contains (a / 16 + i))
    spawnBody f c w s = .next (rec_.2.modWave c.core c.slot fun w1 => c.writeU w1 f.d.toNat rec_.1) := by
  have hout := outside_of_home (s := s) (reqs := [c.recordReq w f]) (by simp [hlocal, hbm]) c w 8 128
    fun r tag => [loadFlit s r 128 tag false]
  simp only [State.recordCheck, Ctx.recordReq, Ctx.recordCap] at hk hout hbm
  simp only [spawnBody, hb, hr, Bool.not_true, Bool.false_eq_true, if_false, hk, hout, hbm, List.isEmpty_nil, kget_nil]
  rfl
end

/-- What SPAWN answers, a status in a vector register, it completes with. -/
theorem spawn_completes {f : MF} {s s2 : State} {core slot : Nat} {w : Wave} {b : Block} {n : Nat}
    (h : Runs (.spawn f) s core slot w b)
    (hb : spawnBody f (ctxFor (.spawn f) s core slot w) w s =
      .next (s2.modWave core slot fun w1 => (ctxFor (.spawn f) s core slot w).writeU w1 f.d.toNat n)) (hs : SameIssue s s2) :
    ∃ w1, CompletesAt (.spawn f) s core slot w b s2 w1 ∧
      Wrote (ctxFor (.spawn f) s core slot w) w w1 f.d.toNat tW32 fun _ => n := by
  have hd : f.d.toNat + 1 ≠ 1023 := dst_not_1022 (ready_operands h.toReady _ (.head _))
  have hw := wrote_writeTy (ctxFor (.spawn f) s core slot w) w f.d.toNat true tW32 (fun _ => n) hd fun _ _ _ => rfl
  exact ⟨_, completesAt_of_modWave rfl h hb hw.only.samePath hs, hw⟩

/-! ### The grid barrier (R403) -/

section
variable {c : Ctx} {w : Wave} {s : State} {b : Block} {g : Grid} (hb : s.block c.core c.bslot = some b)
  (hg : kget s.grids b.grid = some g)
include hb hg

theorem gbarBody_of_moved {gen : Nat} (hw : w.gbarWait = some gen) (hn : g.gen ≠ gen) :
    gbarBody c w s = .next (s.acquire c.core 3) := by
  simp only [gbarBody, hb, hg, hw, ne_eq, hn, not_false_eq_true, if_true]

theorem gbarBody_of_arrival (hw : w.gbarWait = none) (hr : s.released w 3 255 = true) (hs : s.wave c.core c.slot = some w) :
    gbarBody c w s = .stay .gridBarrier { (s.exclude c.core c.bslot).setWave c.core c.slot { w with gbarWait := some g.gen } with
      grids := kset s.grids b.grid { g with arrived := nins g.arrived (gridWave b w.wblk) } } := by
  have hgrids : (s.exclude c.core c.bslot).grids = s.grids := by
    unfold State.exclude
    repeat' split
    all_goals rfl
  simp only [gbarBody, hb, hg, hw, hr, Bool.not_true, Bool.false_eq_true, if_false,
    modWave_of _ _ _ _ (((exclude_sameIssue s c.core c.bslot).wave _ _).trans hs), setWave_grids, hgrids]
end

theorem gbar_arrives {f : VF} {s : State} {core slot : Nat} {w : Wave} {b : Block} {g : Grid} (h : Runs (.gbar f) s core slot w b)
    (hg : kget s.grids b.grid = some g) (hw : w.gbarWait = none) (hr : s.released w 3 255 = true) :
    ∃ t w1, exec (.gbar f) s = .next t ∧ t.wave core slot = some w1 ∧ w1.bank = w.bank ∧ w1.waiting = .gridBarrier ∧
      w1.gbarWait = some g.gen ∧ t.grids = kset s.grids b.grid { g with arrived := nins g.arrived (gridWave b w.wblk) } := by
  have hstay := exec_of_stay rfl h (gbarBody_of_arrival (c := ctxFor (.gbar f) s core slot w) h.block hg hw hr h.wave)
    (wave_setWave_self _ _ _ _)
  exact ⟨_, _, hstay, wave_setWave_self _ _ _ _, rfl, rfl, rfl, rfl⟩

/-- Every wave that has not retired has arrived: the generation moves on. -/
theorem advanceGeneration_of_all {s : State} {grid : Nat} {g : Grid} (hg : kget s.grids grid = some g)
    (hp : g.kernel.persistent = true) (ha : g.arrived ≠ []) (hn : g.arrived.length + g.gone.length = g.count * g.kernel.waves) :
    s.advanceGeneration grid = { s with grids := kset s.grids grid { g with gen := (g.gen + 1) % 2 ^ 32, arrived := [] } } := by
  have hne : g.arrived.isEmpty = false := by simpa using ha
  simp only [State.advanceGeneration, hg, hp, hne, hn, Bool.not_true, Bool.or_self, ne_eq, not_true_eq_false,
    decide_false, Bool.false_eq_true, if_false]

/-- Settles O30: SPAWN's answer with the state of its record, and what GBAR finds of its grid. -/
theorem spawnAndGridBarrier : Obligations.SpawnAndGridBarrier := by
  unfold Obligations.SpawnAndGridBarrier
  refine ⟨fun f s core slot w b h hr => ⟨fun k hk => ?check, fun hk hlocal hbm => ?read⟩, fun s b bs ts g x => spawnRecord_of_ok,
    fun s b bs ts g code => spawnRecord_of_error, fun f s core slot w b g gen h hg hw hn => ?moved,
    fun f s core slot w b g h hg => gbar_arrives h hg, fun grid s g hg hp ha hn => ?generation⟩
  case check => exact spawn_completes h (spawnBody_of_check h.block hr hk) (exclude_sameIssue s core w.bslot)
  case read =>
    exact spawn_completes h (spawnBody_of_home h.block hr hk hlocal hbm)
      ((exclude_sameIssue s core w.bslot).trans (spawnRecord_sameIssue _ b _ _))
  case moved => exact completesAt_of_sameIssue rfl h (gbarBody_of_moved h.block hg hw hn) (acquire_sameIssue s core 3)
  case generation => exact congrArg Host.Outcome.next (advanceGeneration_of_all hg hp ha hn)

end Sys2Proof.Machine
end

section
/-!
ST and STC (O20): the bytes of a store by address, the pieces they fall into, and the entry in the store buffer.
-/

namespace Sys2Proof

/-! ### Maps filled from a list -/

section
variable {α β : Type}

/-- Where each step of a fold sets key `k` for the elements that satisfy `p`, the last of them stands there. -/
theorem kget_foldl_last {step : KMap β → α → KMap β} {p : α → Bool} {v : α → β} {k : Nat}
    (h : ∀ m x, kget (step m x) k = if p x then some (v x) else kget m k) (xs : List α) (m : KMap β) :
    kget (xs.foldl step m) k = ((xs.reverse.find? p).map v).or (kget m k) := by
  induction xs generalizing m with
  | nil => rfl
  | cons x xs ih =>
    rw [List.foldl_cons, ih, h, List.reverse_cons, List.find?_append]
    cases xs.reverse.find? p <;> cases hp : p x <;> simp [hp]

theorem le_of_mem_kwfFrom {m : KMap α} {lo k : Nat} {v : α} (hm : kwfFrom lo m = true) (h : (k, v) ∈ m) : lo ≤ k := by
  induction m generalizing lo with
  | nil => cases h
  | cons e m ih =>
    obtain ⟨k', v'⟩ := e
    simp only [kwfFrom, Bool.and_eq_true, decide_eq_true_eq] at hm
    rcases List.mem_cons.mp h with h | h
    · cases h
      exact hm.1
    · exact Nat.le_of_succ_le ((Nat.succ_le_succ hm.1).trans (ih hm.2 h))

/-- In a map with rising keys an entry is what its key finds. -/
theorem mem_iff_kget {m : KMap α} {lo : Nat} (hm : kwfFrom lo m = true) {k : Nat} {v : α} : (k, v) ∈ m ↔ kget m k = some v := by
  refine ⟨fun h => ?_, mem_of_kget⟩
  induction m generalizing lo with
  | nil => cases h
  | cons e m ih =>
    obtain ⟨k', v'⟩ := e
    simp only [kwfFrom, Bool.and_eq_true, decide_eq_true_eq] at hm
    rcases List.mem_cons.mp h with h | h
    · cases h
      simp [kget]
    · have hlt : k' + 1 ≤ k := le_of_mem_kwfFrom hm.2 h
      rw [kget, if_neg (by omega), ih hm.2 h]
end

end Sys2Proof

namespace Sys2Proof.Machine

/-! ### Writes of a block and of a wave commute -/

theorem setBlock_setWave (s : State) (c n m : Nat) (x : Wave) (y : Block) :
    (s.setWave c n x).setBlock c m y = (s.setBlock c m y).setWave c n x := by
  simp [State.setWave, State.setBlock, State.setCore, State.core, kset_kset]

theorem modBlock_setWave (s : State) (c n m : Nat) (x : Wave) (f : Block → Block) :
    (s.setWave c n x).modBlock c m f = (s.modBlock c m f).setWave c n x := by
  simp only [State.modBlock, block_setWave]
  cases s.block c m with
  | none => rfl
  | some y => exact setBlock_setWave s c n m x (f y)

theorem exclude_setWave (s : State) (c n m : Nat) (x : Wave) : (s.setWave c n x).exclude c m = (s.exclude c m).setWave c n x := by
  simp only [State.exclude, block_setWave]
  cases s.block c m with
  | none => rfl
  | some y =>
    simp only [setBlock_setWave]
    split
    · rfl
    · split <;> rfl

theorem auditRanges_setWave (s : State) (c n m : Nat) (x : Wave) : (s.setWave c n x).auditRanges c m = s.auditRanges c m := by
  simp only [State.auditRanges, block_setWave, setWave_grids]

theorem digestStore_setWave (s : State) (c n m : Nat) (x : Wave) (bytes : List (Nat × Byte)) :
    (s.setWave c n x).digestStore c m bytes = (s.digestStore c m bytes).setWave c n x := by
  simp only [State.digestStore, auditRanges_setWave]
  cases s.auditRanges c m with
  | none => rfl
  | some p =>
    simp only [modBlock_setWave, exclude_setWave]
    split <;> rfl

theorem modBlock_sameIssue (s : State) (c n : Nat) (f : Block → Block) : SameIssue s (s.modBlock c n f) := by
  unfold State.modBlock
  split
  · exact .setBlock s c n _
  · exact .refl s

theorem digestStore_sameIssue (s : State) (c n : Nat) (bytes : List (Nat × Byte)) : SameIssue s (s.digestStore c n bytes) := by
  unfold State.digestStore
  split
  · exact .refl s
  · exact .ite ((modBlock_sameIssue s c n _).trans (exclude_sameIssue _ c n)) (modBlock_sameIssue s c n _)

/-! ### A store enters the buffer (R223) -/

theorem SamePath.stored (w : Wave) (c : Ctx) (s : State) (stream kind : Nat) (rel : Bool) (scope : Nat) (info : StoreInfo)
    (parts : List Part) : SamePath w (w.stored c s stream kind rel scope info parts) := .of_bank

theorem enterStore_of_room {w : Wave} {depth stream : Nat} (hroom : w.sb.length < depth) (hcount : w.unack.getD stream 0 < 64)
    (c : Ctx) (s : State) (kind : Nat) (rel : Bool) (scope : Nat) (info : StoreInfo) (parts : List Part) :
    enterStore c w s depth stream kind rel scope info parts =
      .next (s.setWave c.core c.slot (w.stored c s stream kind rel scope info parts)) := by
  have hno : (decide (depth ≤ w.sb.length) || decide (64 ≤ w.unack.getD stream 0)) = false := by
    simp only [Bool.or_eq_false_iff, decide_eq_false_iff_not]
    omega
  simp only [enterStore, hno, Bool.false_eq_true, if_false]
  rfl

/-- An instruction whose meaning is a store that its wave's buffer takes completes with the entry there, and its bytes in the digest. -/
theorem store_completes {i : Instr} {s : State} {core slot : Nat} {w : Wave} {b : Block} {body : Body} {stream : Nat}
    (he : exec i s = issue i.view (encode i) body false s) (h : Runs i s core slot w b) (hroom : StoreRoom w b stream)
    {bytes : List (Nat × Byte)} {kind scope : Nat} {rel : Bool} {info : StoreInfo} {parts : List Part}
    (hb : body (ctxFor i s core slot w) w s = digested (ctxFor i s core slot w) bytes (enterStore (ctxFor i s core slot w) w s
      (s.sbDepth (ctxFor i s core slot w)) stream kind rel scope info parts)) :
    CompletesAt i s core slot w b (s.digestStore core w.bslot bytes)
      (w.stored (ctxFor i s core slot w) s stream kind rel scope info parts) := by
  obtain ⟨hdepth, hcount⟩ := hroom
  have hsb : s.sbDepth (ctxFor i s core slot w) = b.env.sbDepth := by
    have hblock : s.block (ctxFor i s core slot w).core (ctxFor i s core slot w).bslot = some b := h.block
    simp only [State.sbDepth, hblock]
  rw [enterStore_of_room (hsb ▸ hdepth) hcount, digested, digestStore_setWave] at hb
  exact completesAt_of_setWave he h hb (.stored ..) (digestStore_sameIssue s core w.bslot bytes)

/-! ### The bytes of a store (R211) -/

/-- The byte that bytes by address have at `va`. -/
def byteOf (xs : List StoreByte) (va : Nat) : Option Byte := (xs.find? fun x => x.va == va).map (·.byte)

theorem rangeFrom_succ (a n : Nat) : rangeFrom a (n + 1) = a :: rangeFrom (a + 1) n := by
  simp [rangeFrom, List.range_succ_eq_map, Nat.add_assoc, Nat.add_comm 1]

/-- A map with the bytes of one lane set from `a` up. -/
theorem kget_foldl_bytes (bs : List Byte) (a l : Nat) (m : KMap (Byte × Nat)) (va : Nat) :
    kget ((bs.zip (rangeFrom a bs.length)).foldl (fun m (b, a) => kset m a (b, l)) m) va =
      if a ≤ va ∧ va < a + bs.length then some (bs.getD (va - a) 0, l) else kget m va := by
  induction bs generalizing a m with
  | nil => simp [show ¬(a ≤ va ∧ va < a) by omega]
  | cons x bs ih =>
    rw [List.length_cons, rangeFrom_succ, List.zip_cons_cons, List.foldl_cons, ih, kget_kset]
    by_cases hva : va = a
    · subst hva
      simp
    · by_cases hin : a + 1 ≤ va ∧ va < a + 1 + bs.length
      · obtain ⟨k, rfl⟩ : ∃ k, va = a + 1 + k := ⟨va - (a + 1), by omega⟩
        rw [if_pos hin, if_pos (by omega), show a + 1 + k - a = k + 1 by omega, show a + 1 + k - (a + 1) = k by omega,
          List.getD_cons_succ]
      · rw [if_neg hin, if_neg hva, if_neg (by omega)]

theorem byteOf_map (m : KMap (Byte × Nat)) (va : Nat) :
    byteOf (m.map fun (a, b, l) => ⟨a, b, l⟩) va = (kget m va).map (·.1) := by
  induction m with
  | nil => rfl
  | cons e m ih =>
    obtain ⟨a, b, l⟩ := e
    unfold byteOf at ih ⊢
    rw [List.map_cons, List.find?_cons, kget]
    by_cases ha : a = va
    · simp [ha]
    · rw [if_neg ha, ← ih, beq_eq_false_iff_ne.mpr ha]

/-- Each byte of a store is the last one's, of the accesses that write it. -/
theorem byteOf_storeBytes (n : Nat) (val : Nat → Nat) (reqs : List LaneReq) (va : Nat) : byteOf (storeBytes n val reqs) va =
    (reqs.reverse.find? fun r => r.va ≤ va ∧ va < r.va + n).map fun r => (toBytes n (val r.lane)).getD (va - r.va) 0 := by
  have hstep : ∀ (m : KMap (Byte × Nat)) (r : LaneReq),
      kget (((toBytes n (val r.lane)).zip (rangeFrom r.va n)).foldl (fun m (b, a) => kset m a (b, r.lane)) m) va =
        if decide (r.va ≤ va ∧ va < r.va + n) then some ((toBytes n (val r.lane)).getD (va - r.va) 0, r.lane) else kget m va := by
    intro m r
    have h := kget_foldl_bytes (toBytes n (val r.lane)) r.va r.lane m va
    rw [length_toBytes] at h
    simp only [h, decide_eq_true_eq]
  unfold storeBytes
  rw [byteOf_map, kget_foldl_last (v := fun r => ((toBytes n (val r.lane)).getD (va - r.va) 0, r.lane)) hstep, kget_nil,
    Option.or_none, Option.map_map]
  rfl

theorem byteOf_filter (xs : List StoreByte) (keep : Nat → Bool) (va : Nat) :
    byteOf (xs.filter fun x => keep x.va) va = if keep va then byteOf xs va else none := by
  unfold byteOf
  rw [List.find?_filter]
  split
  next hk =>
    congr 1
    refine List.find?_congr fun x _ => ?_
    by_cases hx : x.va = va <;> simp [hx, hk]
  next hk =>
    rw [List.find?_eq_none.mpr, Option.map_none]
    rintro x - hx
    simp only [beq_iff_eq, decide_eq_true_eq] at hx
    exact hk (hx.2 ▸ hx.1)

/-! ### The pieces of a store (R223) -/

/-- Bytes of one lane from an address up, the last first. -/
abbrev StoreRun := Nat × Nat × List Byte

/-- The byte a run holds for an address. -/
def StoreRun.byteAt (p : StoreRun) (va : Nat) : Option Byte := if p.1 ≤ va then p.2.2.reverse[va - p.1]? else none

/-- The piece a run comes to. -/
def StoreRun.part (s : State) (reqs : List LaneReq) (p : StoreRun) : Part := ⟨homeOfVa s reqs p.2.1 p.1, .bytes p.2.2.reverse false⟩

/-- A byte joins the run before it, or begins one (R211, R228). -/
def addByte (s : State) (acc : List StoreRun) (x : StoreByte) : List StoreRun :=
  match acc with
  | [] => [(x.va, x.lane, [x.byte])]
  | (va, l, bs) :: rest =>
    if x.va = va + bs.length && x.va % 128 ≠ 0 && (!s.isRemote x.va || x.lane = l) then (va, l, x.byte :: bs) :: rest
    else (x.va, x.lane, [x.byte]) :: (va, l, bs) :: rest

theorem storeRuns_eq (s : State) (reqs : List LaneReq) (xs : List StoreByte) (acc : List StoreRun) :
    storeRuns s reqs xs acc = (xs.foldl (addByte s) acc).map (StoreRun.part s reqs) := by
  induction xs generalizing acc with
  | nil => cases acc <;> rfl
  | cons x xs ih =>
    rw [List.foldl_cons, ← ih]
    cases acc with
    | nil => rfl
    | cons p rest =>
      simp only [storeRuns, addByte]
      split <;> rfl

/-- A run within one line and within the address space. -/
structure StoreRun.Within (p : StoreRun) : Prop where
  some : 0 < p.2.2.length
  line : (p.1 + p.2.2.length - 1) / 128 = p.1 / 128
  space : p.1 + p.2.2.length ≤ 2 ^ 56

theorem addByte_within {s : State} {acc : List StoreRun} {x : StoreByte} (h : ∀ p ∈ acc, p.Within) (hx : x.va < 2 ^ 56) :
    ∀ p ∈ addByte s acc x, p.Within := by
  have hnew : StoreRun.Within (x.va, x.lane, [x.byte]) := ⟨Nat.one_pos, by simp, hx⟩
  unfold addByte
  split
  next => simpa using hnew
  next va l bs rest =>
    obtain ⟨hsome, hline, -⟩ : StoreRun.Within (va, l, bs) := h _ (.head _)
    dsimp only at hsome hline
    split
    next hj =>
      simp only [Bool.and_eq_true, decide_eq_true_eq] at hj
      obtain ⟨⟨hva, h128⟩, -⟩ := hj
      refine List.forall_mem_cons.mpr ⟨⟨Nat.succ_pos _, ?_, ?_⟩, fun p hp => h p (.tail _ hp)⟩
      · simp only [List.length_cons]
        omega
      · simp only [List.length_cons]
        omega
    next => exact List.forall_mem_cons.mpr ⟨hnew, h⟩

/-- The byte that runs hold, the newest run first in the list. -/
def runsByte (acc : List StoreRun) (va : Nat) : Option Byte := acc.reverse.findSome? fun p => p.byteAt va

theorem runsByte_cons (p : StoreRun) (acc : List StoreRun) (va : Nat) : runsByte (p :: acc) va = (runsByte acc va).or (p.byteAt va) := by
  simp [runsByte, List.findSome?_append]

theorem byteAt_new (x : StoreByte) (va : Nat) :
    StoreRun.byteAt (x.va, x.lane, [x.byte]) va = if x.va = va then some x.byte else none := by
  unfold StoreRun.byteAt
  by_cases h : x.va = va
  · simp [h]
  · by_cases hle : x.va ≤ va
    · simp only [if_pos hle, if_neg h, List.reverse_singleton]
      exact List.getElem?_eq_none (by simp only [List.length_singleton]; omega)
    · simp [h, hle]

theorem byteAt_joined {va0 l : Nat} {bs : List Byte} {x : StoreByte} (hx : x.va = va0 + bs.length) (va : Nat) :
    StoreRun.byteAt (va0, l, x.byte :: bs) va =
      (StoreRun.byteAt (va0, l, bs) va).or (if x.va = va then some x.byte else none) := by
  unfold StoreRun.byteAt
  dsimp only
  by_cases hle : va0 ≤ va
  · rw [if_pos hle, if_pos hle, List.reverse_cons, List.getElem?_append, List.length_reverse]
    by_cases hin : va - va0 < bs.length
    · rw [if_pos hin, if_neg (by omega), Option.or_none]
    · rw [if_neg hin, List.getElem?_eq_none (l := bs.reverse) (by simpa using hin), Option.none_or]
      by_cases hva : x.va = va
      · rw [if_pos hva, show va - va0 - bs.length = 0 by omega]
        rfl
      · rw [if_neg hva, List.getElem?_eq_none (by simp; omega)]
  · rw [if_neg hle, if_neg hle, if_neg (by omega)]
    rfl

theorem runsByte_addByte (s : State) (acc : List StoreRun) (x : StoreByte) (va : Nat) :
    runsByte (addByte s acc x) va = (runsByte acc va).or (if x.va = va then some x.byte else none) := by
  unfold addByte
  split
  next => rw [runsByte_cons, byteAt_new]
  next va0 l bs rest =>
    split
    next hj =>
      simp only [Bool.and_eq_true, decide_eq_true_eq] at hj
      rw [runsByte_cons, runsByte_cons, byteAt_joined hj.1.1, Option.or_assoc]
    next => rw [runsByte_cons, byteAt_new]

theorem byteOf_cons (x : StoreByte) (xs : List StoreByte) (va : Nat) :
    byteOf (x :: xs) va = (if x.va = va then some x.byte else none).or (byteOf xs va) := by
  unfold byteOf
  by_cases h : x.va = va <;> simp [h]

/-- Runs hold the bytes they were made of, each within a line. -/
theorem foldl_addByte {s : State} {xs : List StoreByte} (hxs : ∀ x ∈ xs, x.va < 2 ^ 56) (acc : List StoreRun)
    (h : ∀ p ∈ acc, p.Within) : (∀ p ∈ xs.foldl (addByte s) acc, p.Within) ∧
      ∀ va, runsByte (xs.foldl (addByte s) acc) va = (runsByte acc va).or (byteOf xs va) := by
  induction xs generalizing acc with
  | nil => exact ⟨h, fun va => (Option.or_none).symm⟩
  | cons x xs ih =>
    obtain ⟨hx, hxs⟩ := List.forall_mem_cons.mp hxs
    obtain ⟨hin, hbyte⟩ := ih hxs _ (addByte_within (s := s) h hx)
    refine ⟨hin, fun va => ?_⟩
    rw [List.foldl_cons, hbyte, runsByte_addByte, byteOf_cons, Option.or_assoc]

/-! ### Homes (R193, R228) -/

/-- The space of an address and its place there: the part's own memory, or another device. -/
def State.spaceOf (s : State) (va : Nat) : Nat × Nat := (if s.isRemote va then 1 else 0, if s.isRemote va then devOf va else 0)

theorem place_homeOfVa (s : State) (reqs : List LaneReq) (l va : Nat) :
    (homeOfVa s reqs l va).place = ((s.spaceOf va).1, (s.spaceOf va).2, localOf va) := by
  unfold homeOfVa State.spaceOf
  split
  · split <;> rfl
  · rfl

theorem spaceOf_eq_iff (s : State) (a b : Nat) : s.spaceOf a = s.spaceOf b ↔ devOf a = devOf b := by
  simp only [State.spaceOf, State.isRemote, bne_iff_ne, ne_eq, Prod.mk.injEq]
  by_cases ha : devOf a = s.devid <;> by_cases hb : devOf b = s.devid <;> simp [ha, hb]
  · exact fun h => hb h.symm

/-- A piece holds for an address what its run does. -/
theorem byteAt_part {s : State} {reqs : List LaneReq} {p : StoreRun} (h : p.Within) {va : Nat} (hva : va < 2 ^ 56) :
    (p.part s reqs).byteAt (s.spaceOf va).1 (s.spaceOf va).2 (localOf va) = p.byteAt va := by
  obtain ⟨va0, l, bs⟩ := p
  obtain ⟨hsome, hline, hspace⟩ := h
  dsimp only at hsome hline hspace
  simp only [Part.byteAt, StoreRun.part, place_homeOfVa, StoreRun.byteAt]
  by_cases hdev : devOf va0 = devOf va
  · rw [(spaceOf_eq_iff s va0 va).mpr hdev]
    have hle : localOf va0 ≤ localOf va ↔ va0 ≤ va := by
      simp only [devOf, localOf] at hdev ⊢
      omega
    have hsub : localOf va - localOf va0 = va - va0 := by
      simp only [devOf, localOf] at hdev ⊢
      omega
    simp [hle, hsub]
  · have hne : ¬((s.spaceOf va0).1 = (s.spaceOf va).1 ∧ (s.spaceOf va0).2 = (s.spaceOf va).2) := fun hc =>
      hdev ((spaceOf_eq_iff s va0 va).mp (Prod.ext hc.1 hc.2))
    rw [if_neg (by simp only [Bool.and_eq_true, beq_iff_eq, decide_eq_true_eq]; exact fun hc => hne hc.1)]
    split
    next hle =>
      rw [List.getElem?_eq_none]
      simp only [devOf, List.length_reverse] at hdev ⊢
      omega
    next => rfl

/-- The pieces of a store of bytes hold those bytes, each at its home. -/
theorem storeRuns_spec {s : State} (reqs : List LaneReq) {xs : List StoreByte} (hxs : ∀ x ∈ xs, x.va < 2 ^ 56) :
    (∀ p ∈ storeRuns s reqs xs [], p.home.place.1 ≠ 2 ∧ ∃ d, p.eff = .bytes d false) ∧
      ∀ va, va < 2 ^ 56 → (storeRuns s reqs xs []).reverse.findSome?
        (fun p => p.byteAt (s.spaceOf va).1 (s.spaceOf va).2 (localOf va)) = byteOf xs va := by
  obtain ⟨hin, hbyte⟩ := foldl_addByte (s := s) hxs [] (List.forall_mem_nil _)
  rw [storeRuns_eq]
  revert hin hbyte
  generalize xs.foldl (addByte s) [] = runs
  intro hin hbyte
  refine ⟨fun p hp => ?_, fun va hva => ?_⟩
  · obtain ⟨r, -, rfl⟩ := List.mem_map.mp hp
    refine ⟨?_, _, rfl⟩
    simp only [StoreRun.part, place_homeOfVa, State.spaceOf]
    split <;> decide
  · have hpart : ∀ (acc : List StoreRun), (∀ p ∈ acc, p.Within) → (acc.map (StoreRun.part s reqs)).reverse.findSome?
        (fun p => p.byteAt (s.spaceOf va).1 (s.spaceOf va).2 (localOf va)) = runsByte acc va := by
      intro acc h
      induction acc with
      | nil => rfl
      | cons p acc ih =>
        obtain ⟨hp, hacc⟩ := List.forall_mem_cons.mp h
        rw [runsByte_cons, List.map_cons, List.reverse_cons, List.findSome?_append, ih hacc]
        simp [byteAt_part hp hva]
    rw [hpart runs hin, hbyte va]
    rfl

theorem va_of_mem_storeBytes {n : Nat} {val : Nat → Nat} {reqs : List LaneReq} (hr : ∀ r ∈ reqs, r.va + n ≤ 2 ^ 56) {x : StoreByte}
    (hx : x ∈ storeBytes n val reqs) : x.va < 2 ^ 56 := by
  have hbyte := byteOf_storeBytes n val reqs x.va
  cases hfind : reqs.reverse.find? fun r => decide (r.va ≤ x.va ∧ x.va < r.va + n) with
  | none =>
    rw [hfind, Option.map_none, byteOf, Option.map_eq_none_iff] at hbyte
    exact absurd (List.find?_eq_none.mp hbyte x hx) (by simp)
  | some r =>
    have hle := hr r (List.mem_reverse.mp (List.mem_of_find?_eq_some hfind))
    have hin : r.va ≤ x.va ∧ x.va < r.va + n := by simpa using List.find?_some hfind
    omega

/-! ### The units of an STC (R212) -/

/-- With rising lanes, the last access that satisfies `p` is the one of the highest lane. -/
theorem find?_reverse_rising {reqs : List LaneReq} (hrise : reqs.Pairwise fun a b => a.lane < b.lane) (p : LaneReq → Bool) (l : Nat) :
    (reqs.reverse.find? p).map (·.lane) = some l ↔
      ∃ r ∈ reqs, p r = true ∧ (∀ r2 ∈ reqs, p r2 = true → r2.lane ≤ r.lane) ∧ r.lane = l := by
  induction reqs with
  | nil => simp
  | cons x xs ih =>
    obtain ⟨hlt, hrise⟩ := List.pairwise_cons.mp hrise
    rw [List.reverse_cons, List.find?_append]
    cases hfind : xs.reverse.find? p with
    | some y =>
      have hy := List.mem_reverse.mp (List.mem_of_find?_eq_some hfind)
      have hpy := List.find?_some hfind
      have hxy := hlt y hy
      rw [Option.some_or, ← hfind, ih hrise]
      refine ⟨fun ⟨r, hr, hpr, hmax, hl⟩ => ⟨r, .tail _ hr, hpr, fun r2 hr2 hp2 => ?_, hl⟩, fun ⟨r, hr, hpr, hmax, hl⟩ =>
        ⟨r, ?_, hpr, fun r2 hr2 => hmax r2 (.tail _ hr2), hl⟩⟩
      · rcases List.mem_cons.mp hr2 with rfl | hr2
        · exact (hlt r hr).le
        · exact hmax r2 hr2 hp2
      · rcases List.mem_cons.mp hr with rfl | hr
        · exact absurd (hmax y (.tail _ hy) hpy) (by omega)
        · exact hr
    | none =>
      have hnone : ∀ r ∈ xs, ¬p r = true := fun r hr => List.find?_eq_none.mp hfind r (List.mem_reverse.mpr hr)
      rw [Option.none_or]
      constructor
      · intro hx
        have hpx : p x = true := by
          by_contra hc
          simp [hc] at hx
        refine ⟨x, .head _, hpx, fun r2 hr2 hp2 => ?_, by simpa [hpx] using hx⟩
        rcases List.mem_cons.mp hr2 with rfl | hr2
        · exact le_rfl
        · exact absurd hp2 (hnone r2 hr2)
      · rintro ⟨r, hr, hpr, -, rfl⟩
        rcases List.mem_cons.mp hr with rfl | hr
        · simp [hpr]
        · exact absurd hpr (hnone r hr)

theorem accessReqs_rising (c : Ctx) (w : Wave) (f : MF) : (accessReqs c w f).Pairwise fun a b => a.lane < b.lane := by
  unfold accessReqs Ctx.lanes Mask.lanes
  rw [List.pairwise_map, laneList_eq]
  exact List.pairwise_lt_range.filter _

/-- The unit at an address goes to the highest lane that writes it. -/
theorem mem_units {reqs : List LaneReq} (hrise : reqs.Pairwise fun a b => a.lane < b.lane) (va l : Nat) :
    (va, l) ∈ reqs.foldl (fun (m : KMap Nat) r => kset m r.va r.lane) [] ↔
      ∃ r ∈ reqs, r.va = va ∧ (∀ r2 ∈ reqs, r2.va = r.va → r2.lane ≤ r.lane) ∧ r.lane = l := by
  have hwf : kwf (reqs.foldl (fun (m : KMap Nat) r => kset m r.va r.lane) []) = true :=
    List.foldlRecOn reqs _ (motive := fun m => kwf m = true) rfl fun m hm r _ => kwf_kset r.va r.lane hm
  have hset : ∀ (m : KMap Nat) (r : LaneReq), kget (kset m r.va r.lane) va = if r.va == va then some r.lane else kget m va := by
    intro m r
    rw [kget_kset]
    by_cases hva : r.va = va
    · simp [hva]
    · simp [hva, Ne.symm hva]
  rw [mem_iff_kget hwf, kget_foldl_last hset, kget_nil, Option.or_none, find?_reverse_rising hrise]
  refine exists_congr fun r => and_congr_right fun _ => ?_
  simp only [beq_iff_eq]
  exact and_congr_right fun hva => by rw [hva]

/-! ### The stores -/

theorem stBody_of_checked {f : MF} {c : Ctx} {w : Wave} {s : State}
    (hf : s.accessFault c.core 1 (fun _ => { loadAsk f with need := permStore }) (accessReqs c w f) = none)
    (hfmt : formatBad w (.mem .st f) = false) :
    stBody f c w s = digested c (laneBytes (sizeBytes f.size.toNat) (storeVal c w f.d.toNat f.size.toNat) (accessReqs c w f))
      (enterStore c w s (s.sbDepth c) f.stream.toNat 1 (releases f) f.scope.toNat
        (infoOf 0 f c.act 0 (memLanes (accessReqs c w f) (storeVal c w f.d.toNat f.size.toNat)))
        (storeRuns s (accessReqs c w f) ((storeBytes (sizeBytes f.size.toNat) (storeVal c w f.d.toNat f.size.toNat)
          (accessReqs c w f)).filter fun x => s.storeKept c.core c.bslot x.va) []).reverse) := by
  unfold stBody
  dsimp only at hf ⊢
  rw [hf, hfmt]
  rfl

/-- The pieces of an STC, unit by unit. -/
def unitParts (s : State) (c : Ctx) (reqs : List LaneReq) (cap : Nat → Cap) : List Part :=
  ((reqs.foldl (fun (m : KMap Nat) r => kset m r.va r.lane) []).filter fun u => s.storeKept c.core c.bslot u.1).map
    fun (va, l) => ⟨homeOfVa s reqs l va, .bytes (toBytes 16 (cap l).bits.toNat) (cap l).tag⟩

theorem mem_unitParts {s : State} {c : Ctx} {reqs : List LaneReq} (hrise : reqs.Pairwise fun a b => a.lane < b.lane)
    (cap : Nat → Cap) (p : Part) : p ∈ unitParts s c reqs cap ↔
      ∃ r ∈ reqs, s.storeKept c.core c.bslot r.va = true ∧ (∀ r2 ∈ reqs, r2.va = r.va → r2.lane ≤ r.lane) ∧
        p = ⟨homeOfVa s reqs r.lane r.va, .bytes (toBytes 16 (cap r.lane).bits.toNat) (cap r.lane).tag⟩ := by
  simp only [unitParts, List.mem_map, List.mem_filter, Prod.exists, mem_units hrise]
  constructor
  · rintro ⟨_, _, ⟨⟨r, hr, rfl, hmax, rfl⟩, hkept⟩, rfl⟩
    exact ⟨r, hr, hkept, hmax, rfl⟩
  · rintro ⟨r, hr, hkept, hmax, rfl⟩
    exact ⟨_, _, ⟨⟨r, hr, rfl, hmax, rfl⟩, hkept⟩, rfl⟩

theorem stcBody_of_checked {f : MF} {c : Ctx} {w : Wave} {s : State}
    (hf : s.accessFault c.core 3 (fun r =>
      { need := permStore ||| (if (c.quadCap w f.d.toNat r.lane).tag then permStoreCap else 0), align := 16, size := 16,
        stored := some (c.quadCap w f.d.toNat r.lane) }) (accessReqs c w f) = none) :
    ∃ info, stcBody f c w s = digested c (laneBytes 16 (fun l => (c.quadCap w f.d.toNat l).bits.toNat) (accessReqs c w f))
      (enterStore c w s (s.sbDepth c) f.stream.toNat 3 (releases f) f.scope.toNat info
        (unitParts s c (accessReqs c w f) (c.quadCap w f.d.toNat))) := by
  unfold stcBody
  dsimp only at hf ⊢
  rw [hf]
  exact ⟨_, rfl⟩

/-- Settles O20: one entry in the store buffer, its pieces the bytes of the highest lanes. -/
theorem stores : Obligations.Stores := by
  unfold Obligations.Stores
  refine ⟨fun f s core slot w b h hf hr hroom => ?st, fun f s core slot w b h hf hroom => ?stc⟩
  case st =>
    obtain ⟨hpart, hbyte⟩ := storeRuns_spec (s := s) (accessReqs (ctxFor (.st f) s core slot w) w f)
      (xs := (storeBytes _ _ _).filter _) fun x hx => va_of_mem_storeBytes hr (List.mem_filter.mp hx).1
    refine ⟨_, store_completes (body := stBody f) rfl h hroom (stBody_of_checked hf h.formats),
      fun p hp => hpart p (List.mem_reverse.mp hp), fun va hva => (hbyte va hva).trans ?_⟩
    rw [byteOf_filter, byteOf_storeBytes]
    rfl
  case stc =>
    obtain ⟨info, hb⟩ := stcBody_of_checked hf
    exact ⟨info, _, store_completes rfl h hroom hb, mem_unitParts (accessReqs_rising _ w f) _⟩

end Sys2Proof.Machine
end

section
/-!
LD, LDC, LDG, PREF and FENCE (O19): an access to the part's own memory, its effects beside the wave, and the write of what it read.
-/

namespace Sys2Proof.Machine

/-! ### Effects of a load beside its wave (R222, R228, R231, R458) -/

theorem asked_sameIssue (s : State) (core : Nat) (lines : List Nat) : SameIssue s (s.asked core lines) := .setCore s core

theorem passedBy_sameIssue (s : State) (core n : Nat) (bypass : Bool) (reqs : List LaneReq) :
    SameIssue s (s.passedBy core n bypass reqs) := .ite (.refl s) (.setCore s core)

theorem acquired_sameIssue (s : State) (core : Nat) (f : MF) : SameIssue s (s.acquired core f) :=
  .ite (acquire_sameIssue s core f.scope.toNat) (.refl s)

theorem noteReads_sameIssue (s : State) (core bslot : Nat) (addrs : List Nat) : SameIssue s (s.noteReads core bslot addrs) := by
  unfold State.noteReads
  repeat' split
  · exact .refl s
  · exact .of_cores
  · exact .refl s
  · exact .refl s

theorem loaded_sameIssue (s : State) (core bslot n : Nat) (f : MF) (lines : List Nat) (reqs : List LaneReq) :
    SameIssue s (s.loaded core bslot n f lines reqs) :=
  ((asked_sameIssue s core _).trans (passedBy_sameIssue _ core n _ reqs)).trans
    ((acquired_sameIssue _ core f).trans (noteReads_sameIssue _ core bslot _))

/-- A step that leaves the blocks, the grids and the launches commutes with the note of what was read. -/
theorem noteReads_comm {g : State → State} {s : State} (hblock : ∀ c n, (g s).block c n = s.block c n)
    (hgrids : (g s).grids = s.grids) (hbreak : ∀ l, (g s).breakAudits l = g (s.breakAudits l)) (core bslot : Nat) (addrs : List Nat) :
    (g s).noteReads core bslot addrs = g (s.noteReads core bslot addrs) := by
  have hranges : (g s).auditRanges core bslot = s.auditRanges core bslot := by simp only [State.auditRanges, hblock, hgrids]
  simp only [State.noteReads, hranges, hblock, hgrids, hbreak]
  repeat' split
  all_goals rfl

theorem noteReads_setWave (s : State) (core slot bslot : Nat) (x : Wave) (addrs : List Nat) :
    (s.setWave core slot x).noteReads core bslot addrs = (s.noteReads core bslot addrs).setWave core slot x :=
  noteReads_comm (g := fun s => s.setWave core slot x) (block_setWave s core slot x) rfl (fun _ => rfl) core bslot addrs

theorem block_acquire (s : State) (core scope c n : Nat) : (s.acquire core scope).block c n = s.block c n := by
  unfold State.acquire
  split
  · rfl
  · by_cases hc : c = core
    · rw [hc, State.block, core_setCore_self, State.block]
    · rw [State.block, core_setCore_ne _ _ hc, State.block]

theorem acquired_noteReads (s : State) (core bslot : Nat) (f : MF) (addrs : List Nat) :
    (s.noteReads core bslot addrs).acquired core f = (s.acquired core f).noteReads core bslot addrs := by
  unfold State.acquired
  split
  · refine (noteReads_comm (g := fun s => s.acquire core f.scope.toNat) (block_acquire s core _) ?_ (fun l => ?_) core bslot addrs).symm
    · unfold State.acquire
      split <;> rfl
    · unfold State.acquire
      split <;> rfl
  · rfl

theorem acquire_setWave (s : State) (core slot scope : Nat) (x : Wave) :
    (s.setWave core slot x).acquire core scope = (s.acquire core scope).setWave core slot x := by
  unfold State.acquire
  split
  · rfl
  · simp [State.setWave, State.setCore, State.core, kset_kset]

theorem acquired_setWave (s : State) (core slot : Nat) (f : MF) (x : Wave) :
    (s.setWave core slot x).acquired core f = (s.acquired core f).setWave core slot x := by
  unfold State.acquired
  split
  · exact acquire_setWave ..
  · rfl

/-! ### An access to the part's own memory (R222, R229) -/

theorem takeMisses_of_room {s : State} {c : Ctx} {lines : List Nat} (h : s.MissRoom c.core lines) (w : Wave) :
    s.takeMisses c w lines = .ok (s.asked c.core ((s.core c.core).unasked lines)) := by
  obtain ⟨hroom, hnone⟩ := h
  simp only [State.takeMisses, hroom, hnone, decide_true, List.isEmpty_nil, Bool.or_true, Bool.and_true, if_true]
  rw [show [].filter (· != c.slot) = (s.core c.core).reserve from hnone.symm]
  rfl

theorem found_asked (s : State) (core : Nat) (w : Wave) (f : MF) (lines : List Nat) (r : LaneReq) :
    (s.asked core lines).found core w f r = s.found core w f r := by
  have hparts : (s.asked core lines).newestParts core w = s.newestParts core w := by
    simp only [State.newestParts, State.auditParts, State.block, State.asked, core_setCore_self]
    rfl
  have hline : (s.asked core lines).l1Line core = s.l1Line core := by
    funext a
    simp only [State.l1Line, State.asked, core_setCore_self]
    rfl
  have hbyte : (s.asked core lines).loadByte core = s.loadByte core := by
    funext parts bypass a
    simp only [State.loadByte, hline]
    rfl
  have htag : (s.asked core lines).loadTag core = s.loadTag core := by
    funext parts bypass a
    simp only [State.loadTag, hline]
    rfl
  simp only [State.found, State.loadLocal, hparts, hbyte, htag]

section
variable {s : State} {c : Ctx} {w : Wave} {f : MF} {kind : Nat} {reqs : List LaneReq}
  (hf : s.accessFault c.core kind (fun _ => loadAsk f) reqs = none) (hh : Here s c.core w (sizeBytes f.size.toNat) reqs)
  (hroom : s.MissRoom c.core (s.wanted c.core (sizeBytes f.size.toNat) f reqs))
include hh

include hf hroom in
/-- An access to the part's own memory asks for the lines it misses and waits for nothing. -/
theorem access_of_here (once : Bool) (mk : LaneReq → Nat → List Flit) : s.access c w f kind once reqs mk =
    .ready [] [] (s.asked c.core ((s.core c.core).unasked (s.wanted c.core (sizeBytes f.size.toNat) f reqs))) := by
  have hany : (reqs.any fun r => s.isRemote r.va) = false := List.any_eq_false.mpr fun r hr => by simp [(hh.home r hr).1]
  have hmiss := takeMisses_of_room hroom w
  unfold State.wanted at hmiss
  have hout : ∀ t : State, s.isRemote = t.isRemote → (t.outside c w kind (sizeBytes f.size.toNat)
      (s.asking c.core (sizeBytes f.size.toNat) w (if once then reqs.take 1 else reqs)) mk) = .ready [] [] t := by
    intro t ht
    refine outside_of_home (fun r hr => ht ▸ hh.home r ?_) c w kind _ mk
    have hr := (List.mem_filter.mp hr).1
    cases once
    · exact hr
    · exact List.mem_of_mem_take hr
  simp only [State.access, hany, Bool.false_and, Bool.false_eq_true, if_false, hmiss, hf, hh.order, Bool.not_false, Bool.true_and]
  rw [hout (s.asked c.core _) rfl]
  cases once <;> rfl

theorem laneVals_of_here (lines : List Nat) : laneVals (s.asked c.core lines) c w (f.cache.toNat % 4 = 2) (sizeBytes f.size.toNat)
    [] [] reqs = reqs.map (s.found c.core w f) := by
  refine List.map_congr_left fun r hr => ?_
  have hr : (s.asked c.core lines).isRemote r.va = false := (hh.home r hr).1
  simp only [kget_nil, hr, Option.isSome_none, Bool.false_eq_true, if_false]
  exact found_asked s c.core w f lines r

end

/-! ### The value of each lane (R210, R212) -/

section
variable (s : State) (c : Ctx) (w : Wave) (f : MF)

/-- What a load has for lane `l`: a uniform access reads for its lowest lane alone. -/
def State.laneRead (l : Nat) : LaneVal :=
  (((accessReqs c w f).map (s.found c.core w f)).find? fun v => v.lane == if uniformAccess c w f then c.lowest else l).getD
    ⟨l, 0, false, false⟩

/-- What LDC has for lane `l`. -/
def State.capRead (l : Nat) : Cap :=
  ⟨BitVec.ofNat 128 (s.laneRead c w f l).num,
    keepTag s c.core (((accessReqs c w f).find? fun r => r.lane == (s.laneRead c w f l).lane).getD ⟨l, Cap.null, 0⟩)
      (s.laneRead c w f l)⟩

/-- The capability that an access of lane `l` finds. -/
def State.capFound (l : Nat) : Cap :=
  ⟨BitVec.ofNat 128 (s.found c.core w f (laneReq c w f l)).num,
    keepTag s c.core (laneReq c w f l) (s.found c.core w f (laneReq c w f l))⟩

end

theorem lowest_mem_lanes {c : Ctx} (hact : c.act ≠ 0) : c.lowest ∈ c.lanes := by
  obtain ⟨l, hl, h32, ha⟩ := Mask.lowest_mem hact
  rw [Ctx.lowest, hl]
  exact (Mask.mem_lanes _ _).mpr ⟨h32, ha⟩

/-- Of elements that name their lanes, the first found for a lane is its own. -/
theorem find?_lane {α : Type} {g : Nat → α} {key : α → Nat} (hg : ∀ l, key (g l) = l) {ls : List Nat} {l : Nat} (hl : l ∈ ls) :
    ((ls.map g).find? fun x => key x == l) = some (g l) := by
  induction ls with
  | nil => cases hl
  | cons m ls ih =>
    rw [List.map_cons, List.find?_cons, hg]
    by_cases hm : m = l
    · simp [hm]
    · rw [beq_eq_false_iff_ne.mpr hm]
      exact ih ((List.mem_cons.mp hl).resolve_left fun h => hm h.symm)

section
variable {s : State} {c : Ctx} {w : Wave} {f : MF}

theorem laneRead_eq {l m : Nat} (hm : (if uniformAccess c w f then c.lowest else l) = m) (hact : m ∈ c.lanes) :
    s.laneRead c w f l = s.found c.core w f (laneReq c w f m) := by
  unfold State.laneRead accessReqs
  rw [hm, List.map_map, find?_lane (key := LaneVal.lane) (g := s.found c.core w f ∘ laneReq c w f) (fun _ => rfl) hact]
  rfl

theorem capRead_eq {l m : Nat} (hm : (if uniformAccess c w f then c.lowest else l) = m) (hact : m ∈ c.lanes) :
    s.capRead c w f l = s.capFound c w f m := by
  unfold State.capRead
  rw [laneRead_eq hm hact]
  unfold accessReqs
  rw [show (s.found c.core w f (laneReq c w f m)).lane = m from rfl,
    find?_lane (key := LaneReq.lane) (g := laneReq c w f) (fun _ => rfl) hact]
  rfl

theorem quad_of_allU {n : Nat} (h : c.allU w n 4 = true) (hn : n = 1023 ∨ (n < 1016 ∧ n % 4 = 0)) (l : Nat) :
    (c.quadCap w n l).bits = (c.quadCap w n 0).bits := by
  unfold Ctx.quadCap
  split
  next => rfl
  next hne =>
    have hspan : regSpan n 4 = [n, n + 1, n + 2, n + 3] := by
      rw [regSpan, if_neg (by omega)]
      rfl
    have hl : ∀ k ∈ [n, n + 1, n + 2, n + 3], c.lane w k l = c.lane w k 0 := fun k hk =>
      lane_of_isU c w k (List.all_eq_true.mp h k (hspan ▸ hk)) l
    simp only [Ctx.quad, hl n (by simp), hl (n + 1) (by simp), hl (n + 2) (by simp), hl (n + 3) (by simp)]

/-- A uniform access names one capability and one address. -/
theorem laneReq_of_uniform (h : uniformAccess c w f = true) (ha : f.a.toNat = 1023 ∨ (f.a.toNat < 1016 ∧ f.a.toNat % 4 = 0)) (l : Nat) :
    (laneReq c w f l).cap.bits = (laneReq c w f 0).cap.bits ∧ (laneReq c w f l).addr = (laneReq c w f 0).addr := by
  obtain ⟨hcap, hidx⟩ := (Bool.and_eq_true_iff.mp h)
  have hbits := quad_of_allU hcap ha l
  have hone : c.lane w f.b.toNat l = c.lane w f.b.toNat 0 := by
    refine lane_of_isU c w _ (List.all_eq_true.mp hidx _ ?_) l
    unfold regSpan
    split <;> simp
  refine ⟨hbits, ?_⟩
  simp only [laneReq, hbits, hone]

/-- A uniform access has one value for all lanes. -/
theorem read_uniform (hact : c.act ≠ 0) (hu : uniformAccess c w f = true) (l : Nat) :
    (s.laneRead c w f l).num = (s.laneRead c w f 0).num ∧ s.capRead c w f l = s.capRead c w f 0 := by
  have hm : ∀ k, (if uniformAccess c w f then c.lowest else k) = c.lowest := fun k => by rw [hu]; rfl
  have hlow := lowest_mem_lanes hact
  exact ⟨by rw [laneRead_eq (hm l) hlow, laneRead_eq (hm 0) hlow], by rw [capRead_eq (hm l) hlow, capRead_eq (hm 0) hlow]⟩

variable (ha : f.a.toNat = 1023 ∨ (f.a.toNat < 1016 ∧ f.a.toNat % 4 = 0))
include ha

theorem found_of_uniform (h : uniformAccess c w f = true) (l m : Nat) :
    (s.found c.core w f (laneReq c w f l)).num = (s.found c.core w f (laneReq c w f m)).num ∧
      s.capFound c w f l = s.capFound c w f m := by
  have hl := laneReq_of_uniform h ha l
  have hm := laneReq_of_uniform h ha m
  have hva : (laneReq c w f l).va = (laneReq c w f m).va := by rw [LaneReq.va, LaneReq.va, hl.2, hm.2]
  refine ⟨?_, ?_⟩
  · simp only [State.found, State.loadLocal, hva]
  · simp only [State.capFound, keepTag, State.found, State.loadLocal, hva, hl.1, hm.1]

variable (hact : c.act ≠ 0)
include hact

/-- A lane that the access has receives what it finds. -/
theorem read_active {l : Nat} (hl : l ∈ c.lanes) : (s.laneRead c w f l).num = (s.found c.core w f (laneReq c w f l)).num ∧
    s.capRead c w f l = s.capFound c w f l := by
  cases hu : uniformAccess c w f
  · have hm : (if uniformAccess c w f then c.lowest else l) = l := by rw [hu]; rfl
    exact ⟨by rw [laneRead_eq hm hl], capRead_eq hm hl⟩
  · have hm : (if uniformAccess c w f then c.lowest else l) = c.lowest := by rw [hu]; rfl
    have hlow := lowest_mem_lanes hact
    obtain ⟨hnum, hcap⟩ := found_of_uniform (s := s) ha hu c.lowest l
    exact ⟨by rw [laneRead_eq hm hlow, hnum], by rw [capRead_eq hm hlow, hcap]⟩

end

/-! ### The write of loaded values (R45, R210) -/

/-- Word `k` of each lane's value written to the register `d + k`. -/
def Ctx.writeWords (c : Ctx) (w : Wave) (d n : Nat) (u : Bool) (v : Nat → Nat) (fmts : Nat → Nat) : Wave :=
  (List.range n).foldl (fun w' k => c.write w' (d + k) (shaped u fun l => BitVec.ofNat 32 (field (v l) (32 * k) 32)) (fmts k)) w

theorem writeWords_succ (c : Ctx) (w : Wave) (d n : Nat) (u : Bool) (v : Nat → Nat) (fmts : Nat → Nat) :
    c.writeWords w d (n + 1) u v fmts = c.write (c.writeWords w d n u v fmts) (d + n)
      (shaped u fun l => BitVec.ofNat 32 (field (v l) (32 * n) 32)) (fmts n) := by
  simp [Ctx.writeWords, List.range_succ]

theorem ofNat_field (x k : Nat) : BitVec.ofNat 32 (field x (32 * k) 32) = BitVec.ofNat 32 (x / 2 ^ (32 * k)) :=
  BitVec.eq_of_toNat_eq (by simp [field])

theorem lowWord_ofNat (x : Nat) : lowWord (BitVec.ofNat 64 x) = BitVec.ofNat 32 (field x (32 * 0) 32) := by
  rw [ofNat_field]
  exact BitVec.eq_of_toNat_eq (by simp [lowWord])

theorem highWord_ofNat (x : Nat) : highWord (BitVec.ofNat 64 x) = BitVec.ofNat 32 (field x (32 * 1) 32) := by
  rw [ofNat_field]
  exact BitVec.eq_of_toNat_eq (by simp [highWord]; omega)

theorem writeTy_of_wide (c : Ctx) (w : Wave) {d : Nat} (hd : d ≠ 1023) (u : Bool) {ty : Nat} (hw : wide ty = true) (v : Nat → Nat)
    {fmts : Nat → Nat} (h0 : fmts 0 = resultFmt ty) (h1 : fmts 1 = resultFmtHi ty) :
    c.writeTy w d u ty v = c.writeWords w d 2 u v fmts := by
  rw [writeWords_succ, writeWords_succ, Ctx.writeTy, if_pos hw, Ctx.write64, Bank.writePair, if_neg hd, h0, h1]
  simp [Ctx.writeWords, Ctx.write, lowWord_ofNat, highWord_ofNat, setBank_setBank]

/-- Loaded values of any SIZE are written word by word. -/
theorem writeLoad_eq (c : Ctx) (w : Wave) {d : Nat} (hd : d ≠ 1023) (sz : Nat) (u : Bool) (v : Nat → Nat) :
    writeLoad c w d sz u v = c.writeWords w d (sizeRegs sz) u v (loadFmt sz) := by
  unfold writeLoad
  split
  next => exact writeTy_of_wide c w hd u rfl v rfl rfl
  next => exact writeTy_of_wide c w hd u rfl v rfl rfl
  next =>
    rw [if_neg hd]
    rfl
  next h3 h15 h4 =>
    have hone : sizeRegs sz = 1 := by
      unfold sizeRegs
      split
      · exact absurd rfl h3
      · exact absurd rfl h15
      · exact absurd rfl h4
      · rfl
    have hword : ∀ x, BitVec.ofNat 32 (field x (32 * 0) 32) = BitVec.ofNat 32 x := fun x => by
      rw [ofNat_field, Nat.mul_zero, pow_zero, Nat.div_one]
    rw [hone, writeWords_succ, loadFmt, if_neg h15]
    simp only [hword]
    rfl

section
variable (c : Ctx) (w : Wave) {d n : Nat} (u : Bool) (v : Nat → Nat) (fmts : Nat → Nat) (hd : d + n ≤ 672)
include hd

theorem onlyVec_writeWords : OnlyVec w (c.writeWords w d n u v fmts) (rangeFrom d n) := by
  induction n with
  | zero => exact OnlyVec.refl w _
  | succ n ih =>
    rw [writeWords_succ]
    refine ((ih (by omega)).mono fun k hk => ?_).trans ((onlyVec_write c _ _ _ _).mono fun k hk => ?_)
    · rw [mem_rangeFrom] at hk ⊢
      omega
    · rw [destRegs, if_neg (by omega), mem_rangeFrom] at hk
      rw [mem_rangeFrom]
      omega

theorem lane_writeWords (hu : u = true → ∀ l, l < 32 → v l = v 0) (k : Nat) {l : Nat} (hl : l < 32) (hv : c.live.getLsbD l = true) :
    (c.writeWords w d n u v fmts).lane (d + k) l =
      if k < n ∧ c.act.getLsbD l = true then BitVec.ofNat 32 (field (v l) (32 * k) 32) else w.lane (d + k) l := by
  induction n with
  | zero => simp [Ctx.writeWords]
  | succ n ih =>
    rw [writeWords_succ, live_write c _ _ _ _ hl hv (by omega), ih (by omega), lane_shaped (fun hu' l hl => by rw [hu hu' l hl]) hl]
    by_cases hk : k = n
    · simp [hk]
    · simp [hk, show k < n + 1 ↔ k < n by omega]

theorem fmt_writeWords (k : Nat) : ((c.writeWords w d n u v fmts).bank.reg (d + k)).fmt =
    if k < n then c.tagged (w.bank.reg (d + k)).fmt (fmts k) else (w.bank.reg (d + k)).fmt := by
  induction n with
  | zero => simp [Ctx.writeWords]
  | succ n ih =>
    rw [writeWords_succ, Ctx.write, bank_setBank]
    by_cases hk : k = n
    · subst hk
      rw [fmt_write _ _ _ _ _ (by omega), ih (by omega), if_neg (Nat.lt_irrefl k), if_pos k.lt_succ_self]
      rfl
    · rw [(lane_write_ne _ _ _ _ _ (by omega)).2, ih (by omega)]
      simp [show k < n + 1 ↔ k < n by omega]

theorem tag_writeWords (hn : n ≠ 0) {l : Nat} (ha : c.act.getLsbD l = true) :
    ((c.writeWords w d n u v fmts).bank.tagsOf ((d + n - 1) / 4)).getLsbD l = false := by
  obtain ⟨n, rfl⟩ := Nat.exists_eq_succ_of_ne_zero hn
  rw [Nat.succ_eq_add_one, writeWords_succ, Ctx.write, bank_setBank]
  exact tag_write _ _ _ _ _ (by omega) ha

end

theorem sizeRegs_cases (sz : Nat) : sizeRegs sz = 1 ∨ sizeRegs sz = 2 ∨ sizeRegs sz = 4 := by
  unfold sizeRegs
  split <;> simp

/-- A load's write leaves each active lane its value. -/
theorem loaded_writeLoad (c : Ctx) (w : Wave) {d sz : Nat} {u : Bool} {v g : Nat → Nat}
    (hd : d = 1023 ∨ (d % sizeRegs sz = 0 ∧ d + sizeRegs sz ≤ 672)) (hu : u = true → ∀ l, l < 32 → v l = v 0)
    (hg : ∀ l, l < 32 → c.act.getLsbD l = true → v l = g l) : Loaded c w (writeLoad c w d sz u v) d sz g := by
  rcases hd with rfl | ⟨hdiv, hle⟩
  · have hnone : writeLoad c w 1023 sz u v = w := by
      unfold writeLoad
      split <;> simp [Ctx.writeTy, Ctx.write64, Ctx.write, Bank.writePair, write_1023]
    rw [hnone]
    exact ⟨OnlyVec.refl w _, fun h => absurd rfl h, fun h => absurd rfl h, fun h => absurd rfl h⟩
  · have hne : d ≠ 1023 := by rcases sizeRegs_cases sz with h | h | h <;> omega
    have hquad : (d + sizeRegs sz - 1) / 4 = d / 4 := by
      rcases sizeRegs_cases sz with h | h | h <;> rw [h] at hdiv ⊢ <;> omega
    rw [writeLoad_eq c w hne]
    refine ⟨?only, fun _ k l hk hl hv => ?value, fun _ k hk => ?format, fun _ l ha => ?cleared⟩
    case only =>
      rw [destRegs, if_neg hne]
      exact onlyVec_writeWords c w u v _ hle
    case value =>
      rw [lane_writeWords c w u v _ hle hu k hl hv]
      by_cases ha : c.act.getLsbD l = true
      · rw [if_pos ⟨hk, ha⟩, if_pos ha, hg l hl ha]
      · rw [if_neg fun h => ha h.2, if_neg ha]
    case format => rw [fmt_writeWords c w u v _ hle, if_pos hk]
    case cleared =>
      rw [← hquad]
      exact tag_writeWords c w u v _ hle (by rcases sizeRegs_cases sz with h | h | h <;> omega) ha

/-! ### The loads -/

/-- What a load leaves but for its wave's registers. -/
theorem loadBody_of_here {f : MF} {cap : Bool} {c : Ctx} {w : Wave} {s : State}
    (hf : s.accessFault c.core (if cap then 2 else 0) (fun _ => loadAsk f) (accessReqs c w f) = none)
    (hh : Here s c.core w (sizeBytes f.size.toNat) (accessReqs c w f))
    (hroom : s.MissRoom c.core (s.wanted c.core (sizeBytes f.size.toNat) f (accessReqs c w f)))
    (hp : ∀ r ∈ accessReqs c w f, (s.found c.core w f r).poison = false) (hact : c.act ≠ 0) (hw : s.wave c.core c.slot = some w) :
    loadBody f cap c w s = .next ((s.loaded c.core c.bslot (sizeBytes f.size.toNat) f
      (s.wanted c.core (sizeBytes f.size.toNat) f (accessReqs c w f)) (accessReqs c w f)).setWave c.core c.slot
        (if cap then c.writeQuad w f.d.toNat (uniformAccess c w f) (s.capRead c w f)
         else writeLoad c w f.d.toNat f.size.toNat (uniformAccess c w f) fun l => (s.laneRead c w f l).num)) := by
  have hdead : ((accessReqs c w f).map (s.found c.core w f)).foldl
      (fun (m : Mask) v => if v.poison then m ||| Mask.one v.lane else m) 0 = 0 := by
    refine List.foldlRecOn _ _ (motive := fun m => m = 0) rfl fun m hm v hv => ?_
    obtain ⟨r, hr, rfl⟩ := List.mem_map.mp hv
    rw [hp r hr]
    exact hm
  have hwave : ∀ n bypass lines, ((s.asked c.core lines).passedBy c.core n bypass (accessReqs c w f)).wave c.core c.slot = some w :=
    fun n bypass lines => (((asked_sameIssue s c.core lines).trans (passedBy_sameIssue _ c.core n bypass _)).wave _ _).trans hw
  simp only [loadBody, access_of_here hf hh hroom, laneVals_of_here hh, hdead, loseLanes, if_true, if_neg hact,
    modWave_of _ _ _ _ (hwave _ _ _)]
  rw [State.loaded, ← noteReads_setWave, ← acquired_setWave]
  rfl

/-- LD's write: each active lane holds what its access finds. -/
theorem loaded_read {c : Ctx} (w : Wave) {f : MF} (s : State) (hact : c.act ≠ 0)
    (ha : f.a.toNat = 1023 ∨ (f.a.toNat < 1016 ∧ f.a.toNat % 4 = 0))
    (hd : f.d.toNat = 1023 ∨ (f.d.toNat % sizeRegs f.size.toNat = 0 ∧ f.d.toNat + sizeRegs f.size.toNat ≤ 672)) :
    Loaded c w (writeLoad c w f.d.toNat f.size.toNat (uniformAccess c w f) fun l => (s.laneRead c w f l).num) f.d.toNat f.size.toNat
      fun l => (s.found c.core w f (laneReq c w f l)).num :=
  loaded_writeLoad c w hd (fun hu l _ => (read_uniform hact hu l).1) fun _ hl hl' =>
    (read_active ha hact ((Mask.mem_lanes _ _).mpr ⟨hl, hl'⟩)).1

/-- LDC's write: each active lane holds the capability its access finds. -/
theorem caps_read {c : Ctx} (w : Wave) {f : MF} (s : State) (hact : c.act ≠ 0)
    (ha : f.a.toNat = 1023 ∨ (f.a.toNat < 1016 ∧ f.a.toNat % 4 = 0))
    (hd : f.d.toNat = 1023 ∨ (f.d.toNat % 4 = 0 ∧ f.d.toNat + 4 ≤ 672)) :
    OnlyVec w (c.writeQuad w f.d.toNat (uniformAccess c w f) (s.capRead c w f)) (destRegs f.d.toNat 4) ∧
      (f.d.toNat ≠ 1023 → ∀ l, l < 32 → c.live.getLsbD l = true →
        (c.writeQuad w f.d.toNat (uniformAccess c w f) (s.capRead c w f)).cap f.d.toNat l =
          if c.act.getLsbD l then s.capFound c w f l else w.cap f.d.toNat l) := by
  rcases hd with hd | ⟨-, hd⟩
  · rw [hd]
    refine ⟨?_, fun h => absurd rfl h⟩
    rw [Ctx.writeQuad, Bank.writeQuad, if_pos rfl, setBank_bank]
    exact OnlyVec.refl w _
  · obtain ⟨honly, hcap⟩ := caps_writeQuad c w f.d.toNat (uniformAccess c w f) (s.capRead c w f) (by omega) hact
      fun hu l _ => (read_uniform hact hu l).2
    rw [destRegs, if_neg (by omega)]
    refine ⟨honly, fun _ l hl hv => (hcap l hl hv).trans ?_⟩
    by_cases hl' : c.act.getLsbD l = true
    · rw [if_pos hl', if_pos hl', (read_active ha hact ((Mask.mem_lanes _ _).mpr ⟨hl, hl'⟩)).2]
    · rw [if_neg hl', if_neg hl']

theorem accessReqs_eq_cons {c : Ctx} (hact : c.act ≠ 0) (w : Wave) (f : MF) :
    ∃ rest, accessReqs c w f = laneReq c w f c.lowest :: rest := by
  obtain ⟨l, hl, -, -⟩ := Mask.lowest_mem hact
  obtain ⟨ls, hls⟩ := List.head?_eq_some_iff.mp hl
  exact ⟨ls.map (laneReq c w f), by rw [accessReqs, Ctx.lanes, hls, Ctx.lowest, hl]; rfl⟩

/-- LDG reads for its lowest lane. -/
theorem ldgBody_of_here {f : MF} {c : Ctx} {w : Wave} {s : State}
    (hf : s.accessFault c.core 4 (fun _ => loadAsk f) [laneReq c w f c.lowest] = none)
    (hh : Here s c.core w (sizeBytes f.size.toNat) [laneReq c w f c.lowest])
    (hroom : s.MissRoom c.core (s.wanted c.core (sizeBytes f.size.toNat) f [laneReq c w f c.lowest]))
    (hp : (s.found c.core w f (laneReq c w f c.lowest)).poison = false) (hact : c.act ≠ 0) (hw : s.wave c.core c.slot = some w) :
    ldgBody f c w s = .next ((s.loaded c.core c.bslot (sizeBytes f.size.toNat) f
      (s.wanted c.core (sizeBytes f.size.toNat) f [laneReq c w f c.lowest]) [laneReq c w f c.lowest]).setWave c.core c.slot
        (if f.size.toNat = 4 then w.setBank (w.bank.writeCap f.d.toNat (s.capFound c w f c.lowest))
         else c.writeG w f.d.toNat (ldgWord f.size.toNat (s.found c.core w f (laneReq c w f c.lowest)).num))) := by
  obtain ⟨rest, hreqs⟩ := accessReqs_eq_cons hact w f
  have hwave : ∀ n bypass lines reqs addrs, (((s.asked c.core lines).passedBy c.core n bypass reqs).noteReads c.core c.bslot
      addrs).wave c.core c.slot = some w := fun n bypass lines reqs addrs =>
    ((((asked_sameIssue s c.core lines).trans (passedBy_sameIssue _ c.core n bypass reqs)).trans
      (noteReads_sameIssue _ c.core c.bslot addrs)).wave _ _).trans hw
  simp only [ldgBody, hreqs, ldgLanes, access_of_here hf hh hroom, laneVals_of_here hh, List.map_cons, hp, Bool.false_eq_true, if_false,
    modWave_of _ _ _ _ (hwave _ _ _ _ _)]
  rw [State.loaded, ← acquired_noteReads, ← acquired_setWave]
  simp only [List.flatMap_cons, List.flatMap_nil, List.append_nil]
  rfl

theorem prefBody_eq (f : MF) (c : Ctx) (w : Wave) (s : State) {reqs : List LaneReq}
    (hreqs : (accessReqs c w f).filter (fun r =>
      (s.check (s.agent c.core) { need := 0, align := 1, size := 1, stored := none } r.cap r.addr).isNone) = reqs) :
    prefBody f c w s = .next (s.asked c.core (((s.core c.core).unasked (s.wanted c.core 1 f reqs)).take
      (if (s.core c.core).reserve = [] then 256 - (s.core c.core).misses.length else 0))) := by
  subst hreqs
  simp only [prefBody, List.isEmpty_iff]
  rfl

section
variable {f : MF} {c : Ctx} {w : Wave} {s : State}

theorem fenceBody_of_release (hr : releases f = true)
    (h : acquires f = true → s.released w f.scope.toNat (f.offset.toNat % 256) = true) : fenceBody f c w s =
      .next ((s.acquired c.core f).setWave c.core c.slot (w.fenced s f.scope.toNat (f.offset.toNat % 256))) := by
  have hmet : (releases f && acquires f && !s.released w f.scope.toNat (f.offset.toNat % 256)) = false := by
    cases ha : acquires f
    · simp
    · simp [h ha]
  rw [← acquired_setWave]
  simp only [fenceBody, hmet, Bool.false_eq_true, if_false, if_pos hr]
  rfl

theorem fenceBody_of_acquire (hr : releases f = false) : fenceBody f c w s = .next (s.acquired c.core f) := by
  simp only [fenceBody, hr, Bool.false_and, Bool.false_eq_true, if_false]
  rfl

theorem SamePath.fenced (w : Wave) (s : State) (scope mask : Nat) : SamePath w (w.fenced s scope mask) := .of_bank
end

/-- Settles O19: the loads, PREF and FENCE, each by what its meaning does where nothing waits. -/
theorem loadsAndFences : Obligations.LoadsAndFences := by
  unfold Obligations.LoadsAndFences
  refine ⟨fun f s core slot w b h hf hh hroom hp => ?ld, fun f s core slot w b h _ hf hh hroom hp => ?ldc,
    fun f s core slot w b h hf hh hroom hp => ?ldg, fun f s core slot w b h => ?pref, fun f s core slot w b h hrel => ?fence⟩
  case ld =>
    have hw := loaded_read w s h.active (quad_src_ok (ready_operands h.toReady _ (.tail _ (.head _))))
      (vec_dst_ok (ready_operands h.toReady _ (.head _)) (by decide))
    exact ⟨_, completesAt_of_setWave rfl h (loadBody_of_here (cap := false) hf hh hroom hp h.active h.wave) hw.only.samePath
      (loaded_sameIssue ..), hw⟩
  case ldc =>
    have hw := caps_read w s h.active (quad_src_ok (ready_operands h.toReady _ (.tail _ (.head _))))
      (vec_dst_ok (ready_operands h.toReady _ (.head _)) (by decide))
    exact ⟨_, completesAt_of_setWave rfl h (loadBody_of_here (cap := true) hf hh hroom hp h.active h.wave) hw.1.samePath
      (loaded_sameIssue ..), hw⟩
  case ldg =>
    have hb := ldgBody_of_here hf hh hroom hp h.active h.wave
    by_cases h4 : f.size.toNat = 4
    · have hd : Operand.ok (w.stream == .handler) ⟨.d, .pair, f.d.toNat, .dst, none⟩ = true := by
        refine ready_operands h.toReady _ ?_
        show _ ∈ memOperands .ldg f
        simp [memOperands, h4]
      have heven : f.d.toNat % 2 = 0 := by
        simp only [Operand.ok, Bool.and_eq_true, beq_iff_eq] at hd
        exact hd.1
      have hw := wrotePair_writeCap w (s.capFound (ctxFor (.ldg f) s core slot w) w f (ctxFor (.ldg f) s core slot w).lowest) heven
      rw [if_pos h4] at hb
      exact ⟨_, completesAt_of_setWave rfl h hb hw.samePath (loaded_sameIssue ..), fun _ => hw, fun h => absurd h4 h⟩
    · rw [if_neg h4] at hb
      exact ⟨_, completesAt_of_setWave rfl h hb (.setBank rfl rfl rfl rfl) (loaded_sameIssue ..), fun h => absurd h h4,
        fun _ => wroteGrp_writeG ..⟩
  case pref => exact completesAt_of_sameIssue rfl h (prefBody_eq f _ w s rfl) (asked_sameIssue s core _)
  case fence =>
    by_cases hr : releases f = true
    · rw [if_pos hr]
      exact completesAt_of_setWave rfl h (fenceBody_of_release hr (hrel hr)) (.fenced ..) (acquired_sameIssue s core f)
    · rw [if_neg hr]
      exact completesAt_of_sameIssue rfl h (fenceBody_of_acquire (eq_false_of_ne_true hr)) (acquired_sameIssue s core f)

end Sys2Proof.Machine
end

section
/-!
The path of a store from its buffer to its home, and its acknowledgement (O34).
-/

namespace Sys2Proof.Machine

/-! ### An entry leaves the store buffer (R217, R223, R229) -/

theorem writeThrough_eq (k : Core) (p : Part) : k.writeThrough p = { k with l1 := (k.writeThrough p).l1 } := by
  unfold Core.writeThrough
  split
  · split <;> rfl
  · rfl

/-- The pieces of a store change nothing of their core but its L1. -/
theorem storeThrough_eq (k : Core) (parts : List Part) : k.storeThrough parts = { k with l1 := (k.storeThrough parts).l1 } := by
  have hfold : parts.foldl Core.writeThrough k = { k with l1 := (parts.foldl Core.writeThrough k).l1 } := by
    induction parts generalizing k with
    | nil => rfl
    | cons p parts ih => rw [List.foldl_cons, ih, writeThrough_eq k p]
  unfold Core.storeThrough
  rw [hfold]

@[simp] theorem storeThrough_waves (k : Core) (parts : List Part) : (k.storeThrough parts).waves = k.waves := by rw [storeThrough_eq]
@[simp] theorem storeThrough_blocks (k : Core) (parts : List Part) : (k.storeThrough parts).blocks = k.blocks := by rw [storeThrough_eq]
@[simp] theorem storeThrough_queue (k : Core) (parts : List Part) : (k.storeThrough parts).queue = k.queue := by rw [storeThrough_eq]

/-- Whether a piece is bound for the scratchpad of the block at a rank. -/
abbrev Part.InPad (rank : Nat) (p : Part) : Prop := p.home.place.1 = 2 ∧ p.home.place.2.1 = rank

theorem Part.inPad_iff (rank : Nat) (p : Part) : p.InPad rank ↔ ∃ o, p.home = .spad rank o := by
  obtain ⟨home, eff⟩ := p
  cases home <;> simp [Part.InPad, Home.place]

/-- A piece of a store as it stands in the core write queue. -/
def StoreEntry.queuedPart (e : StoreEntry) (w : Wave) (p : Part) : QPart :=
  { uid := w.uid, serial := e.serial, stream := e.stream, colour := e.colour, bslot := w.bslot, pc := e.pc, kind := e.kind,
    lane := e.laneAt p, part := p }

/-- The state once entry `idx` of wave `w` has left its buffer, with its pieces for other places queued. -/
def State.unbuffered (s : State) (core slot idx : Nat) (w : Wave) (rank : Nat) (e : StoreEntry) : State :=
  let k := (s.core core).storeThrough e.parts
  s.setCore core { k with
    waves := kset k.waves slot { w with sb := ldel w.sb idx }
    queue := k.queue ++ (e.parts.filter fun p => ¬p.InPad rank).map (e.queuedPart w) }

/-- That state with the pieces for the block's own scratchpad applied. -/
def State.leftBuffer (s : State) (core slot idx : Nat) (w : Wave) (rank : Nat) (e : StoreEntry) : State :=
  (e.parts.filter fun p => p.InPad rank).foldl (fun s p => s.applyPad core w.bslot w.uid rank p.home.place.2.2 p.eff)
    (s.unbuffered core slot idx w rank e)

/-- An entry that nothing holds back leaves its buffer, and is acknowledged where no piece of it is queued. -/
theorem leaveBuffer_of_free {s : State} {core slot idx : Nat} {w : Wave} {b : Block} {e : StoreEntry} (hw : s.wave core slot = some w)
    (hb : s.block core w.bslot = some b) (he : w.sb[idx]? = some e)
    (hclear : ∀ x ∈ w.sb.take idx, x.stream ≠ e.stream ∧ ∀ p ∈ x.parts, ∀ q ∈ e.parts, p.overlaps q = false)
    (hgates : ∀ g ∈ e.gates, s.gateMet w g = true) (hstop : s.coreStopped core = false) (hheld : s.clusterHeld b.cluster = false)
    (hroom : (s.core core).queue.length + (e.parts.filter fun p => ¬p.InPad b.rank).length ≤ 64) :
    let t := s.leftBuffer core slot idx w b.rank e
    s.leaveBuffer core slot idx =
      if (e.parts.filter fun p => ¬p.InPad b.rank).isEmpty then { t with acks := t.acks ++ [⟨w.uid, e.stream, e.serial⟩] } else t := by
  have hown : ∀ p : Part, decide (p.InPad b.rank) = match p.home with | .spad r _ => r == b.rank | _ => false := by
    rintro ⟨_ | _ | _, _⟩ <;> simp [Part.InPad, Home.place, Bool.beq_eq_decide_eq]
  have hpad : ∀ s1 : State, (e.parts.filter fun p => p.InPad b.rank).foldl
        (fun s p => s.applyPad core w.bslot w.uid b.rank p.home.place.2.2 p.eff) s1 =
      (e.parts.filter fun p => p.InPad b.rank).foldl (fun s p => match p.home with
        | .spad r o => s.applyPad core w.bslot w.uid r o p.eff
        | _ => s) s1 := fun s1 => List.foldl_ext _ _ _ fun s2 p hp => by
    obtain ⟨o, ho⟩ := (p.inPad_iff b.rank).mp (of_decide_eq_true (List.mem_filter.mp hp).2)
    rw [ho]
    rfl
  have hfree : ((w.sb.take idx).any fun x => x.stream == e.stream || x.parts.any fun p => e.parts.any fun q => p.overlaps q) = false := by
    simp only [List.any_eq_false, Bool.or_eq_true, beq_iff_eq, List.any_eq_true, not_or, not_exists, not_and]
    exact fun x hx => ⟨(hclear x hx).1, fun p hp q hq => Bool.eq_false_iff.mp ((hclear x hx).2 p hp q hq)⟩
  have hopen : (e.gates.any fun g => !s.gateMet w g) = false := by simpa using hgates
  dsimp only [State.leftBuffer, State.unbuffered]
  rw [hpad]
  simp only [decide_not, hown] at hroom ⊢
  unfold State.leaveBuffer
  rw [hw]
  dsimp only
  rw [hb, he]
  dsimp only
  rw [hfree, hopen, hstop, hheld]
  exact if_neg fun hfull => absurd (of_decide_eq_true hfull) (not_lt.mpr hroom)

/-! ### The pieces at their homes (R224, R228, R270) -/

section
variable {s : State} {core idx : Nat} {q : QPart} (hq : (s.core core).atHead idx = some q)
include hq

/-- A piece that has no mate is written alone. -/
theorem writeHome_alone {a : Nat} {d : List Byte} {tag : Bool} (hp : q.part = ⟨.mem a, .bytes d tag⟩) (hr : rangeOf a ≠ .host)
    (hm : (s.core core).matesOf idx = []) :
    s.writeHome core idx = ((s.dequeue core idx).putPiece q.part).acknowledge q.uid q.stream q.serial := by
  simp [State.writeHome, hq, hp, hr, hm, State.putPieces]

/-- The pieces of one store in one line are written together. -/
theorem writeHome_mates {a : Nat} {d : List Byte} {tag : Bool} (hp : q.part = ⟨.mem a, .bytes d tag⟩) (hr : rangeOf a ≠ .host)
    (hm : (s.core core).matesOf idx ≠ []) :
    s.writeHome core idx = (((s.dequeue core idx).dequeueMates core q).putPieces
      (q.part :: ((s.core core).matesOf idx).map fun x => x.part)).acknowledge q.uid q.stream q.serial := by
  simp [State.writeHome, hq, hp, hr, hm]

/-- A store to the host window is written where every page of it is present. -/
theorem writeHome_host {a : Nat} {d : List Byte} {tag : Bool} (hp : q.part = ⟨.mem a, .bytes d tag⟩) (hr : rangeOf a = .host)
    (hpages : s.missingPages a d.length = []) :
    s.writeHome core idx = ((s.dequeue core idx).store a d).acknowledge q.uid q.stream q.serial := by
  simp [State.writeHome, hq, hp, hr, hpages, State.paged]

theorem writeHome_remote {dev a cls lane va : Nat} {d : List Byte} {tag : Bool} (hp : q.part = ⟨.remote dev a cls lane va, .bytes d tag⟩) :
    s.writeHome core idx = (s.dequeue core idx).request (.store q.uid q.stream q.serial q.pc lane q.kind va) dev
      fun rtag => [writeFlit s dev a cls q.colour q.stream d tag rtag] := by
  simp only [State.writeHome, hq, hp]

theorem chainHome_remote {dev a cls lane va : Nat} {k : Chain} (hp : q.part = ⟨.remote dev a cls lane va, .chain k⟩) :
    s.chainHome core idx = (s.dequeue core idx).request (.store q.uid q.stream q.serial q.pc lane q.kind va) dev
      fun rtag => chainFlits s dev a cls q.colour q.stream k rtag := by
  simp only [State.chainHome, hq, hp]

theorem chainHome_mem {a : Nat} {k : Chain} (hp : q.part = ⟨.mem a, .chain k⟩) :
    s.chainHome core idx = (((s.dequeue core idx).storeNum a k.size (k.run (s.numAt a k.size)).2).dropL1 core a).acknowledge
      q.uid q.stream q.serial := by
  simp only [State.chainHome, hq, hp]

theorem writeHome_spad {r o : Nat} {e : Effect} (hp : q.part = ⟨.spad r o, e⟩)
    (he : (∃ d tag, e = .bytes d tag) ∨ ∃ scope masks, e = .binit scope masks) :
    s.writeHome core idx = ((s.dequeue core idx).applyPad core q.bslot q.uid r o e).acknowledge q.uid q.stream q.serial := by
  obtain ⟨d, tag, rfl⟩ | ⟨scope, masks, rfl⟩ := he <;> simp only [State.writeHome, hq, hp]

theorem arriveHome_spad {r o wv rank d level serial : Nat} {drop : Bool} {act : Mask}
    (hp : q.part = ⟨.spad r o, .arrive drop wv rank d act level serial⟩) :
    s.arriveHome core idx = ((s.dequeue core idx).applyPad core q.bslot q.uid r o (.arrive drop wv rank d act level serial)).acknowledge
      q.uid q.stream q.serial := by
  simp only [State.arriveHome, hq, hp]
end

/-! ### The block's own scratchpad (R229, R251) -/

theorem rankBlock_of_sameBlocks {s t : State} (hc : t.clusters = s.clusters) (hb : ∀ c n, t.block c n = s.block c n) (b : Block) (rank : Nat) :
    t.rankBlock b rank = s.rankBlock b rank := by
  simp only [State.rankBlock, hc, hb]

/-- Bytes for the scratchpad of the block itself. -/
theorem applyPad_own {s : State} {core bslot : Nat} {b : Block} (hb : s.block core bslot = some b)
    (hrank : s.rankBlock b b.rank = some (core, bslot, b)) (uid o : Nat) (d : List Byte) (tag : Bool) :
    s.applyPad core bslot uid b.rank o (.bytes d tag) = s.setBlock core bslot (b.padStore o d) := by
  simp only [State.applyPad, hb, hrank, modBlock_of s core bslot _ hb]

section
variable (s : State) (core slot idx : Nat) (w : Wave) (rank : Nat) (e : StoreEntry)

theorem unbuffered_wave : (s.unbuffered core slot idx w rank e).wave core slot = some { w with sb := ldel w.sb idx } := by
  simp [State.unbuffered, State.wave]

theorem unbuffered_block (c n : Nat) : (s.unbuffered core slot idx w rank e).block c n = s.block c n := by
  refine block_setCore_of (s := s) ?_ c n
  exact storeThrough_blocks ..

theorem unbuffered_blocks : ((s.unbuffered core slot idx w rank e).core core).blocks = (s.core core).blocks := by
  simp [State.unbuffered]

theorem unbuffered_queue : ((s.unbuffered core slot idx w rank e).core core).queue =
    (s.core core).queue ++ (e.parts.filter fun p => ¬p.InPad rank).map (e.queuedPart w) := by
  simp [State.unbuffered]

/-- An entry with no piece for the block's own scratchpad. -/
theorem leftBuffer_of_noPad (h : (e.parts.filter fun p => p.InPad rank) = []) :
    s.leftBuffer core slot idx w rank e = s.unbuffered core slot idx w rank e := by
  rw [State.leftBuffer, h, List.foldl_nil]
end

/-- An entry of bytes for the block's own scratchpad alone is applied there. -/
theorem leftBuffer_of_pad {s : State} {core slot idx : Nat} {w : Wave} {b : Block} {e : StoreEntry} {o : Nat} {d : List Byte} {tag : Bool}
    (hb : s.block core w.bslot = some b) (hrank : s.rankBlock b b.rank = some (core, w.bslot, b))
    (hparts : e.parts = [⟨.spad b.rank o, .bytes d tag⟩]) :
    s.leftBuffer core slot idx w b.rank e = (s.unbuffered core slot idx w b.rank e).setBlock core w.bslot (b.padStore o d) := by
  have hblocks := unbuffered_block s core slot idx w b.rank e
  have hown : (e.parts.filter fun p => p.InPad b.rank) = e.parts := by simp [hparts, Part.InPad, Home.place]
  have hplace := rankBlock_of_sameBlocks (t := s.unbuffered core slot idx w b.rank e) (s := s) rfl hblocks b b.rank
  rw [State.leftBuffer, hown, hparts]
  exact applyPad_own ((hblocks ..).trans hb) (hplace.trans hrank) w.uid o d tag

/-! ### Acknowledgements (R224, R382) -/

theorem takeAck_resident {s : State} {idx c slot : Nat} {a : Ack} {w : Wave} (ha : s.acks[idx]? = some a)
    (hu : s.findUid a.uid = some (c, slot)) (hw : s.wave c slot = some w) :
    s.takeAck idx = State.setWave { s with acks := ldel s.acks idx } c slot { w with unack := lmod w.unack a.stream (· - 1) } := by
  have hu1 : State.findUid { s with acks := ldel s.acks idx } a.uid = some (c, slot) := hu
  simp only [State.takeAck, ha, hu1]
  exact modWave_of _ c slot _ hw

theorem takeAck_away {s : State} {idx : Nat} {a : Ack} (ha : s.acks[idx]? = some a) (hu : s.findUid a.uid = none) :
    s.takeAck idx = State.changeRecord { s with acks := ldel s.acks idx } a.uid fun _ w => w.lower a.stream := by
  have hu1 : State.findUid { s with acks := ldel s.acks idx } a.uid = none := hu
  simp only [State.takeAck, ha, hu1]

/-- Settles O34: each event's law carried to it, with what an entry that leaves makes of its buffer, the queue and its own scratchpad. -/
theorem storePath : Obligations.StorePath := by
  unfold Obligations.StorePath
  refine ⟨fun core slot idx s w b e hw hb he hclear hgates hstop hheld => ?leaves, fun core idx s q a d tag hq hp => ?memory,
    fun core idx s q dev a cls lane va hq => ?remote, fun core idx s q r o e hq hp => ?pad,
    fun core idx s q a k hq hp => congrArg Host.Outcome.next (chainHome_mem hq hp), fun idx s a ha => ?ack⟩
  case leaves =>
    have hleave := leaveBuffer_of_free hw hb he hclear hgates hstop hheld
    refine ⟨fun hroom => congrArg Host.Outcome.next (hleave hroom), fun hown _ => ?_, fun o d tag hparts hrank hroom => ?_⟩
    · have ht := leftBuffer_of_noPad s core slot idx w b.rank e hown
      show (s.leftBuffer core slot idx w b.rank e).wave core slot = _ ∧ ((s.leftBuffer core slot idx w b.rank e).core core).blocks = _ ∧
        (s.leftBuffer core slot idx w b.rank e).mem = _
      rw [ht]
      exact ⟨unbuffered_wave .., unbuffered_blocks .., rfl⟩
    · have ht := leftBuffer_of_pad (slot := slot) (idx := idx) hb hrank hparts
      have hrest : (e.parts.filter fun p => ¬p.InPad b.rank) = [] := by simp [hparts, Part.InPad, Home.place]
      have hgone := hleave (by simpa only [hrest, List.length_nil, Nat.add_zero] using hroom)
      rw [ht, hrest] at hgone
      refine ⟨_, congrArg Host.Outcome.next hgone, (wave_setBlock ..).trans (unbuffered_wave ..), block_setBlock_self ..,
        (core_setBlock_queue ..).trans ?_⟩
      rw [unbuffered_queue, hrest, List.map_nil, List.append_nil]
  case memory =>
    refine ⟨fun hr hm => ⟨fun htag => ?_, fun htag hlen => ?_⟩,
      fun hr hm => congrArg Host.Outcome.next (writeHome_mates hq hp hr hm),
      fun hr hpages => congrArg Host.Outcome.next (writeHome_host hq hp hr hpages)⟩
    · refine congrArg Host.Outcome.next ((writeHome_alone hq hp hr hm).trans ?_)
      rw [hp, htag]
      rfl
    · refine congrArg Host.Outcome.next ((writeHome_alone hq hp hr hm).trans ?_)
      simp only [hp, htag, State.putPiece, hlen, decide_true, Bool.and_self, if_true]
  case remote =>
    exact ⟨fun d tag hp => congrArg Host.Outcome.next (writeHome_remote hq hp), fun k hp => congrArg Host.Outcome.next (chainHome_remote hq hp)⟩
  case pad =>
    refine ⟨fun he => congrArg Host.Outcome.next (writeHome_spad hq hp he), fun drop wv rank d act level serial he => ?_⟩
    subst he
    exact congrArg Host.Outcome.next (arriveHome_spad hq hp)
  case ack =>
    exact ⟨fun c slot w hu hw => congrArg Host.Outcome.next (takeAck_resident ha hu hw),
      fun hu => congrArg Host.Outcome.next (takeAck_away ha hu)⟩

end Sys2Proof.Machine
end

section
/-!
Responses, acknowledgements, replays and timeouts of the Loess link (O40).
-/

namespace Sys2Proof

/-- A map changed at a key that it has. -/
theorem kmod_of_kget {α : Type} {m : KMap α} {k : Nat} {v : α} (h : kget m k = some v) (f : α → α) : kmod m k f = kset m k (f v) := by
  simp only [kmod, h]

end Sys2Proof

namespace Sys2Proof.Machine

/-! ### What a port takes (R333, R338) -/

@[simp] theorem sendFlit_remote (s : State) (p : Nat) (f : Flit) : (s.sendFlit p f).remote = s.remote := by
  unfold State.sendFlit
  split <;> rfl

/-- A flit that comes in order and for this device is taken and served. -/
theorem receive_of_arrives {s : State} {p : Nat} {q : Port} {f : Flit} {kind : Nat} (h : Arrives s p q f kind) :
    s.receive p f kind = (true, s.took p q f) := by
  obtain ⟨hport, hcrc, horder, htype, hknown, hsize, hfields, hhere⟩ := h
  have hkept : flitDiscarded f = false := by
    simp only [flitDiscarded, hfields, htype, bne_self_eq_false, Bool.false_or, Bool.or_eq_false_iff, decide_eq_false_iff_not]
    omega
  simp [State.receive, State.took, hport, hcrc, horder, htype, hhere, hkept]

/-- A flit in order that may not be taken is counted, and acknowledged as any other (R333). -/
theorem discardFlit_of_discarded {s : State} {p : Nat} {q : Port} {f : Flit} (hport : kget s.ports p = some q) (hcrc : flitSound f = true)
    (horder : f.seq.toNat = (q.ack + 1) % 65536) (hbad : flitDiscarded f = true) : s.discardFlit p f =
      ({ s with ports := kset s.ports p { q with
          ack := f.seq.toNat, window := ackWindow q.window f.ack.toNat, lastRx := s.now (portDie p),
          discarded := q.discarded + 1 } } : State).pump p := by
  simp [State.discardFlit, State.receive, hport, hcrc, horder, hbad]

theorem flitDiscarded_iff (f : Flit) : flitDiscarded f = true ↔ f.reserved ≠ 0 ∨ 10 < f.kind.toNat ∨ 208 < f.payload.length := by
  simp [flitDiscarded, or_assoc]

/-- The CRC of a sealed flit holds, as its bytes leave the CRC out. -/
theorem flitSound_flitSealed (f : Flit) : flitSound (flitSealed f) = true := by
  simp [flitSound, flitSealed, flitBody]

/-! ### The answer of a request (R333, R335) -/

/-- A response returns to the open request of its RTAG at the device that it comes from. -/
theorem requestOf_of_open {s : State} {f : Flit} {r : Remote} (hcol : f.col ≠ 0) (hr : kget s.remote f.rtag.toNat = some r)
    (hdev : r.dev = f.sdev.toNat) (hopen : r.answer = none) : s.requestOf f = some r := by
  simp only [State.requestOf, hr, hdev, hopen, Option.isNone_none, bne_iff_ne.mpr hcol, decide_true, Bool.and_self, if_true]

theorem answer_of_open {s : State} {rtag : Nat} {r : Remote} (hr : kget s.remote rtag = some r) (hopen : r.answer = none) (a : Answer) :
    s.answer rtag a = { s with remote := kset s.remote rtag { r with answer := some a } } := by
  simp [State.answer, kmod_of_kget hr, hopen]

/-- A store's answer without a failure ends its request (R224). -/
theorem storeAnswered_of_done {r : Remote} {uid stream serial pc lane kind va} (howner : r.owner = .store uid stream serial pc lane kind va)
    {a : Answer} (hcode : a.code = 0) (s : State) (rtag : Nat) :
    s.storeAnswered rtag r a = ({ s with remote := kdel s.remote rtag }).acknowledge uid stream serial := by
  simp only [State.storeAnswered, howner, hcode, if_true]

/-- A failure, and the answer of what is no store, waits with the request. -/
theorem storeAnswered_of_kept {r : Remote} {a : Answer}
    (h : a.code ≠ 0 ∨ ∀ uid stream serial pc lane kind va, r.owner ≠ .store uid stream serial pc lane kind va) (s : State) (rtag : Nat) :
    s.storeAnswered rtag r a = s.answer rtag a := by
  unfold State.storeAnswered
  split
  · next uid stream serial pc lane kind va howner => exact if_neg (h.resolve_right fun hno => hno _ _ _ _ _ _ _ howner)
  · rfl

/-- The flits of a response kept aside leave the requests as they are. -/
theorem assemble_remote (s : State) (f : Flit) (response : Bool) (place : Nat) : (s.assemble f response place).2.remote = s.remote := by
  unfold State.assemble
  dsimp only
  split <;> rfl

/-! ### The three responses (R333) -/

section
variable {s : State} {p : Nat} {q : Port} {f : Flit} {r : Remote}

theorem takeReadResponse_of_request (h : Arrives s p q f 2) (hreq : (s.took p q f).requestOf f = some r) :
    s.takeReadResponse p f = (s.took p q f).answer f.rtag.toNat
      { code := numIn f.payload 0 1, units := numIn f.payload 1 1
        data := if f.ctag.getLsbD 1 then ((s.took p q f).unsealed f).1 else f.payload.drop 16
        tag := ((s.took p q f).sweptCap ⟨BitVec.ofNat 128 (ofBytes ((s.took p q f).unsealed f).1), ((s.took p q f).unsealed f).2⟩).tag } := by
  simp only [State.takeReadResponse, receive_of_arrives h, hreq]

theorem takeWriteAck_of_request (h : Arrives s p q f 4) (hreq : (s.took p q f).requestOf f = some r) :
    s.takeWriteAck p f = (s.took p q f).storeAnswered f.rtag.toNat r (Answer.failed (numIn f.payload 0 1)) := by
  simp only [State.takeWriteAck, receive_of_arrives h, hreq]

theorem takeAtomicResponse_of_part {u : State} (h : Arrives s p q f 6) (hreq : (s.took p q f).requestOf f = some r)
    (hparts : (s.took p q f).assemble f true (numIn f.payload 2 1) = (none, u)) : s.takeAtomicResponse p f = u := by
  simp only [State.takeAtomicResponse, receive_of_arrives h, hreq, hparts]

theorem takeAtomicResponse_of_whole {u : State} {bs : List Byte} (h : Arrives s p q f 6) (hreq : (s.took p q f).requestOf f = some r)
    (hparts : (s.took p q f).assemble f true (numIn f.payload 2 1) = (some bs, u)) :
    s.takeAtomicResponse p f = u.storeAnswered f.rtag.toNat r
      { code := numIn f.payload 0 1, data := bs, tag := false, units := numIn f.payload 1 1 } := by
  simp only [State.takeAtomicResponse, receive_of_arrives h, hreq, hparts]

/-- A response to no request changes the link's record alone. -/
theorem exec_response_of_noRequest {kind : Nat} (hkind : kind = 2 ∨ kind = 4 ∨ kind = 6) (h : Arrives s p q f kind)
    (hreq : (s.took p q f).requestOf f = none) :
    exec (if kind = 2 then .readResponse p f else if kind = 4 then .writeAcknowledgement p f else .atomicResponse p f) s =
      .next (s.took p q f) := by
  rcases hkind with rfl | rfl | rfl
  · show Host.Outcome.next (s.takeReadResponse p f) = _
    simp only [State.takeReadResponse, receive_of_arrives h, hreq]
  · show Host.Outcome.next (s.takeWriteAck p f) = _
    simp only [State.takeWriteAck, receive_of_arrives h, hreq]
  · show Host.Outcome.next (s.takeAtomicResponse p f) = _
    simp only [State.takeAtomicResponse, receive_of_arrives h, hreq]
end

/-! ### The failure of a store (R335, R336) -/

theorem lowestFailure_eq_none : ∀ {xs}, lowestFailure xs = none → xs = []
  | [], _ => rfl
  | x :: xs, h => by
    unfold lowestFailure at h
    split at h
    · split at h <;> cases h
    · cases h

/-- The failure that a store reports is one of its own, and none of them is of a lower lane. -/
theorem lowestFailure_spec {xs : List (Nat × Nat × Nat × Nat)} {y : Nat × Nat × Nat × Nat} (h : lowestFailure xs = some y) :
    y ∈ xs ∧ ∀ z ∈ xs, y.2.2.1 ≤ z.2.2.1 := by
  induction xs generalizing y with
  | nil => cases h
  | cons x xs ih =>
    unfold lowestFailure at h
    split at h
    · next low hlow =>
      obtain ⟨hmem, hmin⟩ := ih hlow
      split at h <;> obtain rfl := Option.some.inj h
      · next hlt => exact ⟨.tail _ hmem, List.forall_mem_cons.mpr ⟨hlt.le, hmin⟩⟩
      · next hge => exact ⟨.head _, List.forall_mem_cons.mpr ⟨le_rfl, fun z hz => (not_lt.mp hge).trans (hmin z hz)⟩⟩
    · next hnone =>
      obtain rfl := Option.some.inj h
      rw [lowestFailure_eq_none hnone]
      simp

/-- Once no piece of a store is open its failures reach the wave as one, that of the lowest lane. -/
theorem faultArrives_of_ended {s : State} {rtag code : Nat} {r : Remote} {x : Answer} {uid stream serial pc lane kind va dev worst low at'}
    (hr : kget s.remote rtag = some r) (hx : r.answer = some x) (howner : r.owner = .store uid stream serial pc lane kind va)
    (hcode : x.code = code) (hfail : code ≠ 0) (hended : s.storeOpen uid serial = false)
    (hlow : lowestFailure (s.storeFailures uid serial) = some (dev, worst, low, at')) : s.faultArrives rtag code =
      (({ s with remote := s.remote.filter fun e => !e.2.ofStore uid serial }).remoteFault uid dev worst kind low pc at').acknowledge
        uid stream serial := by
  subst hcode
  simp [State.faultArrives, hr, hx, howner, hfail, hended, hlow]

/-! ### The link's own flits and its silence (R338) -/

section
variable {s : State} {p : Nat} {q : Port} (hport : kget s.ports p = some q)
include hport

theorem receiveIdle_of_port (ack : Nat) : s.receiveIdle p ack = ({ s with ports := kset s.ports p { q with
    window := ackWindow q.window (ack % 65536), lastRx := s.now (portDie p) } } : State).pump p := by
  rw [State.receiveIdle, kmod_of_kget hport]

theorem replay_of_port (ack : Nat) : s.replay p ack = ({ s with ports := kset s.ports p { q with
    window := ackWindow q.window (ack % 65536), sent := (ackWindow q.window (ack % 65536)).reverse ++ q.sent,
    lastTx := s.now (portDie p) } } : State).pump p := by
  rw [State.replay, kmod_of_kget hport]

/-- An idle flit acknowledges what has come, carries nothing, and is not kept for a replay. -/
theorem sendIdle_of_due (hdue : q.lastTx + microsecond / 2 ≤ s.now (portDie p)) : ∃ f,
    s.sendIdle p = { s with ports := kset s.ports p { q with sent := f :: q.sent, lastTx := s.now (portDie p) } } ∧
    flitSound f = true ∧ f.kind = 0 ∧ f.ack = BitVec.ofNat 16 q.ack ∧ f.payload = [] := by
  simp only [State.sendIdle, hport, if_neg (not_lt.mpr hdue)]
  exact ⟨_, rfl, flitSound_flitSealed _, rfl, rfl, rfl⟩

/-- The requests of a link that has been silent for 5 µs leave again. -/
theorem failLink_of_silent (hlive : q.failed = false) (hreach : q.reach ≠ []) (hlate : q.lastRx + 5 * microsecond ≤ s.now (portDie p)) :
    s.failLink p = ((q.window ++ q.queued).filter flitIsRequest).foldl State.resend
      { s with ports := kset s.ports p { q with failed := true, window := [], queued := [] } } := by
  have hsilent : s.linkSilent p q = true := by simp [State.linkSilent, hlive, hreach, hlate]
  simp [State.failLink, hport, hsilent]
end

section
variable {s : State} {f : Flit} {r : Remote} (hkind : f.kind.toNat < 7) (hr : kget s.remote f.rtag.toNat = some r)
include hkind hr

theorem resend_of_route {o : Nat} (ho : s.route f.ddev.toNat = some o) : s.resend f = { s.sendFlit o f with
    remote := kset s.remote f.rtag.toNat { r with port := o, sentAt := s.now (portDie o) } } := by
  simp only [State.resend, ho, if_pos hkind, sendFlit_remote, kmod_of_kget hr]

theorem resend_of_noRoute (ho : s.route f.ddev.toNat = none) (hopen : r.answer = none) :
    s.resend f = { s with remote := kset s.remote f.rtag.toNat { r with answer := some (Answer.failed 9) } } := by
  simp only [State.resend, ho, if_pos hkind, answer_of_open hr hopen]
end

/-- A request without a response for 50 µs fails, on a link that is not overdue and once it has left the switch. -/
theorem switchTimeout_of_late {s : State} {rtag : Nat} {r : Remote} (hr : kget s.remote rtag = some r) (hopen : r.answer = none)
    (hlate : r.sentAt + 50 * microsecond ≤ s.now (portDie r.port))
    (hheard : ∀ q, kget s.ports r.port = some q → s.linkSilent r.port q = false)
    (hleft : ∀ e ∈ s.ports, ∀ f ∈ e.2.queued, f.rtag.toNat = rtag → f.kind.toNat ∉ [1, 3, 5]) :
    s.switchTimeout rtag = { s with remote := kset s.remote rtag { r with answer := some (Answer.failed 10) } } := by
  have hsilent : (match kget s.ports r.port with | some q => s.linkSilent r.port q | none => false) = false := by
    split
    · next q hq => exact hheard q hq
    · rfl
  have hinside : (s.ports.any fun e => e.2.queued.any fun f => f.rtag.toNat == rtag && [1, 3, 5].contains f.kind.toNat) = false := by
    simp only [List.any_eq_false, Bool.not_eq_true, Bool.and_eq_false_imp, beq_iff_eq, List.contains_eq_mem, decide_eq_false_iff_not]
    exact hleft
  have hdue : ¬s.now (portDie r.port) < r.sentAt + 50 * microsecond := not_lt.mpr hlate
  simp only [State.switchTimeout, hr, hopen, hinside, hdue, Option.isSome_none, Bool.false_or, Bool.or_false, decide_false]
  refine (if_neg ?_).trans (answer_of_open hr hopen _)
  exact Bool.eq_false_iff.mp hsilent

/-- Settles O40: each event's law carried to it. -/
theorem loessLinks : Obligations.LoessLinks := by
  unfold Obligations.LoessLinks
  refine ⟨fun p f s q r h hcol hr hdev hopen => ?read, fun p f s q r h hcol hr hdev hopen => ?ack,
    fun p f s q r h hcol hr hdev hopen => ?atomic, fun p kind f s q hkind h hreq => exec_response_of_noRequest hkind h hreq,
    fun rtag code s r x uid stream serial pc lane kind va dev worst low at' hr hx howner hcode hfail hended hlow =>
      congrArg Host.Outcome.next (faultArrives_of_ended hr hx howner hcode hfail hended hlow),
    fun xs dev code lane va h => lowestFailure_spec h,
    fun p f s q h => congrArg Host.Outcome.next (congrArg Prod.snd (receive_of_arrives h)),
    fun p f s q hport hcrc horder hbad =>
      congrArg Host.Outcome.next (discardFlit_of_discarded hport hcrc horder ((flitDiscarded_iff f).mpr hbad)),
    fun p ack s q hport => congrArg Host.Outcome.next (receiveIdle_of_port hport ack),
    fun p s q hport hdue => ?idle,
    fun p ack s q hport => congrArg Host.Outcome.next (replay_of_port hport ack),
    fun p s q hport hlive hreach hlate => congrArg Host.Outcome.next (failLink_of_silent hport hlive hreach hlate),
    fun s f r hkind hr => ⟨fun o ho => resend_of_route hkind hr ho, fun ho hopen => resend_of_noRoute hkind hr ho hopen⟩,
    fun rtag s r hr hopen hlate hheard hleft => congrArg Host.Outcome.next (switchTimeout_of_late hr hopen hlate hheard hleft)⟩
  case read =>
    exact congrArg Host.Outcome.next
      ((takeReadResponse_of_request h (requestOf_of_open hcol hr hdev hopen)).trans (answer_of_open hr hopen _))
  case ack =>
    have htake := takeWriteAck_of_request h (requestOf_of_open hcol hr hdev hopen)
    exact ⟨fun uid stream serial pc lane kind va howner hcode =>
        congrArg Host.Outcome.next (htake.trans (storeAnswered_of_done howner hcode _ _)),
      fun hkept => congrArg Host.Outcome.next (htake.trans ((storeAnswered_of_kept hkept _ _).trans (answer_of_open hr hopen _)))⟩
  case atomic =>
    have hreq := requestOf_of_open hcol hr hdev hopen
    refine ⟨fun u hparts => congrArg Host.Outcome.next (takeAtomicResponse_of_part h hreq hparts), fun bs u hparts => ?_⟩
    have htake := takeAtomicResponse_of_whole h hreq hparts
    have hru : kget u.remote f.rtag.toNat = some r := by
      have hsame := assemble_remote (s.took p q f) f true (numIn f.payload 2 1)
      rw [hparts] at hsame
      rw [hsame, hr]
    exact ⟨fun uid stream serial pc lane kind va howner hcode =>
        congrArg Host.Outcome.next (htake.trans (storeAnswered_of_done howner hcode _ _)),
      fun hkept => congrArg Host.Outcome.next (htake.trans ((storeAnswered_of_kept hkept _ _).trans (answer_of_open hru hopen _)))⟩
  case idle =>
    obtain ⟨f, hsent, hsound, hkind, hack, hpayload⟩ := sendIdle_of_due hport hdue
    exact ⟨f, _, congrArg Host.Outcome.next hsent, hsound, rfl, hkind, hack, hpayload⟩

end Sys2Proof.Machine
end

section
/-!
BINIT, ARRIVE, WAIT, TRYWAIT and BAR, and the phase of an implicit barrier (O24).
-/

namespace Sys2Proof.Machine

/-! ### A store in stream 0 (R258, R260) -/

/-- An instruction whose meaning is a store that the buffer takes, of its wave as `w1`, completes with the entry there. -/
theorem completes_of_enterStore {i : Instr} {s : State} {core slot : Nat} {w w1 : Wave} {b : Block} {body : Body}
    (he : exec i s = issue i.view (encode i) body false s) (h : Runs i s core slot w b) {stream kind scope : Nat} {rel : Bool}
    {info : StoreInfo} {parts : List Part} (hp : SamePath w w1) (hroom : StoreRoom w1 b stream)
    (hb : body (ctxFor i s core slot w) w s =
      enterStore (ctxFor i s core slot w) w1 s b.env.sbDepth stream kind rel scope info parts) :
    Completes i s core slot w b (w1.stored (ctxFor i s core slot w) s stream kind rel scope info parts) := by
  rw [enterStore_of_room hroom.room hroom.count] at hb
  exact completesAt_of_setWave he h hb ⟨hp.pc, hp.mask, hp.rpc, hp.ctl, hp.level, hp.dead, hp.exited, hp.spilled⟩ (.refl s)

theorem StoreRoom.poisonIf {w : Wave} {b : Block} {stream : Nat} (h : StoreRoom w b stream) (dead : Bool) :
    StoreRoom (w.poisonIf dead) b stream := by
  cases dead
  · exact h
  · exact ⟨h.room, h.count⟩

/-- The masks that a BINIT writes: none for a rank the cluster lacks, for another rank at block scope, or from a dead lane (R258). -/
def binitMasks (f : MF) (c : Ctx) (w : Wave) (b : Block) (n rank : Nat) : List Word :=
  (List.range 8).map fun k =>
    if n ≤ k || (f.scope.toNat = 1 && k ≠ rank) || w.dead.getLsbD k then (0 : Word)
    else c.lane w f.d.toNat k &&& BitVec.ofNat 32 (2 ^ b.waves - 1)

theorem binitBody_of_checked {f : MF} {c : Ctx} {w : Wave} {s : State} {b t : Block} {r : PadReq} {tc tb : Nat}
    (hb : s.block c.core c.bslot = some b) (hr : (padReqs c w b f).head? = some r) (hcheck : s.padCheck b 128 128 r = none)
    (ht : s.rankBlock b r.rank = some (tc, tb, t)) (hbad : t.padBad r.off.toNat 128 = false)
    (hidle : (t.object r.off.toNat).valid = true → ∀ a ∈ (t.object r.off.toNat).arrd, a = 0)
    (hreg : r.off.toNat ∈ t.registry ∨ t.registry.length < 16) :
    ∃ info, binitBody f c w s = enterStore c (w.poisonIf ((List.range 8).any fun k => w.dead.getLsbD k)) s b.env.sbDepth 0 17 false 0
      info [⟨.spad r.rank r.off.toNat, .binit f.scope.toNat (binitMasks f c w b (s.clusterSize b) r.rank)⟩] := by
  have hbusy : ((t.object r.off.toNat).valid && (t.object r.off.toNat).arrd.any (· != 0)) = false := by
    simpa using hidle
  have hfull : (!t.registry.contains r.off.toNat && decide (16 ≤ t.registry.length)) = false := by
    simpa [Nat.not_le, or_iff_not_imp_left] using hreg
  have hmasks : binitMasks f c w b (s.clusterSize b) r.rank = (List.range 8).map fun k =>
      if s.clusterSize b ≤ k || (f.scope.toNat = 1 && k ≠ r.rank) then (0 : Word)
      else if w.dead.getLsbD k then 0
      else c.lane w f.d.toNat k &&& BitVec.ofNat 32 (2 ^ b.waves - 1) :=
    List.map_congr_left fun k _ => by cases w.dead.getLsbD k <;> simp
  rw [hmasks]
  unfold binitBody
  simp only [hb, hr, hcheck, ht, hbad, hbusy, hfull, Bool.false_eq_true, if_false]
  exact ⟨_, rfl⟩

theorem arriveBody_of_checked {x : VArgs} {c : Ctx} {w : Wave} {s : State} {b t : Block} {tc tb : Nat}
    (hb : s.block c.core c.bslot = some b)
    (hcheck : s.barrierCheck b 9 (barrierReq c w b x) (some (w.wblk, b.rank)) = none)
    (ht : s.rankBlock b (barrierReq c w b x).rank = some (tc, tb, t)) :
    ∃ info, arriveBody x c w s = enterStore c w s b.env.sbDepth 0 18 (x.sub % 2 = 0)
      (t.object (barrierReq c w b x).off.toNat).scope info
      [⟨.spad (barrierReq c w b x).rank (barrierReq c w b x).off.toNat,
        .arrive (x.sub.testBit 1) w.wblk b.rank x.d c.act w.level w.nextSerial⟩] := by
  unfold arriveBody
  simp only [hb, hcheck, ht]
  exact ⟨_, rfl⟩

/-! ### WAIT and TRYWAIT (R261) -/

section
variable {x : VArgs} {c : Ctx} {w : Wave} {s : State} {b t : Block} {tc tb : Nat} (hb : s.block c.core c.bslot = some b)
  (ht : s.rankBlock b (barrierReq c w b x).rank = some (tc, tb, t))
include hb ht

theorem waitBody_of_moved (hcheck : s.waitCheck b w (barrierReq c w b x) = none)
    (hm : (t.object (barrierReq c w b x).off.toNat).phase ≠ c.low32 w x.c % 65536) :
    waitBody x c w s = .next (s.acquire c.core (t.object (barrierReq c w b x).off.toNat).scope) := by
  simp only [waitBody, hb, hcheck, ht, if_pos hm]

variable (hcheck : s.barrierCheck b 11 (barrierReq c w b x) none = none)
include hcheck

theorem trywaitBody_of_moved (hm : (t.object (barrierReq c w b x).off.toNat).phase ≠ c.low32 w x.c % 65536) :
    trywaitBody x c w s = .next ((s.acquire c.core (t.object (barrierReq c w b x).off.toNat).scope).setWave c.core c.slot
      (c.writeP w x.d Mask.all)) := by
  rw [← acquire_setWave]
  simp only [trywaitBody, hb, hcheck, ht, if_pos hm]

theorem trywaitBody_of_waiting (hm : (t.object (barrierReq c w b x).off.toNat).phase = c.low32 w x.c % 65536) :
    trywaitBody x c w s =
      .next (s.setWave c.core c.slot { c.writeP w x.d 0 with producers := [], passed := 0, urgent := false }) := by
  simp only [trywaitBody, hb, hcheck, ht, if_neg (not_not_intro hm)]
end

/-- A predicate written with one answer: the active lanes hold it. -/
theorem pred_writeP_answer (c : Ctx) (w : Wave) {d : Nat} (hd : d ≠ 1023) (x : Bool) {l : Nat} (hl : l < 32) :
    ((c.writeP w d (if x then Mask.all else 0)).bank.pred d).getLsbD l =
      if c.act.getLsbD l then x else (w.bank.pred d).getLsbD l := by
  rw [pred_writeP c w _ d hd hl]
  have hall : (if x then Mask.all else 0).getLsbD l = x := by
    cases x
    · exact BitVec.getLsbD_zero
    · exact BitVec.getLsbD_allOnes.trans (decide_eq_true hl)
  simp only [hall, true_and]

/-! ### BAR (R267) -/

theorem barBody_of_moved {x : VArgs} {c : Ctx} {w : Wave} {s : State} {b : Block} (hb : s.block c.core c.bslot = some b) {ph : Nat}
    {cluster : Bool} (hw : w.barWait = some (cluster, ph)) (hm : s.barPhaseOf b (decide (x.sub % 2 = 1)) ≠ ph) :
    barBody x c w s = .next (s.acquire c.core (if x.sub % 2 = 1 then 2 else 1)) := by
  simp only [barBody, hb, hw, if_pos hm]

/-- The wave that has arrived at an implicit barrier of its block, or of its cluster. -/
def Wave.barred (w : Wave) (s : State) (b : Block) (cluster : Bool) : Wave := { w with barWait := some (cluster, s.barPhaseOf b cluster) }

theorem barBody_of_arrival {x : VArgs} {c : Ctx} {w : Wave} {s : State} {b : Block} (hb : s.block c.core c.bslot = some b)
    (hw : w.barWait = none) (hr : s.ordered w true (if decide (x.sub % 2 = 1) then 2 else 1) = true) :
    barBody x c w s = .stay .implicitBarrier
      ((s.setWave c.core c.slot (w.barred s b (decide (x.sub % 2 = 1)))).barArrive c b w (decide (x.sub % 2 = 1))) := by
  have hmet : (!s.ordered w true (if x.sub % 2 = 1 then 2 else 1)) = false := by simpa using hr
  simp only [barBody, hb, hw, hmet, Bool.false_eq_true, if_false]
  rfl

/-- What an arrival leaves: the wave's block, or its cluster, holds it as arrived, and no wave is changed. -/
theorem barArrive_spec {s : State} {c : Ctx} {w : Wave} {b : Block} (hb : s.block c.core c.bslot = some b) (cluster : Bool) :
    let t := s.barArrive c b w cluster
    (∀ n m, t.wave n m = s.wave n m) ∧
      t.block c.core c.bslot = some (if cluster then b else { b with barDone := nins b.barDone w.wblk }) ∧
      t.clusters = if cluster then kmod s.clusters b.cluster fun k => { k with arrived := k.arrived ++ [(b.rank, w.wblk)] }
        else s.clusters := by
  cases cluster with
  | true => exact ⟨fun _ _ => rfl, hb, rfl⟩
  | false =>
    simp only [State.barArrive, Bool.false_eq_true, if_false, modBlock_of _ _ _ _ hb]
    exact ⟨fun _ _ => wave_setBlock .., block_setBlock_self .., rfl⟩

theorem bar_arrives {f : VF} {s : State} {core slot : Nat} {w : Wave} {b : Block} (h : Runs (.bar f) s core slot w b)
    (hw : w.barWait = none) {cluster : Bool} (hc : cluster = decide (f.sub.toNat % 2 = 1))
    (hr : s.ordered w true (if cluster then 2 else 1) = true) :
    ∃ t w1 b1, exec (.bar f) s = .next t ∧ t.wave core slot = some w1 ∧ t.block core w.bslot = some b1 ∧
      w1.bank = w.bank ∧ w1.waiting = .implicitBarrier ∧ w1.barWait = some (cluster, s.barPhaseOf b cluster) ∧
      b1 = (if cluster then b else { b with barDone := nins b.barDone w.wblk }) ∧
      t.clusters = if cluster then kmod s.clusters b.cluster fun k => { k with arrived := k.arrived ++ [(b.rank, w.wblk)] }
        else s.clusters := by
  subst hc
  have hblock : (s.setWave core slot (w.barred s b (decide (f.sub.toNat % 2 = 1)))).block core w.bslot = some b :=
    (block_setWave ..).trans h.block
  obtain ⟨hwave, hb1, hclusters⟩ := barArrive_spec (c := ctxFor (.bar f) s core slot w) (w := w) hblock (decide (f.sub.toNat % 2 = 1))
  have hstay := exec_of_stay rfl h (barBody_of_arrival (c := ctxFor (.bar f) s core slot w) (x := f.args .bar false) h.block hw hr)
    ((hwave core slot).trans (wave_setWave_self ..))
  exact ⟨_, _, _, hstay, wave_setWave_self .., (block_setWave ..).trans hb1, rfl, rfl, rfl, rfl, hclusters⟩

/-! ### The phase moves on (R267) -/

theorem implicitComplete_of_block {s : State} {core bslot : Nat} {b : Block} (hb : s.block core bslot = some b) (hd : b.barDone ≠ [])
    (hall : ∀ i < b.waves, i ∉ b.gone → i ∈ b.barDone) :
    s.implicitComplete core bslot false = s.setBlock core bslot { b with barPhase := b.barPhase + 1, barDone := [] } := by
  have hgo : (b.barDone.isEmpty || !(((List.range b.waves).filter fun i => !b.gone.contains i).all fun i => b.barDone.contains i)) =
      false := by
    simpa [hd, or_iff_not_imp_left] using hall
  simp only [State.implicitComplete, hb, hgo, Bool.false_eq_true, if_false]

theorem implicitComplete_of_cluster {s : State} {core bslot : Nat} {b : Block} {k : Cluster} (hb : s.block core bslot = some b)
    (hk : kget s.clusters b.cluster = some k) (hd : k.arrived ≠ [])
    (hall : ∀ r < k.members.length, ∀ i < b.waves, (r, i) ∉ k.gone → (r, i) ∈ k.arrived) :
    s.implicitComplete core bslot true =
      { s with clusters := kset s.clusters b.cluster { k with phase := k.phase + 1, arrived := [] } } := by
  have hgo : (k.arrived.isEmpty || !((((List.range k.members.length).flatMap fun r => (List.range b.waves).map fun i => (r, i)).filter
      fun p => !k.gone.contains p).all fun p => k.arrived.contains p)) = false := by
    simpa [hd, or_iff_not_imp_left] using hall
  simp only [State.implicitComplete, hb, hk, hgo, Bool.false_eq_true, if_false, if_true]

/-- Settles O24: each instruction by what its meaning does where its checks pass, and the phase by its two barriers. -/
theorem barriers : Obligations.Barriers := by
  unfold Obligations.Barriers
  refine ⟨fun f s core slot w b r tc tb t h hr hcheck ht hbad hidle hreg hroom => ?binit,
    fun f s core slot w b tc tb t h hcheck ht hroom => ?arrive, fun f s core slot w b tc tb t h hcheck ht hm => ?wait,
    fun f s core slot w b tc tb t h hcheck ht => ?trywait, fun f s core slot w b ph cluster h hw hm => ?moved,
    fun f s core slot w b h hw hr => bar_arrives h hw rfl hr,
    fun core bslot s b hb hd hall => congrArg Host.Outcome.next (implicitComplete_of_block hb hd hall),
    fun core bslot s b k hb hk hd hall => congrArg Host.Outcome.next (implicitComplete_of_cluster hb hk hd hall)⟩
  case binit =>
    obtain ⟨info, hb⟩ := binitBody_of_checked h.block hr hcheck ht hbad hidle hreg
    exact ⟨info, completes_of_enterStore rfl h (.poisonIf w _) (hroom.poisonIf _) hb⟩
  case arrive =>
    obtain ⟨info, hb⟩ := arriveBody_of_checked h.block hcheck ht
    exact ⟨info, completes_of_enterStore rfl h (.refl w) hroom hb⟩
  case wait => exact completesAt_of_sameIssue rfl h (waitBody_of_moved h.block ht hcheck hm) (acquire_sameIssue s core _)
  case trywait =>
    have honly := onlyPred_writeP (ctxFor (.trywait f) s core slot w) w f.d.toNat
    by_cases hm : (t.object (barrierReq (ctxFor (.trywait f) s core slot w) w b (f.args .trywait false)).off.toNat).phase ≠
        (ctxFor (.trywait f) s core slot w).low32 w f.c.toNat % 65536
    · simp only [if_pos hm]
      refine ⟨_, completesAt_of_setWave rfl h (trywaitBody_of_moved h.block ht hcheck hm) (honly _).samePath
        (acquire_sameIssue s core _), honly _, fun hd l hl => ?_⟩
      rw [decide_eq_true hm]
      exact pred_writeP_answer _ w hd true hl
    · simp only [if_neg hm]
      have hp := (honly 0).samePath
      refine ⟨_, completesAt_of_setWave rfl h (trywaitBody_of_waiting h.block ht hcheck (not_not.mp hm))
        ⟨hp.pc, hp.mask, hp.rpc, hp.ctl, hp.level, hp.dead, hp.exited, hp.spilled⟩ (.refl s), honly _, fun hd l hl => ?_⟩
      rw [decide_eq_false hm]
      exact pred_writeP_answer _ w hd false hl
  case moved => exact completesAt_of_sameIssue rfl h (barBody_of_moved h.block hw hm) (acquire_sameIssue s core _)

end Sys2Proof.Machine
end

section
/-!
LDS and STS (O22): what stands at a lane's place, and the bytes of a store by place with the pieces they fall into.
-/

namespace Sys2Proof.Machine

/-! ### The value of each lane of an LDS (R243, R250) -/

section
variable (s : State) (c : Ctx) (w : Wave) (b : Block) (f : MF)

/-- Whether all lanes of a scratchpad access name one place. -/
def uniformPad : Bool := c.allU w f.a.toNat 1 && c.allU w f.b.toNat 1

/-- What LDS finds at the place of lane `l`. -/
def State.padLane (l : Nat) : LaneVal := s.padFound b (s.padParts w) (sizeBytes f.size.toNat) (padReq c w b f l)

/-- What LDS has for lane `l`: a uniform access reads for its lowest lane alone. -/
def State.padRead (l : Nat) : Nat :=
  match (c.lanes.map (s.padLane c w b f)).find? fun v => v.lane == if uniformPad c w f then c.lowest else l with
  | some v => v.num
  | none => 0
end

section
variable {s : State} {c : Ctx} {w : Wave} {b : Block} {f : MF}

theorem lane_padFound (parts : List Part) (n : Nat) (r : PadReq) : (s.padFound b parts n r).lane = r.lane := by
  unfold State.padFound
  split <;> rfl

theorem padRead_eq {l m : Nat} (hm : (if uniformPad c w f then c.lowest else l) = m) (hact : m ∈ c.lanes) :
    s.padRead c w b f l = (s.padLane c w b f m).num := by
  unfold State.padRead
  rw [hm, find?_lane (key := LaneVal.lane) (g := s.padLane c w b f) (fun _ => lane_padFound _ _ _) hact]

/-- A uniform access names one place. -/
theorem padReq_of_uniform (h : uniformPad c w f = true) (l m : Nat) :
    (padReq c w b f l).rank = (padReq c w b f m).rank ∧ (padReq c w b f l).off = (padReq c w b f m).off := by
  obtain ⟨ha, hb⟩ := Bool.and_eq_true_iff.mp h
  exact ⟨by simp only [padReq, lane_of_allU hb l, lane_of_allU hb m], by simp only [padReq, lane_of_allU ha l, lane_of_allU ha m]⟩

theorem padLane_of_uniform (h : uniformPad c w f = true) (l m : Nat) : (s.padLane c w b f l).num = (s.padLane c w b f m).num := by
  obtain ⟨hrank, hoff⟩ := padReq_of_uniform (b := b) h l m
  simp only [State.padLane, State.padFound, hrank]
  split
  · simp only [padLoad, hrank, hoff]
  · rfl

/-- A uniform access has one value for all lanes. -/
theorem padRead_uniform (hact : c.act ≠ 0) (hu : uniformPad c w f = true) (l : Nat) :
    s.padRead c w b f l = s.padRead c w b f 0 := by
  have hm : ∀ k, (if uniformPad c w f then c.lowest else k) = c.lowest := fun k => by rw [hu]; rfl
  have hlow := lowest_mem_lanes hact
  rw [padRead_eq (hm l) hlow, padRead_eq (hm 0) hlow]

/-- A lane that the access has receives what stands at its place. -/
theorem padRead_active (hact : c.act ≠ 0) {l : Nat} (hl : l ∈ c.lanes) : s.padRead c w b f l = (s.padLane c w b f l).num := by
  cases hu : uniformPad c w f
  · exact padRead_eq (by rw [hu]; rfl) hl
  · rw [padRead_eq (m := c.lowest) (by rw [hu]; rfl) (lowest_mem_lanes hact), padLane_of_uniform hu]

/-- Values without an error lose no lane. -/
theorem poisonMask_of_sound {vals : List LaneVal} (h : ∀ v ∈ vals, v.poison = false) :
    vals.foldl (fun (m : Mask) v => if v.poison then m ||| Mask.one v.lane else m) 0 = 0 :=
  List.foldlRecOn vals _ (motive := fun m => m = 0) rfl fun m hm v hv => by rw [h v hv]; exact hm

theorem ldsBody_of_checked (hb : s.block c.core c.bslot = some b) (hw : s.wave c.core c.slot = some w) (hact : c.act ≠ 0)
    (hf : s.padFault b 0 (sizeAlign f.size.toNat) (sizeBytes f.size.toNat) (padReqs c w b f) = none)
    (ho : padPending (s.padParts w) (sizeBytes f.size.toNat) (padReqs c w b f) = false)
    (hp : ∀ r ∈ padReqs c w b f, (s.padFound b (s.padParts w) (sizeBytes f.size.toNat) r).poison = false) :
    ldsBody f c w s = .next ((s.acquired c.core f).setWave c.core c.slot
      (writeLoad c w f.d.toNat f.size.toNat (uniformPad c w f) (s.padRead c w b f))) := by
  have hdead := poisonMask_of_sound (List.forall_mem_map.mpr hp)
  rw [← acquired_setWave]
  simp only [ldsBody, hb, hf, ho, hdead, loseLanes, Bool.false_eq_true, if_false, if_true, if_neg hact, modWave_of _ _ _ _ hw]
  unfold State.padRead State.acquired
  simp only [padReqs, List.map_map]
  rfl

/-- LDS's write: each active lane holds what stands at its place. -/
theorem loaded_padRead (hact : c.act ≠ 0)
    (hd : f.d.toNat = 1023 ∨ (f.d.toNat % sizeRegs f.size.toNat = 0 ∧ f.d.toNat + sizeRegs f.size.toNat ≤ 672)) :
    Loaded c w (writeLoad c w f.d.toNat f.size.toNat (uniformPad c w f) (s.padRead c w b f)) f.d.toNat f.size.toNat
      fun l => (s.padLane c w b f l).num :=
  loaded_writeLoad c w hd (fun hu l _ => padRead_uniform hact hu l) fun _ hl ha =>
    padRead_active hact ((Mask.mem_lanes _ _).mpr ⟨hl, ha⟩)
end

/-! ### The bytes of an STS (R251) -/

/-- The bytes of an STS by place, the highest lane winning. -/
def padBytes (n : Nat) (val : Nat → Nat) (reqs : List PadReq) : KMap Byte :=
  reqs.foldl (fun (m : KMap Byte) r => ((toBytes n (val r.lane)).zip (rangeFrom (padKey r.rank r.off.toNat) n)).foldl
    (fun m (x, k) => kset m k x) m) []

/-- A map with the bytes of one lane set from `a` up. -/
theorem kget_foldl_run (bs : List Byte) (a : Nat) (m : KMap Byte) (k : Nat) :
    kget ((bs.zip (rangeFrom a bs.length)).foldl (fun m (x, k) => kset m k x) m) k =
      if a ≤ k ∧ k < a + bs.length then some (bs.getD (k - a) 0) else kget m k := by
  induction bs generalizing a m with
  | nil => simp [show ¬(a ≤ k ∧ k < a) by omega]
  | cons x bs ih =>
    rw [List.length_cons, rangeFrom_succ, List.zip_cons_cons, List.foldl_cons, ih, kget_kset]
    rcases lt_trichotomy k a with hk | rfl | hk
    · rw [if_neg (by omega), if_neg (by omega), if_neg (by omega)]
    · simp
    · obtain ⟨j, rfl⟩ : ∃ j, k = a + 1 + j := ⟨k - (a + 1), by omega⟩
      rw [if_neg (by omega : ¬a + 1 + j = a), show a + 1 + j - a = j + 1 by omega, show a + 1 + j - (a + 1) = j by omega,
        List.getD_cons_succ]
      exact if_congr (by omega) rfl rfl

theorem padKey_within {rank rank' off a n : Nat} (hn : off + n ≤ 2 ^ 24) (ha : a < 2 ^ 24) :
    padKey rank off ≤ padKey rank' a ∧ padKey rank' a < padKey rank off + n ↔ rank = rank' ∧ off ≤ a ∧ a < off + n := by
  unfold padKey
  omega

/-- Each byte of an STS is that of the last access that writes it. -/
theorem kget_padBytes {n : Nat} (val : Nat → Nat) {reqs : List PadReq} (hr : ∀ r ∈ reqs, r.off.toNat + n ≤ 2 ^ 24) (rank : Nat)
    {a : Nat} (ha : a < 2 ^ 24) : kget (padBytes n val reqs) (padKey rank a) =
      (reqs.reverse.find? fun r => r.rank = rank ∧ r.off.toNat ≤ a ∧ a < r.off.toNat + n).map fun r =>
        (toBytes n (val r.lane)).getD (a - r.off.toNat) 0 := by
  have hstep : ∀ (m : KMap Byte) (r : PadReq),
      kget (((toBytes n (val r.lane)).zip (rangeFrom (padKey r.rank r.off.toNat) n)).foldl (fun m (x, k) => kset m k x) m)
        (padKey rank a) = if decide (padKey r.rank r.off.toNat ≤ padKey rank a ∧ padKey rank a < padKey r.rank r.off.toNat + n)
          then some ((toBytes n (val r.lane)).getD (padKey rank a - padKey r.rank r.off.toNat) 0) else kget m (padKey rank a) := by
    intro m r
    have h := kget_foldl_run (toBytes n (val r.lane)) (padKey r.rank r.off.toNat) m (padKey rank a)
    rw [length_toBytes] at h
    simp only [h, decide_eq_true_eq]
  unfold padBytes
  rw [kget_foldl_last hstep, kget_nil, Option.or_none,
    List.find?_congr fun r hrev => decide_eq_decide.mpr (padKey_within (hr r (List.mem_reverse.mp hrev)) ha)]
  refine Option.map_congr fun r hfind => ?_
  have hin := List.find?_some hfind
  obtain ⟨rfl, -, -⟩ := of_decide_eq_true hin
  rw [padKey, padKey, Nat.add_sub_add_left]

/-! ### The pieces of an STS (R251) -/

/-- A byte for a place, as a byte of a store in one lane. -/
def storeByteOf (e : Nat × Byte) : StoreByte := ⟨e.1, e.2, 0⟩

theorem byteOf_storeByteOf (m : KMap Byte) (k : Nat) : byteOf (m.map storeByteOf) k = kget m k := by
  induction m with
  | nil => rfl
  | cons e m ih =>
    rw [List.map_cons, byteOf_cons, ih, kget]
    by_cases h : e.1 = k <;> simp [storeByteOf, h]

/-- The piece a run of places comes to. -/
def StoreRun.padPart (p : StoreRun) : Part := ⟨.spad (p.1 / 2 ^ 24) (p.1 % 2 ^ 24), .bytes p.2.2.reverse false⟩

theorem padRuns_eq (s : State) (xs : List (Nat × Byte)) (acc : List (Nat × List Byte)) :
    padRuns xs acc = ((xs.map storeByteOf).foldl (addByte s) (acc.map fun e => (e.1, 0, e.2))).map StoreRun.padPart := by
  induction xs generalizing acc with
  | nil => simp [padRuns, StoreRun.padPart]
  | cons x xs ih =>
    obtain ⟨k, x⟩ := x
    cases acc with
    | nil => exact ih _
    | cons e rest =>
      obtain ⟨a, bs⟩ := e
      simp only [padRuns, ih, List.map_cons, List.foldl_cons, addByte, storeByteOf, decide_true, Bool.or_true, Bool.and_true]
      split <;> rfl

/-- A run within one line. -/
structure StoreRun.InLine (p : StoreRun) : Prop where
  some : 0 < p.2.2.length
  line : (p.1 + p.2.2.length - 1) / 128 = p.1 / 128

theorem addByte_inLine {s : State} {acc : List StoreRun} {x : StoreByte} (h : ∀ p ∈ acc, p.InLine) :
    ∀ p ∈ addByte s acc x, p.InLine := by
  have hnew : StoreRun.InLine (x.va, x.lane, [x.byte]) := ⟨Nat.one_pos, by simp⟩
  unfold addByte
  split
  next => simpa using hnew
  next va l bs rest =>
    obtain ⟨hsome, hline⟩ : StoreRun.InLine (va, l, bs) := h _ (.head _)
    dsimp only at hsome hline
    split
    next hj =>
      simp only [Bool.and_eq_true, decide_eq_true_eq] at hj
      obtain ⟨⟨hva, h128⟩, -⟩ := hj
      refine List.forall_mem_cons.mpr ⟨⟨Nat.succ_pos _, ?_⟩, fun p hp => h p (.tail _ hp)⟩
      simp only [List.length_cons]
      omega
    next => exact List.forall_mem_cons.mpr ⟨hnew, h⟩

theorem foldl_addByte_inLine (s : State) (xs : List StoreByte) : ∀ p ∈ xs.foldl (addByte s) [], p.InLine :=
  List.foldlRecOn xs (addByte s) (motive := fun acc => ∀ p ∈ acc, StoreRun.InLine p) (fun _ h => nomatch h)
    fun _ h _ _ => addByte_inLine h

theorem runsByte_foldl_addByte (s : State) (xs : List StoreByte) (acc : List StoreRun) (k : Nat) :
    runsByte (xs.foldl (addByte s) acc) k = (runsByte acc k).or (byteOf xs k) := by
  induction xs generalizing acc with
  | nil => exact Option.or_none.symm
  | cons x xs ih => rw [List.foldl_cons, ih, runsByte_addByte, byteOf_cons, Option.or_assoc]

theorem byteAt_padPart (p : StoreRun) (rank a : Nat) : p.padPart.byteAt 2 rank a =
    if p.1 / 2 ^ 24 = rank ∧ p.1 % 2 ^ 24 ≤ a then p.2.2.reverse[a - p.1 % 2 ^ 24]? else none := by
  show (if (2 == 2 && p.1 / 2 ^ 24 == rank && decide (p.1 % 2 ^ 24 ≤ a)) = true then p.2.2.reverse[a - p.1 % 2 ^ 24]? else none) = _
  simp

/-- A piece holds for a place what its run does. -/
theorem byteAt_padPart_eq {p : StoreRun} (h : p.InLine) (rank : Nat) {a : Nat} (ha : a < 2 ^ 24) :
    p.padPart.byteAt 2 rank a = p.byteAt (padKey rank a) := by
  obtain ⟨hsome, hline⟩ := h
  rw [byteAt_padPart, StoreRun.byteAt, padKey]
  by_cases hrank : p.1 / 2 ^ 24 = rank
  · rw [show a - p.1 % 2 ^ 24 = rank * 2 ^ 24 + a - p.1 by omega]
    exact if_congr (by omega) rfl rfl
  · rw [if_neg fun hc => hrank hc.1]
    split
    next => exact (List.getElem?_eq_none (by rw [List.length_reverse]; omega)).symm
    next => rfl

/-- The pieces of an STS hold its bytes, each at its place. -/
theorem padRuns_spec (xs : KMap Byte) :
    (∀ p ∈ padRuns xs [], ∃ r a d, p = ⟨.spad r a, .bytes d false⟩) ∧
      ∀ rank a, a < 2 ^ 24 → (padRuns xs []).reverse.findSome? (fun p => p.byteAt 2 rank a) = kget xs (padKey rank a) := by
  have hbyte := runsByte_foldl_addByte State.reset (xs.map storeByteOf) []
  have hline := foldl_addByte_inLine State.reset (xs.map storeByteOf)
  rw [padRuns_eq State.reset]
  simp only [List.map_nil]
  revert hbyte hline
  generalize (xs.map storeByteOf).foldl (addByte State.reset) [] = runs
  intro hbyte hline
  refine ⟨fun p hp => ?_, fun rank a ha => ?_⟩
  · obtain ⟨r, -, rfl⟩ := List.mem_map.mp hp
    exact ⟨_, _, _, rfl⟩
  · rw [← byteOf_storeByteOf]
    refine Eq.trans ?_ (hbyte (padKey rank a))
    rw [runsByte, ← List.map_reverse, List.findSome?_map, ← List.head?_filterMap, ← List.head?_filterMap]
    exact congrArg List.head? (List.filterMap_congr fun p hp => byteAt_padPart_eq (hline p (List.mem_reverse.mp hp)) rank ha)

theorem stsBody_of_checked {f : MF} {c : Ctx} {w : Wave} {s : State} {b : Block} (hb : s.block c.core c.bslot = some b)
    (hf : s.padFault b 1 (sizeAlign f.size.toNat) (sizeBytes f.size.toNat) (padReqs c w b f) = none)
    (hfmt : formatBad w (.mem .sts f) = false) :
    ∃ info, stsBody f c w s = enterStore c w s b.env.sbDepth f.stream.toNat 16 (releases f) f.scope.toNat info
      (padRuns (padBytes (sizeBytes f.size.toNat) (storeVal c w f.d.toNat f.size.toNat) (padReqs c w b f)) []).reverse := by
  simp only [stsBody, hb, hf, hfmt, Bool.false_eq_true, if_false]
  exact ⟨_, rfl⟩

/-- Settles O22: LDS by what stands at each lane's place, STS by the bytes of its pieces. -/
theorem scratchAccess : Obligations.ScratchAccess := by
  unfold Obligations.ScratchAccess
  refine ⟨fun f s core slot w b h hf ho hp => ?lds, fun f s core slot w b h hf hr hroom => ?sts⟩
  case lds =>
    have hw := loaded_padRead (s := s) (w := w) (b := b) h.active (vec_dst_ok (ready_operands h.toReady _ (.head _)) (by decide))
    exact ⟨_, completesAt_of_setWave rfl h (ldsBody_of_checked h.block h.wave h.active hf ho hp) hw.only.samePath
      (acquired_sameIssue s core f), hw⟩
  case sts =>
    obtain ⟨info, hb⟩ := stsBody_of_checked h.block hf h.formats
    obtain ⟨hpart, hbyte⟩ := padRuns_spec (padBytes (sizeBytes f.size.toNat)
      (storeVal (ctxFor (.sts f) s core slot w) w f.d.toNat f.size.toNat) (padReqs (ctxFor (.sts f) s core slot w) w b f))
    exact ⟨info, _, completes_of_enterStore rfl h (.refl w) hroom hb, fun p hp => hpart p (List.mem_reverse.mp hp),
      fun rank a ha => (hbyte rank a ha).trans (kget_padBytes _ hr rank ha)⟩

end Sys2Proof.Machine
end

section
/-!
ATOM, CAS and RED (O21): the chains of an instruction, what they leave, and the store that a RED buffers.
-/

namespace Sys2Proof.Machine

/-! ### Chains (R270) -/

/-- Each chain is of a place that a lane names, and of the instruction's size. -/
theorem chainsOf_spec (c : Ctx) (w : Wave) (code sz d : Nat) (places : List (Nat × Nat)) :
    ∀ e ∈ chainsOf c w code sz d places, e.1 ∈ places.map Prod.snd ∧ e.2.size = sizeBytes sz := by
  refine List.foldlRecOn places _ (motive := fun m : KMap Chain => ∀ e ∈ m, e.1 ∈ places.map Prod.snd ∧ e.2.size = sizeBytes sz)
    (fun _ h => nomatch h) fun m hm p hp e he => ?_
  have hsize : (kgetD m p.2 { size := sizeBytes sz, float := code = 7, signed := sz = 5, code, lanes := [] }).size = sizeBytes sz := by
    unfold kgetD
    cases hk : kget m p.2 with
    | none => rfl
    | some k => exact (hm _ (mem_of_kget hk)).2
  rcases mem_kset he with rfl | he
  · exact ⟨List.mem_map_of_mem hp, hsize⟩
  · exact hm e he

section
variable {s : State} {kept : Nat → Bool} {ks : List (Nat × Chain)}

/-- What each store of a chain's value keeps, the chains keep. -/
theorem applyChains_keeps (P : State → Prop) (h : ∀ t a n x, P t → P (State.storeNum t a n x)) (hs : P s) :
    P (s.applyChains kept ks).2.2 := by
  unfold State.applyChains
  refine List.foldlRecOn ks _ (motive := fun acc : KMap Nat × Mask × State => P acc.2.2) hs fun acc hacc e _ => ?_
  obtain ⟨olds, lost, t⟩ := acc
  dsimp only
  split
  · exact hacc
  · dsimp only
    split
    · exact h _ _ _ _ hacc
    · exact hacc

theorem applyChains_cores : (s.applyChains kept ks).2.2.cores = s.cores :=
  applyChains_keeps (fun t => t.cores = s.cores) (fun _ _ _ _ h => (store_cores ..).trans h) rfl

theorem store_running (s : State) (a : Nat) (bs : List Byte) : (s.store a bs).sweeper.running = s.sweeper.running :=
  countWrite_keeps (fun t => t.sweeper.running = s.sweeper.running) (fun _ _ h => h) (fun _ _ h => h) s a bs.length rfl

theorem applyChains_running : (s.applyChains kept ks).2.2.sweeper.running = s.sweeper.running :=
  applyChains_keeps (fun t => t.sweeper.running = s.sweeper.running) (fun _ _ _ _ h => (store_running ..).trans h) rfl

/-- A store poisons nothing. -/
theorem poisoned_storeNum {s : State} {a n : Nat} (h : s.poisoned a n = false) (a' n' x : Nat) :
    (s.storeNum a' n' x).poisoned a n = false := by
  have hsub : (s.storeNum a' n' x).poison = clearPoison s.poison a' n' := by
    simp [State.storeNum, State.store]
  simp only [State.poisoned, hsub, clearPoison, List.any_eq_false] at h ⊢
  exact fun u hu => h u (List.mem_filter.mp hu).1

/-- Chains of places without poison lose no lane (R221). -/
theorem applyChains_lost (h : ∀ e ∈ ks, s.poisoned (localOf e.1) e.2.size = false) : (s.applyChains kept ks).2.1 = 0 := by
  unfold State.applyChains
  refine (List.foldlRecOn ks _ (motive := fun acc : KMap Nat × Mask × State =>
    acc.2.1 = 0 ∧ ∀ e ∈ ks, acc.2.2.poisoned (localOf e.1) e.2.size = false) ⟨rfl, h⟩ fun acc hacc e he => ?_).1
  obtain ⟨olds, lost, t⟩ := acc
  obtain ⟨hlost, hsound⟩ := hacc
  dsimp only at hlost hsound ⊢
  rw [if_neg (by simp [hsound e he])]
  refine ⟨hlost, fun e' he' => ?_⟩
  dsimp only
  split
  · exact poisoned_storeNum (hsound e' he') ..
  · exact hsound e' he'
end

/-- One chain leaves its last value at its place and every other byte as it was, with its tag units clear (R189, R270). -/
theorem applyChains_one {s : State} {a va : Nat} {k : Chain} (h : s.poisoned a k.size = false) (ha : localOf va = a) :
    (s.applyChains (fun _ => true) [(va, k)]).2.2 = s.storeNum a k.size (k.run (s.numAt a k.size)).2 := by
  simp only [State.applyChains, List.foldl_cons, List.foldl_nil, ha, h, Bool.false_eq_true, if_false, if_true]

/-! ### The old values (R268 to R270) -/

theorem size_of_atomicPair {code sz : Nat} (h : atomicPair code sz = true) :
    sz = 2 ∨ sz = 3 ∨ sz = 5 ∨ sz = 6 ∨ sz = 7 ∨ sz = 15 := by
  unfold atomicPair at h
  split at h
  · simp at h; omega
  · split at h
    · simp at h; omega
    · split at h
      · simp at h; omega
      · cases h

/-- The old values of an atomic are written as loaded values are, lane by lane. -/
theorem writeOlds_eq (c : Ctx) (w : Wave) (d : Nat) {sz : Nat} {cas : Bool} (olds : KMap Nat)
    (hsz : sz = 2 ∨ sz = 3 ∨ sz = 5 ∨ sz = 6 ∨ sz = 7 ∨ sz = 15) (hcas : cas = true → sz = 2 ∨ sz = 3) :
    writeOlds c w d sz cas olds = writeLoad c w d sz false fun l => kgetD olds l 0 := by
  cases cas with
  | true => rcases hcas rfl with rfl | rfl <;> rfl
  | false => rcases hsz with rfl | rfl | rfl | rfl | rfl | rfl <;> rfl

theorem loaded_writeOlds (c : Ctx) (w : Wave) {d sz : Nat} {cas : Bool} (olds : KMap Nat)
    (hsz : sz = 2 ∨ sz = 3 ∨ sz = 5 ∨ sz = 6 ∨ sz = 7 ∨ sz = 15) (hcas : cas = true → sz = 2 ∨ sz = 3)
    (hd : d = 1023 ∨ (d % sizeRegs sz = 0 ∧ d + sizeRegs sz ≤ 672)) :
    Loaded c w (writeOlds c w d sz cas olds) d sz fun l => kgetD olds l 0 := by
  rw [writeOlds_eq c w d olds hsz hcas]
  exact loaded_writeLoad c w hd (fun h => nomatch h) fun _ _ _ => rfl

/-- A compare-and-swap names twice the registers that it writes. -/
theorem half_dst {d n : Nat} (h : d = 1023 ∨ (d % (2 * n) = 0 ∧ d + 2 * n ≤ 672)) : d = 1023 ∨ (d % n = 0 ∧ d + n ≤ 672) :=
  h.imp_right fun ⟨hdiv, hle⟩ => ⟨Nat.mod_eq_zero_of_dvd ((Nat.dvd_mul_left n 2).trans (Nat.dvd_of_mod_eq_zero hdiv)), by omega⟩

/-! ### ATOM and CAS of local memory (R270 to R272) -/

theorem wrapNat_idem (n : Nat) (x : Int) : wrapNat n (wrapNat n x : Nat) = wrapNat n x := by
  unfold wrapNat
  rw [Int.toNat_of_nonneg (Int.emod_nonneg _ (by positivity)), Int.emod_emod]

/-- An access to the part's own memory that passes an atomic's checks is not in the host window (R272). -/
theorem range_of_atomicFault {s : State} {core kind : Nat} {ask : Ask} {reqs : List LaneReq}
    (h : s.atomicFault core kind ask reqs = none) {r : LaneReq} (hr : r ∈ reqs) (hhome : s.isRemote r.va = false) :
    rangeOf (localOf r.va) ≠ .host := by
  intro hhost
  have hn := List.findSome?_eq_none_iff.mp h r hr
  simp only [hhome, hhost] at hn
  cases hk : s.check (s.agent core) ask r.cap r.addr <;> simp [hk] at hn
  split at hn <;> simp at hn

/-- Chains applied to the part's own memory: the core's L1 lines there are dropped first, an audited block is excluded, and an audit
execution keeps what falls in the shadow (R271, R459, R462). -/
def State.atomApplied (s : State) (core bslot : Nat) (chains : KMap Chain) : KMap Nat × Mask × State :=
  let s1 := chains.foldl (fun s e => s.dropL1 core (localOf e.1)) s
  (s1.exclude core bslot).applyChains (s1.storeKept core bslot) chains

/-- The wave with `n` lanes of an atomic counted as merged (R271). -/
def Wave.merged (w : Wave) (n : Nat) : Wave := { w with aggmrg := w.aggmrg + BitVec.ofNat 32 n }

theorem SamePath.merged (w : Wave) (n : Nat) : SamePath w (w.merged n) := .of_bank

/-- The chains of an atomic of local memory. -/
def memChains (c : Ctx) (w : Wave) (f : MF) (code : Nat) : KMap Chain :=
  chainsOf c w code f.size.toNat f.d.toNat ((accessReqs c w f).map fun r => (r.lane, r.va))

theorem dropL1_sameIssue (s : State) (core a : Nat) : SameIssue s (s.dropL1 core a) := .setCore s core

theorem dropL1_poison (s : State) (core a : Nat) : (s.dropL1 core a).poison = s.poison := rfl

theorem exclude_poison (s : State) (core bslot : Nat) : (s.exclude core bslot).poison = s.poison := by
  unfold State.exclude
  repeat' split
  all_goals rfl

section
variable (s : State) (core : Nat) (chains : KMap Chain)

theorem foldl_dropL1_sameIssue : SameIssue s (chains.foldl (fun s e => s.dropL1 core (localOf e.1)) s) :=
  List.foldlRecOn chains _ (motive := SameIssue s) (.refl s) fun _ h e _ => h.trans (dropL1_sameIssue _ core (localOf e.1))

theorem foldl_dropL1_poison : (chains.foldl (fun s e => s.dropL1 core (localOf e.1)) s).poison = s.poison :=
  List.foldlRecOn chains _ (motive := fun t : State => t.poison = s.poison) rfl fun _ h e _ =>
    (dropL1_poison _ core (localOf e.1)).trans h
end

/-- What an atomic leaves beside its wave: the waves and the segments, and no sweeper pass begins. -/
theorem atomApplied_sameWaves (s : State) (core bslot : Nat) (chains : KMap Chain) :
    (∀ c n, (s.atomApplied core bslot chains).2.2.wave c n = s.wave c n) ∧
      (∀ c, ((s.atomApplied core bslot chains).2.2.core c).segs = (s.core c).segs) ∧
      (s.atomApplied core bslot chains).2.2.sweeper.running = s.sweeper.running := by
  have hs := (foldl_dropL1_sameIssue s core chains).trans (exclude_sameIssue _ core bslot)
  have hcore : ∀ c, (s.atomApplied core bslot chains).2.2.core c =
      ((chains.foldl (fun s e => s.dropL1 core (localOf e.1)) s).exclude core bslot).core c := fun c => by
    rw [State.core, State.atomApplied, applyChains_cores]
    rfl
  refine ⟨fun c n => ?_, fun c => ?_, ?_⟩
  · rw [← hs.wave, State.wave, State.wave, hcore]
  · rw [← hs.segs, hcore]
  · rw [← hs.sweeper]
    exact applyChains_running

section
variable {f : MF} {c : Ctx} {w : Wave} {s : State} {op : Op} {cas : Bool} {code : Nat} (hop : (op == .cas) = cas)
  (hcode : (if cas then 8 else f.cache.toNat) = code)
  (hf : s.atomicFault c.core (if cas then 7 else 5) { loadAsk f with need := permLoad ||| permStore ||| permAtomic }
    (accessReqs c w f) = none)
  (hhome : ∀ r ∈ accessReqs c w f, s.isRemote r.va = false ∧ s.poisoned (localOf r.va) (sizeBytes f.size.toNat) = false ∧
    (s.ownParts w).any (fun p => p.touches 0 0 (localOf r.va) (sizeBytes f.size.toNat)) = false)

/-- The chains are of places that the lanes name. -/
theorem mem_memChains {e : Nat × Chain} (he : e ∈ memChains c w f code) :
    (∃ r ∈ accessReqs c w f, r.va = e.1) ∧ e.2.size = sizeBytes f.size.toNat := by
  obtain ⟨hplace, hsize⟩ := chainsOf_spec _ _ _ _ _ _ e he
  simpa [hsize] using hplace

include hhome

theorem atomApplied_lost : (s.atomApplied c.core c.bslot (memChains c w f code)).2.1 = 0 := by
  refine applyChains_lost fun e he => ?_
  obtain ⟨⟨r, hr, hva⟩, hsize⟩ := mem_memChains he
  rw [State.poisoned, exclude_poison, foldl_dropL1_poison, hsize, ← hva]
  exact (hhome r hr).2.1

theorem unperformed_of_home : s.unperformed w (sizeBytes f.size.toNat) (accessReqs c w f) = false := by
  refine List.any_eq_false.mpr fun r hr => ?_
  obtain ⟨hr, -, hown⟩ := hhome r hr
  simpa [hr] using hown

include hop hcode hf

/-- ATOM and CAS where no lane leaves the part, no place is poisoned, and nothing of the wave's own is to be performed there. -/
theorem atomBody_of_home (hfmt : formatBad w (.mem op f) = false) (ho : s.ordered w (releases f) f.scope.toNat = true)
    (hact : c.act ≠ 0) (hw : s.wave c.core c.slot = some w) :
    atomBody op f c w s = .next (((s.atomApplied c.core c.bslot (memChains c w f code)).2.2.acquired c.core f).setWave c.core c.slot
      (writeOlds c (w.merged ((accessReqs c w f).length - (memChains c w f code).length))
        f.d.toNat f.size.toNat cas (s.atomApplied c.core c.bslot (memChains c w f code)).1)) := by
  have hkeys : ∀ e ∈ memChains c w f code, s.isRemote e.1 = false ∧ rangeOf (localOf e.1) ≠ .host ∧ wrapNat 56 (e.1 : Int) = e.1 := by
    intro e he
    obtain ⟨⟨r, hr, hva⟩, -⟩ := mem_memChains he
    have hrem := (hhome r hr).1
    rw [← hva]
    exact ⟨hrem, range_of_atomicFault hf hr hrem, wrapNat_idem 56 r.addr⟩
  have hhere : (memChains c w f code).filter (fun e => !s.isRemote e.1) = memChains c w f code :=
    List.filter_eq_self.mpr fun e he => by simp [(hkeys e he).1]
  have hlost := atomApplied_lost (code := code) hhome
  have hwave := ((atomApplied_sameWaves s c.core c.bslot (memChains c w f code)).1 c.core c.slot).trans hw
  rw [← acquired_setWave]
  have hchains : chainsOf c w (if cas then 8 else f.cache.toNat) f.size.toNat f.d.toNat
      ((accessReqs c w f).map fun r => (r.lane, r.va)) = memChains c w f code := by rw [hcode, memChains]
  simp only [atomBody, hop, hf, hfmt, ho, unperformed_of_home hhome, Bool.not_true, Bool.false_eq_true, if_false, hchains]
  rw [outside_of_home]
  · dsimp only
    rw [hhere]
    simp only [State.atomApplied] at hlost hwave ⊢
    revert hlost hwave
    generalize (((memChains c w f code).foldl (fun s e => s.dropL1 c.core (localOf e.1)) s).exclude c.core c.bslot).applyChains _ _ = r
    obtain ⟨olds, lost, s3⟩ := r
    intro hlost hwave
    dsimp only at hlost hwave ⊢
    subst hlost
    have hsame : ∀ {β : Type} (x : β) (g : β → Nat × Chain → β), (∀ e, g x e = x) → (memChains c w f code).foldl g x = x :=
      fun x g h => List.foldl_fixed' h _
    simp (disch := (intro e; split <;> rfl)) only [kget_nil, hsame (0 : Mask), hsame olds]
    simp only [loseLanes, if_true, if_neg hact, modWave_of _ _ _ _ hwave, State.reportFails]
    rfl
  · intro r hr
    obtain ⟨e, he, hsome⟩ := List.mem_filterMap.mp hr
    obtain ⟨hrem, hhost, hwrap⟩ := hkeys e he
    split at hsome
    · cases hsome
      simpa only [LaneReq.va, hwrap] using ⟨hrem, hhost⟩
    · cases hsome
end

/-- An instruction that writes its wave last, in a part with its waves and segments and no sweeper pass, completes. -/
theorem completesAt_of_running {i : Instr} {s s2 : State} {core slot : Nat} {w w2 : Wave} {b : Block} {body : Body}
    (he : exec i s = issue i.view (encode i) body false s) (h : Runs i s core slot w b)
    (hb : body (ctxFor i s core slot w) w s = .next (s2.setWave core slot w2)) (hp : SamePath w w2)
    (hk : (s2.core core).segs = (s.core core).segs) (hs : s2.sweeper.running = false) : CompletesAt i s core slot w b s2 w2 := by
  have hc := completesAt_of he h hb (wave_setWave_self _ _ _ _) hp (by rw [core_setWave_segs, hk]) hs
  have hx : nextPc (s2.setWave core slot w2) core b w = nextPc s2 core b w := nextValid_congr (core_setWave_segs ..) _ _
  rwa [CompletesAt, hx, setWave_setWave] at hc

theorem memDefined_of_ready {i : Instr} {s : State} {core slot : Nat} {w : Wave} {b : Block} {op : Op} {f : MF}
    (h : Ready i s core slot w b) (hv : i.view = .mem op f) : memDefined op f = true := by
  have hdef := (ready_fate h).1
  rw [hv] at hdef
  simpa [View.undefined] using hdef

/-- An atomic of local memory that writes its old values completes. -/
theorem atom_completes {i : Instr} {s : State} {core slot : Nat} {w w2 : Wave} {b : Block} {body : Body} {f : MF} {chains : KMap Chain}
    (he : exec i s = issue i.view (encode i) body false s) (h : Runs i s core slot w b)
    (hb : body (ctxFor i s core slot w) w s =
      .next (((s.atomApplied core w.bslot chains).2.2.acquired core f).setWave core slot w2)) (hp : SamePath w w2) :
    CompletesAt i s core slot w b ((s.atomApplied core w.bslot chains).2.2.acquired core f) w2 := by
  obtain ⟨-, hsegs, hrun⟩ := atomApplied_sameWaves s core w.bslot chains
  have hacq := acquired_sameIssue (s.atomApplied core w.bslot chains).2.2 core f
  exact completesAt_of_running he h hb hp ((hacq.segs core).trans (hsegs core)) (by rw [hacq.sweeper, hrun, h.sweep])

/-! ### RED (R270, R271) -/

theorem dropL1_setWave (s : State) (core slot a : Nat) (x : Wave) :
    (s.setWave core slot x).dropL1 core a = (s.dropL1 core a).setWave core slot x := by
  simp [State.dropL1, State.setWave, State.setCore, State.core, kset_kset]

/-- The core's L1 lines at the chains' places of the part's own memory dropped. -/
def State.dropChains (s : State) (core : Nat) (chains : KMap Chain) : State :=
  chains.foldl (fun s e => if s.isRemote e.1 then s else s.dropL1 core (localOf e.1)) s

theorem dropChains_setWave (s : State) (core slot : Nat) (x : Wave) (chains : KMap Chain) :
    (s.setWave core slot x).dropChains core chains = (s.dropChains core chains).setWave core slot x := by
  refine List.foldl_hom (fun s => State.setWave s core slot x) fun t e => ?_
  show (if t.isRemote e.1 then t.setWave core slot x else (t.setWave core slot x).dropL1 core (localOf e.1)) = _
  rw [dropL1_setWave, apply_ite fun t => State.setWave t core slot x]

theorem dropChains_sameIssue (s : State) (core : Nat) (chains : KMap Chain) : SameIssue s (s.dropChains core chains) :=
  List.foldlRecOn chains _ (motive := SameIssue s) (.refl s) fun t h e _ =>
    h.trans (.ite (.refl t) (dropL1_sameIssue t core (localOf e.1)))

/-- The pieces of a RED, one for each chain that is kept. -/
def redParts (s : State) (c : Ctx) (reqs : List LaneReq) (chains : KMap Chain) : List Part :=
  (chains.filter fun e => s.storeKept c.core c.bslot e.1).map fun e =>
    ⟨homeOfVa s reqs ((e.2.lanes.head?.map fun x => x.1).getD 0) e.1, .chain e.2⟩

theorem redBody_of_room {f : MF} {c : Ctx} {w : Wave} {s : State} {b : Block} (hb : s.block c.core c.bslot = some b)
    (hroom : StoreRoom w b f.stream.toNat)
    (hf : s.atomicFault c.core 6 { loadAsk f with need := permStore ||| permAtomic } (accessReqs c w f) = none)
    (hfmt : formatBad w (.mem .red f) = false) :
    ∃ info, redBody f c w s = .next (((s.exclude c.core c.bslot).dropChains c.core (memChains c w f f.cache.toNat)).setWave c.core c.slot
      ((w.stored c s f.stream.toNat 6 (releases f) f.scope.toNat info
        (redParts s c (accessReqs c w f) (memChains c w f f.cache.toNat))).merged
          ((accessReqs c w f).length - (memChains c w f f.cache.toNat).length))) := by
  have hsb : s.sbDepth c = b.env.sbDepth := by simp only [State.sbDepth, hb]
  have hparts : redParts s c (accessReqs c w f) (memChains c w f f.cache.toNat) =
      ((memChains c w f f.cache.toNat).filter fun e => s.storeKept c.core c.bslot e.1).map fun (va, k) =>
        (⟨homeOfVa s (accessReqs c w f) (match k.lanes with | (l, _, _) :: _ => l | [] => 0) va, .chain k⟩ : Part) := by
    refine List.map_congr_left fun e _ => ?_
    obtain ⟨va, k⟩ := e
    dsimp only
    cases k.lanes <;> rfl
  refine ⟨infoOf 3 f c.act 0 (memLanes (accessReqs c w f) fun l => (atomOperand c w false f.d.toNat f.size.toNat l).1), ?_⟩
  have hleft : ∀ x, (((s.setWave c.core c.slot x).exclude c.core c.bslot).dropChains c.core (memChains c w f f.cache.toNat)).modWave
      c.core c.slot (fun x => x.merged ((accessReqs c w f).length - (memChains c w f f.cache.toNat).length)) =
        ((s.exclude c.core c.bslot).dropChains c.core (memChains c w f f.cache.toNat)).setWave c.core c.slot
          (x.merged ((accessReqs c w f).length - (memChains c w f f.cache.toNat).length)) := fun x => by
    rw [exclude_setWave, dropChains_setWave, modWave_of _ _ _ _ (wave_setWave_self ..), setWave_setWave]
  rw [← hleft, hparts]
  simp only [redBody, hf, hfmt, Bool.false_eq_true, if_false]
  rw [enterStore_of_room (hsb ▸ hroom.room) hroom.count]
  rfl

/-- Settles O21: the chains of ATOM and CAS applied at issue, those of RED in the store buffer, and what one chain leaves. -/
theorem atomics : Obligations.Atomics := by
  unfold Obligations.Atomics
  refine ⟨fun f s core slot w b h hf hhome ho => ?atom, fun f s core slot w b h hf hhome ho => ?cas,
    fun f s core slot w b h hf hroom => ?red, fun s a k hp va ha => ?chain⟩
  case atom =>
    have hdef := memDefined_of_ready h.toReady rfl
    have hsz := size_of_atomicPair (Bool.and_eq_true_iff.mp hdef).1
    have hw := fun n olds => loaded_writeOlds (ctxFor (.atom f) s core slot w) (w.merged n) (cas := false) olds hsz (fun hc => nomatch hc)
      (vec_dst_ok (ready_operands h.toReady _ (.head _)) (by decide))
    exact ⟨_, atom_completes rfl h (atomBody_of_home (cas := false) rfl rfl hf hhome h.formats ho h.active h.wave)
      ((SamePath.merged w _).trans (hw _ _).only.samePath), hw _ _⟩
  case cas =>
    have hdef := memDefined_of_ready h.toReady rfl
    have hsz : f.size.toNat = 2 ∨ f.size.toNat = 3 := by simpa using (Bool.and_eq_true_iff.mp hdef).1
    have hw := fun n olds => loaded_writeOlds (ctxFor (.cas f) s core slot w) (w.merged n) (cas := true) olds (by omega) (fun _ => hsz)
      (half_dst (vec_dst_ok (ready_operands h.toReady _ (.head _)) (by decide)))
    exact ⟨_, atom_completes rfl h (atomBody_of_home (cas := true) rfl rfl hf hhome h.formats ho h.active h.wave)
      ((SamePath.merged w _).trans (hw _ _).only.samePath), hw _ _⟩
  case red =>
    obtain ⟨info, hb⟩ := redBody_of_room (c := ctxFor (.red f) s core slot w) h.block hroom hf h.formats
    exact ⟨info, completesAt_of_setWave rfl h hb (.of_bank)
      ((exclude_sameIssue s core w.bslot).trans (dropChains_sameIssue _ core _))⟩
  case chain =>
    intro r
    have hr : r.2.2 = _ := applyChains_one hp ha
    rw [hr, State.storeNum]
    refine ⟨fun x => ?_, fun u => ?_⟩
    · rw [byte_store, length_toBytes]
    · rw [tags_store, length_toBytes]

end Sys2Proof.Machine
end

section
/-!
Atomics on scratchpads and what FEQ reads (R253, R270, R273).
-/

namespace Sys2Proof.Machine

/-! ### Atomics on scratchpads (R270, R273) -/

theorem applyPadChains_sameIssue (s : State) (b : Block) (n : Nat) (ks : List (Nat × Chain)) :
    SameIssue s (s.applyPadChains b n ks).2.2 := by
  unfold State.applyPadChains
  refine List.foldlRecOn ks _ (motive := fun acc : KMap Nat × Mask × State => SameIssue s acc.2.2) (.refl s) fun acc hacc e _ => ?_
  obtain ⟨olds, lost, t⟩ := acc
  dsimp only
  split
  · exact hacc
  · split
    · exact hacc
    · exact hacc.trans (.setBlock ..)

/-- One chain leaves its last value at its place of the block it names. -/
theorem applyPadChains_one {s : State} {b t : Block} {key tc tb n : Nat} {k : Chain}
    (ht : s.rankBlock b (key / 2 ^ 24) = some (tc, tb, t)) (hbad : t.padBad (key % 2 ^ 24) n = false) :
    (s.applyPadChains b n [(key, k)]).2.2 =
      s.setBlock tc tb (t.padPut (key % 2 ^ 24) n (k.run (t.padNum (key % 2 ^ 24) n)).2) := by
  simp only [State.applyPadChains, List.foldl_cons, List.foldl_nil, ht, hbad, Bool.false_eq_true, if_false]

theorem foldl_kput_eq_writeAll (bs : List Byte) (a : Nat) (m : KMap Byte) :
    (bs.zip (rangeFrom a bs.length)).foldl (fun m (x, i) => kput m i x 0) m = Memory.writeAll m a bs := by
  induction bs generalizing a m with
  | nil => rfl
  | cons x bs ih =>
    rw [List.length_cons, rangeFrom_succ, List.zip_cons_cons, List.foldl_cons, ih]
    rfl

/-- A scratchpad's byte after a write: the byte written inside, the old one outside (R242). -/
theorem padByte_padStore (t : Block) (a : Nat) (bs : List Byte) (x : Nat) : (t.padStore a bs).padByte x =
    if a ≤ x ∧ x < a + bs.length then bs.getD (x - a) 0 else t.padByte x := by
  simp only [Block.padByte, Block.padStore, foldl_kput_eq_writeAll]
  exact Memory.read_writeAll t.spad a bs x

theorem padByte_padPut (t : Block) (a n v x : Nat) : (t.padPut a n v).padByte x =
    if a ≤ x ∧ x < a + n then (toBytes n v).getD (x - a) 0 else t.padByte x := by
  rw [Block.padPut, padByte_padStore, length_toBytes]

/-- The chains of an atomic on scratchpads. -/
def padChains (c : Ctx) (w : Wave) (b : Block) (f : MF) (code : Nat) : KMap Chain :=
  chainsOf c w code f.size.toNat f.d.toNat ((padReqs c w b f).map fun r => (r.lane, padKey r.rank r.off.toNat))

/-- ATOMS and CASS where no place has an error, and nothing of the wave's own is to be performed there. -/
theorem atomsBody_of_sound {f : MF} {c : Ctx} {w : Wave} {s : State} {b : Block} {op : Op} {cas : Bool} {code : Nat}
    (hop : (op == .cass) = cas) (hcode : (if cas then 8 else f.stream.toNat) = code) (hb : s.block c.core c.bslot = some b)
    (hf : s.padFault b (if cas then 7 else 6) (sizeBytes f.size.toNat) (sizeBytes f.size.toNat) (padReqs c w b f) = none)
    (hfmt : formatBad w (.mem op f) = false) (ho : s.ordered w (releases f) f.scope.toNat = true)
    (hown : padOwn s w (sizeBytes f.size.toNat) (padReqs c w b f) = false)
    (hlost : (s.applyPadChains b (sizeBytes f.size.toNat) (padChains c w b f code)).2.1 = 0) (hact : c.act ≠ 0)
    (hw : s.wave c.core c.slot = some w) :
    atomsBody op f c w s = .next (((s.applyPadChains b (sizeBytes f.size.toNat) (padChains c w b f code)).2.2.acquired c.core f).setWave
      c.core c.slot (writeOlds c (w.merged ((padReqs c w b f).length - (padChains c w b f code).length)) f.d.toNat f.size.toNat cas
        (s.applyPadChains b (sizeBytes f.size.toNat) (padChains c w b f code)).1)) := by
  have hwave := ((applyPadChains_sameIssue s b (sizeBytes f.size.toNat) (padChains c w b f code)).wave c.core c.slot).trans hw
  have hchains : chainsOf c w (if cas then 8 else f.stream.toNat) f.size.toNat f.d.toNat
      ((padReqs c w b f).map fun r => (r.lane, padKey r.rank r.off.toNat)) = padChains c w b f code := by rw [hcode, padChains]
  rw [← acquired_setWave]
  simp only [atomsBody, hb, hop, hf, hfmt, ho, hown, hchains, hlost, loseLanes, Bool.not_true, Bool.false_eq_true, if_false, if_true,
    if_neg hact, modWave_of _ _ _ _ hwave]
  rfl

/-! ### FEQ (R253) -/

/-- What FEQ reads for a lane: whether the word it names is full. -/
def State.fullAt (s : State) (b : Block) (r : PadReq) : Nat :=
  match s.rankBlock b r.rank with
  | some (_, _, t) => if t.isFull (r.off.toNat / 4) then 1 else 0
  | none => 0

/-- What FEQ has for lane `l`. -/
def State.fullRead (s : State) (c : Ctx) (w : Wave) (b : Block) (f : MF) (l : Nat) : Nat :=
  match (padReqs c w b f).find? fun r => r.lane == l with
  | some r => s.fullAt b r
  | none => 0

theorem fullRead_of_mem (s : State) {c : Ctx} (w : Wave) (b : Block) (f : MF) {l : Nat} (hl : l ∈ c.lanes) :
    s.fullRead c w b f l = s.fullAt b (padReq c w b f l) := by
  unfold State.fullRead padReqs
  rw [find?_lane (key := PadReq.lane) (g := padReq c w b f) (fun _ => rfl) hl]

theorem feqBody_of_checked {f : MF} {c : Ctx} {w : Wave} {s : State} {b : Block} (hb : s.block c.core c.bslot = some b)
    (hf : s.padFault b 5 4 4 (padReqs c w b f) = none) (hbit : s.bitError b (padReqs c w b f) = false)
    (hown : padOwn s w 4 (padReqs c w b f) = false) (hw : s.wave c.core c.slot = some w) :
    feBitBody f false c w s = .next ((s.acquire c.core (padScope b (padReqs c w b f))).setWave c.core c.slot
      (c.writeTy w f.d.toNat false tW32 (s.fullRead c w b f))) := by
  rw [← acquire_setWave, ← modWave_of s c.core c.slot (fun w3 => c.writeTy w3 f.d.toNat false tW32 (s.fullRead c w b f)) hw]
  simp only [feBitBody, hb, hf, hbit, hown, Bool.false_and, Bool.or_self, Bool.false_eq_true, if_false]
  rfl

/-- A result is known by its active lanes. -/
theorem Wrote.congr {c : Ctx} {w w1 : Wave} {d ty : Nat} {f g : Nat → Nat} (h : Wrote c w w1 d ty f)
    (hfg : ∀ l, l < 32 → c.act.getLsbD l = true → f l = g l) : Wrote c w w1 d ty g :=
  { h with active := fun hd l hl ha => (h.active hd l hl ha).trans (by rw [hfg l hl ha]) }

end Sys2Proof.Machine
end

section
/-!
The words that full/empty instructions name, and lanes that complete at once (R252 to R255).
-/

namespace Sys2Proof

/-- Entries at two keys are set in either order. -/
theorem kset_comm {α : Type} (m : KMap α) {k k' : Nat} (h : k < k') (v v' : α) :
    kset (kset m k v) k' v' = kset (kset m k' v') k v := by
  induction m with
  | nil => simp [kset, h, h.ne, h.not_gt]
  | cons e m ih =>
    obtain ⟨k₁, v₁⟩ := e
    rcases lt_trichotomy k k₁ with h₁ | rfl | h₁
    · rcases lt_trichotomy k' k₁ with h₂ | rfl | h₂
      · simp [kset, h₁, h₂, h, h.ne, h.not_gt]
      · simp [kset, h, h.ne, h.not_gt]
      · simp [kset, h₁, h₂.ne, h₂.not_gt, h.ne, h.not_gt]
    · simp [kset, h.ne, h.not_gt]
    · have h₂ := h₁.trans h
      simp [kset, h₁.ne, h₁.not_gt, h₂.ne, h₂.not_gt, ih]

end Sys2Proof

namespace Sys2Proof.Machine

/-! ### A block and a wave of any two cores -/

theorem setCore_comm (s : State) {c c' : Nat} (h : c ≠ c') (k k' : Core) :
    (s.setCore c k).setCore c' k' = (s.setCore c' k').setCore c k := by
  simp only [State.setCore]
  rcases Nat.lt_or_gt_of_ne h with h | h
  · rw [kset_comm _ h]
  · rw [kset_comm _ h]

theorem setBlock_setWave_any (s : State) (c n : Nat) (x : Wave) (c' m : Nat) (y : Block) :
    (s.setWave c n x).setBlock c' m y = (s.setBlock c' m y).setWave c n x := by
  by_cases h : c' = c
  · rw [h, setBlock_setWave]
  · rw [State.setBlock, core_setWave_ne s n x h, State.setWave, setCore_comm s (Ne.symm h), State.setWave, State.setBlock,
      core_setCore_ne s _ (Ne.symm h)]

/-! ### The words that accesses name (R252) -/

/-- The place of the block at a rank of a block's cluster. -/
def State.place (s : State) (b : Block) (rank : Nat) : Option (Nat × Nat) :=
  (kget s.clusters b.cluster).bind fun k => k.members[rank]?

theorem rankBlock_eq_some {s : State} {b t : Block} {rank tc tb : Nat} :
    s.rankBlock b rank = some (tc, tb, t) ↔ s.place b rank = some (tc, tb) ∧ s.block tc tb = some t := by
  unfold State.rankBlock State.place
  cases kget s.clusters b.cluster with
  | none => simp
  | some k =>
    simp only [Option.bind_some]
    cases k.members[rank]? with
    | none => simp
    | some p =>
      simp only [Option.map_eq_some_iff, Option.some.injEq, Prod.mk.injEq]
      constructor
      · rintro ⟨x, hx, rfl, rfl, rfl⟩
        exact ⟨rfl, hx⟩
      · rintro ⟨rfl, ht⟩
        exact ⟨t, ht, rfl, rfl, rfl⟩

/-- Each access names a word of a block of the cluster that satisfies `C`, and any two of one block are apart by `R`. -/
structure PadWords (s : State) (b : Block) (C : PadReq → Block → Prop) (R : PadReq → PadReq → Prop) (reqs : List PadReq) : Prop where
  here : ∀ r ∈ reqs, ∃ tc tb t, s.rankBlock b r.rank = some (tc, tb, t) ∧ C r t
  apart : reqs.Pairwise fun r r2 => s.place b r.rank = s.place b r2.rank → R r r2

/-- A change of the first access's word leaves the others theirs. -/
theorem PadWords.tail {s : State} {b : Block} {C : PadReq → Block → Prop} {R : PadReq → PadReq → Prop} {r : PadReq}
    {rest : List PadReq} {upd : PadReq → Block → Block} (h : PadWords s b C R (r :: rest))
    (hupd : ∀ r2 t, C r2 t → R r r2 → C r2 (upd r t)) {tc tb : Nat} {t : Block} (ht : s.rankBlock b r.rank = some (tc, tb, t)) :
    PadWords (s.setBlock tc tb (upd r t)) b C R rest := by
  obtain ⟨hne, hapart⟩ := List.pairwise_cons.mp h.apart
  obtain ⟨hplace, hblock⟩ := rankBlock_eq_some.mp ht
  refine ⟨fun r2 hr2 => ?_, hapart⟩
  obtain ⟨tc2, tb2, t2, ht2, hc2⟩ := h.here r2 (.tail _ hr2)
  obtain ⟨hplace2, hblock2⟩ := rankBlock_eq_some.mp ht2
  by_cases hsame : (tc2, tb2) = (tc, tb)
  · cases hsame
    obtain rfl : t2 = t := Option.some.inj (hblock2.symm.trans hblock)
    exact ⟨tc, tb, upd r t2, rankBlock_eq_some.mpr ⟨hplace2, block_setBlock_self ..⟩,
      hupd r2 t2 hc2 (hne r2 hr2 (hplace.trans hplace2.symm))⟩
  · exact ⟨tc2, tb2, t2, rankBlock_eq_some.mpr ⟨hplace2, (block_setBlock_ne s _ hsame).trans hblock2⟩, hc2⟩

theorem rankBlock_setWave (s : State) (core slot : Nat) (x : Wave) (b : Block) (rank : Nat) :
    (s.setWave core slot x).rankBlock b rank = s.rankBlock b rank :=
  rankBlock_of_sameBlocks (s := s) (setWave_clusters ..) (block_setWave s core slot x) b rank

theorem PadWords.setWave {s : State} {b : Block} {C : PadReq → Block → Prop} {R : PadReq → PadReq → Prop} {reqs : List PadReq}
    (h : PadWords s b C R reqs) (core slot : Nat) (x : Wave) : PadWords (s.setWave core slot x) b C R reqs := by
  refine ⟨fun r hr => ?_, h.apart⟩
  obtain ⟨tc, tb, t, ht, hc⟩ := h.here r hr
  exact ⟨tc, tb, t, (rankBlock_setWave ..).trans ht, hc⟩

/-- The change that `State.atWords` makes for one access. -/
def State.atWord (b : Block) (f : PadReq → Block → Block) (s : State) (r : PadReq) : State :=
  match s.rankBlock b r.rank with
  | some (tc, tb, t) => s.setBlock tc tb (f r t)
  | none => s

theorem atWords_eq_foldl (s : State) (b : Block) (reqs : List PadReq) (f : PadReq → Block → Block) :
    s.atWords b reqs f = reqs.foldl (State.atWord b f) s := rfl

theorem atWord_of {s : State} {b t : Block} {r : PadReq} {tc tb : Nat} (ht : s.rankBlock b r.rank = some (tc, tb, t))
    (f : PadReq → Block → Block) : State.atWord b f s r = s.setBlock tc tb (f r t) := by
  simp only [State.atWord, ht]

theorem atWords_setWave (s : State) (b : Block) (reqs : List PadReq) (f : PadReq → Block → Block) (core slot : Nat) (x : Wave) :
    (s.setWave core slot x).atWords b reqs f = (s.atWords b reqs f).setWave core slot x := by
  simp only [atWords_eq_foldl]
  refine List.foldl_hom (fun s => State.setWave s core slot x) fun t r => ?_
  simp only [State.atWord, rankBlock_setWave]
  split
  · exact setBlock_setWave_any ..
  · rfl

theorem atWords_sameIssue (s : State) (b : Block) (reqs : List PadReq) (f : PadReq → Block → Block) :
    SameIssue s (s.atWords b reqs f) := by
  refine List.foldlRecOn reqs _ (motive := SameIssue s) (.refl s) fun t h r _ => ?_
  split
  · exact h.trans (.setBlock ..)
  · exact h

/-- An access that passes the checks of R245 names a whole word of a block of the cluster. -/
theorem word_of_padFault {s : State} {b : Block} {kind : Nat} {reqs : List PadReq} (h : s.padFault b kind 4 4 reqs = none) {r : PadReq}
    (hr : r ∈ reqs) : (∃ tc tb t, s.rankBlock b r.rank = some (tc, tb, t)) ∧ 0 ≤ r.off ∧ r.off.toNat = 4 * (r.off.toNat / 4) := by
  have hn := List.findSome?_eq_none_iff.mp h r hr
  rw [Option.map_eq_none_iff] at hn
  unfold State.padCheck at hn
  split at hn
  · cases hn
  · split at hn
    · cases hn
    next hal =>
      split at hn
      · cases hn
      next tc tb t ht =>
        split at hn
        · cases hn
        next hin =>
          simp only [Bool.or_eq_true, decide_eq_true_eq, not_or, not_lt] at hin
          exact ⟨⟨tc, tb, t, ht⟩, hin.1, by omega⟩

/-! ### A word's bit changed where nothing waits (R253, R254) -/

theorem feChanged_of_quiet {s : State} {tc tb : Nat} {t : Block} (ht : s.block tc tb = some t) (hfe : t.fe = []) (word : Nat) :
    s.feChanged tc tb word = s := by
  simp only [State.feChanged, ht, hfe]
  rfl

theorem isFull_setFull (t : Block) (word n : Nat) (x : Bool) : (t.setFull word x).isFull n = if n = word then x else t.isFull n := by
  cases x <;> by_cases h : n = word <;> simp [Block.setFull, Block.isFull, h]

/-- The word an access names. -/
def PadReq.word (r : PadReq) : Nat := r.off.toNat / 4

/-- FESET of words at which nothing waits. -/
theorem feBitBody_of_quiet {f : MF} {c : Ctx} {w : Wave} {s : State} {b : Block} (hb : s.block c.core c.bslot = some b)
    (hf : s.padFault b 4 4 4 (padReqs c w b f) = none) (hbit : s.bitError b (padReqs c w b f) = false)
    (hown : padOwn s w 4 (padReqs c w b f) = false) (ho : s.ordered w true (padScope b (padReqs c w b f)) = true)
    (hq : PadWords s b (fun _ t => t.fe = []) (fun _ _ => True) (padReqs c w b f)) :
    feBitBody f true c w s =
      .next (s.atWords b (padReqs c w b f) fun r t => t.setFull (r.off.toNat / 4) (f.stream.toNat % 2 = 1)) := by
  simp only [feBitBody, hb, hf, hbit, hown, ho, Bool.not_true, Bool.and_false, Bool.or_self, Bool.false_eq_true, if_false, if_true]
  congr 1
  clear hf hbit hown ho hb
  generalize padReqs c w b f = reqs at hq
  induction reqs generalizing s with
  | nil => rfl
  | cons r rest ih =>
    obtain ⟨tc, tb, t, ht, hfe⟩ := hq.here r (.head _)
    have htail := hq.tail (upd := fun r t => t.setFull (r.off.toNat / 4) (f.stream.toNat % 2 = 1)) (fun _ _ h _ => h) ht
    rw [atWords_eq_foldl, List.foldl_cons, List.foldl_cons, atWord_of ht, ← atWords_eq_foldl, ← ih htail]
    simp only [ht]
    rw [feChanged_of_quiet (block_setBlock_self ..) (show (t.setFull _ _).fe = [] from hfe)]

/-! ### LDFE and STFE of words that are ready (R253) -/

section
variable {s : State} {tc tb : Nat} {t : Block} (ht : s.block tc tb = some t) (hfe : t.fe = []) (word uid lane : Nat)
include ht hfe

theorem feTry_load (hfull : t.isFull word = true) (keep : Bool) (reg fmt : Nat) : s.feTry tc tb ⟨word, uid, lane, .load keep reg fmt⟩ =
    (some (BitVec.ofNat 32 (t.padNum (4 * word) 4)), if keep then s else s.setBlock tc tb (t.setFull word false)) := by
  simp only [State.feTry, ht, hfe, FeOp.ready, hfull, List.any_nil, Bool.not_true, Bool.false_eq_true, if_false]
  rw [feChanged_of_quiet (block_setBlock_self ..) (show (t.setFull word false).fe = [] from hfe)]

theorem feTry_store (hfull : t.isFull word = false) (x : Word) : s.feTry tc tb ⟨word, uid, lane, .store x⟩ =
    (some 0, s.setBlock tc tb ((t.padPut (4 * word) 4 x.toNat).setFull word true)) := by
  simp only [State.feTry, ht, hfe, FeOp.ready, hfull, List.any_nil, Bool.not_false, Bool.not_true, Bool.false_eq_true, if_false]
  rw [feChanged_of_quiet (block_setBlock_self ..) (show ((t.padPut (4 * word) 4 x.toNat).setFull word true).fe = [] from hfe)]
end

/-- A lane whose operation is applied at once, before the others. -/
theorem feLanes_cons {s s1 : State} {b t : Block} {uid tc tb : Nat} {op : PadReq → FeOp} {r : PadReq} {v : Word}
    (ht : s.rankBlock b r.rank = some (tc, tb, t)) (hsound : (∃ x, op r = .store x) ∨ t.padBad (4 * r.word) 4 = false)
    (htry : s.feTry tc tb ⟨r.word, uid, r.lane, op r⟩ = (some v, s1)) (rest : List PadReq) :
    feLanes s b uid op (r :: rest) =
      (kset (feLanes s1 b uid op rest).1 r.lane v, (feLanes s1 b uid op rest).2.1, (feLanes s1 b uid op rest).2.2) := by
  unfold PadReq.word at hsound htry
  rw [feLanes, ht]
  dsimp only
  rw [if_neg, htry]
  rcases hsound with ⟨x, hx⟩ | hsound
  · simp [hx]
  · simp [hsound]

/-- The values of lanes that have completed. -/
def feVals (val : PadReq → Word) (reqs : List PadReq) : KMap Word := reqs.foldr (fun r vs => kset vs r.lane (val r)) []

/-- Lanes whose operations are applied at once, each changing the word it names and no word of another. -/
theorem feLanes_of_ready {b : Block} {uid : Nat} {op : PadReq → FeOp} {C : PadReq → Block → Prop} {R : PadReq → PadReq → Prop}
    {upd : PadReq → Block → Block} {val : PadReq → Word} {reqs : List PadReq}
    (hsound : ∀ r t, C r t → (∃ x, op r = .store x) ∨ t.padBad (4 * r.word) 4 = false)
    (htry : ∀ (s : State) tc tb t r, s.block tc tb = some t → C r t →
      s.feTry tc tb ⟨r.word, uid, r.lane, op r⟩ = (some (val r), s.setBlock tc tb (upd r t)))
    (hupd : ∀ r r2 t, C r2 t → R r r2 → C r2 (upd r t)) (s : State) (h : PadWords s b C R reqs) :
    feLanes s b uid op reqs = (feVals val reqs, 0, s.atWords b reqs upd) := by
  induction reqs generalizing s with
  | nil => rfl
  | cons r rest ih =>
    obtain ⟨tc, tb, t, ht, hc⟩ := h.here r (.head _)
    rw [feLanes_cons ht (hsound r t hc) (htry s tc tb t r (rankBlock_eq_some.mp ht).2 hc), ih _ (h.tail (hupd r) ht),
      atWords_eq_foldl s, List.foldl_cons, atWord_of ht]
    rfl

/-- The number in the word an access names. -/
def State.wordNum (s : State) (b : Block) (r : PadReq) : Nat :=
  match s.rankBlock b r.rank with
  | some (_, _, t) => t.padNum (4 * r.word) 4
  | none => 0

theorem wordNum_of {s : State} {b t : Block} {r : PadReq} {tc tb : Nat} (ht : s.rankBlock b r.rank = some (tc, tb, t)) :
    s.wordNum b r = t.padNum (4 * r.word) 4 := by
  simp only [State.wordNum, ht]

/-- A word that an LDFE takes, with its value. -/
structure Takes (val : PadReq → Nat) (r : PadReq) (t : Block) : Prop where
  full : t.isFull r.word = true
  sound : t.padBad (4 * r.word) 4 = false
  quiet : t.fe = []
  num : t.padNum (4 * r.word) 4 = val r

/-- A word that an STFE writes. -/
structure Gives (r : PadReq) (t : Block) : Prop where
  empty : t.isFull r.word = false
  quiet : t.fe = []

theorem feLanes_take {val : PadReq → Nat} {s : State} {b : Block} (uid reg fmt : Nat) {reqs : List PadReq}
    (h : PadWords s b (Takes val) (fun r r2 => r2.word ≠ r.word) reqs) :
    feLanes s b uid (fun _ => .load false reg fmt) reqs =
      (feVals (fun r => BitVec.ofNat 32 (val r)) reqs, 0, s.atWords b reqs fun r t => t.setFull r.word false) := by
  refine feLanes_of_ready (fun r t hc => .inr hc.sound) (fun s tc tb t r ht hc => ?_) (fun r r2 t hc hne => ?_) s h
  · rw [← hc.num]
    exact feTry_load ht hc.quiet r.word uid r.lane hc.full false reg fmt
  · exact ⟨by rw [isFull_setFull, if_neg hne, hc.full], hc.sound, hc.quiet, hc.num⟩

theorem feLanes_give {s : State} {b : Block} (uid : Nat) (x : PadReq → Word) {reqs : List PadReq}
    (h : PadWords s b Gives (fun r r2 => r2.word ≠ r.word) reqs) :
    feLanes s b uid (fun r => .store (x r)) reqs =
      (feVals (fun _ => 0) reqs, 0, s.atWords b reqs fun r t => (t.padPut (4 * r.word) 4 (x r).toNat).setFull r.word true) := by
  refine feLanes_of_ready (fun r t _ => .inl ⟨_, rfl⟩) (fun s tc tb t r ht hc => ?_) (fun r r2 t hc hne => ?_) s h
  · exact feTry_store ht hc.quiet r.word uid r.lane hc.empty (x r)
  · exact ⟨by rw [isFull_setFull, if_neg hne]; exact hc.empty, hc.quiet⟩

/-- An LDFE that keeps its words changes nothing. -/
theorem feLanes_keep {val : PadReq → Nat} {s : State} {b : Block} (uid reg fmt : Nat) {reqs : List PadReq}
    (h : ∀ r ∈ reqs, ∃ tc tb t, s.rankBlock b r.rank = some (tc, tb, t) ∧ Takes val r t) :
    feLanes s b uid (fun _ => .load true reg fmt) reqs = (feVals (fun r => BitVec.ofNat 32 (val r)) reqs, 0, s) := by
  induction reqs with
  | nil => rfl
  | cons r rest ih =>
    obtain ⟨⟨tc, tb, t, ht, hc⟩, hrest⟩ := List.forall_mem_cons.mp h
    have htry := feTry_load (rankBlock_eq_some.mp ht).2 hc.quiet r.word uid r.lane hc.full true reg fmt
    rw [feLanes_cons ht (.inr hc.sound) htry, hc.num]
    simp only [if_true, ih hrest]
    rfl

/-! ### The lanes that have completed -/

theorem kget_feVals (val : PadReq → Word) (reqs : List PadReq) (l : Nat) :
    kget (feVals val reqs) l = (reqs.find? fun r => r.lane == l).map val := by
  induction reqs with
  | nil => rfl
  | cons r rest ih =>
    rw [feVals, List.foldr_cons, kget_kset, List.find?_cons, ← feVals, ih]
    by_cases h : r.lane = l
    · simp [h]
    · rw [if_neg (Ne.symm h), beq_eq_false_iff_ne.mpr h]

theorem kget_feVals_of_mem (val : PadReq → Word) {c : Ctx} (w : Wave) (b : Block) (f : MF) {l : Nat} (hl : l ∈ c.lanes) :
    kget (feVals val (padReqs c w b f)) l = some (val (padReq c w b f l)) := by
  rw [kget_feVals, padReqs, find?_lane (key := PadReq.lane) (g := padReq c w b f) (fun _ => rfl) hl]
  rfl

theorem kwf_feVals (val : PadReq → Word) (reqs : List PadReq) : kwf (feVals val reqs) = true := by
  induction reqs with
  | nil => rfl
  | cons r rest ih => exact kwf_kset r.lane (val r) ih

theorem getLsbD_one (n : Nat) {l : Nat} (hl : l < 32) : (Mask.one n).getLsbD l = decide (n = l) := by
  simp only [Mask.one, BitVec.getLsbD_shiftLeft, BitVec.getLsbD_one, hl, decide_true, Bool.true_and]
  by_cases h : n = l
  · simp [h]
  · by_cases hlt : l < n
    · simp [h, hlt]
    · simp [h, hlt, show l - n ≠ 0 by omega]

/-- The lanes named by a map's keys. -/
theorem getLsbD_foldl_one {α : Type} (m : KMap α) (acc : Mask) {l : Nat} (hl : l < 32) :
    (m.foldl (fun (acc : Mask) e => acc ||| Mask.one e.1) acc).getLsbD l = (acc.getLsbD l || m.any fun e => e.1 == l) := by
  induction m generalizing acc with
  | nil => simp
  | cons e m ih =>
    rw [List.foldl_cons, ih, BitVec.getLsbD_or, getLsbD_one _ hl, List.any_cons, Bool.or_assoc]
    rfl

/-- Each active lane has completed. -/
theorem doneLanes_eq_act (val : PadReq → Word) (c : Ctx) (w : Wave) (b : Block) (f : MF) :
    (feVals val (padReqs c w b f)).foldl (fun (m : Mask) e => m ||| Mask.one e.1) 0 = c.act := by
  refine Mask.ext fun l hl => ?_
  rw [getLsbD_foldl_one _ _ hl, show (0 : Mask).getLsbD l = false from BitVec.getLsbD_zero, Bool.false_or, Bool.eq_iff_iff, List.any_eq_true]
  constructor
  · rintro ⟨⟨k, v⟩, he, hk⟩
    obtain rfl : k = l := eq_of_beq hk
    rw [mem_iff_kget (kwf_feVals val _), kget_feVals, Option.map_eq_some_iff] at he
    obtain ⟨r, hr, -⟩ := he
    obtain ⟨j, hj, rfl⟩ := List.mem_map.mp (List.mem_of_find?_eq_some hr)
    have hlane := List.find?_some hr
    obtain rfl : j = k := eq_of_beq hlane
    exact ((Mask.mem_lanes _ _).mp hj).2
  · intro ha
    exact ⟨_, mem_of_kget (kget_feVals_of_mem val w b f ((Mask.mem_lanes _ _).mpr ⟨hl, ha⟩)), beq_self_eq_true l⟩

/-! ### LDFE and STFE (R253, R255) -/

/-- The wave with lanes of a full/empty instruction noted as done. -/
def Wave.feAt (w : Wave) (p : Option FeProgress) : Wave := { w with fe := p }

theorem moved_feAt (w : Wave) (p : Option FeProgress) (c : Ctx) (v : View) (x : IAddr) : (w.feAt p).moved c v x = w.moved c v x := by
  have hlevel : (w.feAt p).level = w.level := rfl
  simp only [Wave.moved, Wave.issued, hlevel, if_true]
  rfl

theorem write_feAt (c : Ctx) (w : Wave) (p : Option FeProgress) (d : Nat) (x : VVal) (fmt : Nat) :
    c.write (w.feAt p) d x fmt = (c.write w d x fmt).feAt p := by
  have hbank : (w.feAt p).bank = w.bank := rfl
  rw [Ctx.write, Ctx.write, hbank]
  cases hh : w.handlers <;> simp only [Wave.setBank, Wave.feAt, hh]

/-- The wave after a full/empty instruction all of whose lanes have completed. -/
def Wave.feWrote (w : Wave) (c : Ctx) (b : Block) (f : MF) (load : Bool) (val : PadReq → Word) : Wave :=
  if load then c.write w f.d.toNat (.g (Lanes.of fun l => kgetD (feVals val (padReqs c w b f)) l 0)) (sizeFmt f.size.toNat) else w

theorem feWaitBody_of_ready {f : MF} {load : Bool} {c : Ctx} {w : Wave} {s s1 : State} {b : Block} {val : PadReq → Word}
    (hb : s.block c.core c.bslot = some b) (hw : s.wave c.core c.slot = some w) (hfresh : w.fe = none) (hact : c.act ≠ 0)
    (hf : s.padFault b (if load then 2 else 3) 4 4 (padReqs c w b f) = none)
    (hfmt : (!load && formatBad w (.mem .stfe f)) = false) (hbit : s.bitError b (padReqs c w b f) = false)
    (hown : padOwn s w 4 (padReqs c w b f) = false)
    (ho : (load && decide (f.stream.toNat % 2 = 1) || s.ordered w (!load) (padScope b (padReqs c w b f))) = true)
    (hlanes : ∀ p, feLanes (s.setWave c.core c.slot (w.feAt p)) b w.uid
      (fun r => if load then .load (f.stream.toNat % 2 = 1) f.d.toNat (sizeFmt f.size.toNat) else .store (c.lane w f.d.toNat r.lane))
      (padReqs c w b f) = (feVals val (padReqs c w b f), 0, s1.setWave c.core c.slot (w.feAt p))) :
    ∃ p, feWaitBody f load c w s =
      .next ((if load then s1.acquire c.core (padScope b (padReqs c w b f)) else s1).setWave c.core c.slot
        ((w.feWrote c b f load val).feAt p)) := by
  have htodo : (padReqs c w b f).filter (fun r => c.act.getLsbD r.lane && !(0 : Mask).getLsbD r.lane) = padReqs c w b f := by
    refine List.filter_eq_self.mpr fun r hr => ?_
    obtain ⟨l, hl, rfl⟩ := List.mem_map.mp hr
    simpa [padReq] using ((Mask.mem_lanes _ _).mp hl).2
  have hleft : ∀ m : Mask, c.act &&& m &&& ~~~(0 ||| c.act) = 0 := fun m => by
    refine Mask.ext fun l hl => ?_
    simp only [BitVec.ofNat_eq_ofNat, BitVec.getLsbD_and, BitVec.getLsbD_not, BitVec.zero_or, BitVec.getLsbD_zero]
    cases c.act.getLsbD l <;> simp
  have hmod : ∀ g : Wave → Wave, (s.modWave c.core c.slot g) = s.setWave c.core c.slot (g w) := fun g => modWave_of s _ _ g hw
  simp only [Wave.feAt] at hlanes
  refine ⟨some ⟨0 ||| c.act, c.act, padScope b (padReqs c w b f)⟩, ?_⟩
  unfold feWaitBody
  simp only [hb, hfresh, Option.isNone_none, Option.getD_none, htodo, if_true, hf, Bool.true_and, hfmt, hbit, hown, ho, Bool.not_true,
    Bool.or_self, Bool.false_eq_true, if_false, hmod, hlanes, loseLanes, doneLanes_eq_act, modWave_of _ _ _ _ (wave_setWave_self _ _ _ _),
    setWave_setWave, wave_setWave_self, ne_eq, hact, not_false_eq_true, decide_true, Bool.and_true]
  have hwrite (p : Option FeProgress) (d : Nat) (x : VVal) (fmt : Nat) : c.write { w with fe := p } d x fmt = (c.write w d x fmt).feAt p :=
    write_feAt c w p d x fmt
  cases load with
  | false => exact if_neg (not_not_intro (hleft w.live))
  | true =>
    simp only [if_true, hwrite (some ⟨0 ||| c.act, c.act, padScope b (padReqs c w b f)⟩)]
    refine (if_neg (not_not_intro (hleft _))).trans ?_
    rw [acquire_setWave]
    rfl

end Sys2Proof.Machine
end

section
/-!
Full/empty instructions and scratchpad atomics complete.
-/

namespace Sys2Proof.Machine

/-! ### The words of an instruction that completes at once (R253) -/

theorem padNum_lt (t : Block) (a : Nat) : t.padNum a 4 < 2 ^ 32 := by
  have h := ofBytes_lt ((rangeFrom a 4).map t.padByte)
  rw [List.length_map, rangeFrom, List.length_map, List.length_range] at h
  exact h

theorem wordNum_lt (s : State) (b : Block) (r : PadReq) : s.wordNum b r < 2 ^ 32 := by
  unfold State.wordNum
  split
  · exact padNum_lt ..
  · norm_num

/-- Accesses that pass the checks of R245, no two of one place and offset, name words apart. -/
theorem padWords_of_nodup {s : State} {b : Block} {kind : Nat} {reqs : List PadReq} {C : PadReq → Block → Prop}
    (hf : s.padFault b kind 4 4 reqs = none)
    (hone : (reqs.map fun r => ((s.rankBlock b r.rank).map fun p => (p.1, p.2.1), r.off)).Nodup)
    (hC : ∀ r ∈ reqs, ∀ tc tb t, s.rankBlock b r.rank = some (tc, tb, t) → C r t) :
    PadWords s b C (fun r r2 => r2.word ≠ r.word) reqs := by
  refine ⟨fun r hr => ?_, (List.pairwise_map.mp hone).imp_of_mem fun {r r2} hr hr2 hne hplace hword => hne ?_⟩
  · obtain ⟨⟨tc, tb, t, ht⟩, -⟩ := word_of_padFault hf hr
    exact ⟨tc, tb, t, ht, hC r hr tc tb t ht⟩
  · obtain ⟨⟨tc, tb, t, ht⟩, hnonneg, halign⟩ := word_of_padFault hf hr
    obtain ⟨⟨tc2, tb2, t2, ht2⟩, hnonneg2, halign2⟩ := word_of_padFault hf hr2
    have hsame := (rankBlock_eq_some.mp ht).1.symm.trans (hplace.trans (rankBlock_eq_some.mp ht2).1)
    simp only [PadReq.word] at hword
    rw [ht, ht2, show r.off = r2.off by omega]
    simpa using hsame

theorem takes_of_atOnce {s : State} {b : Block} {kind : Nat} {reqs : List PadReq} {many : Bool} (hf : s.padFault b kind 4 4 reqs = none)
    (hat : AtOnce s b reqs true many) {r : PadReq} (hr : r ∈ reqs) {tc tb : Nat} {t : Block}
    (ht : s.rankBlock b r.rank = some (tc, tb, t)) : Takes (s.wordNum b) r t := by
  obtain ⟨hfull, hsound, hquiet⟩ := hat.words r hr tc tb t ht
  obtain ⟨-, -, halign⟩ := word_of_padFault hf hr
  exact ⟨hfull, by rw [PadReq.word, ← halign, hsound], hquiet, (wordNum_of ht).symm⟩

/-- The state after an LDFE's words are taken, or kept. -/
def State.taken (s : State) (b : Block) (reqs : List PadReq) (keep : Bool) : State :=
  if keep then s else s.atWords b reqs fun r t => t.setFull r.word false

theorem feLanes_of_atOnce {s : State} {b : Block} {kind : Nat} {reqs : List PadReq} {keep : Bool}
    (hf : s.padFault b kind 4 4 reqs = none) (hat : AtOnce s b reqs true keep) (core slot uid reg fmt : Nat) (x : Wave) :
    feLanes (s.setWave core slot x) b uid (fun _ => .load keep reg fmt) reqs =
      (feVals (fun r => BitVec.ofNat 32 (s.wordNum b r)) reqs, 0, (s.taken b reqs keep).setWave core slot x) := by
  cases keep with
  | true =>
    refine feLanes_keep uid reg fmt fun r hr => ?_
    obtain ⟨⟨tc, tb, t, ht⟩, -⟩ := word_of_padFault hf hr
    exact ⟨tc, tb, t, (rankBlock_setWave ..).trans ht, takes_of_atOnce hf hat hr ht⟩
  | false =>
    have hw := padWords_of_nodup hf (hat.one.resolve_left Bool.false_ne_true) fun r hr tc tb t ht => takes_of_atOnce hf hat hr ht
    rw [feLanes_take uid reg fmt (hw.setWave core slot x), atWords_setWave]
    rfl

theorem taken_sameIssue (s : State) (b : Block) (reqs : List PadReq) (keep : Bool) : SameIssue s (s.taken b reqs keep) :=
  .ite (.refl s) (atWords_sameIssue ..)

/-- The value that an LDFE writes, where a lane's word has the number `num`. -/
theorem loaded_feWrote (c : Ctx) (w : Wave) (b : Block) (f : MF) {num : PadReq → Nat}
    (hsz : f.size.toNat = 2 ∨ f.size.toNat = 5 ∨ f.size.toNat = 6 ∨ f.size.toNat = 7) (hnum : ∀ r, num r < 2 ^ 32)
    (hd : f.d.toNat = 1023 ∨ (f.d.toNat % 1 = 0 ∧ f.d.toNat + 1 ≤ 672)) :
    Loaded c w (w.feWrote c b f true fun r => BitVec.ofNat 32 (num r)) f.d.toNat f.size.toNat fun l => num (padReq c w b f l) := by
  have heq : w.feWrote c b f true (fun r => BitVec.ofNat 32 (num r)) = writeLoad c w f.d.toNat f.size.toNat false fun l =>
      (kgetD (feVals (fun r => BitVec.ofNat 32 (num r)) (padReqs c w b f)) l 0).toNat := by
    rcases hsz with h | h | h | h <;> simp [h, Wave.feWrote, writeLoad, shaped]
  have hone : sizeRegs f.size.toNat = 1 := by rcases hsz with h | h | h | h <;> rw [h] <;> rfl
  rw [heq]
  refine loaded_writeLoad c w (by rw [hone]; exact hd) (fun h => nomatch h) fun l hl ha => ?_
  rw [kgetD, kget_feVals_of_mem _ w b f ((Mask.mem_lanes _ _).mpr ⟨hl, ha⟩), Option.getD_some, BitVec.toNat_ofNat,
    Nat.mod_eq_of_lt (hnum _)]

theorem SamePath.feAt {w w1 : Wave} (h : SamePath w w1) (p : Option FeProgress) : SamePath w (w1.feAt p) :=
  h.trans .of_bank

section
variable {i : Instr} {s : State} {core slot : Nat} {w : Wave} {b : Block} {body : Body}
  (he : exec i s = issue i.view (encode i) body false s) (h : Runs i s core slot w b)
include he h

/-- The completion of a full/empty instruction clears what it noted of its lanes. -/
theorem completesAt_of_feAt {s2 : State} {w2 : Wave} {p : Option FeProgress}
    (hb : body (ctxFor i s core slot w) w s = .next (s2.setWave core slot (w2.feAt p))) (hp : SamePath w w2) (hs : SameIssue s s2) :
    CompletesAt i s core slot w b s2 w2 := by
  have hc := completesAt_of_setWave he h hb (hp.feAt p) hs
  rwa [CompletesAt, moved_feAt] at hc
end

/-- Settles O23: lanes whose words are ready are applied one by one, each leaving the others' words as they are; the chains of ATOMS and
CASS are those of O21 at places of scratchpads. -/
theorem fullEmptyAndScratchAtomics : Obligations.FullEmptyAndScratchAtomics := by
  unfold Obligations.FullEmptyAndScratchAtomics
  refine ⟨fun f s core slot w b h => ?ldfe, fun f s core slot w b h => ?stfe, fun f s core slot w b h => ?feset,
    fun f s core slot w b h => ?feq, fun f s core slot w b h => ?atoms, fun f s core slot w b h => ?cass,
    fun s b t key tc tb n k ht hbad => ⟨applyPadChains_one ht hbad, fun x => padByte_padPut ..⟩⟩
  case ldfe =>
    intro c reqs keep hfresh hf hbit hown ho hat
    have hdef := memDefined_of_ready h.toReady rfl
    have hsz : f.size.toNat = 2 ∨ f.size.toNat = 5 ∨ f.size.toNat = 6 ∨ f.size.toNat = 7 := by
      simp [memDefined] at hdef
      omega
    have hw := loaded_feWrote c w b f hsz (wordNum_lt s b) (vec_dst_ok (ready_operands h.toReady _ (.head _)) (by decide))
    obtain ⟨p, hb⟩ := feWaitBody_of_ready (load := true) (c := c) h.block h.wave hfresh h.active hf rfl hbit hown (by simpa using ho)
      fun p => feLanes_of_atOnce hf hat ..
    have hc := completesAt_of_feAt rfl h hb hw.only.samePath ((taken_sameIssue ..).trans (acquire_sameIssue ..))
    simp only [State.taken, decide_eq_true_eq, if_true] at hc
    exact ⟨_, hc, hw⟩
  case stfe =>
    intro c reqs hfresh hf hbit hown ho hat
    have hwords : PadWords s b Gives (fun r r2 => r2.word ≠ r.word) reqs :=
      padWords_of_nodup hf (hat.one.resolve_left Bool.false_ne_true) fun r hr tc tb t ht =>
        ⟨(hat.words r hr tc tb t ht).1, (hat.words r hr tc tb t ht).2.2⟩
    obtain ⟨p, hb⟩ := feWaitBody_of_ready (load := false) (c := c) h.block h.wave hfresh h.active hf h.formats hbit hown ho fun p => by
      have hlanes := feLanes_give w.uid (fun r => c.lane w f.d.toNat r.lane) (hwords.setWave core slot (w.feAt p))
      rwa [atWords_setWave] at hlanes
    exact completesAt_of_feAt rfl h hb (.refl w) (atWords_sameIssue ..)
  case feset =>
    intro reqs hf hbit hown ho hquiet
    refine completesAt_of_sameIssue rfl h (feBitBody_of_quiet h.block hf hbit hown ho ⟨fun r hr => ?_, ?_⟩) (atWords_sameIssue ..)
    · obtain ⟨⟨tc, tb, t, ht⟩, -⟩ := word_of_padFault hf hr
      exact ⟨tc, tb, t, ht, hquiet r hr tc tb t ht⟩
    · exact List.pairwise_of_forall fun _ _ _ => trivial
  case feq =>
    intro c reqs hf hbit hown
    have hw := wrote_writeTy c w f.d.toNat false tW32 (s.fullRead c w b f) (dst_not_1022 (ready_operands h.toReady _ (.head _)))
      (fun hu => nomatch hu)
    exact ⟨_, completesAt_of_setWave rfl h (feqBody_of_checked h.block hf hbit hown h.wave) hw.only.samePath (acquire_sameIssue ..),
      hw.congr fun l hl ha => fullRead_of_mem s w b f ((Mask.mem_lanes _ _).mpr ⟨hl, ha⟩)⟩
  case atoms =>
    intro c reqs n chains r hf ho hown hlost
    have hdef := memDefined_of_ready h.toReady rfl
    have hw := loaded_writeOlds c (w.merged (reqs.length - chains.length)) (cas := false) r.1
      (size_of_atomicPair (Bool.and_eq_true_iff.mp hdef).1) (fun hc => nomatch hc)
      (vec_dst_ok (ready_operands h.toReady _ (.head _)) (by decide))
    exact ⟨_, completesAt_of_setWave rfl h
      (atomsBody_of_sound (cas := false) rfl rfl h.block hf h.formats ho hown hlost h.active h.wave)
      ((SamePath.merged w _).trans hw.only.samePath) ((applyPadChains_sameIssue ..).trans (acquired_sameIssue ..)), hw⟩
  case cass =>
    intro c reqs n chains r hf ho hown hlost
    have hdef := memDefined_of_ready h.toReady rfl
    have hsz : f.size.toNat = 2 ∨ f.size.toNat = 3 := by simpa using (Bool.and_eq_true_iff.mp hdef).1
    have hw := loaded_writeOlds c (w.merged (reqs.length - chains.length)) (cas := true) r.1 (by omega) (fun _ => hsz)
      (half_dst (vec_dst_ok (ready_operands h.toReady _ (.head _)) (by decide)))
    exact ⟨_, completesAt_of_setWave rfl h
      (atomsBody_of_sound (cas := true) rfl rfl h.block hf h.formats ho hown hlost h.active h.wave)
      ((SamePath.merged w _).trans hw.only.samePath) ((applyPadChains_sameIssue ..).trans (acquired_sameIssue ..)), hw⟩

end Sys2Proof.Machine
end

section
/-!
An instruction that nothing holds up in its sequencer, by how its meaning ends, and a block written (R36, R286, R293).
-/

namespace Sys2Proof.Machine

/-! ### A block written (R276, R283) -/

theorem setCore_setCore (s : State) (c : Nat) (k k' : Core) : (s.setCore c k).setCore c k' = s.setCore c k' := by
  simp [State.setCore]

theorem setBlock_setBlock (s : State) (c n : Nat) (x y : Block) : (s.setBlock c n x).setBlock c n y = s.setBlock c n y := by
  rw [State.setBlock, State.setBlock, core_setCore_self, setCore_setCore, kset_kset]
  rfl

theorem modSeqr_setBlock (s : State) (c n : Nat) (x : Block) (g : Sequencer → Sequencer) :
    (s.setBlock c n x).modSeqr c n g = s.setBlock c n { x with seqr := g x.seqr } :=
  (modBlock_of _ _ _ _ (block_setBlock_self ..)).trans (setBlock_setBlock ..)

/-- The block with the line of its sequencer's address noted as the latest (R36). -/
def Block.onSeqLine (b : Block) : Block := { b with seqr := { b.seqr with line := some (lineOf b.seqr.pc) } }

theorem seqLine_of {s : State} {core bslot : Nat} {b : Block} (hb : s.block core bslot = some b) :
    s.seqLine core bslot = s.setBlock core bslot b.onSeqLine := modBlock_of _ _ _ _ hb

/-! ### An instruction that nothing holds up in its sequencer -/

section
variable {i : Instr} {s s2 : State} {core bslot code sub : Nat} {b : Block} {body : SeqBody} (h : SeqReady i s core bslot b)
include h

theorem issueSeq_of_next (hb : body core bslot b (s.seqLine core bslot) = .next s2) : issueSeq i.view (encode i) body s =
    .next (s2.modSeqr core bslot fun q => { q with pc := (s2.core core).nextValid b.code b.seqr.pc, status := 2 }) := by
  simp only [issueSeq, h.turn, h.block, h.fate, h.sound, hb, Bool.false_eq_true, if_false]

theorem issueSeq_of_fault (hb : body core bslot b (s.seqLine core bslot) = .fault code sub) : issueSeq i.view (encode i) body s =
    .next ((s.seqLine core bslot).seqFault core bslot (seqTrap b code sub 0 (encode i))) := by
  simp only [issueSeq, h.turn, h.block, h.fate, h.sound, hb, Bool.false_eq_true, if_false]

theorem issueSeq_of_halt (hb : body core bslot b (s.seqLine core bslot) = .halt code) : issueSeq i.view (encode i) body s =
    .next ((s.seqLine core bslot).haltSeq core bslot code) := by
  simp only [issueSeq, h.turn, h.block, h.fate, h.sound, hb, Bool.false_eq_true, if_false]

end

/-- The trap of a sequencer's instruction stops the sequencer at it, and the block's lowest-numbered live wave holds it (R286). -/
theorem seqFault_seqLine {s : State} {core bslot slot : Nat} {b : Block} {w : Wave} (hb : s.block core bslot = some b)
    (hw : s.lowestWave core bslot = some (slot, w)) (code sub : Nat) (inst : Slot) :
    (s.seqLine core bslot).seqFault core bslot (seqTrap b code sub 0 inst) = s.seqStopped core bslot b slot w code sub inst := by
  have hlow : (s.setBlock core bslot b.onSeqLine).lowestWave core bslot = some (slot, w) := by
    simpa only [State.lowestWave, core_setBlock_waves] using hw
  simp only [seqLine_of hb, State.seqFault, block_setBlock_self, hlow, setBlock_setBlock]
  rfl

end Sys2Proof.Machine
end

section
/-!
MMA, MMAS, ZLD, ZST and ZCLR at their fire and at their result point, and the deferral queue (O25).
-/

namespace Sys2Proof.Machine

/-! ### The fire of a tile operation (R285, R300) -/

theorem fireBody_of_mayFire {op : Op} {f : XF} {s : State} {core bslot : Nat} {b : Block} (hb : s.block core bslot = some b)
    (h : MayFire op f s core bslot b) :
    fireBody op f core bslot b (s.seqLine core bslot) = fireChecks op f core bslot b (s.seqLine core bslot) := by
  have hnow : (s.seqLine core bslot).now (dieOf core) = s.now (dieOf core) := by
    rw [seqLine_of hb]
    rfl
  simp only [fireBody, hnow, h.settled, Nat.not_le.mpr h.room, h.buffers, h.free, h.turn, decide_false, Bool.not_true, Bool.or_self,
    Bool.false_eq_true, if_false]

theorem fireChecks_of_stop {op : Op} {f : XF} {s : State} {core bslot : Nat} {b : Block} {d : SeqDone}
    (h : fireStop op f core bslot b s = some d) : fireChecks op f core bslot b s = d := by
  simp only [fireChecks, h]

/-- The state in which a block was the last that the resource of an operation served (R285). -/
def State.lastServed (s : State) (core bslot : Nat) (op : Op) : State :=
  s.setCore core (if usesArray op then { s.core core with lastArray := bslot } else { s.core core with lastPort := bslot })

theorem lastServed_setBlock (s : State) (core bslot n : Nat) (op : Op) (x : Block) :
    (s.setBlock core n x).lastServed core bslot op = (s.lastServed core bslot op).setBlock core n x := by
  cases h : usesArray op <;>
    simp only [State.lastServed, State.setBlock, h, Bool.false_eq_true, if_true, if_false, core_setCore_self, setCore_setCore]

theorem lastServed_segs (s : State) (core bslot : Nat) (op : Op) :
    ((s.lastServed core bslot op).core core).segs = (s.core core).segs := by
  cases h : usesArray op <;> simp only [State.lastServed, h, Bool.false_eq_true, if_true, if_false, core_setCore_self]

/-- The sequencer with operation `x` in flight, its number given (R284, R285). -/
def Sequencer.fired (q : Sequencer) (x : Flight) : Sequencer :=
  { q with flights := q.flights ++ [x], last := q.next, next := if q.next + 1 = 2 ^ 32 then 1 else q.next + 1 }

theorem fireChecks_of_none {op : Op} {f : XF} {s : State} {core bslot : Nat} {b b1 : Block}
    (h : fireStop op f core bslot b s = none) (hs : (s.operandReads core bslot b op f).flatMap (s.sourceSpilled core bslot) = [])
    (hb : s.block core bslot = some b1) : fireChecks op f core bslot b s =
      .next ((s.modSeqr core bslot (·.fired (fireFlight op f core bslot b1 s))).lastServed core bslot op) := by
  simp only [fireChecks, h, hs, List.foldl_nil, hb, Option.getD_some]
  rfl

/-- What an operation carries in flight does not depend on the line its sequencer is on. -/
theorem fireFlight_onSeqLine (op : Op) (f : XF) (core bslot : Nat) (b : Block) (s : State) :
    fireFlight op f core bslot b.onSeqLine s = fireFlight op f core bslot b s := rfl

/-- A tile operation at its turn fires, or stops its sequencer. -/
theorem fires_of_meaning {i : Instr} {op : Op} {f : XF} (he : ∀ s, exec i s = issueSeq i.view (encode i) (fireBody op f) s) :
    Fires i op f := by
  intro s core bslot b h hm s1 k
  have hfire := fireBody_of_mayFire h.block hm
  refine ⟨fun hstop hspill => ?fires, fun code sub slot w hstop hw => ?trap, fun code hstop => ?halt⟩
  case fires =>
    have hb1 : (s.seqLine core bslot).block core bslot = some b.onSeqLine := by rw [seqLine_of h.block, block_setBlock_self]
    rw [he, issueSeq_of_next h (hfire.trans (fireChecks_of_none hstop hspill hb1)), fireFlight_onSeqLine]
    simp only [s1, seqLine_of h.block, modSeqr_setBlock, lastServed_setBlock]
    rw [nextValid_congr ((core_setBlock_segs ..).trans (lastServed_segs ..))]
    rfl
  case trap => rw [he, issueSeq_of_fault h (hfire.trans (fireChecks_of_stop hstop)), seqFault_seqLine h.block hw]
  case halt => rw [he, issueSeq_of_halt h (hfire.trans (fireChecks_of_stop hstop))]

end Sys2Proof.Machine

namespace Sys2Proof

theorem kget_append {α : Type} (m n : KMap α) (k : Nat) : kget (m ++ n) k = (kget m k).or (kget n k) := by
  induction m with
  | nil => rfl
  | cons e m ih =>
    simp only [List.cons_append, kget]
    split
    · rfl
    · exact ih

theorem kget_filter_of_false {α : Type} {m : KMap α} {k : Nat} {p : Nat × α → Bool} (h : ∀ v, p (k, v) = false) :
    kget (m.filter p) k = none := by
  induction m with
  | nil => rfl
  | cons e m ih =>
    obtain ⟨k', v⟩ := e
    by_cases hp : p (k', v) = true
    · have hk : k' ≠ k := by
        rintro rfl
        exact Bool.false_ne_true ((h v).symm.trans hp)
      rw [List.filter_cons_of_pos hp, kget, if_neg hk, ih]
    · rw [List.filter_cons_of_neg hp, ih]

end Sys2Proof

namespace Sys2Proof.Machine

/-! ### The elements of a tile (R275) -/

theorem kget_wordMap (f : Nat → Word) (n k : Nat) : kget (wordMap f n) k = if k < n ∧ f k ≠ 0 then some (f k) else none := by
  induction n with
  | zero => rfl
  | succ n ih =>
    have hlast : kget ([n].filterMap fun k => if f k = 0 then none else some (k, f k)) k =
        if k = n ∧ f k ≠ 0 then some (f k) else none := by
      by_cases hz : f n = 0
      · have hno : ¬(k = n ∧ f k ≠ 0) := fun ⟨hk, hne⟩ => hne (hk ▸ hz)
        simp only [List.filterMap_cons, hz, if_true, List.filterMap_nil, kget_nil, if_neg hno]
      · simp only [List.filterMap_cons, hz, if_false, List.filterMap_nil, kget]
        by_cases hk : k = n
        · rw [hk, if_pos rfl, if_pos ⟨rfl, hz⟩]
        · rw [if_neg (Ne.symm hk), if_neg fun h => hk h.1]
    rw [wordMap, List.range_succ, List.filterMap_append, kget_append, ← wordMap, ih, hlast]
    by_cases hk : k = n
    · simp [hk]
    · simp [hk, show k < n + 1 ↔ k < n by omega]

/-- A word below those that stay, of a tile with new elements. -/
theorem kgetD_wordMap_append {f : Nat → Word} {n k : Nat} {old : KMap Word} (hk : k < n) (hold : kget old k = none) :
    kgetD (wordMap f n ++ old) k 0 = f k := by
  rw [kgetD, kget_append, hold, Option.or_none, kget_wordMap]
  by_cases h : f k = 0
  · rw [if_neg fun hne => hne.2 h, h]
    rfl
  · rw [if_pos ⟨hk, h⟩]
    rfl

theorem word_setElems_narrow (t : Tile) (f : Nat → Nat → Nat) (tag : Nat) {n : Nat} (hn : n < 4096) :
    (t.setElems false f tag).word n = BitVec.ofNat 32 (f (n / 64) (n % 64)) :=
  kgetD_wordMap_append hn (kget_filter_of_false fun _ => rfl)

theorem word_setElems_wide (t : Tile) (f : Nat → Nat → Nat) (tag : Nat) {n : Nat} (hn : n < 2048) :
    (t.setElems true f tag).word n = BitVec.ofNat 32 (f (n / 64) (n % 64 / 2) / 2 ^ (32 * (n % 2))) :=
  kgetD_wordMap_append hn (kget_filter_of_false fun _ => by simp [Nat.not_le.mpr hn])

/-- Each element set holds its value, kept to its width. -/
theorem elem_setElems (t : Tile) (wideElem : Bool) (f : Nat → Nat → Nat) (tag : Nat) {i j : Nat}
    (hi : i < if wideElem then 32 else 64) (hj : j < if wideElem then 32 else 64) :
    (t.setElems wideElem f tag).elem wideElem i j = f i j % 2 ^ (if wideElem then 64 else 32) := by
  cases wideElem with
  | false =>
    simp only [Bool.false_eq_true, if_false] at hi hj ⊢
    rw [Tile.elem, if_neg Bool.false_ne_true, word_setElems_narrow _ _ _ (by omega), BitVec.toNat_ofNat,
      show (64 * i + j) / 64 = i by omega, show (64 * i + j) % 64 = j by omega]
  | true =>
    simp only [if_true] at hi hj ⊢
    rw [Tile.elem, if_pos rfl, word_setElems_wide _ _ _ (by omega), word_setElems_wide _ _ _ (by omega), BitVec.toNat_ofNat,
      BitVec.toNat_ofNat, show (64 * i + 2 * j) / 64 = i by omega, show (64 * i + 2 * j) % 64 / 2 = j by omega,
      show (64 * i + 2 * j) % 2 = 0 by omega, show (64 * i + 2 * j + 1) / 64 = i by omega,
      show (64 * i + 2 * j + 1) % 64 / 2 = j by omega, show (64 * i + 2 * j + 1) % 2 = 1 by omega]
    omega

/-- The elements set are of 64 bits in FP64 alone (R275, R278). -/
theorem elem_setElems_fmt (t : Tile) {fmt : Nat} (f : Nat → Nat → Nat) (tag : Nat) {i j : Nat}
    (hi : i < if fmt = tF64 then 32 else 64) (hj : j < if fmt = tF64 then 32 else 64) :
    (t.setElems (fmt = tF64) f tag).elem (fmt = tF64) i j = f i j % 2 ^ (if fmt = tF64 then 64 else 32) := by
  have h := elem_setElems t (fmt = tF64) f tag (i := i) (j := j)
  simp only [decide_eq_true_eq] at h
  exact h hi hj

theorem tile_setTile (b : Block) (z : Nat) (t : Tile) (z' : Nat) : (b.setTile z t).tile z' = if z' = z then t else b.tile z' :=
  kgetD_kput ..

/-! ### Rows stored to scratchpad (R282, R305) -/

/-- A store of rows changes the bytes and the errors of its allocation and nothing else. -/
theorem storeRows_rest (b : Block) (start pitch rot : Nat) (rows : List Nat) : b.storeRows start pitch rot rows =
    { b with spad := (b.storeRows start pitch rot rows).spad, badWords := (b.storeRows start pitch rot rows).badWords } := by
  unfold Block.storeRows
  refine List.foldlRecOn (motive := fun x : Block => x = { b with spad := x.spad, badWords := x.badWords }) _ _ rfl fun x hx e _ => ?_
  refine List.foldlRecOn (motive := fun x : Block => x = { b with spad := x.spad, badWords := x.badWords }) _ _ hx fun x hx y _ => ?_
  rw [hx]
  rfl

/-- The block with its sequencer replaced. -/
def Block.setSeqr (b : Block) (q : Sequencer) : Block := { b with seqr := q }

/-- The rows stored do not depend on the sequencer. -/
theorem storeRows_setSeqr (b : Block) (q : Sequencer) (start pitch rot : Nat) (rows : List Nat) :
    (b.setSeqr q).storeRows start pitch rot rows = (b.storeRows start pitch rot rows).setSeqr q := by
  unfold Block.storeRows
  exact List.foldl_hom (fun x : Block => x.setSeqr q) fun _ _ => List.foldl_hom (fun x : Block => x.setSeqr q) fun _ _ => rfl

/-! ### A tile operation at its result point (R276, R285) -/

/-- The sequencer with operation `i`, on tile `z`, no more in flight: a ZST fired before it on the tile, and not yet read, holds the
tile's `rows` (R276). -/
def Sequencer.landed (q : Sequencer) (i z : Nat) (rows : List Nat) : Sequencer :=
  { q with flights := ((q.flights.take i).map fun g => if g.tile == z && g.data.isEmpty then { g with data := [rows] } else g) ++
      q.flights.drop (i + 1) }

theorem length_landed {q : Sequencer} {i : Nat} {f : Flight} (h : q.flights[i]? = some f) (z : Nat) (rows : List Nat) :
    (q.landed i z rows).flights.length + 1 = q.flights.length := by
  have hi := (List.getElem?_eq_some_iff.mp h).1
  simp only [Sequencer.landed, List.length_append, List.length_map, List.length_take, List.length_drop]
  omega

/-- The rows of a tile, each as one number. -/
def Tile.rows (t : Tile) : List Nat := (List.range 64).map t.row

/-- What a ZST writes: what it has read of its tile's rows, or else the tile's rows as they are. -/
def Flight.zstRows (f : Flight) (t : Tile) (fmt : Nat) : List Nat := ((f.data.head?).getD t.rows).take (moveRows fmt)

/-- A slot filled, of the buffer that an operation fills. -/
def Block.slotFilled (b : Block) (buf : Option Nat) : Block :=
  match buf with
  | some n => b.modBuf n fun u => u.advHead 1
  | none => b

section
variable {s : State} {core bslot : Nat} {b : Block} {i : Nat} {f : Flight} (hb : s.block core bslot = some b)
  (hd : b.seqr.due (s.now (dieOf core)) = some i) (hf : b.seqr.flights[i]? = some f)
include hb hd hf

/-- The result of an operation on its tile takes the place of what was in it. -/
theorem resultPoint_of_tile (hop : ∀ fmt start pitch rot buf, f.op ≠ .zst fmt start pitch rot buf)
    (hbad : f.tile ∈ b.badTiles → ∃ fmt, f.op = .zld fmt ∨ f.op = .zclr fmt) : ∃ bad, s.resultPoint core bslot =
      s.setBlock core bslot { (b.setSeqr (b.seqr.landed i f.tile (b.tile f.tile).rows)).setTile f.tile
        (f.newTile (b.tile f.tile)) with badTiles := bad } := by
  simp only [State.resultPoint, hb, hd, hf]
  cases ho : f.op with
  | zst fmt start pitch rot buf => exact absurd ho (hop fmt start pitch rot buf)
  | mma fmt | mmas fmt =>
    have hsound : f.tile ∉ b.badTiles := fun hm => by
      obtain ⟨_, h | h⟩ := hbad hm <;> exact nomatch ho.symm.trans h
    simp only [Bool.true_and, List.contains_eq_mem, decide_eq_false hsound, Bool.false_eq_true, if_false]
    exact ⟨_, rfl⟩
  | zld fmt =>
    simp only [Bool.false_and, Bool.false_eq_true, if_false]
    split <;> exact ⟨_, rfl⟩
  | zclr fmt => exact ⟨_, rfl⟩

/-- A ZST writes its tile's rows, and fills its buffer's slot. -/
theorem resultPoint_of_zst {fmt start pitch rot : Nat} {buf : Option Nat} (ho : f.op = .zst fmt start pitch rot buf)
    (hsound : f.tile ∉ b.badTiles) : s.resultPoint core bslot = s.setBlock core bslot
      (((b.setSeqr (b.seqr.landed i f.tile (b.tile f.tile).rows)).storeRows start pitch rot
        (f.zstRows (b.tile f.tile) fmt)).slotFilled buf) := by
  simp only [State.resultPoint, hb, hd, hf, ho, Bool.true_and, List.contains_eq_mem, decide_eq_false hsound, Bool.false_eq_true, if_false]
  rfl

end

/-! ### What an operation leaves in its tile (R301, R303, R305) -/

section
variable {f : Flight} {fmt : Nat} (t : Tile)

theorem newTile_mma (ho : f.op = .mma fmt) : f.newTile t = t.setElems (fmt = tF64) (fun i j =>
    mmaElem fmt (f.inRegs 0) (f.inRegs 1) (t.elem (fmt = tF64) i j) (f.rowOf 0 i) (f.rowOf 1 j)) (accTag fmt) := by
  simp only [Flight.newTile, ho]
  rfl

theorem newTile_mmas (ho : f.op = .mmas fmt) : f.newTile t = t.setElems false (fun i j =>
    mmasElem fmt (f.inRegs 0) (f.inRegs 1) (t.elem false i j) (f.rowOf 0 i) (f.rowOf 1 j) (f.rowOf 2 i) (f.rowOf 3 j)) 3 := by
  simp only [Flight.newTile, ho]
  rfl

theorem newTile_zld (ho : f.op = .zld fmt) : f.newTile t = t.setElems (fmt = tF64) (fun i j =>
    if fmt = tF64 then field (f.rowOf 0 i) (64 * j) 64 else field (f.rowOf 0 i) (32 * j) 32) (moveTag fmt) := by
  simp only [Flight.newTile, ho]

theorem newTile_zclr (ho : f.op = .zclr fmt) : f.newTile t = { t with words := [], tag := moveTag fmt } := by
  simp only [Flight.newTile, ho]

end

theorem elem_newTile_mma {f : Flight} {fmt : Nat} (t : Tile) (ho : f.op = .mma fmt) {i j : Nat} (hi : i < matRows fmt)
    (hj : j < matRows fmt) : (f.newTile t).elem (fmt = tF64) i j =
      mmaElem fmt (f.inRegs 0) (f.inRegs 1) (t.elem (fmt = tF64) i j) (f.rowOf 0 i) (f.rowOf 1 j)
        % 2 ^ (if fmt = tF64 then 64 else 32) := by
  rw [newTile_mma t ho]
  exact elem_setElems_fmt t _ _ hi hj

theorem elem_newTile_mmas {f : Flight} {fmt : Nat} (t : Tile) (ho : f.op = .mmas fmt) {i j : Nat} (hi : i < 64) (hj : j < 64) :
    (f.newTile t).elem false i j = mmasElem fmt (f.inRegs 0) (f.inRegs 1) (t.elem false i j) (f.rowOf 0 i) (f.rowOf 1 j)
      (f.rowOf 2 i) (f.rowOf 3 j) % 2 ^ 32 := by
  rw [newTile_mmas t ho]
  exact elem_setElems t false _ _ hi hj

theorem elem_newTile_zld {f : Flight} {fmt : Nat} (t : Tile) (ho : f.op = .zld fmt) {i j : Nat} (hi : i < moveRows fmt)
    (hj : j < moveRows fmt) : (f.newTile t).elem (fmt = tF64) i j =
      if fmt = tF64 then field (f.rowOf 0 i) (64 * j) 64 else field (f.rowOf 0 i) (32 * j) 32 := by
  rw [newTile_zld t ho, elem_setElems_fmt t _ _ hi hj]
  split <;> exact Nat.mod_mod ..

theorem slotFilled_rest (b : Block) (buf : Option Nat) : b.slotFilled buf = { b with bufs := (b.slotFilled buf).bufs } := by
  cases buf <;> rfl

/-! ### The deferral queue (R306) -/

section
variable {s : State} {core bslot : Nat} {b : Block} {rest : List Deferred} (hb : s.block core bslot = some b)
  (hr : b.deferReady (s.now (dieOf core)) false = true)
include hb hr

theorem applyDeferred_bfree {u n after : Nat} (hq : b.seqr.queue = .bfree u n after :: rest) : s.applyDeferred core bslot true =
    s.setBlock core bslot ((b.setSeqr { b.seqr with queue := rest }).modBuf u fun x => x.advTail n) := by
  simp only [State.applyDeferred, hb, hr, hq, Bool.not_true, Bool.false_eq_true, if_false, if_true]
  rfl

theorem applyDeferred_nbsig {k n after : Nat} {res : Bool} (hq : b.seqr.queue = .nbsig k n after res :: rest) :
    s.applyDeferred core bslot false = s.setBlock core bslot { b with
      seqr := { b.seqr with queue := rest }, nbc := lmod b.nbc k (· + BitVec.ofNat 32 n) } := by
  simp only [State.applyDeferred, hb, hr, hq, Bool.not_true, Bool.false_eq_true, if_false]

end

/-- Settles O25: a tile operation fires or stops by its checks; its result is what its operation makes of its tile, but for a ZST,
which stores its tile's rows; the deferral queue gives up its head. -/
theorem tileOperations : Obligations.TileOperations := by
  unfold Obligations.TileOperations
  refine ⟨fun f => fires_of_meaning fun _ => rfl, fun f => fires_of_meaning fun _ => rfl, fun f => fires_of_meaning fun _ => rfl,
    fun f => fires_of_meaning fun _ => rfl, fun f => fires_of_meaning fun _ => rfl,
    fun op f s core bslot b hz => if_pos hz, fun core bslot s b i f hb hd hf hbad => ?result,
    fun core bslot s b u n after rest hb hq hr => congrArg Host.Outcome.next (applyDeferred_bfree hb hr hq),
    fun core bslot s b k n after res rest hb hq hr => congrArg Host.Outcome.next (applyDeferred_nbsig hb hr hq)⟩
  by_cases hop : ∃ fmt start pitch rot buf, f.op = .zst fmt start pitch rot buf
  · obtain ⟨fmt, start, pitch, rot, buf, ho⟩ := hop
    have hsound : f.tile ∉ b.badTiles := fun hm => by
      obtain ⟨_, h | h⟩ := hbad hm <;> exact nomatch ho.symm.trans h
    refine ⟨_, congrArg Host.Outcome.next (resultPoint_of_zst hb hd hf ho hsound), ?length, ?others, fun _ h => ?mma, fun _ h => ?mmas,
      fun _ h => ?zld, fun _ h => ?zclr, fun fmt' start' pitch' rot' buf' h => ?zst⟩
    case mma | mmas | zld | zclr => exact nomatch ho.symm.trans h
    all_goals rw [slotFilled_rest, storeRows_setSeqr, storeRows_rest]
    case length => exact length_landed hf ..
    case others => exact fun _ _ => rfl
    case zst =>
      cases ho.symm.trans h
      exact ⟨rfl, rfl, by cases buf <;> rfl⟩
  · obtain ⟨bad, hres⟩ := resultPoint_of_tile hb hd hf (fun fmt start pitch rot buf h => hop ⟨fmt, start, pitch, rot, buf, h⟩) hbad
    have htile : (({ (b.setSeqr (b.seqr.landed i f.tile (b.tile f.tile).rows)).setTile f.tile (f.newTile (b.tile f.tile)) with
        badTiles := bad } : Block).tile f.tile) = f.newTile (b.tile f.tile) := (tile_setTile ..).trans (if_pos rfl)
    refine ⟨_, congrArg Host.Outcome.next hres, length_landed hf .., fun z hz => (tile_setTile ..).trans (if_neg hz), fun fmt ho => ?mma,
      fun fmt ho => ?mmas, fun fmt ho => ?zld, fun fmt ho => ?zclr, fun fmt start pitch rot buf ho => absurd ⟨_, _, _, _, _, ho⟩ hop⟩
    all_goals rw [htile]
    case mma => exact ⟨by rw [newTile_mma _ ho]; rfl, rfl, fun i j hi hj => elem_newTile_mma _ ho hi hj⟩
    case mmas => exact ⟨by rw [newTile_mmas _ ho]; rfl, rfl, fun i j hi hj => elem_newTile_mmas _ ho hi hj⟩
    case zld => exact ⟨by rw [newTile_zld _ ho]; rfl, rfl, fun i j hi hj => elem_newTile_zld _ ho hi hj⟩
    case zclr => exact ⟨by rw [newTile_zclr _ ho], rfl, fun n => by rw [newTile_zclr _ ho]; rfl⟩

end Sys2Proof.Machine
end

section
/-!
MFENCE, NBAR, NBWAIT, BADV, BQRY, ZREAD and ZWRITE (O27).
-/

namespace Sys2Proof

/-- An entry of a map after many are put, where no other comes to its key. -/
theorem kgetD_foldl_kput {α β : Type} [DecidableEq α] [DecidableEq β] {key : α → Nat} {val : α → β} {d : β} {y : α}
    {xs : List α} (hkey : ∀ x ∈ xs, key x = key y → x = y) (m : KMap β) :
    kgetD (xs.foldl (fun m x => kput m (key x) (val x) d) m) (key y) d = if y ∈ xs then val y else kgetD m (key y) d := by
  induction xs generalizing m with
  | nil => rfl
  | cons x xs ih =>
    rw [List.foldl_cons, ih (fun z hz => hkey z (List.mem_cons_of_mem _ hz)), kgetD_kput]
    by_cases hx : y = x
    · simp [hx]
    · have hne : key y ≠ key x := fun hk => hx (hkey x List.mem_cons_self hk.symm).symm
      simp [hx, hne]

end Sys2Proof

namespace Sys2Proof.Machine

/-! ### Registers written one by one (R81) -/

/-- A value and a format written to each of the `n` registers from `d`. -/
def Ctx.writeEach (c : Ctx) (w : Wave) (d n : Nat) (v : Nat → VVal) (fmts : Nat → Nat) : Wave :=
  (List.range n).foldl (fun w k => c.write w (d + k) (v k) (fmts k)) w

section
variable (c : Ctx) (w : Wave) {d : Nat} (v : Nat → VVal) (fmts : Nat → Nat)

theorem writeEach_succ (n : Nat) : c.writeEach w d (n + 1) v fmts = c.write (c.writeEach w d n v fmts) (d + n) (v n) (fmts n) := by
  rw [Ctx.writeEach, List.range_succ, List.foldl_append]
  rfl

theorem onlyVec_writeEach {n : Nat} (hd : d + n ≤ 1023) : OnlyVec w (c.writeEach w d n v fmts) (rangeFrom d n) := by
  induction n with
  | zero => exact OnlyVec.refl w _
  | succ n ih =>
    rw [writeEach_succ]
    refine ((ih (by omega)).mono fun k hk => ?_).trans ((onlyVec_write c _ _ _ _).mono fun k hk => ?_)
    · rw [mem_rangeFrom] at hk ⊢
      omega
    · rw [destRegs, if_neg (by omega), mem_rangeFrom] at hk
      rw [mem_rangeFrom]
      omega

theorem lane_writeEach {n : Nat} (hd : d + n ≤ 1023) (k : Nat) {l : Nat} (hl : l < 32) (hv : c.live.getLsbD l = true) :
    (c.writeEach w d n v fmts).lane (d + k) l =
      if k < n ∧ c.act.getLsbD l = true then (v k).lane l else w.lane (d + k) l := by
  induction n with
  | zero => simp [Ctx.writeEach]
  | succ n ih =>
    rw [writeEach_succ, live_write c _ _ _ _ hl hv (by omega), ih (by omega)]
    by_cases hk : k = n
    · simp [hk]
    · simp [hk, show k < n + 1 ↔ k < n by omega]

/-- Pairs written one by one are their registers written one by one. -/
theorem foldl_writePair (x y : Nat → VVal) (fx fy : Nat) {n : Nat} (hd : d + 2 * n ≤ 1023)
    (hx : ∀ i, v (2 * i) = x i ∧ fmts (2 * i) = fx) (hy : ∀ i, v (2 * i + 1) = y i ∧ fmts (2 * i + 1) = fy) :
    (List.range n).foldl (fun w i => w.setBank (w.bank.writePair c.act c.live (d + 2 * i) (x i) (y i) fx fy)) w =
      c.writeEach w d (2 * n) v fmts := by
  induction n with
  | zero => rfl
  | succ n ih =>
    rw [List.range_succ, List.foldl_append, ih (by omega), List.foldl_cons, List.foldl_nil, Bank.writePair, if_neg (by omega),
      Nat.mul_succ, writeEach_succ, writeEach_succ, (hx n).1, (hx n).2, (hy n).1, (hy n).2]
    simp only [Ctx.write, bank_setBank, setBank_setBank, Nat.add_assoc]

end

/-- An instruction whose effect is a value for each of the `n` registers from `d`, or none at 1023, completes with them. -/
theorem completes_of_writeEach {i : Instr} {s : State} {core slot d n : Nat} {w : Wave} {b : Block} {body : Body} {v : Nat → VVal}
    {fmts : Nat → Nat} (he : exec i s = issue i.view (encode i) body false s) (h : Runs i s core slot w b)
    (hd : d = 1023 ∨ d + n ≤ 672) (hnone : d = 1023 → body (ctxFor i s core slot w) w s = .next s)
    (hsome : d ≠ 1023 → body (ctxFor i s core slot w) w s =
      .next (s.setWave core slot ((ctxFor i s core slot w).writeEach w d n v fmts))) :
    ∃ w1, Completes i s core slot w b w1 ∧ OnlyVec w w1 (destRegs d n) ∧
      (d ≠ 1023 → ∀ k l, k < n → l < 32 → (ctxFor i s core slot w).live.getLsbD l = true →
        w1.lane (d + k) l = if (ctxFor i s core slot w).act.getLsbD l then (v k).lane l else w.lane (d + k) l) := by
  by_cases h1023 : d = 1023
  · exact ⟨w, completesAt_of_sameIssue he h (hnone h1023) (.refl s), OnlyVec.refl w _, fun hne => absurd h1023 hne⟩
  · have hd' : d + n ≤ 1023 := by omega
    have honly := onlyVec_writeEach (ctxFor i s core slot w) w v fmts hd'
    refine ⟨_, completes_of_setWave he h (hsome h1023) honly.samePath, by rwa [destRegs, if_neg h1023], fun _ k l hk hl hv => ?_⟩
    rw [lane_writeEach _ w v fmts hd' k hl hv]
    simp only [hk, true_and]

/-- A run written by an instruction that nothing holds up. -/
theorem run_dst_ok {hh : Bool} {n k al : Nat} {fl : Field} {r : Role} {t : Option Nat}
    (h : Operand.ok hh ⟨fl, .run k al, n, r, t⟩ = true) (hr : r ≠ .src) : n = 1023 ∨ n + k ≤ 672 := by
  simp only [Operand.ok, beq_iff_eq] at h
  split at h
  · exact .inl ‹_›
  · split at h
    · simp [hr] at h
    · simp only [Bool.and_eq_true, vecNamed] at h
      refine .inr ?_
      cases hh <;> simp at h <;> omega

/-! ### MFENCE, and the numbered counts (R291, R310 to R312) -/

theorem mfenceBody_of_performed {c : Ctx} {w : Wave} {s : State} (hsb : ∀ e ∈ w.sb, ∀ p ∈ e.parts, p.home.place.1 ≠ 2)
    (htok : pendingTokens w (s.core c.core).queue = []) :
    mfenceBody c w s = .next (s.setWave c.core c.slot { w with unfenced := [], unsent := w.unfenced ++ w.unsent }) := by
  have hgo : ((w.sb.any fun e => e.parts.any fun p => p.home.place.1 == 2) || !(pendingTokens w (s.core c.core).queue).isEmpty) =
      false := by
    simpa [htok] using hsb
  simp only [mfenceBody, hgo, Bool.false_eq_true, if_false]

theorem SamePath.signalled (w : Wave) : SamePath w w.signalled := .of_bank

section
variable {x : VArgs} {c : Ctx} {w : Wave} {s : State} {b : Block} (hb : s.block c.core c.bslot = some b)
include hb

theorem nbarBody_of_block : nbarBody x c w s = .next ((s.setBlock c.core c.bslot { b with
    nbc := lmod b.nbc (x.sub % 16) (· + BitVec.ofNat 32 (c.low32 w x.a)) }).setWave c.core c.slot w.signalled) := by
  rw [nbarBody, modBlock_setWave, modBlock_of _ _ _ _ hb]

theorem nbwaitBody_of_reached (hr : reached (b.nbc.getD (x.sub % 16) 0) (BitVec.ofNat 32 (c.low32 w x.a)) = true) :
    nbwaitBody x c w s = .next s := by
  simp only [nbwaitBody, hb, hr, if_true]

/-! ### BADV and BQRY (R311, R312) -/

theorem badvBody_zero (hn : c.low32 w x.a = 0) : badvBody x c w s = .next s := by
  simp only [badvBody, hb, if_pos hn]

theorem badvBody_fill (hn : c.low32 w x.a ≠ 0) (hen : (b.buf (x.sub % 16)).en = true) (hout : (b.buf (x.sub % 16)).out = false)
    (hroom : (b.buf (x.sub % 16)).held + c.low32 w x.a ≤ (b.buf (x.sub % 16)).nslot) : badvBody x c w s =
      .next ((s.setBlock c.core c.bslot (b.modBuf (x.sub % 16) fun u => u.advHead (c.low32 w x.a))).setWave c.core c.slot
        w.signalled) := by
  have hfits : ¬ (b.buf (x.sub % 16)).nslot < c.low32 w x.a := by omega
  simp only [badvBody, hb, if_neg hn, hen, hout, if_neg hfits, Nat.not_lt.mpr hroom, Bool.not_true, Bool.false_eq_true, if_false,
    setBlock_setWave]

theorem badvBody_drain (hn : c.low32 w x.a ≠ 0) (hen : (b.buf (x.sub % 16)).en = true) (hout : (b.buf (x.sub % 16)).out = true)
    (hfits : c.low32 w x.a ≤ (b.buf (x.sub % 16)).nslot) (hheld : c.low32 w x.a ≤ (b.buf (x.sub % 16)).held) : badvBody x c w s =
      .next ((s.setBlock c.core c.bslot (b.modBuf (x.sub % 16) fun u => u.advTail (c.low32 w x.a))).setWave c.core c.slot
        w.signalled) := by
  simp only [badvBody, hb, if_neg hn, hen, hout, Nat.not_lt.mpr hfits, Nat.not_lt.mpr hheld, Bool.not_true, Bool.false_eq_true,
    if_false, if_true, setBlock_setWave]

theorem bqryBody_none (hd : x.d = 1023) : bqryBody x c w s = .next s := by
  simp only [bqryBody, hb, if_pos hd]

/-- What BQRY leaves in its two registers. -/
def Buf.pointer (u : Buf) (k : Nat) : VVal := .u (BitVec.ofNat 32 (if k = 0 then u.tail else u.head))

theorem bqryBody_some (hd : x.d ≠ 1023) : bqryBody x c w s =
    .next (s.setWave c.core c.slot (c.writeEach w x.d 2 (b.buf (x.sub % 16)).pointer fun _ => 2)) := by
  simp only [bqryBody, hb, if_neg hd]
  rfl

end

/-! ### ZREAD (R313) -/

/-- What ZREAD leaves in its register `k`: 32 words of the tile `t` from row group `g` on. -/
def Tile.groupOf (t : Tile) (g k : Nat) : VVal := .g (Lanes.of fun l => t.word (32 * ((g + k) % 128) + l))

/-- What ZREAD of FP64 leaves in its register `k`: the low or the high words of 32 elements. -/
def Tile.halfOf (t : Tile) (g k : Nat) : VVal := .g (Lanes.of fun l => t.word (64 * ((g + k / 2) % 32) + 2 * l + k % 2))

theorem Tile.lane_groupOf (t : Tile) (g k : Nat) {l : Nat} (hl : l < 32) :
    (t.groupOf g k).lane l = t.word (32 * ((g + k) % 128) + l) := Lanes.at_of _ hl

theorem Tile.lane_halfOf (t : Tile) (g k : Nat) {l : Nat} (hl : l < 32) :
    (t.halfOf g k).lane l = t.word (64 * ((g + k / 2) % 32) + 2 * l + k % 2) := Lanes.at_of _ hl

/-- The format of the registers that ZREAD writes from a tile (R313). -/
def Tile.readFmt (t : Tile) : Nat := if t.tag = 1 then 1 else if t.tag = 3 then 3 else 0

section
variable {x : VArgs} {c : Ctx} {w : Wave} {s : State} {b : Block} (hb : s.block c.core c.bslot = some b)
  (hstop : tileStop s c.core b (x.sub % 128) = none)
include hb hstop

theorem zreadBody_none (hd : x.d = 1023) (ht : x.ty = tF64 → (b.tile (x.sub % 128)).tag = 11 ∨ (b.tile (x.sub % 128)).tag = 0) :
    zreadBody x c w s = .next s := by
  have hgo : (x.ty = tF64 && (b.tile (x.sub % 128)).tag ≠ 11 && (b.tile (x.sub % 128)).tag ≠ 0) = false := by
    by_cases hty : x.ty = tF64
    · rcases ht hty with h | h <;> simp [h]
    · simp [hty]
  simp only [zreadBody, hb, hstop, if_pos hd, hgo, Bool.false_eq_true, if_false]

theorem zreadBody_narrow (hd : x.d ≠ 1023) (hty : x.ty ≠ tF64) : zreadBody x c w s =
    .next (s.setWave c.core c.slot (c.writeEach w x.d x.c ((b.tile (x.sub % 128)).groupOf (c.low32 w x.a))
      fun _ => (b.tile (x.sub % 128)).readFmt)) := by
  simp only [zreadBody, hb, hstop, if_neg hd, if_neg hty]
  rfl

theorem zreadBody_wide (hd : x.d ≠ 1023) (hty : x.ty = tF64) (hlen : x.d + 2 * x.c ≤ 1023)
    (ht : (b.tile (x.sub % 128)).tag = 11 ∨ (b.tile (x.sub % 128)).tag = 0) : zreadBody x c w s =
      .next (s.setWave c.core c.slot (c.writeEach w x.d (2 * x.c) ((b.tile (x.sub % 128)).halfOf (c.low32 w x.a))
        fun k => if k % 2 = 0 then 11 else 12)) := by
  have hgo : ((b.tile (x.sub % 128)).tag ≠ 11 && (b.tile (x.sub % 128)).tag ≠ 0) = false := by
    rcases ht with h | h <;> simp [h]
  simp only [zreadBody, hb, hstop, if_neg hd, if_pos hty, hgo, Bool.false_eq_true, if_false]
  rw [← foldl_writePair c w _ _ _ _ _ _ hlen (fun i => ⟨?_, ?_⟩) (fun i => ⟨?_, ?_⟩)]
  · simp [Tile.halfOf]
  · simp
  · simp [Tile.halfOf, show (2 * i + 1) / 2 = i by omega, show (2 * i + 1) % 2 = 1 by omega]
  · simp

end

/-! ### ZWRITE (R313) -/

/-- The lanes of `n` registers that an instruction writes from, each by its register and its number. -/
def Ctx.laneWords (c : Ctx) (n : Nat) : List (Nat × Nat) := (List.range n).flatMap fun i => c.lanes.map fun l => (i, l)

/-- The halves that its lanes hold of `n` pairs, each by its pair, its lane and 0 for the low half. -/
def Ctx.laneHalves (c : Ctx) (n : Nat) : List (Nat × Nat × Nat) :=
  (List.range n).flatMap fun i => c.lanes.flatMap fun l => [(i, l, 0), (i, l, 1)]

theorem mem_laneWords {c : Ctx} {n k l : Nat} (hl : l < 32) : (k, l) ∈ c.laneWords n ↔ k < n ∧ c.act.getLsbD l = true := by
  simp [Ctx.laneWords, Ctx.mem_lanes, hl]

theorem mem_laneHalves {c : Ctx} {n k l h : Nat} (hl : l < 32) (hh : h < 2) :
    (k, l, h) ∈ c.laneHalves n ↔ k < n ∧ c.act.getLsbD l = true := by
  obtain rfl | rfl : h = 0 ∨ h = 1 := by omega
  all_goals simp [Ctx.laneHalves, Ctx.mem_lanes, hl]

/-- Lane `l` of register `k` past operand B, which at 1023 reads 0. -/
def Ctx.bWord (c : Ctx) (w : Wave) (x : VArgs) (k l : Nat) : Word := if x.b = 1023 then 0 else c.lane w (x.b + k) l

/-- The words of a tile after a ZWRITE from row group `g` on. -/
def Tile.zwritten (t : Tile) (x : VArgs) (c : Ctx) (w : Wave) (g : Nat) : KMap Word :=
  if x.ty = tF64 then (c.laneHalves x.c).foldl (fun m e =>
    kput m (64 * ((g + e.1) % 32) + 2 * e.2.1 + e.2.2) (c.bWord w x (2 * e.1 + e.2.2) e.2.1) 0) t.words
  else (c.laneWords x.c).foldl (fun m e => kput m (32 * ((g + e.1) % 128) + e.2) (c.bWord w x e.1 e.2) 0) t.words

theorem zwriteBody_of_sound {v : View} {x : VArgs} {c : Ctx} {w : Wave} {s : State} {b : Block} (hb : s.block c.core c.bslot = some b)
    (hstop : tileStop s c.core b (x.sub % 128) = none) (hfmt : formatBad w v = false)
    (ht : x.ty = tB32 ∨ (b.tile (x.sub % 128)).tag = 0 ∨ (b.tile (x.sub % 128)).tag = moveTag x.ty) : zwriteBody v x c w s =
      .next (s.setBlock c.core c.bslot (b.setTile (x.sub % 128) { b.tile (x.sub % 128) with
        words := (b.tile (x.sub % 128)).zwritten x c w (c.low32 w x.a)
        tag := if x.ty = tB32 then (b.tile (x.sub % 128)).tag else moveTag x.ty })) := by
  have hgo : (x.ty ≠ tB32 && (b.tile (x.sub % 128)).tag ≠ 0 && (b.tile (x.sub % 128)).tag ≠ moveTag x.ty) = false := by
    rcases ht with h | h | h <;> simp [h]
  simp only [zwriteBody, hb, hstop, hfmt, hgo, Bool.false_eq_true, if_false]
  by_cases hty : x.ty = tF64
  · simp only [Tile.zwritten, if_pos hty, Ctx.laneHalves, List.foldl_flatMap, List.foldl_cons, List.foldl_nil]
    rfl
  · simp only [Tile.zwritten, if_neg hty, Ctx.laneWords, List.foldl_flatMap, List.foldl_map]
    rfl

section
variable (t : Tile) {x : VArgs} (c : Ctx) (w : Wave) (g : Nat) (hc : x.c ≤ 32) {k l : Nat} (hl : l < 32)
include hc hl

theorem zwritten_narrow (hty : x.ty ≠ tF64) (hk : k < 128) : kgetD (t.zwritten x c w g) (32 * ((g + k) % 128) + l) 0 =
    if k < x.c ∧ c.act.getLsbD l = true then c.bWord w x k l else t.word (32 * ((g + k) % 128) + l) := by
  have hkey : ∀ e ∈ c.laneWords x.c, 32 * ((g + e.1) % 128) + e.2 = 32 * ((g + k) % 128) + l → e = (k, l) := by
    rintro ⟨i, m⟩ he hk'
    simp only [Ctx.laneWords, List.mem_flatMap, List.mem_range, List.mem_map, Ctx.mem_lanes, Prod.mk.injEq] at he
    obtain ⟨i', hi, m', ⟨hm, -⟩, rfl, rfl⟩ := he
    simp only at hk'
    simp only [Prod.mk.injEq]
    omega
  rw [Tile.zwritten, if_neg hty, kgetD_foldl_kput (y := (k, l)) hkey]
  simp only [mem_laneWords hl]
  rfl

theorem zwritten_wide (hty : x.ty = tF64) (hk : k < 32) {h : Nat} (hh : h < 2) :
    kgetD (t.zwritten x c w g) (64 * ((g + k) % 32) + 2 * l + h) 0 = if k < x.c ∧ c.act.getLsbD l = true then
      c.bWord w x (2 * k + h) l else t.word (64 * ((g + k) % 32) + 2 * l + h) := by
  have hkey : ∀ e ∈ c.laneHalves x.c, 64 * ((g + e.1) % 32) + 2 * e.2.1 + e.2.2 = 64 * ((g + k) % 32) + 2 * l + h →
      e = (k, l, h) := by
    rintro ⟨i, m, p⟩ he hk'
    simp only [Ctx.laneHalves, List.mem_flatMap, List.mem_range, Ctx.mem_lanes, List.mem_cons, List.not_mem_nil, or_false,
      Prod.mk.injEq] at he
    obtain ⟨i', hi, m', ⟨hm, -⟩, he⟩ := he
    simp only at hk'
    simp only [Prod.mk.injEq]
    omega
  rw [Tile.zwritten, if_pos hty, kgetD_foldl_kput (y := (k, l, h)) hkey]
  simp only [mem_laneHalves hl hh]
  rfl

end

/-- Settles O27: each instruction by what its meaning does where nothing stops it. -/
theorem tilesFromWaves : Obligations.TilesFromWaves := by
  unfold Obligations.TilesFromWaves
  refine ⟨fun f s core slot w b h hsb htok => ?mfence, fun f s core slot w b h => ?nbar, fun f s core slot w b h hr => ?nbwait,
    fun f s core slot w b h => ?badv, fun f s core slot w b h => ?bqry, fun f s core slot w b h => ?zread,
    fun f s core slot w b h => ?zwrite⟩
  case mfence => exact completes_of_setWave rfl h (mfenceBody_of_performed hsb htok) .of_bank
  case nbar =>
    exact completesAt_of_setWave rfl h (nbarBody_of_block (x := f.args .nbar false) (c := ctxFor (.nbar f) s core slot w) h.block)
      (.signalled w) (.setBlock ..)
  case nbwait =>
    exact completesAt_of_sameIssue rfl h
      (nbwaitBody_of_reached (x := f.args .nbwait false) (c := ctxFor (.nbwait f) s core slot w) h.block hr) (.refl s)
  case badv =>
    have hblock : s.block (ctxFor (.badv f) s core slot w).core (ctxFor (.badv f) s core slot w).bslot = some b := h.block
    exact ⟨fun hn => completesAt_of_sameIssue rfl h (badvBody_zero (x := f.args .badv false) hblock hn) (.refl s),
      fun hn hen hout hroom => completesAt_of_setWave rfl h (badvBody_fill (x := f.args .badv false) hblock hn hen hout hroom)
        (.signalled w) (.setBlock ..),
      fun hn hen hout hfits hheld => completesAt_of_setWave rfl h
        (badvBody_drain (x := f.args .badv false) hblock hn hen hout hfits hheld) (.signalled w) (.setBlock ..)⟩
  case bqry =>
    intro c u
    have hd := vec_dst_ok (ready_operands h.toReady _ (.head _)) (by decide)
    obtain ⟨w1, hdone, honly, hlane⟩ := completes_of_writeEach (d := f.d.toNat) rfl h (hd.imp_right And.right)
      (bqryBody_none (x := f.args .bqry false) (c := c) h.block) (bqryBody_some (x := f.args .bqry false) (c := c) h.block)
    exact ⟨w1, hdone, honly, fun hne l hl hv => ⟨hlane hne 0 l (by omega) hl hv, hlane hne 1 l (by omega) hl hv⟩⟩
  case zread =>
    intro c z t g d hstop
    have hrun := ready_operands h.toReady ((f.args .zread false).od
      (if f.ty.toNat == tF64 then .run (2 * f.c.toNat) 2 else .run f.c.toNat 1)) (.head _)
    refine ⟨fun hty => ?narrow, fun hty htag => ?wide⟩
    case narrow =>
      rw [if_neg (by simpa using hty)] at hrun
      obtain ⟨w1, hdone, honly, hlane⟩ := completes_of_writeEach (d := d) (v := t.groupOf g) rfl h (run_dst_ok hrun (by decide))
        (fun hd => zreadBody_none (x := f.args .zread false) (c := c) h.block hstop hd fun h64 => absurd h64 hty)
        (fun hd => zreadBody_narrow (x := f.args .zread false) (c := c) (w := w) h.block hstop hd hty)
      exact ⟨w1, hdone, honly, fun hne k l hk hl hv => (hlane hne k l hk hl hv).trans (by rw [Tile.lane_groupOf t g k hl])⟩
    case wide =>
      rw [if_pos (by simpa using hty)] at hrun
      have hd := run_dst_ok hrun (by decide)
      obtain ⟨w1, hdone, honly, hlane⟩ := completes_of_writeEach (d := d) (v := t.halfOf g) rfl h hd
        (fun hd => zreadBody_none (x := f.args .zread false) (c := c) h.block hstop hd fun _ => htag)
        (fun hne => zreadBody_wide (x := f.args .zread false) (c := c) (w := w) h.block hstop hne hty
          ((hd.resolve_left hne).trans (by decide)) htag)
      exact ⟨w1, hdone, honly, fun hne k l hk hl hv => (hlane hne k l hk hl hv).trans (by rw [Tile.lane_halfOf t g k hl])⟩
  case zwrite =>
    intro c z t g src hstop htag
    have hc : f.c.toNat ≤ 32 := by
      have ho := ready_operands h.toReady ((f.args .zwrite false).oc (.literal 1 32)) (.tail _ (.tail _ (.head _)))
      exact of_decide_eq_true (Bool.and_eq_true_iff.mp ho).2
    have htile := tile_setTile b z { t with words := t.zwritten (f.args .zwrite false) c w g
                                            tag := if f.ty.toNat = tB32 then t.tag else moveTag f.ty.toNat }
    refine ⟨_, completesAt_of_setBlock rfl h (zwriteBody_of_sound h.block hstop h.formats htag),
      fun z2 hz => (htile z2).trans (if_neg hz), ?tag, fun hty k l hk hl => ?narrow, fun hty k l p hk hl hp => ?wide⟩
    case tag => exact congrArg Tile.tag ((htile z).trans (if_pos rfl))
    case narrow =>
      refine (congrArg (Tile.word · _) ((htile z).trans (if_pos rfl))).trans ?_
      exact zwritten_narrow t c w g hc hl hty hk
    case wide =>
      refine (congrArg (Tile.word · _) ((htile z).trans (if_pos rfl))).trans ?_
      exact zwritten_wide t c w g hc hl hty hk hp

end Sys2Proof.Machine
end

section
/-!
BWAIT, BFREE, NBSIG, NBSW, SLOOP, SENDL, SEND and SNOP (O26).
-/

namespace Sys2Proof.Machine

/-! ### What an instruction makes of its sequencer (R36, R293) -/

theorem modSeqr_seqLine {s : State} {core bslot : Nat} {b : Block} (hb : s.block core bslot = some b)
    (g : Sequencer → Sequencer) :
    (s.seqLine core bslot).modSeqr core bslot g = s.setBlock core bslot (b.setSeqr (g b.onSeqLine.seqr)) := by
  rw [seqLine_of hb, modSeqr_setBlock]
  rfl

theorem now_seqLine (s : State) (core bslot d : Nat) : (s.seqLine core bslot).now d = s.now d := by
  simp only [State.seqLine, State.modBlock]
  split <;> rfl

theorem segs_seqLine {s : State} {core bslot : Nat} {b : Block} (hb : s.block core bslot = some b) :
    ((s.seqLine core bslot).core core).segs = (s.core core).segs := by
  rw [seqLine_of hb, core_setBlock_segs]

/-- Where a relative target lies depends on the segments alone (R37). -/
theorem relative_congr {k k' : Core} (h : k'.segs = k.segs) (code : Nat) (pc : IAddr) (delta : Int) :
    k'.relative code pc delta = k.relative code pc delta := by
  have hseg : k'.segment = k.segment := by
    funext code n
    rw [Core.segment, h, Core.segment]
  have hxfer : k'.xfer = k.xfer := by
    funext code x
    rw [Core.xfer, hseg, Core.xfer]
  rw [Core.relative, hseg, hxfer, Core.relative]

section
variable {i : Instr} {s : State} {core bslot : Nat} {b : Block} {body : SeqBody} {g : Sequencer → Sequencer}
  (he : exec i s = issueSeq i.view (encode i) body s) (h : SeqReady i s core bslot b)
include he h

/-- An instruction that changes the sequencer by `g` and goes on, completes. -/
theorem seqCompletes_of_next
    (hb : body core bslot b (s.seqLine core bslot) = .next ((s.seqLine core bslot).modSeqr core bslot g)) :
    SeqCompletes i s core bslot (b.setSeqr { g b.onSeqLine.seqr with
      pc := (s.core core).nextValid b.code b.seqr.pc, status := 2 }) := by
  rw [SeqCompletes, he, issueSeq_of_next h hb, modSeqr_seqLine h.block, modSeqr_setBlock,
    nextValid_congr (core_setBlock_segs ..)]
  rfl

/-- An instruction that leaves the sequencer as it is and goes on, completes. -/
theorem seqCompletes_of_same (hb : body core bslot b (s.seqLine core bslot) = .next (s.seqLine core bslot)) :
    SeqCompletes i s core bslot (b.setSeqr (b.seqr.moved (s.core core) b.code)) := by
  have hid : (s.seqLine core bslot).modSeqr core bslot id = s.seqLine core bslot :=
    (modSeqr_seqLine h.block id).trans (seqLine_of h.block).symm
  exact seqCompletes_of_next (g := id) he h (hb.trans (congrArg SeqDone.next hid.symm))

/-- An instruction that sets the sequencer's address itself completes, the sequencer at work unless it has ended. -/
theorem seqCompletes_of_jumped {status : Nat}
    (hb : body core bslot b (s.seqLine core bslot) = .jumped ((s.seqLine core bslot).modSeqr core bslot g))
    (hst : (if (g b.onSeqLine.seqr).status = 5 then 5 else 2) = status) :
    SeqCompletes i s core bslot (b.setSeqr { g b.onSeqLine.seqr with status }) := by
  rw [SeqCompletes, he, ← hst]
  simp only [issueSeq, h.turn, h.block, h.fate, h.sound, hb, Bool.false_eq_true, if_false]
  rw [modSeqr_seqLine h.block, modSeqr_setBlock]
  rfl

end

/-! ### The waits, and the signals that are deferred (R306, R307) -/

section
variable {f : XF} {s : State} {core bslot : Nat} {b : Block} (hs : b.seqBehind (s.now (dieOf core)) = false)
include hs

theorem bwaitBody_of_reached (hen : (b.buf f.bufA.toNat).en = true) (hfits : f.va.toNat ≤ (b.buf f.bufA.toNat).nslot)
    (hn : f.va.toNat ≤ if (b.buf f.bufA.toNat).out then (b.buf f.bufA.toNat).nslot - (b.buf f.bufA.toNat).held
      else (b.buf f.bufA.toNat).held) : bwaitBody f core bslot b s = .next s := by
  simp only [bwaitBody, hen, Nat.not_lt.mpr hfits, hs, hn, Bool.not_true, Bool.false_eq_true, if_false, if_true]

theorem bfreeBody_of_room (hroom : b.seqr.queue.length < 4) (hen : (b.buf f.bufA.toNat).en = true)
    (hin : (b.buf f.bufA.toNat).out = false) (hfits : f.va.toNat ≤ (b.buf f.bufA.toNat).nslot) :
    bfreeBody f core bslot b s = .next (s.modSeqr core bslot fun q =>
      { q with queue := q.queue ++ [.bfree f.bufA.toNat f.va.toNat q.last] }) := by
  simp only [bfreeBody, hs, Nat.not_le.mpr hroom, hen, hin, Nat.not_lt.mpr hfits, decide_false, Bool.or_self, Bool.not_true,
    Bool.false_eq_true, if_false]

theorem nbsigBody_of_room (hroom : b.seqr.queue.length < 4) : nbsigBody f core bslot b s = .next (s.modSeqr core bslot fun q =>
    { q with queue := q.queue ++ [.nbsig f.bufO.toNat f.va.toNat q.last (f.asrc.toNat = 1)] }) := by
  simp only [nbsigBody, hs, Nat.not_le.mpr hroom, decide_false, Bool.or_self, Bool.false_eq_true, if_false]

theorem nbswBody_of_reached
    (hr : reached (b.nbc.getD f.bufO.toNat 0) (b.seqr.marks.getD f.bufO.toNat 0 + f.va.setWidth 32) = true) :
    nbswBody f core bslot b s = .next (s.modSeqr core bslot fun q =>
      { q with marks := lmod q.marks f.bufO.toNat fun _ => b.seqr.marks.getD f.bufO.toNat 0 + f.va.setWidth 32 }) := by
  simp only [nbswBody, hs, hr, Bool.false_eq_true, if_false, if_true]

end

/-! ### Loops (R308) -/

/-- The count of an SLOOP, of its CNT or of the group register that it names (R297, R308). -/
def sloopCount (f : XF) (core bslot : Nat) (s : State) : Nat :=
  if f.asrc.toNat = 0 then f.va.toNat + f.vb.toNat * 2 ^ 10
  else (s.blockGrp core bslot f.wv.toNat (2 * f.ga.toNat)).toNat % 2 ^ 32

/-- Past its checks an SLOOP skips the loop of count 0, and enters any other where there is room for it. -/
theorem sloopBody_of_sound {f : XF} {s : State} {core bslot : Nat} {b : Block} {e : IAddr}
    (ht : (s.core core).relative b.code b.seqr.pc (sext 19 (f.bufO ++ f.bufB ++ f.bufA ++ f.tile).toNat) = .ok e)
    (hg : f.asrc.toNat = 1 → (s.waveOf core bslot f.wv.toNat).isSome ∧ s.grpBad core bslot f.wv.toNat [2 * f.ga.toNat] = false) :
    sloopBody f core bslot b s =
    if sloopCount f core bslot s = 0 then .jumped (s.modSeqr core bslot fun q => { q with pc := (s.core core).nextValid b.code e })
    else if b.seqr.loops.length = 4 then .halt 72
    else .next (s.modSeqr core bslot fun q =>
      { q with loops := ⟨sloopCount f core bslot s, (s.core core).nextValid b.code b.seqr.pc, 0⟩ :: q.loops }) := by
  have hwave : (f.asrc.toNat = 1 && (s.waveOf core bslot f.wv.toNat).isNone) = false := by
    simpa [Option.isSome_iff_ne_none] using fun h1 => (hg h1).1
  have hgrp : (f.asrc.toNat = 1 && s.grpBad core bslot f.wv.toNat [2 * f.ga.toNat]) = false := by
    simpa using fun h1 => (hg h1).2
  simp only [sloopBody, ht, hwave, hgrp, Bool.false_eq_true, if_false]
  rfl

section
variable {core bslot : Nat} {b : Block} {top : SeqLoop} {rest : List SeqLoop} (hl : b.seqr.loops = top :: rest) (s : State)
include hl

theorem sendlBody_of_again (hn : top.count - 1 ≠ 0) : sendlBody core bslot b s = .jumped (s.modSeqr core bslot fun q =>
    { q with pc := top.start, loops := { top with count := top.count - 1, t := top.t + 1 } :: rest }) := by
  simp only [sendlBody, hl, if_pos hn]

theorem sendlBody_of_last (hn : top.count - 1 = 0) :
    sendlBody core bslot b s = .next (s.modSeqr core bslot fun q => { q with loops := rest }) := by
  simp only [sendlBody, hl, if_neg (not_not_intro hn)]

end

/-- Settles O26: each instruction by what its meaning does to its sequencer where nothing stops it (R306 to R308); that SEND leaves the
address at itself is the model's reading (log 26). -/
theorem sequencerControl : Obligations.SequencerControl := by
  unfold Obligations.SequencerControl
  refine ⟨fun f s core bslot b h hs hen hfits hn => ?bwait, fun f s core bslot b h hs hroom hen hin hfits => ?bfree,
    fun f s core bslot b h hs hroom => ?nbsig, fun f s core bslot b h hs hr => ?nbsw,
    fun f s core bslot b e h ht hg => ?sloop, fun f s core bslot b top rest h hl => ?sendl,
    fun f s core bslot b h => ?send, fun f s core bslot b h => ?snop⟩
  case' bwait | bfree | nbsig | nbsw => rw [← now_seqLine s core bslot] at hs
  case bwait => exact seqCompletes_of_same rfl h (bwaitBody_of_reached hs hen hfits hn)
  case bfree => exact seqCompletes_of_next rfl h (bfreeBody_of_room hs hroom hen hin hfits)
  case nbsig => exact seqCompletes_of_next rfl h (nbsigBody_of_room hs hroom)
  case nbsw => exact seqCompletes_of_next rfl h (nbswBody_of_reached hs hr)
  case sloop =>
    have hsegs := segs_seqLine h.block
    have hbody := sloopBody_of_sound ((relative_congr hsegs ..).trans ht) hg
    rw [nextValid_congr hsegs, nextValid_congr hsegs] at hbody
    exact ⟨fun hn => seqCompletes_of_jumped rfl h (hbody.trans (if_pos hn)) (if_neg h.going),
      fun hn hroom => seqCompletes_of_next rfl h (hbody.trans ((if_neg hn).trans (if_neg hroom)))⟩
  case sendl =>
    exact ⟨fun hn => seqCompletes_of_jumped rfl h (sendlBody_of_again hl _ hn) (if_neg h.going),
      fun hn => seqCompletes_of_next rfl h (sendlBody_of_last hl _ hn)⟩
  case send => exact seqCompletes_of_jumped (body := sendBody) rfl h rfl (if_pos rfl)
  case snop => exact seqCompletes_of_same (body := snopBody) rfl h rfl

end Sys2Proof.Machine
end

section
/-!
What stores and records leave: everything of the part but memory, its maps and the fault ring (for O29, O32, O33, O39, O41, O42, O45).
-/

namespace Sys2Proof.Machine

/-- `s` without what a store or a record may change: memory and its maps, the fault ring, and that a sweeper pass is due. -/
def State.besides (s : State) : State :=
  { s with mem := [], tags := [], poison := [], kaolin := [], lineCount := [], ring := { s.ring with head := 0, dropped := 0 },
           msix := [], sweeper := { s.sweeper with due := false } }

/-- `t` is `s` after stores of bytes and records: a unit that has its tag still has its bytes, and no granule has become owned. -/
structure Stored (s t : State) : Prop where
  rest : t.besides = s.besides
  tags : ∀ u ∈ t.tags, u ∈ s.tags
  bytes : ∀ u ∈ t.tags, ∀ k, k < 16 → t.byte (16 * u + k) = s.byte (16 * u + k)
  owned : ∀ n, (t.granuleNo n).state = 1 → (s.granuleNo n).state = 1

theorem Stored.refl (s : State) : Stored s s := ⟨rfl, fun _ h => h, fun _ _ _ _ => rfl, fun _ h => h⟩

theorem Stored.trans {s t u : State} (h : Stored s t) (h' : Stored t u) : Stored s u where
  rest := h'.rest.trans h.rest
  tags x hx := h.tags x (h'.tags x hx)
  bytes x hx k hk := (h'.bytes x hx k hk).trans (h.bytes x (h'.tags x hx) k hk)
  owned n hn := h.owned n (h'.owned n hn)

/-- Stores that follow one another. -/
theorem stored_foldl {α : Type} (l : List α) {f : State → α → State} (hf : ∀ s x, Stored s (f s x)) (s : State) :
    Stored s (l.foldl f s) :=
  List.foldlRecOn l f (motive := Stored s) (.refl s) fun t ht x _ => ht.trans (hf t x)

section
variable {s t : State} (h : Stored s t)
include h

theorem Stored.cores : t.cores = s.cores := (congrArg State.cores h.rest :)
theorem Stored.regions : t.regions = s.regions := (congrArg State.regions h.rest :)
theorem Stored.grids : t.grids = s.grids := (congrArg State.grids h.rest :)
theorem Stored.launches : t.launches = s.launches := (congrArg State.launches h.rest :)
theorem Stored.images : t.images = s.images := (congrArg State.images h.rest :)
theorem Stored.queues : t.queues = s.queues := (congrArg State.queues h.rest :)
theorem Stored.channels : t.channels = s.channels := (congrArg State.channels h.rest :)
theorem Stored.halts : t.halts = s.halts := (congrArg State.halts h.rest :)
theorem Stored.clusters : t.clusters = s.clusters := (congrArg State.clusters h.rest :)
theorem Stored.firmware : t.firmware = s.firmware := (congrArg State.firmware h.rest :)
theorem Stored.sorrel : t.sorrel = s.sorrel := (congrArg State.sorrel h.rest :)
theorem Stored.saveOrder : t.saveOrder = s.saveOrder := (congrArg State.saveOrder h.rest :)
theorem Stored.served : t.served = s.served := (congrArg State.served h.rest :)
theorem Stored.time : t.time = s.time := (congrArg State.time h.rest :)
theorem Stored.running : t.sweeper.running = s.sweeper.running := congrArg (·.sweeper.running) h.rest
theorem Stored.endedAt : t.sweeper.endedAt = s.sweeper.endedAt := congrArg (·.sweeper.endedAt) h.rest

theorem Stored.core (c : Nat) : t.core c = s.core c := by rw [State.core, h.cores, State.core]
theorem Stored.wave (c slot : Nat) : t.wave c slot = s.wave c slot := by rw [State.wave, h.core, State.wave]
theorem Stored.block (c n : Nat) : t.block c n = s.block c n := by rw [State.block, h.core, State.block]
theorem Stored.queue (n : Nat) : t.queue n = s.queue n := by rw [State.queue, h.queues, State.queue]

/-- A tagged capability is what it was. -/
theorem Stored.capBits {u : Nat} (hu : u ∈ t.tags) : (t.capAt (16 * u)).bits = (s.capAt (16 * u)).bits := by
  simp only [State.capAt, State.numAt, bytesAt_congr (h.bytes u hu)]
end

theorem stored_store (s : State) (a : Nat) (bs : List Byte) : Stored s (s.store a bs) where
  rest := countWrite_keeps (fun t => t.besides = s.besides) (fun _ _ h => h) (fun _ _ h => h) s a bs.length rfl
  tags u hu := ((tags_store s a bs u).mp hu).2
  bytes u hu k hk := by
    have hout := ((tags_store s a bs u).mp hu).1
    rw [mem_tagUnits] at hout
    rw [byte_store, if_neg (by omega)]
  owned n := by
    refine countWrite_keeps (fun t => (t.granuleNo n).state = 1 → (s.granuleNo n).state = 1) (fun t k h hn => h ?_)
      (fun _ _ h => h) s a bs.length id
    rw [State.quarantineGranule, State.granuleNo, kgetD_kset] at hn
    split at hn
    · cases hn
    · exact hn

theorem stored_putRecord (s : State) (ws : List Nat) : Stored s (s.putRecord ws) := by
  unfold State.putRecord
  dsimp only
  split
  · exact ⟨rfl, fun _ h => h, fun _ _ _ _ => rfl, fun _ h => h⟩
  · have h := stored_store s (s.ring.base + 64 * (s.ring.head % 2 ^ s.ring.size)) (dwordBytes ws)
    exact ⟨(congrArg (fun t : State => { t with ring := s.besides.ring }) h.rest), h.tags, h.bytes, h.owned⟩

theorem stored_patch (s : State) (a : Nat) (xs ys : List Byte) : Stored s (s.patch a xs ys) := by
  induction xs generalizing s a ys with
  | nil =>
    unfold State.patch
    split
    · exact .refl s
    · exact stored_store s a ys
  | cons x xs ih =>
    cases ys with
    | nil => exact .refl s
    | cons y ys =>
      refine Stored.trans ?_ (ih _ _ _)
      split
      · exact .refl s
      · exact stored_store s a [y]

end Sys2Proof.Machine
end

section
/-!
Turns (O57): what could come next does not depend on the turn just taken, and the close of a step chooses from it.
-/

namespace Sys2Proof.Machine

/-- `s` with another turn. -/
def State.onTurn (s : State) (u : Turn) : State := { s with turn := u }

section
variable (s : State) (u : Turn)

theorem core_onTurn (c : Nat) : (s.onTurn u).core c = s.core c := rfl

theorem grids_onTurn : (s.onTurn u).grids = s.grids := rfl

theorem regions_onTurn : (s.onTurn u).regions = s.regions := rfl

theorem segEntry_onTurn (code num : Nat) : (s.onTurn u).segEntry code num = s.segEntry code num := rfl

theorem placeable_onTurn (gk : Nat) : (s.onTurn u).placeable gk = s.placeable gk := rfl

/-! ### A grid's next blocks placed, whatever the turn (R398 to R402) -/

theorem bringSegment_onTurn (c code num : Nat) :
    (s.onTurn u).bringSegment c code num = (s.bringSegment c code num).onTurn u := by
  unfold State.bringSegment
  rw [core_onTurn, segEntry_onTurn]
  dsimp only
  split
  · rfl
  split
  · rfl
  split <;> rfl

theorem takeLeast_onTurn (n : Nat) (cs : List Nat) : (s.onTurn u).takeLeast n cs = s.takeLeast n cs := by
  induction n generalizing cs with
  | zero => rfl
  | succ n ih => simp only [State.takeLeast, ih]; rfl

theorem pickCores_onTurn (code : Nat) (k : Kernel) (e : Env) (fresh : Bool) :
    (s.onTurn u).pickCores code k e fresh = s.pickCores code k e fresh := by
  unfold State.pickCores
  simp only [takeLeast_onTurn]
  rfl

theorem standBlock_onTurn (c gk : Nat) (g : Grid) (e : Env) (index rank cluster : Nat) (audit : Option Nat) :
    (s.onTurn u).standBlock c gk g e index rank cluster audit = (s.standBlock c gk g e index rank cluster audit).onTurn u := by
  unfold State.standBlock
  rw [List.foldl_hom (State.onTurn · u) fun s n => bringSegment_onTurn s u c g.code n]
  rfl

theorem standCluster_onTurn (gk : Nat) (g : Grid) (e : Env) (cs : List Nat) :
    (s.onTurn u).standCluster gk g e cs = (s.standCluster gk g e cs).onTurn u := by
  have hfold := List.foldl_hom (State.onTurn · u) (l := cs.zip (List.range cs.length))
    (init := { s with nextUid := s.nextUid + 1 })
    (g₁ := fun t x => t.standBlock x.1 gk g e (g.next + x.2) x.2 s.nextUid none)
    (g₂ := fun t x => t.standBlock x.1 gk g e (g.next + x.2) x.2 s.nextUid none) fun t x => standBlock_onTurn ..
  unfold State.standCluster
  dsimp only
  erw [hfold]
  rfl

theorem placeNext_onTurn (gk : Nat) (fresh : Bool) :
    (s.onTurn u).placeNext gk fresh = (s.placeNext gk fresh).map (State.onTurn · u) := by
  have hlatch (colour : Nat) (cs : List Nat) :
      cs.foldl (fun s c => if s.latchedTo c colour then s else s.latchCore c colour) (s.onTurn u)
        = (cs.foldl (fun s c => if s.latchedTo c colour then s else s.latchCore c colour) s).onTurn u :=
    List.foldl_hom (State.onTurn · u) fun t c =>
      (apply_ite (State.onTurn · u) (t.latchedTo c colour = true) t (t.latchCore c colour)).symm
  unfold State.placeNext
  rw [grids_onTurn, regions_onTurn]
  split
  · rfl
  split
  · rfl
  split
  · rfl
  · simp only [pickCores_onTurn, hlatch, standCluster_onTurn, Option.map_map]
    rfl

theorem placeWhole_onTurn (gk : Nat) (fresh : Bool) (n : Nat) :
    (s.onTurn u).placeWhole gk fresh n = (s.placeWhole gk fresh n).map (State.onTurn · u) := by
  induction n generalizing s with
  | zero => rfl
  | succ n ih =>
    simp only [State.placeWhole, placeNext_onTurn]
    cases s.placeNext gk fresh with
    | none => rfl
    | some s1 =>
      simp only [Option.map_some, grids_onTurn, ih]
      split
      · split <;> rfl
      · rfl

theorem tryGrid_onTurn (gk : Nat) (fresh : Bool) :
    (s.onTurn u).tryGrid gk fresh = (s.tryGrid gk fresh).map (State.onTurn · u) := by
  unfold State.tryGrid
  rw [placeNext_onTurn, grids_onTurn]
  split
  · rfl
  · rw [placeWhole_onTurn]
    split <;> rfl

/-! ### What could come next, whatever the turn -/

theorem waitsWhole_onTurn (gk : Nat) (g : Grid) : (s.onTurn u).waitsWhole gk g = s.waitsWhole gk g := by
  unfold State.waitsWhole
  rw [tryGrid_onTurn, Option.isNone_map]

theorem heldBack_onTurn (gk : Nat) (g : Grid) : (s.onTurn u).heldBack gk g = s.heldBack gk g := by
  simp only [State.heldBack, State.gridBefore, waitsWhole_onTurn, tryGrid_onTurn, Option.isSome_map]
  rfl

theorem latchWanted_onTurn (c : Nat) : (s.onTurn u).latchWanted c = s.latchWanted c := by
  unfold State.latchWanted
  refine congrArg (fun f => List.findSome? f s.grids) (funext fun (gk, g) => ?_)
  dsimp only
  rw [heldBack_onTurn, placeable_onTurn, tryGrid_onTurn, tryGrid_onTurn, Option.isSome_map]
  split
  · rfl
  · cases s.tryGrid gk true <;> rfl

theorem latchEvents_onTurn : (s.onTurn u).latchEvents = s.latchEvents := by
  simp only [State.latchEvents, latchWanted_onTurn]
  rfl

theorem internalEvents_onTurn : internalEvents (s.onTurn u) = internalEvents s := by
  unfold internalEvents
  rw [latchEvents_onTurn]
  rfl

/-- The turns that could come next are the same whatever turn was taken. -/
theorem candidates_onTurn : candidates (s.onTurn u) = candidates s := by
  unfold candidates
  rw [internalEvents_onTurn]
  rfl
end

/-! ### The turn that a step chooses -/

/-- A turn chosen from the turns that could come next, or none where there are none, can be taken. -/
theorem turnLegal_of_chosen (s : State) (n : Nat) :
    (s.onTurn (if (candidates s).isEmpty then .idle else (candidates s).getD (n % (candidates s).length) .idle)).TurnLegal := by
  unfold State.TurnLegal
  rw [candidates_onTurn]
  split
  · exact .inl rfl
  next hne =>
    have hpos : 0 < (candidates s).length := List.length_pos_iff.mpr (by simpa using hne)
    refine .inr ?_
    rw [List.getD_eq_getElem _ _ (Nat.mod_lt n hpos)]
    exact List.getElem_mem _

theorem turnLegal_afterStep (s : State) : (afterStep s).TurnLegal := turnLegal_of_chosen _ _

/-- What a closed outcome leaves is a step's close. -/
theorem eq_afterStep_of_closed {o : Host.Outcome State Fault Refusal} {t : State} (h : closed o = .next t) :
    ∃ u, t = afterStep u := by
  cases o with
  | next u => exact ⟨u, by cases h; rfl⟩
  | fault => cases h
  | refused => cases h

/-- Every step ends with its close. -/
theorem eq_afterStep_of_step {s t : State} (h : step s = .next t) : ∃ u, t = afterStep u := by
  unfold step at h
  split at h
  · exact eq_afterStep_of_closed h
  · exact eq_afterStep_of_closed h
  next u _ => exact ⟨u, by cases h; rfl⟩

/-- Settles O57: a step ends with its close, which chooses the turn from what could come next, and what could come next does not
depend on the turn. -/
theorem turnsStayLegal : Obligations.TurnsStayLegal := by
  unfold Obligations.TurnsStayLegal
  intro s t _ h
  obtain ⟨u, rfl⟩ := eq_afterStep_of_step h
  exact turnLegal_afterStep u

end Sys2Proof.Machine
end

section
/-!
The security core (O44): proposals over colours, granules, capabilities and tables, attestation, live update and the rollback counters.
-/

namespace Sys2Proof

theorem kget_filter_of_true {α : Type} {m : KMap α} {k : Nat} {p : Nat × α → Bool} (h : ∀ v, p (k, v) = true) :
    kget (m.filter p) k = kget m k := by
  induction m with
  | nil => rfl
  | cons e m ih =>
    obtain ⟨k', v⟩ := e
    by_cases hp : p (k', v) = true
    · rw [List.filter_cons_of_pos hp, kget, kget, ih]
    · have hk : k' ≠ k := by
        rintro rfl
        exact hp (h v)
      rw [List.filter_cons_of_neg hp, ih, kget, if_neg hk]

/-- A map of which the keys that `keep` takes are left. -/
theorem kgetD_filter_key {α : Type} (m : KMap α) (keep : Nat → Bool) (k : Nat) (d : α) :
    kgetD (m.filter fun e => keep e.1) k d = if keep k then kgetD m k d else d := by
  unfold kgetD
  split
  next h => rw [kget_filter_of_true fun _ => h]
  next h => rw [kget_filter_of_false fun _ => Bool.eq_false_iff.mpr h, Option.getD_none]

theorem nodup_rangeFrom (lo n : Nat) : (rangeFrom lo n).Nodup := by
  exact List.Nodup.map (fun x y h => Nat.add_left_cancel h) List.nodup_range

/-- The entries of distinct keys, each changed by itself. -/
theorem kgetD_foldl_kset {α : Type} (d : Nat → α) (f : α → α) {l : List Nat} (hl : l.Nodup) (m : KMap α) (k : Nat) :
    kgetD (l.foldl (fun m n => kset m n (f (kgetD m n (d n)))) m) k (d k) =
      if k ∈ l then f (kgetD m k (d k)) else kgetD m k (d k) := by
  induction l generalizing m with
  | nil => simp
  | cons n l ih =>
    obtain ⟨hn, hl⟩ := List.nodup_cons.mp hl
    rw [List.foldl_cons, ih hl]
    by_cases hk : k = n
    · subst hk
      simp [hn]
    · simp [hk, kgetD_kset_ne _ _ _ hk]

end Sys2Proof

namespace Sys2Proof.Machine

/-! ### Granules changed (R445, R447, R448) -/

theorem granuleNo_changeGranules (s : State) (p : Proposal) (f : Granule → Granule) (n : Nat) :
    (s.changeGranules p f).granuleNo n = if p.first ≤ n ∧ n < p.first + p.count then f (s.granuleNo n) else s.granuleNo n := by
  simp only [← mem_rangeFrom]
  exact kgetD_foldl_kset Granule.initial f (nodup_rangeFrom p.first p.count) s.kaolin n

theorem byte_scrub (s : State) (first count a : Nat) :
    (s.scrub first count).byte a = if first ≤ a / 65536 ∧ a / 65536 < first + count then 0 else s.byte a := by
  refine (kgetD_filter_key s.mem (fun a => a / 65536 < first || first + count ≤ a / 65536) a 0).trans ?_
  simp only [Bool.or_eq_true, decide_eq_true_eq]
  by_cases hin : first ≤ a / 65536 ∧ a / 65536 < first + count
  · rw [if_pos hin, if_neg (by omega)]
  · rw [if_neg hin, if_pos (by omega)]
    rfl

/-- A number outside a range of granules stays in a set of which that range is cleared. -/
theorem mem_outside {l : NSet} {u k first count : Nat} :
    u ∈ l.filter (fun u => u / k < first || first + count ≤ u / k) ↔ u ∈ l ∧ ¬(first ≤ u / k ∧ u / k < first + count) := by
  rw [List.mem_filter]
  simp only [Bool.or_eq_true, decide_eq_true_eq, not_and_or, not_le, not_lt]

/-- Granules scrubbed and changed. -/
theorem granuleChange_scrubbed (s : State) (p : Proposal) (f : Granule → Granule) :
    GranuleChange s (((s.coolGranules p.first p.count).scrub p.first p.count).changeGranules p f) p true f where
  mine n h h' := (granuleNo_changeGranules _ p f n).trans (if_pos ⟨h, h'⟩)
  others n h := (granuleNo_changeGranules _ p f n).trans (if_neg h)
  bytes a := by
    simp only [true_and]
    exact byte_scrub (s.coolGranules p.first p.count) p.first p.count a
  tags u := by
    simp only [true_and]
    exact mem_outside
  poison u := by
    simp only [true_and]
    exact mem_outside
  cold l h := (mem_outside.mp h).2
  cores := rfl

/-- Granules changed whose bytes stay. -/
theorem granuleChange_kept {s t : State} {p : Proposal} {f : Granule → Granule}
    (hk : ∀ n, t.granuleNo n = if p.first ≤ n ∧ n < p.first + p.count then f (s.granuleNo n) else s.granuleNo n)
    (hmem : t.mem = s.mem) (htags : t.tags = s.tags) (hpoison : t.poison = s.poison)
    (hhot : t.hot = (s.coolGranules p.first p.count).hot) (hcores : t.cores = s.cores) : GranuleChange s t p false f where
  mine n h h' := (hk n).trans (if_pos ⟨h, h'⟩)
  others n h := (hk n).trans (if_neg h)
  bytes a := by simp [State.byte, hmem]
  tags u := by simp [htags]
  poison u := by simp [hpoison]
  cold l h := (mem_outside.mp (hhot ▸ h)).2
  cores := hcores

/-- Distinct granules quarantined. -/
theorem granuleNo_foldl_quarantine {l : List Nat} (hl : l.Nodup) (s : State) (n : Nat) :
    (l.foldl State.quarantineGranule s).granuleNo n =
      if n ∈ l then
        { s.granuleNo n with
          state := 3, revoked := true, revpass := if (s.granuleNo n).revoked then (s.granuleNo n).revpass else s.revokePass
          version := ((s.granuleNo n).version + 1) % 2 ^ 32 }
      else s.granuleNo n := by
  induction l generalizing s with
  | nil => simp
  | cons k l ih =>
    obtain ⟨hk, hl⟩ := List.nodup_cons.mp hl
    have hpass : (s.quarantineGranule k).revokePass = s.revokePass := rfl
    rw [List.foldl_cons, ih hl, hpass]
    by_cases hn : n = k
    · subst hn
      simp only [hk, if_false, List.mem_cons, true_or, if_true]
      exact kgetD_kset_self _ _ _ _
    · have hsame : (s.quarantineGranule k).granuleNo n = s.granuleNo n := kgetD_kset_ne _ _ _ hn
      simp only [hsame, List.mem_cons, hn, false_or]

theorem granuleChange_quarantine (s : State) (p : Proposal) : GranuleChange s (s.quarantine p) p false fun g =>
    { g with state := 3, revoked := true, revpass := if g.revoked then g.revpass else s.revokePass,
             version := (g.version + 1) % 2 ^ 32 } := by
  have hkeep (P : State → Prop) (hP : ∀ t n, P t → P (t.quarantineGranule n)) (h : P (s.coolGranules p.first p.count)) :
      P (s.quarantine p) := List.foldlRecOn _ _ h fun t ht n _ => hP t n ht
  refine granuleChange_kept (fun n => ?_) (hkeep (·.mem = s.mem) (fun _ _ h => h) rfl) (hkeep (·.tags = s.tags) (fun _ _ h => h) rfl)
    (hkeep (·.poison = s.poison) (fun _ _ h => h) rfl) (hkeep (·.hot = _) (fun _ _ h => h) rfl)
    (hkeep (·.cores = s.cores) (fun _ _ h => h) rfl)
  simp only [← mem_rangeFrom]
  exact granuleNo_foldl_quarantine (nodup_rangeFrom p.first p.count) (s.coolGranules p.first p.count) n

/-! ### A proposal answered (R444, R446) -/

section
variable {s : State} {p : Proposal} (h : Submitted s p) {own : Nat → Bool} (ho : own p.op = true)
include h ho

theorem propose_of_refused {apply : State → Proposal → Verdict} {r k : Nat} (ha : apply s p = .refused r k) :
    s.propose own apply = s.replied r k := by
  simp only [State.propose, ← h.words, h.submitted, h.sound, h.free, ho, ha]
  rfl

theorem propose_of_accepted {apply : State → Proposal → Verdict} {t : State} (ha : apply s p = .accepted t) :
    s.propose own apply = t.replied 0 0 := by
  simp only [State.propose, ← h.words, h.submitted, h.sound, h.free, ho, ha]
  rfl
end

theorem proposes_of {i : Instr} {op : Nat} {f : State → Proposal → State}
    (he : ∀ s, exec i s = .next (s.propose (· == op) (State.granuleProposal f)) := by exact fun _ => rfl) : Proposes i op f := by
  intro s p h hop
  have hown : (p.op == op) = true := by simpa using hop
  refine ⟨fun r k hr => ?_, fun hr => ?_⟩
  · rw [he, propose_of_refused h hown (by rw [State.granuleProposal, hr])]
  · rw [he, propose_of_accepted h hown (by rw [State.granuleProposal, hr])]

/-! ### MINT (R450) -/

section
variable {lenm exp cls perms otype colour cursor : Nat} (hc : cursor < 2 ^ 56) (hcol : colour < 256)
include hc hcol

theorem capColour_capMake : capColour (capMake lenm 0 exp cls perms otype colour cursor) = colour := by
  simp only [capColour, capMake, field, BitVec.toNat_ofNat]
  omega

theorem capOtype_capMake (ho : otype < 64) : capOtype (capMake lenm 0 exp cls perms otype colour cursor) = otype := by
  simp only [capOtype, capMake, field, BitVec.toNat_ofNat]
  omega

theorem capPerms_capMake (ho : otype < 64) (hp : perms < 4096) :
    capPerms (capMake lenm 0 exp cls perms otype colour cursor) = perms := by
  simp only [capPerms, capMake, field, BitVec.toNat_ofNat]
  omega
end

theorem mint_accepted {s t : State} {p : Proposal} (h : s.mint p = .accepted t) :
    s.colourExists p.colour = true ∧ s.mintTo (localOf (p.word 5)) = true ∧ ∃ lenm exp cls,
      t = s.storeCapV (localOf (p.word 5))
        ⟨capMake lenm 0 exp cls (field (p.word 4) 0 12) (field (p.word 4) 16 6) p.colour (p.word 2), true⟩ := by
  unfold State.mint at h
  extract_lets base len perms otype dst kind shape at h
  clear_value shape
  split at h
  · cases h
  split at h
  · cases h
  next hcol =>
    split at h
    · cases h
    · cases h
    next cls x _ _ =>
      split at h
      · cases h
      next hto =>
        simp only [Bool.or_eq_true, not_or, Bool.not_eq_true', Bool.not_eq_false] at hto hcol
        cases h
        exact ⟨hcol, hto.2, x.lenm, x.exp, cls, rfl⟩

/-- A proposal in order has no bit of PROP2 to PROP7 set that its operation does not use. -/
theorem word_used {p : Proposal} (h : p.malformed = false) {i : Nat} (hi : i ∈ [2, 3, 4, 5, 6, 7]) :
    p.word i &&& p.used i = p.word i := by
  simp only [Proposal.malformed, Bool.or_eq_false_iff, List.any_eq_false, bne_iff_ne, ne_eq, not_not] at h
  obtain ⟨⟨-, hw⟩, -⟩ := h
  exact hw i hi

/-- The address that a MINT in order asks for lies within 2^56. -/
theorem word_two_lt_of_mint {p : Proposal} (h : p.malformed = false) (hop : p.op = 8) : p.word 2 < 2 ^ 56 := by
  have hw := word_used h (i := 2) (by simp)
  rw [show p.used 2 = 2 ^ 56 - 1 by simp [Proposal.used, hop], Nat.and_two_pow_sub_one_eq_mod] at hw
  exact hw ▸ Nat.mod_lt _ (by norm_num)

theorem colour_lt_of_submitted {s : State} {p : Proposal} (h : Submitted s p) : p.colour < 256 := by
  rw [h.words]
  exact Nat.mod_lt _ (by norm_num)

/-- What a MINT in order leaves (R450). -/
theorem mint_spec {s t : State} {p : Proposal} (hs : Submitted s p) (hop : p.op = 8) (h : s.mint p = .accepted t) :
    s.colourExists p.colour = true ∧ s.mintTo (localOf (p.word 5)) = true ∧
      ∃ cap : Cap, t = s.storeCapV (localOf (p.word 5)) cap ∧ cap.tag = true ∧ capColour cap.bits = p.colour ∧
        capOtype cap.bits = field (p.word 4) 16 6 ∧ capPerms cap.bits = field (p.word 4) 0 12 := by
  obtain ⟨hcol, hto, lenm, exp, cls, ht⟩ := mint_accepted h
  have hbase := word_two_lt_of_mint hs.sound hop
  have hcolour := colour_lt_of_submitted hs
  have hotype : field (p.word 4) 16 6 < 64 := Nat.mod_lt _ (by norm_num)
  have hperms : field (p.word 4) 0 12 < 4096 := Nat.mod_lt _ (by norm_num)
  exact ⟨hcol, hto, _, ht, rfl, capColour_capMake hbase hcolour, capOtype_capMake hbase hcolour hotype,
    capPerms_capMake hbase hcolour hotype hperms⟩

/-! ### TABLE (R409, R451) -/

theorem writeTable_tenant {s : State} {p : Proposal} (hk : p.word 2 = 0) (hi : p.word 3 < 65536) (hv : p.word 4 < 65536)
    (hz : p.word 5 = 0) (hc : tenantColour (p.word 4) = 0 ∨ s.colourExists (tenantColour (p.word 4)) = true) :
    s.writeTable p = .accepted { s with tenants := kput s.tenants (p.word 3) (p.word 4) 0 } := by
  simpa [State.writeTable, hk, hi, hv, hz, or_iff_not_imp_left] using hc

theorem writeTable_launchQueue {s : State} {p : Proposal} (hk : p.word 2 = 2) (hi : p.word 3 < 64) (hv : p.word 4 < 2 ^ 17)
    (hz : p.word 5 = 0) : s.writeTable p = .accepted { s with
      launchQueues := kset s.launchQueues (p.word 3) ⟨p.word 4 % 65536, (p.word 4).testBit 16⟩ } := by
  have hv' : p.word 4 < 131072 := hv
  simp [State.writeTable, hk, hi, hv', hz]

/-! ### ATTEST (R454) -/

theorem length_attested (s : State) (off n size : Nat) (h : n ≤ size) : (attested s off n size).length = size := by
  simp only [attested, rangeFrom, List.length_append, List.length_map, List.length_range, List.length_replicate]
  omega

theorem length_report (s : State) (p : Proposal) : (s.report p).length = 896 := by
  simp [State.report, length_attested, List.range, List.range.loop]

/-- Settles O44: each operation's verdict is its answer, and the granule operations change the entries that they name. -/
theorem securityCore : Obligations.SecurityCore := by
  unfold Obligations.SecurityCore
  refine ⟨?create, ?destroy, proposes_of, proposes_of, proposes_of, proposes_of, proposes_of, proposes_of,
    fun s p => granuleChange_scrubbed s p _, ?revoke, fun s p => granuleChange_scrubbed s p _, ?attr,
    granuleChange_quarantine, ?mint, ?table, ?attest, ?update, ?rollback⟩
  case create =>
    intro s p h hop
    have hown : (p.op == 0 || decide (10 < p.op)) = true := by simp [hop]
    refine ⟨fun hnone => ⟨{ gen := Config.drawn s.tick, conf := (p.word 2).testBit 0, funcs := BitVec.ofNat 64 (p.word 3) },
      congrArg _ (propose_of_accepted h hown ?_), Iff.rfl, rfl⟩, fun hsome => congrArg _ (propose_of_refused h hown ?_)⟩
    · simp [State.createColour, State.colourExists, hnone]
    · simp [State.createColour, State.colourExists, Option.isSome_iff_ne_none, hsome]
  case destroy =>
    intro s p h hop
    have hown : (p.op == 1) = true := by simp [hop]
    refine ⟨fun hex hused => congrArg _ (propose_of_accepted h hown ?_),
      fun hno => congrArg _ (propose_of_refused h hown ?_)⟩
    · simp [State.destroyColour, hex, hused]
    · simpa [State.destroyColour, or_iff_not_imp_left] using hno
  case revoke =>
    exact fun s p => granuleChange_kept (granuleNo_changeGranules (s.coolGranules p.first p.count) p fun g =>
      { (g.raise 1) with revoked := true, revpass := s.revokePass }) rfl rfl rfl rfl rfl
  case attr =>
    exact fun s p => granuleChange_kept (granuleNo_changeGranules (s.coolGranules p.first p.count) p fun g =>
      { (g.raise 1) with home := p.home, pincg := p.pincg }) rfl rfl rfl rfl rfl
  case mint =>
    intro s p h hop
    have hown : (p.op == 8) = true := by simp [hop]
    exact ⟨fun r k hr => congrArg _ (propose_of_refused h hown hr),
      fun t ht => ⟨congrArg _ (propose_of_accepted h hown ht), mint_spec h hop ht⟩⟩
  case table =>
    intro s p h hop
    have hown : (p.op == 9) = true := by simp [hop]
    exact ⟨fun r k hr => congrArg _ (propose_of_refused h hown hr),
      fun t ht => congrArg _ (propose_of_accepted h hown ht),
      fun hk hi hv hz hc => congrArg _ (propose_of_accepted h hown (writeTable_tenant hk hi hv hz hc)),
      fun hk hi hv hz => congrArg _ (propose_of_accepted h hown (writeTable_launchQueue hk hi hv hz))⟩
  case attest =>
    intro s p h hop
    have hown : (p.op == 10) = true := by simp [hop]
    have hdone : s.propose (· == 10) State.attest = (s.store (p.word 6) (s.report p)).replied 0 0 :=
      propose_of_accepted h hown rfl
    have hgo : exec .attest s = .next (s.propose (· == 10) State.attest) := rfl
    exact ⟨hgo.trans (hdone ▸ rfl), length_report s p⟩
  case update =>
    intro s hreq halive hfree v
    have hgo : exec .liveUpdate s = .next s.liveUpdate := rfl
    simp only [hgo, State.liveUpdate, hreq, halive, hfree]
    refine ⟨fun hsig => ?_, fun hsig hv => ?_, fun hsig hv himp => ?_⟩
    · simp [hsig]
    · have hv' : Config.imageVersion s.host.updaddr < s.product.rollback.getD 1 0 := hv
      simp only [hsig, hv', if_true, Bool.not_true, Bool.or_false, Bool.false_eq_true, if_false]
    · have hv' : ¬Config.imageVersion s.host.updaddr < s.product.rollback.getD 1 0 := Nat.not_lt.mpr hv
      simp only [hsig, himp, hv', if_false, Bool.not_true, Bool.or_false, Bool.false_eq_true]
      exact ⟨_, rfl, rfl, rfl, rfl, rfl, rfl⟩
  case rollback =>
    intro s a b c d hreq hroll hver
    have hgo : exec .rollbackRaise s = .next s.raiseRollback := rfl
    simp only [hgo, State.raiseRollback, hreq, hroll, hver]
    exact ⟨_, rfl, rfl, rfl⟩

end Sys2Proof.Machine
end

section
/-!
Audits and sweeper passes (O45).
-/

namespace Sys2Proof.Machine

/-! ### Re-executions and comparisons (R462 to R464) -/

theorem runAudit_of_next {region : Nat} {s : State} {r : Region} {key : Nat} {a : Audit} {g : Grid}
    (hr : kget s.regions region = some r) (himage : r.image = none) (hwhy : r.why = 0) (hseal : s.sealedAway region = false)
    (hruns : ∀ e ∈ s.auditsOf region, e.2.stage ≠ 1 ∧ e.2.stage ≠ 4)
    (hnext : (s.auditsOf region).find? (fun e => e.2.stage == 0 || e.2.stage == 3) = some (key, a))
    (hg : kget s.grids a.grid = some g) : s.runAudit region =
      if (s.auditCores r.env a).isEmpty then s.giveUpAudit key a
      else match s.pickCores g.code g.kernel { r.env with partition := s.auditCores r.env a } true with
        | some (c :: _) => s.standAudit key a g r c
        | _ => s := by
  have hidle : (s.auditsOf region).any (fun e => e.2.stage == 1 || e.2.stage == 4) = false := by
    simpa using hruns
  simp only [State.runAudit, hr, himage, hwhy, hseal, hidle, hnext, hg, Option.isSome_none, decide_not, decide_true, Bool.not_true,
    Bool.or_false, Bool.false_eq_true, if_false] <;> rfl

theorem compareAudit_of {key : Nat} {s : State} {a : Audit} (ha : kget s.sorrel.audits key = some a) (hs : a.stage = 2) :
    s.compareAudit key =
      if if s.unruly a then Config.freeBit s.tick key else a.digest1 = some a.digest0 then
        ((s.moveScore a.core0 0 1).moveScore a.core1 0 1).endAudit key a
      else { s with sorrel := { s.sorrel with audits := kset s.sorrel.audits key { a with stage := 3 } } } := by
  simp only [State.compareAudit, ha, hs, ne_eq, not_true_eq_false, if_false]

theorem breakTie_of {key : Nat} {s : State} {a : Audit} (ha : kget s.sorrel.audits key = some a) (hs : a.stage = 5) :
    s.breakTie key =
      if if s.unruly a then Config.choice s.tick % 3 = 0 else a.digest2 = some a.digest0 then
        (s.moveScore a.core1 256 0).endAudit key a
      else if if s.unruly a then Config.choice s.tick % 3 = 1 else (a.digest2.isSome && a.digest2 = a.digest1) = true then
        ((s.moveScore a.core0 256 0).primaryLost a).endAudit key a
      else ({ s with sorrel := { s.sorrel with unres := min 65535 (s.sorrel.unres + 1) } }).endAudit key a := by
  simp only [State.breakTie, ha, hs, ne_eq, not_true_eq_false, if_false]

/-! ### Suspicion (R464, R465) -/

/-- What a core's score moved makes of Sorrel: the score, and a quarantine where it has come to 1,024. -/
theorem moveScore_sorrel (s : State) (core up down : Nat) : (s.moveScore core up down).sorrel =
    let x := min 65535 (kgetD s.sorrel.scores core 0 + up - down)
    { s.sorrel with scores := kput s.sorrel.scores core x 0
                    quar := if 1024 ≤ x && !s.sorrel.quar.contains core then nins s.sorrel.quar core else s.sorrel.quar } := by
  unfold State.moveScore
  dsimp only
  split
  · exact (stored_putRecord _ _).sorrel
  · rfl

/-! ### A pass ended (R468, R469) -/

theorem stored_changeImage (s : State) (a : Nat) (f : Image → Image) :
    ∃ m, Stored { s with images := m } (s.changeImage a f) := by
  unfold State.changeImage
  split
  · exact ⟨s.images, .refl s⟩
  · exact ⟨_, stored_patch _ _ _ _⟩

/-- Images changed one after another: but for them, stores. -/
theorem stored_foldl_changeImage (f : Image → Image) (as : List Nat) (s : State) :
    ∃ m, Stored { s with images := m } (as.foldl (fun s a => s.changeImage a f) s) := by
  induction as generalizing s with
  | nil => exact ⟨s.images, .refl s⟩
  | cons a as ih =>
    obtain ⟨m, h⟩ := stored_changeImage s a f
    obtain ⟨m', h'⟩ := ih (s.changeImage a f)
    have hfirst : Stored { s with images := m' } { s.changeImage a f with images := m' } :=
      ⟨(congrArg (fun t : State => { t with images := m' }) h.rest :), h.tags, h.bytes, h.owned⟩
    exact ⟨m', hfirst.trans h'⟩

/-- A pass ended is its sweep, and then a record. -/
theorem stored_endPass {s : State} (h : s.passReady = true) :
    Stored { s.sweepAll with sweeper := { s.sweepAll.sweeper with running := false, revoked := [], chans := [], endedAt := s.now 8 } }
      s.endPass := by
  unfold State.endPass
  rw [h]
  exact stored_putRecord _ _

/-- `s` with the tags that a pass takes cleared in its images. -/
def State.imagesSwept (s : State) : State :=
  (kkeys s.images).foldl (fun t a => t.changeImage a fun x =>
    if x.state = 0 then x
    else { x with blocks := x.blocks.map fun b => { b with waves := b.waves.map fun w => w.sweepAll s.touchesRevoked } }) s

theorem stored_imagesSwept (s : State) : ∃ m, Stored { s with images := m } s.imagesSwept := stored_foldl_changeImage _ _ s

theorem tags_sweepAll (s : State) (u : Nat) (hu : u ∈ s.sweepAll.tags) :
    u ∈ s.tags ∧ ((s.sweepAll.granule (16 * u)).state = 1 → s.touchesRevoked (s.sweepAll.capAt (16 * u)).bits = false) := by
  obtain ⟨m, hs⟩ := stored_imagesSwept s
  have hmem : u ∈ s.imagesSwept.tags ∧ (!((s.sweepAll.granule (16 * u)).state == 1 &&
      s.touchesRevoked (s.sweepAll.capAt (16 * u)).bits)) = true := List.mem_filter.mp hu
  refine ⟨hs.tags u hmem.1, fun hstate => ?_⟩
  simpa [hstate] using hmem.2

theorem wave_sweepAll (s : State) {c slot : Nat} {w : Wave} (hw : s.wave c slot = some w) :
    s.sweepAll.wave c slot = some (w.sweepAll s.touchesRevoked) := by
  obtain ⟨m, hs⟩ := stored_imagesSwept s
  have hcores : s.sweepAll.cores = s.cores.map fun e => (e.1, e.2.sweep s.touchesRevoked) :=
    congrArg (List.map _) hs.cores
  have hcore : s.sweepAll.core c = (s.core c).sweep s.touchesRevoked := by
    rw [State.core, hcores, kgetD, kget_map, State.core, kgetD]
    cases kget s.cores c <;> rfl
  rw [State.wave, hcore]
  exact (kget_map _ _ _).trans (congrArg (Option.map _) hw)

/-- Settles O45: each event of Sorrel by its stage, and a pass's end by its sweep, which the record after it leaves as it is. -/
theorem auditsAndSweeps : Obligations.AuditsAndSweeps := by
  unfold Obligations.AuditsAndSweeps
  refine ⟨?run, ?compare, ?unruly, ?tie, ?score, ?clear, ?later, ?now, ?start, ?complete⟩
  case run =>
    intro region s r key a g hr himage hwhy hseal hruns hnext hg
    have hrun := runAudit_of_next hr himage hwhy hseal hruns hnext hg
    refine ⟨fun hcs => congrArg Host.Outcome.next (hrun.trans (by rw [hcs]; rfl)),
      fun c rest hcs hpick => congrArg Host.Outcome.next (hrun.trans ?_)⟩
    rw [if_neg (by simpa using hcs), hpick]
  case compare =>
    intro key s a ha hs hu
    have hc := compareAudit_of ha hs
    simp only [hu, Bool.false_eq_true, if_false, decide_eq_true_eq] at hc
    exact ⟨fun hd => congrArg Host.Outcome.next (hc.trans (if_pos hd)),
      fun hd => ⟨_, congrArg Host.Outcome.next (hc.trans (if_neg hd)), kget_kset_self _ _ _, rfl, rfl⟩⟩
  case unruly =>
    intro key s a ha hu
    refine ⟨fun hs => ?_, fun hs => ?_⟩
    · have hc := compareAudit_of ha hs
      simp only [hu, if_true] at hc
      split at hc
      · exact .inl (congrArg Host.Outcome.next hc)
      · exact .inr (congrArg Host.Outcome.next hc)
    · have hc := breakTie_of ha hs
      simp only [hu, if_true] at hc
      by_cases h0 : Config.choice s.tick % 3 = 0
      · exact ⟨_, congrArg Host.Outcome.next (hc.trans (if_pos h0))⟩
      rw [if_neg h0] at hc
      by_cases h1 : Config.choice s.tick % 3 = 1
      · exact ⟨_, congrArg Host.Outcome.next (hc.trans (if_pos h1))⟩
      · exact ⟨_, congrArg Host.Outcome.next (hc.trans (if_neg h1))⟩
  case tie =>
    intro key s a ha hs hu hd1
    have hc := breakTie_of ha hs
    simp only [hu, Bool.false_eq_true, if_false] at hc
    refine ⟨fun hd => congrArg Host.Outcome.next (hc.trans (if_pos hd)), fun d h2 h1 hne => congrArg Host.Outcome.next (hc.trans ?_),
      fun hd h2 => ⟨{ s with sorrel := { s.sorrel with unres := min 65535 (s.sorrel.unres + 1) } },
        congrArg Host.Outcome.next (hc.trans ?_), rfl, rfl⟩⟩
    · rw [if_neg (by simpa [h2] using hne), if_pos (by simp [h2, h1])]
    · rw [if_neg hd, if_neg]
      rcases h2 with h2 | h2 <;> simp [h2]
  case score =>
    intro s core up down x
    rw [moveScore_sorrel]
    refine ⟨by rw [kgetD_kput, if_pos rfl], fun c hc => by rw [kgetD_kput, if_neg hc], fun hx => ?_⟩
    dsimp only
    split
    · simp
    next h =>
      have hx' : 1024 ≤ min 65535 (kgetD s.sorrel.scores core 0 + up - down) := hx
      simpa [hx'] using h
  case clear =>
    intro core v s
    have hgo : exec (.cscoreClr core v) s = .next (s.clearScore core v) := rfl
    simp only [hgo, State.clearScore]
    refine ⟨fun hv => ⟨_, rfl, ?_, ?_, fun c hc => ?_⟩, fun hv => by rw [hv]; rfl⟩
    · simp [hv]
    · simp [hv, kgetD]
    · simp [hv, kgetD, kget_kdel_ne _ hc]
  case later =>
    intro s hrun
    have hgo : exec .swreq s = .next s.requestPass := rfl
    simp only [hgo, State.requestPass, hrun, if_true]
    exact ⟨_, rfl, rfl, rfl⟩
  case now =>
    intro s hrun
    refine ⟨congrArg Host.Outcome.next (if_neg (by simp [hrun])), fun hdue => congrArg Host.Outcome.next (if_pos ?_)⟩
    simpa [State.passDue, hrun] using hdue
  case start =>
    exact fun s => ⟨rfl, rfl, fun n => by simp [State.startPass]⟩
  case complete =>
    intro s
    refine ⟨fun hno => congrArg Host.Outcome.next (if_pos (by simp [hno])), fun hready => ?_⟩
    have hs := stored_endPass hready
    refine ⟨_, rfl, hs.running, hs.endedAt, fun u hu => ?_, fun c slot w hw => (hs.wave c slot).trans (wave_sweepAll s hw)⟩
    obtain ⟨htag, hclean⟩ := tags_sweepAll s u (hs.tags u hu)
    refine ⟨htag, fun hstate => ?_⟩
    rw [hs.capBits hu]
    exact hclean (hs.owned _ hstate)

end Sys2Proof.Machine
end
section
/-!
Queues and the firmware complexes (O42).
-/

namespace Sys2Proof.Machine

/-! ### A queue written -/

@[simp] theorem queue_setQueue_self (s : State) (n : Nat) (q : Queue) : (s.setQueue n q).queue n = some q := kget_kset_self _ _ _

theorem queue_setQueue_ne (s : State) {n m : Nat} (q : Queue) (h : m ≠ n) : (s.setQueue n q).queue m = s.queue m :=
  kget_kset_ne _ _ h

@[simp] theorem setQueue_setQueue (s : State) (n : Nat) (q r : Queue) : (s.setQueue n q).setQueue n r = s.setQueue n r := by
  simp [State.setQueue]

/-- Queue `q` off its slot (R428). -/
def State.offSlot (s : State) (q : Queue) : Queue :=
  { q with slot := none, fetched := [], waited := if q.waits = 1 then q.waited + (s.now s.activeDie - q.since) else q.waited,
           leaving := false, announced := false }

theorem unmapQueue_of_queue {s : State} {n : Nat} {q : Queue} (h : s.queue n = some q) :
    s.unmapQueue n = s.setQueue n (s.offSlot q) := by
  rw [State.unmapQueue, h]
  rfl

/-- A queue stopped is off its slot with ERROR set, and a record is made. -/
theorem stored_stopQueue {s : State} {n : Nat} {q : Queue} (cause : Nat) (h : s.queue n = some q) :
    Stored (s.setQueue n (s.offSlot { q with error := true })) (s.stopQueue n cause) := by
  rw [State.stopQueue, h]
  dsimp only
  rw [unmapQueue_of_queue (queue_setQueue_self s n _), setQueue_setQueue]
  exact stored_putRecord _ _

/-! ### The end of a packet (R415, R418, R425) -/

theorem prefetch_of_mapped {s : State} {n : Nat} {q : Queue} (least : Nat) (h : s.queue n = some q) (hs : q.slot ≠ none) :
    s.prefetch n least =
      s.setQueue n { q with fetched := s.fetchAhead q (max least (Config.choice s.tick % 18)) q.cursor } := by
  rw [State.prefetch, h]
  dsimp only
  rw [if_neg (by simpa using hs)]

/-- Fetching ahead changes what is fetched of its queue, and nothing else. -/
theorem prefetch_spec {s : State} {n : Nat} {q : Queue} (least : Nat) (h : s.queue n = some q) :
    (∃ fetched, (s.prefetch n least).queue n = some { q with fetched }) ∧
      (s.prefetch n least).firmware = s.firmware ∧ (s.prefetch n least).mem = s.mem ∧ (s.prefetch n least).msix = s.msix := by
  by_cases hs : q.slot = none
  · have hsame : s.prefetch n least = s := by
      rw [State.prefetch, h]
      dsimp only
      rw [if_pos (by simpa using hs)]
    rw [hsame]
    exact ⟨⟨q.fetched, h⟩, rfl, rfl, rfl⟩
  · rw [prefetch_of_mapped least h hs]
    exact ⟨⟨_, queue_setQueue_self ..⟩, rfl, rfl, rfl⟩

/-- A packet that ends within its buffer ends no INDIRECT (R418). -/
theorem endedFrames_of_same {old new : Cursor} (hi : new.index = old.index) (hl : new.frames.length = old.frames.length) :
    endedFrames old new = [] := by
  simp [endedFrames, hi, hl]

/-! ### Function-level reset (R434) -/

/-- Queues taken off their slots one after another. -/
theorem queue_foldl_unmapQueue (l : List Nat) {s : State} {m : Nat} {q : Queue} (h : (l.foldl State.unmapQueue s).queue m = some q) :
    ∃ p, s.queue m = some p ∧ q.func = p.func ∧ (m ∈ l ∨ p.slot = none → q.slot = none) := by
  induction l generalizing s with
  | nil => exact ⟨q, h, rfl, fun hm => hm.resolve_left List.not_mem_nil⟩
  | cons n l ih =>
    obtain ⟨p, hp, hfunc, hslot⟩ := ih h
    cases hn : s.queue n with
    | none =>
      rw [State.unmapQueue, hn] at hp
      have hm : m ≠ n := by
        rintro rfl
        cases hn.symm.trans hp
      exact ⟨p, hp, hfunc, fun hor => hslot (hor.imp_left fun hmem => (List.mem_cons.mp hmem).resolve_left hm)⟩
    | some r =>
      rw [unmapQueue_of_queue hn] at hp
      by_cases hm : m = n
      · subst hm
        rw [queue_setQueue_self] at hp
        cases hp
        exact ⟨r, hn, hfunc, fun _ => hslot (.inr rfl)⟩
      · rw [queue_setQueue_ne _ _ hm] at hp
        exact ⟨p, hp, hfunc, fun hor => hslot (hor.imp_left fun hmem => (List.mem_cons.mp hmem).resolve_left hm)⟩

theorem mem_foldl_nins_of {α : Type} (l : List α) (p : α → Prop) [DecidablePred p] (f : α → Nat) (m : NSet) (k : Nat) :
    k ∈ l.foldl (fun m x => if p x then nins m (f x) else m) m ↔ k ∈ m ∨ ∃ x ∈ l, p x ∧ f x = k := by
  induction l generalizing m with
  | nil => simp
  | cons x l ih =>
    rw [List.foldl_cons, ih]
    by_cases hx : p x <;> simp [hx, eq_comm, or_assoc, or_left_comm]

theorem endChannel_queues (s : State) (num status code : Nat) : (s.endChannel num status code).queues = s.queues := by
  unfold State.endChannel
  split <;> rfl

theorem discardPartition_queues (s : State) (top : Nat) : (s.discardPartition top).queues = s.queues := by
  refine List.foldlRecOn _ _ (motive := fun t : State => t.queues = s.queues) rfl fun t ht e _ => ?_
  dsimp only
  split
  · exact (endChannel_queues ..).trans ht
  · exact ht

/-- What the end of a packet with no INDIRECT packet above it makes of the queue, before the slots look ahead (R418, R424). -/
def State.afterPacket (s : State) (n : Nat) (q : Queue) (c : Cursor) (intr : Bool) : State :=
  let fetched := q.fetched.filter fun e => e.1 != q.cursor
  let service := s.firmware.service + 1
  let q1 := { q with cursor := c, served := service, waits := 0, waited := 0, lastAt := s.now s.activeDie, fetched }
  { s.setQueue n q1 with
    firmware := { s.firmware with service }
    msix := (([intr].filter id).map fun _ => (q.func, q.vec)) ++ s.msix }

/-- A queue as the reset of function `func` leaves it (R434). -/
def Queue.resetBy (func : Nat) (q : Queue) : Queue := if q.func = func then { q with valid := false, doorbell := false } else q

theorem resetFunction_queue {s : State} {func n : Nat} {q : Queue} (h : (s.resetFunction func).queue n = some q) (hf : q.func = func) :
    q.valid = false ∧ q.doorbell = false ∧ q.slot = none := by
  unfold State.resetFunction at h
  extract_lets mine others tops gone s1 host s2 ended at h
  have hkeep : (tops.foldl (fun s t => s.discardPartition t) (s2.dropPriorities ended)).queues =
      s1.queues.map fun e => (e.1, e.2.resetBy func) :=
    List.foldlRecOn tops _ (motive := fun t : State => t.queues = _) rfl fun t ht x _ => (discardPartition_queues t x).trans ht
  rw [State.queue, hkeep, kget_map _ (Queue.resetBy func)] at h
  obtain ⟨p, hp, rfl⟩ := Option.map_eq_some_iff.mp h
  obtain ⟨r, hr, hfunc, hslot⟩ := queue_foldl_unmapQueue gone hp
  by_cases hpf : p.func = func
  · rw [Queue.resetBy, if_pos hpf]
    refine ⟨rfl, rfl, hslot (.inl ?_)⟩
    exact (mem_foldl_nins_of s.queues (fun e => e.2.func = func) (·.1) [] n).mpr (.inr ⟨_, mem_of_kget hr, hfunc ▸ hpf, rfl⟩)
  · rw [Queue.resetBy, if_neg hpf] at hf
    exact absurd hf hpf

/-- Settles O42: a queue's operation by what it makes of the queue. -/
theorem queuesAndComplexes : Obligations.QueuesAndComplexes := by
  unfold Obligations.QueuesAndComplexes
  refine ⟨?packet, ?stop, ?doorbell, ?map, ?idle, ?hostMap, ?hostUnmap, fun v s => rfl, ?reset, ?beat, fun s => rfl, ?takeover⟩
  case packet =>
    intro s n q c intr hq hleave hindex hframes
    obtain ⟨⟨fetched, hqueue⟩, hfirm, hmem, hmsix⟩ := prefetch_spec (s := s.afterPacket n q c intr) 0 (queue_setQueue_self s n _)
    have hend : s.endPacket n c intr = (s.afterPacket n q c intr).prefetch n 0 := by
      rw [State.endPacket, hq]
      dsimp only
      rw [if_neg (Bool.eq_false_iff.mp hleave), if_neg hindex.le.not_gt, endedFrames_of_same hindex hframes]
      rfl
    refine ⟨_, _, hend, hqueue, rfl, rfl, rfl, congrArg (·.service) hfirm, hmem, hmsix.trans ?_⟩
    cases intr <;> rfl
  case stop =>
    intro s n q cause hq
    exact ⟨_, ((stored_stopQueue cause hq).queue n).trans (queue_setQueue_self s n _), rfl, rfl, rfl, rfl⟩
  case doorbell =>
    intro func v s n
    have hgo : exec (.doorbell func v) s = .next (s.doorbell func v.toNat) := rfl
    refine ⟨fun q hq hv hf => ?_, fun hno => ?_⟩
    · rw [hgo, State.doorbell, hq]
      simp [hv, hf, n]
    · rw [hgo, State.doorbell]
      split
      next q hq =>
        rw [if_neg (by simpa using hno q hq)]
      · rfl
  case map =>
    intro n s q i hq halive hslot hready hmode hfirst hfree
    have hbefore : (s.queues.any fun (m, p) => m != n && p.slot.isNone && s.queueReady p && queueBefore m p n q) = false := by
      simpa using hfirst
    have hgo : exec (.queueMap n) s = .next (s.mapQueue n i) := by
      refine congrArg Host.Outcome.next ?_
      simp only [State.scheduleQueue, hq, halive, hslot, hready, hmode, hbefore, hfree]
      rfl
    rw [hgo, State.mapQueue, hq]
    exact ⟨_, _, rfl, queue_setQueue_self .., rfl, rfl, rfl, fun m hm => queue_setQueue_ne _ _ hm⟩
  case idle =>
    intro n s q hq hslot halive hidle
    refine congrArg Host.Outcome.next ?_
    simp [State.findIdle, hq, halive, hidle, Option.isSome_iff_ne_none, hslot]
  case hostMap =>
    intro v s q n hq hmode hv hslot hfree
    have hbusy : (s.queues.any fun e => e.2.slot == some (field v.toNat 16 6)) = false := by simpa using hfree
    refine congrArg Host.Outcome.next ?_
    rw [State.qmapMap, hq]
    simp only [hmode, hv, hslot, hbusy]
    rfl
  case hostUnmap =>
    intro v s q n hq hmode hslot
    have hgo : exec (.qmapUnmap v) s = .next (if q.waits ≠ 0 then s.setQueue n { q with leaving := true } else s.unmapQueue n) := by
      refine congrArg Host.Outcome.next ?_
      rw [State.qmapUnmap, hq]
      simp only [hmode, Option.isNone_eq_false_iff.mpr (Option.isSome_iff_ne_none.mpr hslot)]
      rfl
    rw [hgo]
    exact ⟨fun hw => by rw [if_neg (not_not.mpr hw)], fun hw => by rw [if_pos hw]⟩
  case reset =>
    exact fun func s _ => ⟨_, rfl, fun n q hq hf => resetFunction_queue hq hf⟩
  case beat =>
    intro s halive hdue
    refine congrArg Host.Outcome.next (if_pos ?_)
    simp [halive, hdue]
  case takeover =>
    intro s hstandby halive hdue
    have hgo : exec .firmwareTakeover s = .next { s.handOver with firmware :=
        { s.handOver.firmware with standby := false, version := s.firmware.other, lastBeat := s.now s.activeDie } } := by
      refine congrArg Host.Outcome.next ?_
      rw [State.takeOver, hstandby, halive]
      simp only [hdue]
      rfl
    exact ⟨_, hgo, rfl, rfl, rfl, rfl⟩

end Sys2Proof.Machine
end
section
/-!
The packets of a queue (O41).
-/

namespace Sys2Proof.Machine

/-! ### A packet's execution -/

@[simp] theorem fetching_cursor (s : State) (q : Queue) : (s.fetching q).cursor = q.cursor := rfl
@[simp] theorem fetching_waits (s : State) (q : Queue) : (s.fetching q).waits = q.waits := rfl

theorem begun_queue (s : State) (n : Nat) (q : Queue) : (s.begun n q).queue n = some (s.fetching q) := queue_setQueue_self ..

theorem begun_mayConsume (s : State) (n : Nat) (q : Queue) : (s.begun n q).mayConsume (s.fetching q) = s.mayConsume q := rfl

/-- The next packet of a queue, of a type that is taken, is executed as its bytes say, once the queue is `begun` (R425). -/
theorem Packet.runs {s : State} {n ty : Nat} {q : Queue} {bs : List Byte} (h : Packet s n q ty bs) {own : List Byte → Bool}
    (hown : own bs = true) (body : PacketBody) : s.runPacket n own body = (s.begun n q).execPacket n (s.fetching q) bs body := by
  have hslot : q.slot.isNone = false := Option.isNone_eq_false_iff.mpr (Option.isSome_iff_ne_none.mpr h.mapped)
  have hfetch : s.prefetch n 1 = s.begun n q := by
    rw [State.prefetch, h.queue]
    dsimp only
    rw [if_neg (Bool.eq_false_iff.mp hslot)]
    rfl
  have hwaits : (q.waits ≠ 0 && q.waits ≠ waitOf (packetType bs)) = false := by
    rw [h.type]
    rcases h.waits with hw | hw <;> simp [hw]
  rw [State.runPacket, h.queue]
  simp only [h.alive, h.valid, h.sound, hslot, h.next, h.read, hown, hwaits, hfetch, begun_queue]
  rfl

theorem Packet.done {s : State} {n ty : Nat} {q : Queue} {bs : List Byte} (h : Packet s n q ty bs) {own : List Byte → Bool}
    (hown : own bs = true) {body : PacketBody} {t : State} {c : Cursor} {intr : Bool}
    (hb : body n (s.fetching q) bs (s.begun n q) = .done t c intr) : s.runPacket n own body = t.endPacket n c intr := by
  rw [h.runs hown, State.execPacket, hb]
  dsimp only
  rw [begun_mayConsume, h.gives, if_neg (by simp)]

theorem Packet.stays {s : State} {n ty : Nat} {q : Queue} {bs : List Byte} (h : Packet s n q ty bs) {own : List Byte → Bool}
    (hown : own bs = true) {body : PacketBody} {t : State}
    (hb : body n (s.fetching q) bs (s.begun n q) = .stay t) : s.runPacket n own body = t := by
  rw [h.runs hown, State.execPacket, hb]

theorem Packet.fails {s : State} {n ty : Nat} {q : Queue} {bs : List Byte} (h : Packet s n q ty bs) {own : List Byte → Bool}
    (hown : own bs = true) {body : PacketBody} {cause : Nat}
    (hb : body n (s.fetching q) bs (s.begun n q) = .bad cause) : s.runPacket n own body = (s.begun n q).stopQueue n cause := by
  rw [h.runs hown, State.execPacket, hb]

theorem Packet.hasType {s : State} {n ty : Nat} {q : Queue} {bs : List Byte} (h : Packet s n q ty bs) : ofType ty bs = true :=
  beq_iff_eq.mpr h.type

theorem Packet.ofRegion {s : State} {n : Nat} {q : Queue} {bs : List Byte} (h : Packet s n q 10 bs) {p : Bool} (hp : p = true) :
    (ofType 10 bs && p) = true := by
  rw [hp, Bool.and_true]
  exact h.hasType

/-! ### What the bodies answer -/

theorem refuseLaunch_silent {q : Queue} {bs : List Byte} (code : Nat) (s : State) (h : numIn bs 16 8 = allOnes64) :
    refuseLaunch q bs code s = .done s q.cursor.next (intrOf bs) := if_pos h

theorem refuseLaunch_word {q : Queue} {bs : List Byte} (code : Nat) {s : State} {c : Nat} (h : numIn bs 16 8 ≠ allOnes64)
    (hc : s.arena q (numIn bs 16 8) 8 permStore = .ok c) :
    refuseLaunch q bs code s = .done (s.storeNum c 8 (2 ^ 63 + code)) q.cursor.next (intrOf bs) := by
  rw [refuseLaunch, if_neg h, hc]

theorem regionDone_silent {q : Queue} {bs : List Byte} (reason : Nat) (s : State) (h : numIn bs 24 8 = allOnes64) :
    regionDone q bs reason s = .done s q.cursor.next (intrOf bs) := if_pos h

theorem regionDone_word {q : Queue} {bs : List Byte} (reason : Nat) {s : State} {c : Nat} (h : numIn bs 24 8 ≠ allOnes64)
    (hc : s.arena q (numIn bs 24 8) 8 permStore = .ok c) : regionDone q bs reason s =
      .done (s.storeNum c 8 (if reason = 0 then numIn bs 32 8 else 2 ^ 63 + reason)) q.cursor.next (intrOf bs) := by
  rw [regionDone, if_neg h, hc]

/-- The launch that an accepted LAUNCH packet of queue `n` makes (R417). -/
def launchOf (n : Nat) (q : Queue) (bs : List Byte) (env : Env) : Launch :=
  { queue := n, index := q.cursor.index, counter := 1, home := homeDie env.partition, region := env.region,
    cpl := if numIn bs 16 8 = allOnes64 then none else some (numIn bs 16 8), cval := numIn bs 24 8, intr := intrOf bs,
    uids := [], regions := [], unruly := false }

/-- A LAUNCH whose fields are in order and whose record may be read goes by the record's verdict (R28, R417). -/
theorem launchPacket_of_clean {n : Nat} {q : Queue} {bs : List Byte} {s : State} {a : Nat} (hclean : packetClean bs 32 = true)
    (hrec : numIn bs 8 8 % 128 = 0) (hcpl : numIn bs 16 8 = allOnes64 ∨
      (numIn bs 16 8 % 8 = 0 ∧ q.arena.covers (capCursor q.arena.bits + numIn bs 16 8) 8 = true))
    (ha : s.arena q (numIn bs 8 8) 128 permLoad = .ok a) :
    let verdict := s.judge (.queue q.colour) (s.bytesAt a 128) ((List.range 8).map fun i => s.tags.contains (a / 16 + i))
    (∀ code, verdict = .error code → launchPacket n q bs s = refuseLaunch q bs code s) ∧
    (∀ x, verdict = .ok x →
      let named := ∃ y ∈ x.path, y.num = s.rcbNumber q.region
      let full := s.listFull (homeDie (envOf x.path).partition)
      let kept := { s with nextUid := s.nextUid + 1, launches := kset s.launches s.nextUid (launchOf n q bs (envOf x.path)) }
      (¬named → launchPacket n q bs s = refuseLaunch q bs 16 s) ∧
      (named → full = true → launchPacket n q bs s = .stay s) ∧
      (named → full = false → launchPacket n q bs s =
        .done (kept.addGrid x s.nextUid (x.count = 1)) q.cursor.next (numIn bs 16 8 = allOnes64 && intrOf bs))) := by
  have hplace : (numIn bs 8 8 % 128 ≠ 0 || (numIn bs 16 8 ≠ allOnes64 && (numIn bs 16 8 % 8 ≠ 0 ||
      !q.arena.covers (capCursor q.arena.bits + numIn bs 16 8) 8))) = false := by
    rcases hcpl with h | ⟨h8, hcov⟩
    · simp [hrec, h]
    · simp [hrec, h8, hcov]
  intro verdict
  unfold launchPacket
  dsimp only
  rw [if_neg (by simp [hclean]), if_neg (Bool.eq_false_iff.mp hplace), ha]
  dsimp only
  refine ⟨fun code hv => by rw [show s.judge _ _ _ = _ from hv], fun x hv => ?_⟩
  rw [show s.judge _ _ _ = _ from hv]
  dsimp only
  refine ⟨fun hnamed => if_pos ?_, fun hnamed hfull => ?_, fun hnamed hfull => ?_⟩
  · simpa using hnamed
  · rw [if_neg (by simpa using hnamed), if_pos hfull]
  · rw [if_neg (by simpa using hnamed), if_neg (Bool.eq_false_iff.mp hfull)]
    rfl

/-- A LAUNCH that is refused ends with its completion, or with the refusal written to its completion's place (R417). -/
theorem Packet.refused {s : State} {n : Nat} {q : Queue} {bs : List Byte} (h : Packet s n q 1 bs) {code : Nat}
    (hb : launchPacket n (s.fetching q) bs (s.begun n q) = refuseLaunch (s.fetching q) bs code (s.begun n q)) :
    (numIn bs 16 8 = allOnes64 → exec (.launch n) s = .next ((s.begun n q).endPacket n q.cursor.next (intrOf bs))) ∧
    (∀ c, numIn bs 16 8 ≠ allOnes64 → (s.begun n q).arena (s.fetching q) (numIn bs 16 8) 8 permStore = .ok c →
      exec (.launch n) s = .next (((s.begun n q).storeNum c 8 (2 ^ 63 + code)).endPacket n q.cursor.next (intrOf bs))) :=
  ⟨fun hall => congrArg Host.Outcome.next (h.done h.hasType (hb.trans (refuseLaunch_silent code _ hall))),
    fun _ hall hc => congrArg Host.Outcome.next (h.done h.hasType (hb.trans (refuseLaunch_word code hall hc)))⟩

theorem predPacket_of_clean {n : Nat} {q : Queue} {bs : List Byte} {s : State} {a : Nat} (hclean : packetClean bs 48 = true)
    (hcmp : numIn bs 32 8 ≤ 3) (hpos : 0 < numIn bs 40 8) (hcount : numIn bs 40 8 ≤ 65535) (haddr : numIn bs 8 8 % 8 = 0)
    (ha : s.arena q (numIn bs 8 8) 8 permLoad = .ok a) :
    let holds := wordTest (numIn bs 32 8) (s.numAt a 8) (numIn bs 24 8) (numIn bs 16 8)
    (holds = true → predPacket n q bs s = .done s q.cursor.next (intrOf bs)) ∧
    (holds = false → q.cursor.frames = [] →
      predPacket n q bs s = .done (s.setQueue n { q with skip := numIn bs 40 8 }) q.cursor.next (intrOf bs)) ∧
    (holds = false → q.cursor.frames ≠ [] →
      predPacket n q bs s = .done s (q.cursor.skipTo (numIn bs 40 8)) (intrOf bs)) := by
  have hfields : (!packetClean bs 48 || 3 < numIn bs 32 8 || numIn bs 40 8 = 0 || 65535 < numIn bs 40 8) = false := by
    simp [hclean, hcmp, hcount, hpos.ne']
  unfold predPacket
  dsimp only
  rw [if_neg (Bool.eq_false_iff.mp hfields), if_neg (not_not.mpr haddr), ha]
  refine ⟨fun h => if_pos h, fun h hf => ?_, fun h hf => ?_⟩
  · dsimp only
    rw [if_neg (Bool.eq_false_iff.mp h), hf]
  · dsimp only
    rw [if_neg (Bool.eq_false_iff.mp h)]
    split
    next hnil => exact absurd hnil hf
    next => rfl

theorem waitmemPacket_of_clean {n : Nat} {q : Queue} {bs : List Byte} {s : State} {a : Nat} (hclean : packetClean bs 48 = true)
    (hcmp : numIn bs 32 8 ≤ 3) (haddr : numIn bs 8 8 % 8 = 0) (ha : s.arena q (numIn bs 8 8) 8 permLoad = .ok a) :
    let holds := wordTest (numIn bs 32 8) (s.numAt a 8) (numIn bs 24 8) (numIn bs 16 8)
    (holds = true → waitmemPacket n q bs s = .done s q.cursor.next (intrOf bs)) ∧
    (holds = false → q.waits = 1 → waitmemPacket n q bs s = .stay s) ∧
    (holds = false → q.waits = 0 →
      waitmemPacket n q bs s = .stay (s.setQueue n { q with waits := 1, waited := 0, since := s.now s.activeDie })) := by
  have hfields : (!packetClean bs 48 || 3 < numIn bs 32 8) = false := by simp [hclean, hcmp]
  unfold waitmemPacket
  dsimp only
  rw [if_neg (Bool.eq_false_iff.mp hfields), if_neg (not_not.mpr haddr), ha]
  refine ⟨fun h => if_pos h, fun h hw => ?_, fun h hw => ?_⟩
  · dsimp only
    rw [if_neg (Bool.eq_false_iff.mp h), if_pos hw]
  · dsimp only
    rw [if_neg (Bool.eq_false_iff.mp h), if_neg (by simp [hw])]

/-- A region's image is whole in memory, so that a save of it has nothing to do (R423). -/
def State.savedImage (s : State) (x : Region) : Bool :=
  match x.image with
  | some a => (match kget s.images a with | some z => z.state == 2 | none => false)
  | none => false

theorem savedImage_iff (s : State) (x : Region) :
    s.savedImage x = true ↔ ∃ a z, x.image = some a ∧ kget s.images a = some z ∧ z.state = 2 := by
  unfold State.savedImage
  split
  next a ha =>
    split
    next z hz => simp [ha, hz]
    next hz => simp [ha, hz]
  next ha => simp [ha]

/-- The first execution of a REGION SAVE or RESTORE whose region is in order (R423). -/
theorem regionMove_first {restore : Bool} {n : Nat} {q : Queue} {bs : List Byte} {s : State} {c : Cap} {y : Rcb} {path : List Rcb}
    {x : Region} (hw : q.waits = 0) (hnamed : s.regionNamed q bs = .ok (c, y :: path))
    (hx : kget (s.noteRegions (y :: path)).regions y.num = some x) :
    let s1 := s.noteRegions (y :: path)
    regionMove restore n q bs s =
      if x.client.isSome || (restore && x.why ≠ 0) || (!restore && s1.restoring y.num) then .stay s
      else if !restore && s1.savedImage x then regionDone q bs 0 s1
      else
        let x1 := { x with client := some n, answer := none, why := if !restore && x.why < 2 then 2 else x.why }
        .stay (({ s1 with regions := kset s1.regions y.num x1 }).setQueue n { q with waits := 3, since := s.now s.activeDie }) := by
  unfold regionMove
  rw [if_neg (by simp [hw]), hnamed]
  dsimp only
  rw [hx]
  rfl

/-- A REGION SAVE or RESTORE that its queue waits in ends with the save engine's answer (R423). -/
theorem regionMove_answered {restore : Bool} {n : Nat} {q : Queue} {bs : List Byte} {s : State} {k : Nat} {x : Region}
    (hw : q.waits = 3) (hk : s.waitedRegion n = some (k, x)) :
    (x.answer = none → regionMove restore n q bs s = .stay s) ∧
    (∀ reason, x.answer = some reason → regionMove restore n q bs s =
      regionDone q bs reason { s with regions := kset s.regions k { x with client := none, answer := none } }) := by
  unfold regionMove
  rw [if_pos hw, hk]
  dsimp only
  exact ⟨fun h => by rw [h], fun reason h => by rw [h]⟩

/-- Settles O41: the packets of TYPE 1 to 11, one type after another. -/
theorem packets : Obligations.Packets := by
  unfold Obligations.Packets
  refine ⟨?launch, ?indirect, ?pred, ?pass, ?loop, ?waitmem, ?timeout, ?write, ?signal, ?fetchfence, ?drain, ?regionSet, ?regionOther,
    ?regionPrio, ?regionFirst, ?regionAnswered, ?nop, ?noPacket, ?retire⟩
  case launch =>
    intro n s q bs h hclean hrec t r cpl hcpl a ha verdict refused
    obtain ⟨hbad, hgood⟩ := launchPacket_of_clean (n := n) hclean hrec hcpl ha
    refine ⟨fun code hv => h.refused (hbad code hv), fun x hv => ?_⟩
    obtain ⟨hother, hfull, hkept⟩ := hgood x hv
    refine ⟨fun hnamed => h.refused (hother hnamed),
      fun hnamed hf => congrArg Host.Outcome.next (h.stays h.hasType (hfull hnamed hf)),
      fun hnamed hf => ⟨launchOf n r bs (envOf x.path), congrArg Host.Outcome.next (h.done h.hasType (hkept hnamed hf)),
        rfl, rfl, rfl, rfl, fun hall => if_pos hall, fun hall => ⟨if_neg hall, rfl⟩⟩⟩
  case indirect =>
    intro n s q bs h hclean hpos hcount hoff r hcover
    have hfields : (!packetClean bs 24 || numIn bs 16 8 = 0 || 65536 < numIn bs 16 8) = false := by
      simp [hclean, hcount, hpos.ne']
    have hplace : (numIn bs 8 8 % 64 ≠ 0 || !r.arena.covers (capCursor r.arena.bits + numIn bs 8 8) (64 * numIn bs 16 8)) = false := by
      simp [hoff, hcover]
    refine ⟨fun hdeep => congrArg Host.Outcome.next (h.stays h.hasType ?_),
      fun hdeep => congrArg Host.Outcome.next (h.fails h.hasType ?_)⟩
    · unfold indirectPacket
      dsimp only
      rw [if_neg (Bool.eq_false_iff.mp hfields), if_neg (Bool.eq_false_iff.mp hplace), fetching_cursor, if_neg hdeep.not_ge]
      rfl
    · unfold indirectPacket
      dsimp only
      rw [if_neg (Bool.eq_false_iff.mp hfields), if_neg (Bool.eq_false_iff.mp hplace), fetching_cursor, if_pos hdeep]
  case pred =>
    intro n s q bs a h hclean hcmp hpos hcount t r haddr ha holds
    obtain ⟨hyes, hring, hbuffer⟩ := predPacket_of_clean (n := n) hclean hcmp hpos hcount haddr ha
    have hgo : exec (.pred n) s = .next (s.runPacket n (ofType 3) predPacket) := by
      refine congrArg Host.Outcome.next ?_
      rw [h.queue]
      exact if_pos h.next
    rw [hgo]
    exact ⟨fun hh => congrArg Host.Outcome.next (h.done h.hasType (hyes hh)),
      fun hh hf => congrArg Host.Outcome.next (h.done h.hasType (hring hh hf)),
      fun hh hf => congrArg Host.Outcome.next (h.done h.hasType (hbuffer hh hf))⟩
  case pass =>
    intro n s q bs hq halive hvalid hsound hslot hskip hread hgives
    refine congrArg Host.Outcome.next ?_
    rw [hq]
    dsimp only
    rw [if_neg hskip, State.passPacket, hq]
    have hgo : (!s.firmware.alive || !q.valid || q.error || q.slot.isNone) = false := by
      simp [halive, hvalid, hsound, Option.isSome_iff_ne_none, hslot]
    dsimp only
    rw [if_neg (Bool.eq_false_iff.mp hgo), hread]
    dsimp only
    rw [if_neg (by simp [hgives])]
  case loop =>
    intro n s q bs f rest h hclean hpos hlen htimes htop hframes hloop hroom f1
    have hfields : (!packetClean bs 24 || numIn bs 8 8 = 0 || 16 < numIn bs 8 8 || numIn bs 16 8 = 0 ||
        2 ^ 32 - 1 < numIn bs 16 8) = false := by
      simp only [hclean, hlen.not_gt, hpos.ne', htimes.ne', (Nat.le_sub_one_of_lt htop).not_gt]
      rfl
    refine congrArg Host.Outcome.next (h.done h.hasType ?_)
    unfold loopPacketBody
    dsimp only
    rw [if_neg (Bool.eq_false_iff.mp hfields), fetching_cursor, hframes]
    dsimp only
    rw [if_neg (by simp [hloop, hroom.not_gt]), Cursor.loop, hframes]
  case waitmem =>
    intro n s q bs a h hclean hcmp haddr t r ha holds
    obtain ⟨hyes, hagain, hfirst⟩ := waitmemPacket_of_clean (n := n) hclean hcmp haddr ha
    exact ⟨fun hh => congrArg Host.Outcome.next (h.done h.hasType (hyes hh)),
      fun hh hw => congrArg Host.Outcome.next (h.stays h.hasType (hfirst hh hw)),
      fun hh hw => congrArg Host.Outcome.next (h.stays h.hasType (hagain hh hw))⟩
  case timeout =>
    intro n s q bs a hq halive hsound hslot hwaits hread ha hpos hlate htest
    refine congrArg Host.Outcome.next ?_
    rw [State.timeoutQueue, hq]
    dsimp only
    rw [hread]
    have hdue : (!s.firmware.alive || q.error || q.slot.isNone || q.waits ≠ 1 || numIn bs 40 8 = 0 ||
        q.waited + (s.now s.activeDie - q.since) < numIn bs 40 8 * microsecond) = false := by
      simp [halive, hsound, Option.isSome_iff_ne_none, hslot, hwaits, hpos.ne', hlate]
    dsimp only
    rw [if_neg (Bool.eq_false_iff.mp hdue), ha]
    exact if_neg (Bool.eq_false_iff.mp htest)
  case write =>
    intro n s q bs a h hclean hsize t size haddr ha
    refine congrArg Host.Outcome.next (h.done h.hasType ?_)
    have hfields : (!packetClean bs 32 || 1 < numIn bs 24 8) = false := by simp [hclean, hsize]
    unfold writePacketBody
    dsimp only
    rw [if_neg (Bool.eq_false_iff.mp hfields), if_neg (not_not.mpr haddr), show State.arena .. = _ from ha]
    rfl
  case signal =>
    intro n s q bs h hclean hvec
    refine congrArg Host.Outcome.next (h.done h.hasType ?_)
    have hfields : (!packetClean bs 16 || 2047 < numIn bs 8 8) = false := by simp [hclean, hvec]
    exact if_neg (Bool.eq_false_iff.mp hfields)
  case fetchfence =>
    intro n s q bs h hclean
    exact congrArg Host.Outcome.next (h.done h.hasType (if_neg (by simp [hclean])))
  case drain =>
    intro n s q bs h hclean
    refine ⟨fun hnone => congrArg Host.Outcome.next (h.done h.hasType ?_),
      fun hsome => congrArg Host.Outcome.next (h.stays h.hasType ?_)⟩
    · have hany : (s.launches.any fun e => e.2.queue == n) = false := by simpa using hnone
      unfold drainPacket
      rw [if_neg (by simp [hclean])]
      exact if_neg (Bool.eq_false_iff.mp hany)
    · have hany : (s.launches.any fun e => e.2.queue == n) = true := by simpa using hsome
      unfold drainPacket
      rw [if_neg (by simp [hclean])]
      exact if_pos hany
  case regionSet =>
    intro n s q bs c path h hop hnamed
    refine congrArg Host.Outcome.next (h.done (h.ofRegion (by simp [hop])) ?_)
    unfold regionSetPacket
    rw [hnamed]
    rfl
  case regionOther =>
    intro n s q bs h hop
    have hnamed : (s.begun n q).regionNamed (s.fetching q) bs = .error 2 := by
      rw [State.regionNamed]
      exact if_pos (by simp [regionFields, hop.not_ge])
    refine congrArg Host.Outcome.next (h.fails (h.ofRegion (by simp [hop])) ?_)
    unfold regionSetPacket
    rw [hnamed]
  case regionPrio =>
    intro n s q bs c y path h hop hnamed s1 m
    refine congrArg Host.Outcome.next (h.done (h.ofRegion (by simp [hop])) ?_)
    unfold regionPrioPacket
    rw [hnamed]
    rfl
  case regionFirst =>
    intro n s q bs c y path x h hw hnamed t r s1 hx saved go
    have hsaved : saved ↔ s1.savedImage x = true := (savedImage_iff s1 x).symm
    have hsave := regionMove_first (restore := false) (n := n) (q := r) hw hnamed hx
    have hrestore := regionMove_first (restore := true) (n := n) (q := r) hw hnamed hx
    refine ⟨fun hop => ?_, fun hop => ?_⟩
    · have hown : (ofType 10 bs && regionOp bs == 1) = true := h.ofRegion (beq_iff_eq.mpr hop)
      refine ⟨fun hwait => congrArg Host.Outcome.next (h.stays hown (hsave.trans (if_pos ?_))), fun hc hr hsv => ?_,
        fun hc hr hsv => ?_⟩
      · simpa [Option.isSome_iff_ne_none] using hwait
      · have hfree : (x.client.isSome || (false && x.why ≠ 0) || (!false && s1.restoring y.num)) = false := by simp [hc, hr]
        have hnot : (!false && s1.savedImage x) = false := Bool.eq_false_iff.mpr (hsaved.not.mp hsv)
        refine congrArg Host.Outcome.next (h.stays hown (hsave.trans ?_))
        rw [if_neg (Bool.eq_false_iff.mp hfree), if_neg (Bool.eq_false_iff.mp hnot)]
        simp only [Bool.not_false, Bool.true_and, decide_eq_true_eq]
        rfl
      · have hfree : (x.client.isSome || (false && x.why ≠ 0) || (!false && s1.restoring y.num)) = false := by simp [hc, hr]
        have hdone := hsave.trans ((if_neg (Bool.eq_false_iff.mp hfree)).trans (if_pos (hsaved.mp hsv)))
        exact ⟨fun hall => congrArg Host.Outcome.next (h.done hown (hdone.trans (regionDone_silent 0 s1 hall))),
          fun a hall ha => congrArg Host.Outcome.next (h.done hown (hdone.trans (regionDone_word 0 hall ha)))⟩
    · have hown : (ofType 10 bs && regionOp bs == 2) = true := h.ofRegion (beq_iff_eq.mpr hop)
      refine ⟨fun hwait => congrArg Host.Outcome.next (h.stays hown (hrestore.trans (if_pos ?_))), fun hc hwhy => ?_⟩
      · simpa [Option.isSome_iff_ne_none] using hwait
      · have hfree : (x.client.isSome || (true && x.why ≠ 0) || (!true && s1.restoring y.num)) = false := by simp [hc, hwhy]
        refine congrArg Host.Outcome.next (h.stays hown (hrestore.trans ?_))
        rw [if_neg (Bool.eq_false_iff.mp hfree), if_neg (by simp), if_neg (by simp), hwhy]
        rfl
  case regionAnswered =>
    intro n s q bs k x h hw hk hop t s1 runs
    have hruns : ∀ u, (∀ restore own, own bs = true → s.runPacket n own (regionMove restore) = u) → runs u := by
      intro u hu
      rcases hop with hop | hop
      · have hrun := hu false (fun bs => ofType 10 bs && regionOp bs == 1) (h.ofRegion (beq_iff_eq.mpr hop))
        simp only [runs, hop, if_true]
        exact congrArg Host.Outcome.next hrun
      · have hrun := hu true (fun bs => ofType 10 bs && regionOp bs == 2) (h.ofRegion (beq_iff_eq.mpr hop))
        simp only [runs, hop]
        exact congrArg Host.Outcome.next hrun
    have hbody (restore : Bool) := regionMove_answered (restore := restore) (q := s.fetching q) (bs := bs) hw hk
    refine ⟨fun hnone => hruns _ fun restore own hown => h.stays hown ((hbody restore).1 hnone), fun reason hr => ?_⟩
    refine ⟨fun hall => hruns _ fun restore own hown => ?_, fun a hall ha => hruns _ fun restore own hown => ?_⟩
    · exact h.done hown (((hbody restore).2 reason hr).trans (regionDone_silent _ _ hall))
    · exact h.done hown (((hbody restore).2 reason hr).trans (regionDone_word _ hall ha))
  case nop =>
    intro n s q bs h hclean
    refine congrArg Host.Outcome.next (h.done (by simp [h.type]) ?_)
    unfold nopPacketBody
    rw [if_neg (not_not.mpr h.type), if_neg (by simp [hclean])]
    rfl
  case noPacket =>
    intro n s q ty bs h hty
    refine congrArg Host.Outcome.next (h.fails (by simp [h.type]; omega) (if_pos ?_))
    rw [h.type]
    omega
  case retire =>
    intro n s l hl hcounter halive hperformed s1
    have hgo : (l.counter ≠ 0 || !s.firmware.alive || !s.storesPerformed l.uids) = false := by
      simp [hcounter, halive, hperformed]
    have hretire : s.retireLaunch n = match s1.queue l.queue, l.cpl with
        | some q, some off =>
          let s2 := match s1.arena q off 8 permStore with
            | .ok a => s1.storeNum a 8 l.cval
            | .error _ => s1.queueRecord l.queue q (4 + 2 ^ 8) l.index
          if l.intr then { s2 with msix := (q.func, q.vec) :: s2.msix } else s2
        | _, _ => s1 := by
      rw [State.retireLaunch, hl]
      exact if_neg (Bool.eq_false_iff.mp hgo)
    refine ⟨fun hnone => congrArg Host.Outcome.next (hretire.trans ?_), fun q off hcpl hq =>
      ⟨fun a ha => congrArg Host.Outcome.next (hretire.trans ?_), fun e he => congrArg Host.Outcome.next (hretire.trans ?_)⟩⟩
    · split
      next hq hc => exact absurd hnone (by simp [hq, hc])
      next => rfl
    · rw [hq, hcpl]
      dsimp only
      rw [ha]
    · rw [hq, hcpl]
      dsimp only
      rw [he]

end Sys2Proof.Machine
end
section
/-!
The channels of the copy engines: what they send, and how a command ends, beside the rest of the part (R327 to R329).
-/

namespace Sys2Proof.Machine

/-! ### Flits sent -/

/-- `t` is `s` but for what its ports hold. -/
def OnlyPorts (s t : State) : Prop := t = { s with ports := t.ports }

theorem OnlyPorts.refl (s : State) : OnlyPorts s s := rfl

theorem OnlyPorts.trans {s t u : State} (h : OnlyPorts s t) (h' : OnlyPorts t u) : OnlyPorts s u := by
  rw [OnlyPorts, h', h]

theorem OnlyPorts.channels {s t : State} (h : OnlyPorts s t) : t.channels = s.channels := by rw [h]
theorem OnlyPorts.cores {s t : State} (h : OnlyPorts s t) : t.cores = s.cores := by rw [h]
theorem OnlyPorts.sweeper {s t : State} (h : OnlyPorts s t) : t.sweeper = s.sweeper := by rw [h]

theorem OnlyPorts.channel {s t : State} (h : OnlyPorts s t) (num : Nat) : t.channel num = s.channel num := by
  rw [State.channel, h.channels, State.channel]

theorem OnlyPorts.sameIssue {s t : State} (h : OnlyPorts s t) : SameIssue s t := .of_cores h.cores h.sweeper

theorem sendFlit_onlyPorts (s : State) (p : Nat) (f : Flit) : OnlyPorts s (s.sendFlit p f) := by
  unfold State.sendFlit
  split <;> rfl

theorem sendGroup_onlyPorts (s : State) (colour : Nat) (k : Command) (kind : Nat) (payload : List Byte) :
    OnlyPorts s (s.sendGroup colour k kind payload).2 := by
  refine List.foldlRecOn (s.others k) _ (motive := fun r : Bool × State × NSet => OnlyPorts s r.2.1) (.refl s) fun r hr d _ => ?_
  split
  · exact hr
  · split
    · exact hr
    · exact hr.trans (sendFlit_onlyPorts ..)

theorem sendControl_onlyPorts (s : State) (ch : Channel) (code : Nat) : OnlyPorts s (s.sendControl ch code) :=
  sendGroup_onlyPorts ..

/-! ### Channels changed -/

@[simp] theorem channel_setChannel_self (s : State) (num : Nat) (ch : Channel) : (s.setChannel num ch).channel num = some ch :=
  kget_kset_self ..

theorem channel_failChannel {s : State} {num : Nat} {ch : Channel} (h : s.channel num = some ch) (code : Nat) :
    (s.failChannel num code).channel num = some (if ch.status = 1 && ch.code = 0 then { ch with code } else ch) := by
  have h' : kget s.channels num = some ch := h
  rw [State.failChannel, State.channel]
  simp only [kget_kmod, h', if_true, Option.map_some]

/-- A command as it ends with a status and a code (R323, R329). -/
def Channel.ended (ch : Channel) (status code : Nat) : Channel :=
  { ch with status, code, queued := false, written := false, unit := none, parts := [] }

theorem endChannel_of {s : State} {num : Nat} {ch : Channel} (h : s.channel num = some ch) (status code : Nat) :
    s.endChannel num status code = (s.setChannel num (ch.ended status code)).dropChannelWork num ch.inv := by
  rw [State.endChannel, h]
  rfl

theorem channel_endChannel {s : State} {num : Nat} {ch : Channel} (h : s.channel num = some ch) (status code : Nat) :
    (s.endChannel num status code).channel num = some (ch.ended status code) := by
  rw [endChannel_of h]
  exact channel_setChannel_self ..

/-! ### What an instruction of a wave goes on in -/

/-- A change of every core that keeps its waves and segments. -/
theorem SameIssue.mapCores {s t : State} (f : Core → Core) (hw : ∀ k, (f k).waves = k.waves) (hk : ∀ k, (f k).segs = k.segs)
    (hc : t.cores = s.cores.map fun e => (e.1, f e.2)) (hs : t.sweeper = s.sweeper) : SameIssue s t := by
  have hcore : ∀ c, (t.core c).waves = (s.core c).waves ∧ (t.core c).segs = (s.core c).segs := fun c => by
    simp only [State.core, kgetD, hc, kget_map s.cores f]
    cases kget s.cores c with
    | none => exact ⟨rfl, rfl⟩
    | some k => exact ⟨hw k, hk k⟩
  exact ⟨fun c n => by rw [State.wave, (hcore c).1, State.wave], fun c => (hcore c).2, hs⟩

theorem dropChannelWork_sameIssue (s : State) (num inv : Nat) : SameIssue s (s.dropChannelWork num inv) :=
  .mapCores (fun k => { k with blocks := k.blocks.map fun (n, b) =>
    (n, { b with fe := b.fe.filter fun q => match q.op with | .channel x _ => x != num | _ => true }) })
    (fun _ => rfl) (fun _ => rfl) rfl rfl

theorem endChannel_sameIssue (s : State) (num status code : Nat) : SameIssue s (s.endChannel num status code) := by
  unfold State.endChannel
  split
  · exact .refl s
  · exact (SameIssue.of_cores (s := s)).trans (dropChannelWork_sameIssue ..)

theorem failChannel_sameIssue (s : State) (num code : Nat) : SameIssue s (s.failChannel num code) := .of_cores

theorem takeGroup_sameIssue (s : State) (num : Nat) (ch : Channel) (control : Bool) (p : List Byte) :
    SameIssue s (s.takeGroup num ch control p) := by
  unfold State.takeGroup
  extract_lets k rank same x key
  split
  · exact (sendControl_onlyPorts ..).sameIssue.trans (failChannel_sameIssue ..)
  · split
    · split
      · exact .refl s
      · exact failChannel_sameIssue ..
    · exact .of_cores

theorem joinGroup_sameIssue (s : State) (num : Nat) (ch : Channel) : SameIssue s (s.joinGroup num ch) := by
  have hsent := (sendGroup_onlyPorts s ch.colour ch.cmd 8 (groupHead ch.cmd false 0)).sameIssue
  unfold State.joinGroup
  generalize s.sendGroup ch.colour ch.cmd 8 (groupHead ch.cmd false 0) = r at hsent
  obtain ⟨routed, s1⟩ := r
  dsimp only at hsent ⊢
  have hkept : SameIssue s (if routed then s1 else s1.failChannel num 1) := .ite hsent (hsent.trans (failChannel_sameIssue ..))
  refine List.foldlRecOn _ _ (hkept.trans .of_cores) fun t ht e _ => ?_
  split
  · exact .ite (ht.trans (takeGroup_sameIssue ..)) ht
  · exact ht

end Sys2Proof.Machine
end
section
/-!
The instructions of commands (O28).
-/

namespace Sys2Proof.Machine

/-! ### INVK (R317, R322) -/

theorem ne_zero_of_ite {p : Prop} [Decidable p] {k x : Nat} (hk : k ≠ 0) (hx : x ≠ 0) : (if p then k else x) ≠ 0 := by
  split
  · exact hk
  · exact hx

/-- A block that INVK finds valid has a free channel to start it on. -/
theorem freeChannel_of_validate {s : State} {core : Nat} {b : Block} {c : Cap} (h : s.validate core b true c = 0) :
    ∃ n, s.freeChannel core b = some n := by
  by_contra hnone
  have hfree : (s.freeChannel core b).isNone = true := by
    rw [Option.isNone_iff_eq_none, Option.eq_none_iff_forall_ne_some]
    exact fun n hn => hnone ⟨n, hn⟩
  refine absurd h ?_
  unfold State.validate
  dsimp only
  iterate 12 refine ne_zero_of_ite (by decide) ?_
  rw [if_pos (by simp [hfree])]
  decide

/-- The command that INVK starts on channel `num` for a valid block (R322). -/
def commandStarted (s : State) (core num : Nat) (b : Block) (cap : Cap) : Channel :=
  let inv := match s.channel num with | some ch => (ch.inv + 1) % 2 ^ 32 | none => 1
  { inv, status := 1, code := 0, done := 0, pois := false,
    image := (s.readBlock (localOf (capCursor cap.bits))).1, tags := (s.readBlock (localOf (capCursor cap.bits))).2,
    colour := (s.core core).latch, grid := b.grid, index := b.index, context := b.env.top, slot := none,
    owners := kset (match s.channel num with | some ch => ch.owners | none => []) inv b.env.top, sent := 0, parts := [],
    since := s.now (dieOf core), queued := false, written := false, unit := none }

section
variable {x : VArgs} {c : Ctx} {w : Wave} {s : State} {b : Block} (hb : s.block c.core c.bslot = some b)
  (hord : s.ordered w false 0 = true)
include hb hord

theorem invkBody_refused {code : Nat} (hcode : (s.exclude c.core c.bslot).validate c.core b true (c.quadCap w x.a c.lowest) = code)
    (hne : code ≠ 0) : invkBody x c w s =
      .next ((s.exclude c.core c.bslot).setWave c.core c.slot (c.writeG w x.d (BitVec.ofNat 64 (2 ^ 63 + code)))) := by
  rw [invkBody, hb]
  dsimp only
  rw [if_neg (by simp [hord]), hcode, if_pos hne]

theorem invkBody_started {n : Nat} (hcode : (s.exclude c.core c.bslot).validate c.core b true (c.quadCap w x.a c.lowest) = 0)
    (hn : (s.exclude c.core c.bslot).freeChannel c.core b = some n) :
    let num := 16 * groupOf c.core + n
    let s0 := s.exclude c.core c.bslot
    let ch := commandStarted s0 c.core num b (c.quadCap w x.a c.lowest)
    let s1 := (s0.setChannel num ch).setWave c.core c.slot (c.writeG w x.d (handleWord num ch.inv))
    invkBody x c w s = .next (if ch.cmd.collective then s1.joinGroup num ch else s1) := by
  intro num s0 ch s1
  rw [invkBody, hb]
  dsimp only
  rw [if_neg (by simp [hord]), hcode, if_neg (not_not.mpr rfl), hn]
  rfl
end

/-- An instruction that starts a member of a group, after its wave is written, completes with what the member finds (R327). -/
theorem completesAt_of_joinGroup {i : Instr} {s s2 : State} {core slot : Nat} {w w2 : Wave} {body : Body} {num : Nat} {ch : Channel}
    (he : exec i s = issue i.view (encode i) body false s) (h : Runs i s core slot w b)
    (hb : body (ctxFor i s core slot w) w s = .next ((s2.setWave core slot w2).joinGroup num ch)) (hp : SamePath w w2)
    (hs : SameIssue s s2) : CompletesAt i s core slot w b ((s2.setWave core slot w2).joinGroup num ch) w2 := by
  have hjoin := joinGroup_sameIssue (s2.setWave core slot w2) num ch
  refine completesAt_of he h hb ((hjoin.wave core slot).trans (wave_setWave_self ..)) hp ?_ ?_
  · rw [hjoin.segs, core_setWave_segs, hs.segs]
  · rw [hjoin.sweeper, setWave_sweeper, hs.sweeper, h.sweep]

/-! ### Handles and status words (R321, R323) -/

theorem word_status (ch : Channel) : ch.word.toNat % 256 = ch.status % 256 := by
  rw [Channel.word, BitVec.toNat_ofNat]
  split <;> split <;> omega

/-- The status word answered, with the acquire that state 2 is (R323). -/
theorem reported_completes {i : Instr} {s s2 : State} {core slot : Nat} {w : Wave} {b : Block} {body : Body} {x : VArgs} {v : Dword}
    (he : exec i s = issue i.view (encode i) body false s) (h : Runs i s core slot w b)
    (hb : body (ctxFor i s core slot w) w s = reportStatus x (ctxFor i s core slot w) w s2 v) (hs : SameIssue s s2) :
    ∃ w1, CompletesAt i s core slot w b (if v.toNat % 256 = 2 then s2.acquire core 3 else s2) w1 ∧ WroteGrp w w1 x.d v := by
  refine ⟨_, completesAt_of_setWave he h (hb.trans ?_) (wroteGrp_writeG ..).samePath
    (.ite (hs.trans (acquire_sameIssue s2 core 3)) hs), wroteGrp_writeG (ctxFor i s core slot w) ..⟩
  rw [reportStatus]
  split
  · exact congrArg Done.next (acquire_setWave ..)
  · rfl

section
variable {x : VArgs} {c : Ctx} {w : Wave} {s : State} {b : Block} (hb : s.block c.core c.bslot = some b)
include hb

theorem chstatBody_of_error {v : Dword} (hv : s.handleOf b.env.top (c.readG w x.a) = .error v) (waits : Bool) :
    chstatBody x waits c w s = reportStatus x c w s v := by
  rw [chstatBody, hb]
  dsimp only
  rw [hv]

theorem chstatBody_of_ok {num : Nat} {ch : Channel} (hv : s.handleOf b.env.top (c.readG w x.a) = .ok (num, ch)) {waits : Bool}
    (hw : (waits && ch.status = 1) = false) : chstatBody x waits c w s = reportStatus x c w s ch.word := by
  rw [chstatBody, hb]
  dsimp only
  rw [hv]
  exact if_neg (Bool.eq_false_iff.mp hw)

/-- CHCAN reports the command as it stands in the state that it leaves (R328). -/
theorem chcanBody_of_ok {num : Nat} {ch ch1 : Channel} {s1 : State} (hv : s.handleOf b.env.top (c.readG w x.a) = .ok (num, ch))
    (hs : (if ch.status ≠ 1 then s else if ch.written then s.finishChannel num ch
      else if ch.cmd.collective then (s.endChannel num 3 0).sendControl ch 13 else s.endChannel num 3 0) = s1)
    (hch : s1.channel num = some ch1) : chcanBody x c w s = reportStatus x c w s1 ch1.word := by
  subst hs
  rw [chcanBody, hb]
  dsimp only
  rw [hv]
  dsimp only
  rw [hch]
end

theorem channel_of_handleOf {s : State} {top : Nat} {v : Dword} {num : Nat} {ch : Channel} (h : s.handleOf top v = .ok (num, ch)) :
    s.channel num = some ch := by
  unfold State.handleOf at h
  extract_lets g inv n at h
  clear_value n
  split at h
  · cases h
  next hch =>
    split at h
    · cases h
    · split at h
      · cases h
      · cases h
        exact hch

/-! ### CBSEAL (R324) -/

section
variable {lenm exp cls perms otype colour cursor : Nat} (hc : cursor < 2 ^ 56) (hcol : colour < 256) (ho : otype < 64)
  (hp : perms < 4096)
include hc

theorem capCursor_capMake : capCursor (capMake lenm 0 exp cls perms otype colour cursor) = cursor := by
  simp only [capCursor, capMake, field, BitVec.toNat_ofNat]
  omega

include hcol ho hp

theorem capClass_capMake (hcls : cls < 4) : capClass (capMake lenm 0 exp cls perms otype colour cursor) = cls := by
  simp only [capClass, capMake, field, BitVec.toNat_ofNat]
  omega

/-- A capability of exponent 0 begins at its cursor, and its length is its LENM. -/
theorem capBounds_capMake (hcls : cls < 4) :
    capBase (capMake lenm 0 0 cls perms otype colour cursor) = cursor ∧
    capTop (capMake lenm 0 0 cls perms otype colour cursor) = (cursor + lenm % 2 ^ 19 : Nat) := by
  have hexp : field (capMake lenm 0 0 cls perms otype colour cursor).toNat 84 5 = 0 := by
    simp only [capMake, field, BitVec.toNat_ofNat]
    omega
  have hdown : field (capMake lenm 0 0 cls perms otype colour cursor).toNat 89 19 = 0 := by
    simp only [capMake, field, BitVec.toNat_ofNat]
    omega
  have hlen : field (capMake lenm 0 0 cls perms otype colour cursor).toNat 108 19 = lenm % 2 ^ 19 := by
    simp only [capMake, field, BitVec.toNat_ofNat]
    omega
  have hbase : capBase (capMake lenm 0 0 cls perms otype colour cursor) = cursor := by
    simp [capBase, hexp, hdown, capCursor_capMake hc, Nat.mod_one]
  refine ⟨hbase, ?_⟩
  rw [capTop, hbase, hexp, hlen]
  push_cast
  ring
end

/-- The bits that CBSEAL gives a capability to a command block (R324). -/
def sealedBlock (k : BitVec 128) : BitVec 128 :=
  capMake 128 0 0 (capClass k) (permInvoke ||| (capPerms k &&& permGlobal)) 1 (capColour k) (capCursor k)
    ||| BitVec.ofNat 128 (field k.toNat 127 1 * 2 ^ 127)

/-- Bit 127 above the length is a length's bit beyond its 19. -/
theorem sealedBlock_eq (k : BitVec 128) : sealedBlock k =
    capMake (128 + field k.toNat 127 1 * 2 ^ 19) 0 0 (capClass k) (permInvoke ||| (capPerms k &&& permGlobal)) 1 (capColour k)
      (capCursor k) := by
  have hcursor : capCursor k < 2 ^ 56 := Nat.mod_lt _ (by norm_num)
  have hcolour : capColour k < 2 ^ 8 := Nat.mod_lt _ (by norm_num)
  have hperms : (permInvoke ||| (capPerms k &&& permGlobal)) < 2 ^ 12 :=
    Nat.or_lt_two_pow (by decide) (Nat.and_lt_two_pow _ (by decide))
  have hclass : capClass k < 2 ^ 2 := Nat.mod_lt _ (by norm_num)
  have hbit : field k.toNat 127 1 < 2 := Nat.mod_lt _ (by norm_num)
  unfold sealedBlock capMake
  rw [← BitVec.ofNat_or, Nat.or_comm, Nat.mul_comm _ (2 ^ 127), ← Nat.two_pow_add_eq_or_of_lt (by omega)]
  exact congrArg (BitVec.ofNat 128) (by ring)

theorem sealedBlock_fields (k : BitVec 128) : capOtype (sealedBlock k) = 1 ∧ capCursor (sealedBlock k) = capCursor k ∧
    capPerms (sealedBlock k) = (permInvoke ||| (capPerms k &&& permGlobal)) ∧ capColour (sealedBlock k) = capColour k ∧
    capClass (sealedBlock k) = capClass k ∧ capBase (sealedBlock k) = capCursor k ∧
    capTop (sealedBlock k) = capCursor k + 128 := by
  have hcursor : capCursor k < 2 ^ 56 := Nat.mod_lt _ (by norm_num)
  have hcolour : capColour k < 256 := Nat.mod_lt _ (by norm_num)
  have hperms : (permInvoke ||| (capPerms k &&& permGlobal)) < 4096 :=
    Nat.or_lt_two_pow (n := 12) (by decide) (Nat.and_lt_two_pow _ (by decide))
  have hclass : capClass k < 4 := Nat.mod_lt _ (by norm_num)
  rw [sealedBlock_eq]
  have hbounds := capBounds_capMake (lenm := 128 + field k.toNat 127 1 * 2 ^ 19) hcursor hcolour (otype := 1) (by decide) hperms hclass
  rw [Nat.add_mul_mod_self_right] at hbounds
  exact ⟨capOtype_capMake hcursor hcolour (by decide), capCursor_capMake hcursor, capPerms_capMake hcursor hcolour (by decide) hperms,
    capColour_capMake hcursor hcolour, capClass_capMake hcursor hcolour (by decide) hperms hclass, hbounds.1, by
      rw [hbounds.2]; push_cast; rfl⟩

/-- The capability that CBSEAL makes of `k` in a core whose latch is `latch` (R324). -/
def blockCap (latch : Nat) (k : Cap) : Cap :=
  ⟨sealedBlock k.bits, k.tag && capOtype k.bits = 0 && holds (capGrants k.bits) (permLoad ||| permInvoke) && capColour k.bits = latch &&
    capCursor k.bits % 128 = 0 && capBase k.bits ≤ capCursor k.bits && (capCursor k.bits + 128 : Nat) ≤ capTop k.bits⟩

theorem cbseal_completes {f : VF} {s : State} {core slot : Nat} {w : Wave} {b : Block} (h : Runs (.cbseal f) s core slot w b) :
    let c := ctxFor (.cbseal f) s core slot w
    let k := c.quadCap w f.a.toNat c.lowest
    let a := capCursor k.bits
    ∃ w1, Completes (.cbseal f) s core slot w b w1 ∧ OnlyVec w w1 (destRegs f.d.toNat 4) ∧
      (f.d.toNat ≠ 1023 → ∀ l, l < 32 → c.act.getLsbD l = true →
        (w1.cap f.d.toNat l).tag = (k.tag && capOtype k.bits = 0 && holds (capGrants k.bits) (permLoad ||| permInvoke)
          && capColour k.bits = (s.core core).latch && a % 128 = 0 && capBase k.bits ≤ a && (a + 128 : Nat) ≤ capTop k.bits) ∧
        capOtype (w1.cap f.d.toNat l).bits = 1 ∧ capCursor (w1.cap f.d.toNat l).bits = a ∧
        capPerms (w1.cap f.d.toNat l).bits = (permInvoke ||| (capPerms k.bits &&& permGlobal)) ∧
        capColour (w1.cap f.d.toNat l).bits = capColour k.bits ∧ capClass (w1.cap f.d.toNat l).bits = capClass k.bits ∧
        capBase (w1.cap f.d.toNat l).bits = a ∧ capTop (w1.cap f.d.toNat l).bits = a + 128) := by
  intro c k a
  have hd := vec_dst_ok (ready_operands h.toReady ((f.args .cbseal false).od (.vec 4)) (.head _)) Role.noConfusion
  have hgo {w1 : Wave} (hw1 : w1 = c.writeQuad w f.d.toNat true fun _ => blockCap (s.core core).latch k) (hp : SamePath w w1) :
      Completes (.cbseal f) s core slot w b w1 := by
    subst hw1
    exact completes_of_setWave (body := cbsealBody (f.args .cbseal false)) rfl h rfl hp
  rcases hd with hd | hd
  · have hd' : f.d.toNat = 1023 := hd
    refine ⟨w, hgo ?_ (SamePath.refl w), OnlyVec.refl _ _, fun hne => absurd hd' hne⟩
    simp [Ctx.writeQuad, Bank.writeQuad, hd', setBank_bank]
  · have hd' : f.d.toNat + 3 < 1023 := by
      have : f.d.toNat + 4 ≤ 672 := hd.2
      omega
    obtain ⟨honly, hcaps⟩ := caps_writeQuad c w f.d.toNat true (fun _ => blockCap (s.core core).latch k) hd' h.active fun _ _ _ => rfl
    have hdr : destRegs f.d.toNat 4 = rangeFrom f.d.toNat 4 := by simp [destRegs, show f.d.toNat ≠ 1023 by omega]
    refine ⟨_, hgo rfl honly.samePath, hdr ▸ honly, fun _ l hl hact => ?_⟩
    have hpath := guardLanes_path hact
    rw [Wave.path, BitVec.getLsbD_and, Bool.and_eq_true] at hpath
    rw [hcaps l hl hpath.2, if_pos hact]
    exact ⟨rfl, sealedBlock_fields k.bits⟩

/-- Settles O28: INVK by what it starts, the others by the status word or the block capability they report. -/
theorem commands : Obligations.Commands := by
  unfold Obligations.Commands
  refine ⟨?invk, ?chstat, ?chwait, ?chcan, ?cbseal, ?cbchk⟩
  case invk =>
    intro f s core slot w b h hord c s0 cap code
    refine ⟨fun hne => ?_, fun hzero => ?_⟩
    · exact ⟨_, completesAt_of_setWave (body := invkBody (f.args .invk false)) rfl h (invkBody_refused h.block hord rfl hne)
        (wroteGrp_writeG ..).samePath (exclude_sameIssue ..), wroteGrp_writeG c w _ _⟩
    · obtain ⟨n, hn⟩ := freeChannel_of_validate hzero
      have hbody := invkBody_started (x := f.args .invk false) (c := c) h.block hord hzero hn
      have hw := wroteGrp_writeG c w f.d.toNat
        (handleWord (16 * groupOf core + n) (commandStarted s0 core (16 * groupOf core + n) b cap).inv)
      have hset : SameIssue s (s0.setChannel (16 * groupOf core + n) (commandStarted s0 core (16 * groupOf core + n) b cap)) :=
        (exclude_sameIssue s core w.bslot).trans .of_cores
      refine ⟨n, _, commandStarted s0 core (16 * groupOf core + n) b cap, hn, fun hop => ?_, fun hop => ?_, hw, rfl, rfl, rfl, rfl,
        rfl, rfl, kget_kset_self ..⟩
      · exact completesAt_of_setWave (body := invkBody (f.args .invk false)) rfl h (hbody.trans (congrArg Done.next
          (if_neg (Bool.eq_false_iff.mp hop)))) hw.samePath hset
      · exact completesAt_of_joinGroup (body := invkBody (f.args .invk false)) rfl h (hbody.trans (congrArg Done.next (if_pos hop)))
          hw.samePath hset
  case chstat =>
    intro f s core slot w b h c v
    refine reported_completes (body := chstatBody (f.args .chstat false) false) (x := f.args .chstat false) (v := v) rfl h ?_ (.refl s)
    rcases hv : s.handleOf b.env.top (c.readG w f.a.toNat) with e | ⟨num, ch⟩
    · rw [show v = e by simp only [v, hv]]
      exact chstatBody_of_error (x := f.args .chstat false) (c := c) h.block hv false
    · rw [show v = ch.word by simp only [v, hv]]
      exact chstatBody_of_ok (x := f.args .chstat false) (c := c) h.block hv (Bool.false_and _)
  case chwait =>
    intro f s core slot w b h c r v hdone
    refine reported_completes (body := chstatBody (f.args .chwait false) true) (x := f.args .chwait false) (v := v) rfl h ?_ (.refl s)
    rcases hv : s.handleOf b.env.top (c.readG w f.a.toNat) with e | ⟨num, ch⟩
    · rw [show v = e by simp only [v, r, hv]]
      exact chstatBody_of_error (x := f.args .chwait false) (c := c) h.block hv true
    · rw [show v = ch.word by simp only [v, r, hv]]
      exact chstatBody_of_ok (x := f.args .chwait false) (c := c) h.block hv (by simpa using hdone num ch hv)
  case chcan =>
    intro f s core slot w b num ch h hv
    have hch := channel_of_handleOf hv
    have hreport {s1 : State} {ch1 : Channel} (hs : (if ch.status ≠ 1 then s else if ch.written then s.finishChannel num ch
        else if ch.cmd.collective then (s.endChannel num 3 0).sendControl ch 13 else s.endChannel num 3 0) = s1)
        (hch1 : s1.channel num = some ch1) (hsame : SameIssue s s1) :=
      reported_completes (body := chcanBody (f.args .chcan false)) (x := f.args .chcan false) (v := ch1.word) rfl h
        (chcanBody_of_ok h.block hv hs hch1) hsame
    refine ⟨fun hrun hw => ?_, fun hrun hw => ?_, fun hdone => ?_⟩
    · have hsent := sendControl_onlyPorts (s.endChannel num 3 0) ch 13
      have hended := endChannel_sameIssue s num 3 0
      obtain ⟨w1, hc, hg⟩ := hreport (by rw [if_neg (not_not.mpr hrun), if_neg (Bool.eq_false_iff.mp hw)])
        (ch1 := ch.ended 3 0) (by split <;> simp only [hsent.channel, channel_endChannel hch])
        (.ite (hended.trans hsent.sameIssue) hended)
      rw [if_neg (by rw [word_status]; exact (by decide : ¬3 % 256 = 2))] at hc
      exact ⟨w1, hc, hg⟩
    · obtain ⟨w1, hc, hg⟩ := hreport (s1 := s.finishChannel num ch) (by rw [if_neg (not_not.mpr hrun), if_pos hw])
        (channel_endChannel hch _ _)
        (endChannel_sameIssue ..)
      refine ⟨w1, ?_, hg⟩
      have hstate : (ch.ended (if ch.code = 0 then 2 else 4) ch.code).word.toNat % 256 = 2 ↔ ch.code = 0 := by
        rw [word_status, Channel.ended]
        split <;> simp [*]
      rwa [if_congr hstate rfl rfl] at hc
    · exact hreport (if_pos hdone) hch (.refl s)
  case cbseal =>
    intro f s core slot w b h htag c k a
    exact cbseal_completes h
  case cbchk =>
    intro f s core slot w b h c
    refine ⟨_, completes_of_setWave (body := cbchkBody (f.args .cbchk false)) rfl h ?_ (wroteGrp_writeG ..).samePath,
      wroteGrp_writeG c ..⟩
    rw [cbchkBody, show s.block (ctxFor (.cbchk f) s core slot w).core (ctxFor (.cbchk f) s core slot w).bslot = some b from h.block]
    rfl

end Sys2Proof.Machine
end
section
/-!
What a channel does: its units, its completion, and how it is stopped (O29).
-/

namespace Sys2Proof.Machine

theorem Stored.touchesRevoked {s t : State} (h : Stored s t) (v : BitVec 128) : t.touchesRevoked v = s.touchesRevoked v :=
  (congrArg (State.touchesRevoked · v) h.rest :)

/-! ### A unit of a COPY within the part (R325, R326) -/

theorem unitSize_pos {s : State} {k : Command} {dst left : Nat} (h : 0 < left) : 0 < unitSize s k dst left := by
  unfold unitSize
  refine Nat.lt_min.mpr ⟨h, ?_⟩
  split
  · omega
  · split <;> omega

theorem unitSize_le (s : State) (k : Command) (dst left : Nat) : unitSize s k dst left ≤ left := Nat.min_le_left ..

theorem length_bytesAt (s : State) (a n : Nat) : (s.bytesAt a n).length = n := by simp [State.bytesAt, rangeFrom]

theorem zip_range_map_fst {α : Type} (l : List α) (g : α × Nat → α) (h : ∀ x i, i < l.length → g (x, i) = x) :
    (l.zip (List.range l.length)).map g = l := by
  refine List.ext_getElem (by simp) fun i hi hi' => ?_
  simpa using h l[i] i hi'

/-- Bytes that fall outside the source range are as they were read (R325). -/
theorem overlapped_of_outside {s : State} {k : Command} {dst : Nat} {bs : List Byte} {tags : List Bool}
    (hout : ∀ x, x < bs.length → ¬(capCursor k.src.bits ≤ dst + x ∧ dst + x < capCursor k.src.bits + k.len))
    (htags : 16 * tags.length ≤ bs.length) : overlapped s k dst bs tags = (bs, tags) := by
  have hin : ∀ x, x < bs.length →
      (k.dkind = 0 && capCursor k.src.bits ≤ dst + x && dst + x < capCursor k.src.bits + k.len) = false := fun x hx => by
    have := hout x hx
    simp only [Bool.and_eq_false_iff, decide_eq_false_iff_not]
    tauto
  unfold overlapped
  refine Prod.ext (zip_range_map_fst bs _ fun b i hi => ?_) (zip_range_map_fst tags _ fun t i hi => ?_)
  · exact if_neg (Bool.eq_false_iff.mp (hin i hi))
  · dsimp only
    rw [hin (16 * i) (by omega), Nat.add_assoc, hin (16 * i + 15) (by omega)]
    simp

/-- A local read of sound bytes that passes its checks (R325). -/
theorem chanRead_of_sound {s : State} {num : Nat} {ch : Channel} {cap : Cap} {va n : Nat}
    (hcheck : s.chanCheck ch.colour (num / 16) cap (localOf va) n = none) (hhbm : rangeOf (localOf va) = .hbm)
    (hsound : s.poisoned (localOf va) n = false) : s.chanRead num ch cap va n = .bytes (s.bytesAt (localOf va) n)
      ((rangeFrom (localOf va / 16) (n / 16)).map fun u => s.tags.contains u) [] s := by
  have hbad : ((List.range n).filter fun i => s.poison.contains ((localOf va + i) / 64)) = [] := by
    refine List.filter_eq_nil_iff.mpr fun i hi hpoison => ?_
    have hi' : i < n := List.mem_range.mp hi
    refine List.any_eq_false.mp hsound _ (List.contains_iff_mem.mp hpoison) ?_
    simp only [Bool.and_eq_true, decide_eq_true_eq]
    omega
  rw [State.chanRead, hcheck]
  simp only [State.chanPages, hhbm, hbad]
  rfl

/-- The hypotheses under which a unit of a COPY, whose source and destination lie in local memory, moves its `n` bytes. -/
structure Copies (s : State) (num : Nat) (ch : Channel) (n : Nat) : Prop where
  size : n = unitSize s ch.cmd (capCursor ch.cmd.dst.bits + ch.done) (ch.cmd.len - ch.done)
  channel : s.channel num = some ch
  runs : ch.status = 1
  sound : ch.code = 0
  idle : ch.unit = none
  left : ch.done < ch.cmd.len
  copy : ch.cmd.op = 0
  memory : ch.cmd.dkind = 0
  srcHere : s.isRemote (capCursor ch.cmd.src.bits + ch.done) = false
  dstHere : s.isRemote (capCursor ch.cmd.dst.bits + ch.done) = false
  srcHbm : rangeOf (localOf (capCursor ch.cmd.src.bits + ch.done)) = .hbm
  dstHbm : rangeOf (localOf (capCursor ch.cmd.dst.bits + ch.done)) = .hbm
  srcOk : s.chanCheck ch.colour (num / 16) ch.cmd.src (localOf (capCursor ch.cmd.src.bits + ch.done)) n = none
  dstOk : s.chanCheck ch.colour (num / 16) ch.cmd.dst (localOf (capCursor ch.cmd.dst.bits + ch.done)) n = none
  clean : s.poisoned (localOf (capCursor ch.cmd.src.bits + ch.done)) n = false
  apart : ∀ x, x < n → ¬(capCursor ch.cmd.src.bits ≤ capCursor ch.cmd.dst.bits + ch.done + x ∧
    capCursor ch.cmd.dst.bits + ch.done + x < capCursor ch.cmd.src.bits + ch.cmd.len)

/-- The bytes of the unit and its tags are stored, and the channel has moved on (R325, R326). -/
theorem moveUnit_of_copies {s : State} {num : Nat} {ch : Channel} {n : Nat} (h : Copies s num ch n) :
    let src := localOf (capCursor ch.cmd.src.bits + ch.done)
    s.moveUnit num = (s.setChannel num { ch with done := ch.done + n, since := s.now (groupDie (num / 16)) }).chanStore ch.colour
      (localOf (capCursor ch.cmd.dst.bits + ch.done)) (s.bytesAt src n)
      (if ch.cmd.tags then (rangeFrom (src / 16) (n / 16)).map fun u => s.tags.contains u else []) [] := by
  intro src
  have hlen := length_bytesAt s src n
  have hwrites : ch.cmd.writes = true := by simp [Command.writes, h.copy]
  have hcoll : ch.cmd.collective = false := by simp [Command.collective, h.copy]
  have hmoved : ch.moved ch.cmd = false := by
    simp [Channel.moved, hwrites, Command.total, h.copy, h.left.ne]
  have hsend : ch.toSend ch.cmd = false := by simp [Channel.toSend, hcoll]
  have htarget : ch.target ch.cmd ch.done = capCursor ch.cmd.dst.bits + ch.done := by simp [Channel.target, h.memory]
  have hunit : s.nextUnit num ch ch.cmd = .bytes (s.bytesAt src n)
      (if ch.cmd.tags then (rangeFrom (src / 16) (n / 16)).map fun u => s.tags.contains u else []) [] s := by
    rw [State.nextUnit, if_neg (Bool.eq_false_iff.mp hcoll), State.copyUnit]
    dsimp only
    rw [htarget, ← h.size, if_neg (Bool.eq_false_iff.mp h.srcHere), chanRead_of_sound h.srcOk h.srcHbm h.clean]
    dsimp only
    rw [overlapped_of_outside (by rw [hlen]; exact h.apart) ?_]
    rw [hlen]
    split
    · simp [rangeFrom]
      omega
    · exact Nat.zero_le _
  have hput : s.putUnit num ch ch.cmd (s.bytesAt src n)
      (if ch.cmd.tags then (rangeFrom (src / 16) (n / 16)).map fun u => s.tags.contains u else []) [] =
      (s.setChannel num { ch with done := ch.done + n, since := s.now (groupDie (num / 16)) }).chanStore ch.colour
      (localOf (capCursor ch.cmd.dst.bits + ch.done)) (s.bytesAt src n)
      (if ch.cmd.tags then (rangeFrom (src / 16) (n / 16)).map fun u => s.tags.contains u else []) [] := by
    rw [State.putUnit]
    dsimp only
    rw [if_pos h.memory, htarget, if_neg (Bool.eq_false_iff.mp h.dstHere), hlen, h.dstOk]
    simp only [State.chanPages, h.dstHbm]
    simp
  refine Eq.trans ?_ hput
  rw [State.moveUnit, h.channel]
  dsimp only
  rw [if_neg (by simp [h.runs, h.sound, hmoved]), h.idle]
  dsimp only
  rw [if_neg (by simp [h.memory]), if_neg (by simp [hsend]), if_neg (by simp [hwrites, h.memory]), hunit]

theorem mem_foldl_nins_map {α : Type} (l : List α) (f : α → Nat) (m : NSet) (u : Nat) :
    u ∈ l.foldl (fun m e => nins m (f e)) m ↔ (∃ e ∈ l, f e = u) ∨ u ∈ m := by
  rw [← List.foldl_map, mem_foldl_nins, List.mem_map]

/-- The units that hold a tag after a channel's write: those it has not touched, and those whose capability may keep it (R326). -/
theorem mem_chanStore_tags {s : State} {colour a : Nat} {bs : List Byte} {tags : List Bool} (hhbm : rangeOf a = .hbm)
    (hne : bs.length ≠ 0) (u : Nat) :
    u ∈ (s.chanStore colour a bs tags []).tags ↔ (u ∈ s.tags ∧ ¬(a / 16 ≤ u ∧ u ≤ (a + bs.length - 1) / 16)) ∨
      ∃ i, u = a / 16 + i ∧ tags[i]? = some true ∧ keepsTag colour ((bs.drop (16 * i)).take 16) = true ∧
        s.touchesRevoked (BitVec.ofNat 128 (ofBytes ((bs.drop (16 * i)).take 16))) = false := by
  have hzip : ∀ (t : Bool) (i : Nat), (t, i) ∈ tags.zip (List.range tags.length) ↔ tags[i]? = some t := by
    intro t i
    rw [List.mem_iff_getElem, List.getElem?_eq_some_iff]
    constructor
    · rintro ⟨k, hk, he⟩
      simp only [List.getElem_zip, List.getElem_range, Prod.mk.injEq] at he
      obtain ⟨rfl, rfl⟩ := he
      exact ⟨by simpa using hk, rfl⟩
    · rintro ⟨hi, rfl⟩
      exact ⟨i, by simpa using hi, by simp⟩
  have hrev : ∀ v, (s.store a bs).touchesRevoked v = s.touchesRevoked v := (stored_store s a bs).touchesRevoked
  unfold State.chanStore
  simp only [mem_foldl_nins_map, List.mem_filter, tags_store, mem_tagUnits, hrev]
  constructor
  · rintro (⟨⟨t, i⟩, ⟨hmem, hkeep⟩, rfl⟩ | ⟨hout, hu⟩)
    · simp only [Bool.and_eq_true, Bool.not_eq_true'] at hkeep
      obtain ⟨⟨⟨htrue, hkeeps⟩, -⟩, hfree⟩ := hkeep
      exact .inr ⟨i, rfl, htrue ▸ (hzip t i).mp hmem, hkeeps, hfree⟩
    · exact .inl ⟨hu, fun hin => hout ⟨hne, hin⟩⟩
  · rintro (⟨hu, hout⟩ | ⟨i, rfl, ht, hkeeps, hfree⟩)
    · exact .inr ⟨fun hin => hout hin.2, hu⟩
    · refine .inl ⟨(true, i), ⟨(hzip true i).mpr ht, ?_⟩, rfl⟩
      simp only [hhbm, hkeeps, hfree]
      rfl

section
variable (s : State) (colour a : Nat) (bs : List Byte) (tags : List Bool) (bad : NSet)

theorem chanStore_channel (num : Nat) : (s.chanStore colour a bs tags bad).channel num = s.channel num :=
  congrArg (kget · num) (stored_store s a bs).channels

theorem chanStore_cores : (s.chanStore colour a bs tags bad).cores = s.cores := store_cores s a bs

theorem chanStore_byte (a' : Nat) : (s.chanStore colour a bs tags bad).byte a' =
    if a ≤ a' ∧ a' < a + bs.length then bs.getD (a' - a) 0 else s.byte a' := byte_store s a bs a'
end

section
variable (s : State) (g c num : Nat) (ch : Channel)

theorem channel_servedBy : (s.servedBy g c).channel num = s.channel num := rfl
theorem byte_servedBy (a : Nat) : (s.servedBy g c).byte a = s.byte a := rfl
theorem tags_servedBy : (s.servedBy g c).tags = s.tags := rfl
theorem cores_servedBy : (s.servedBy g c).cores = s.cores := rfl
theorem byte_setChannel (a : Nat) : (s.setChannel num ch).byte a = s.byte a := rfl
theorem tags_setChannel : (s.setChannel num ch).tags = s.tags := rfl
theorem cores_setChannel : (s.setChannel num ch).cores = s.cores := rfl
theorem touchesRevoked_setChannel (v : BitVec 128) : (s.setChannel num ch).touchesRevoked v = s.touchesRevoked v := rfl
end

theorem getD_bytesAt (s : State) (a : Nat) {n i : Nat} (h : i < n) : (s.bytesAt a n).getD i 0 = s.byte (a + i) := by
  simp [State.bytesAt, rangeFrom, List.getD_eq_getElem?_getD, h]

theorem take_drop_bytesAt (s : State) (a : Nat) {n i k : Nat} (h : i + k ≤ n) :
    ((s.bytesAt a n).drop i).take k = s.bytesAt (a + i) k := by
  refine List.ext_getElem (by simp [length_bytesAt]; omega) fun j hj hj' => ?_
  simp [State.bytesAt, rangeFrom, Nat.add_assoc]

/-- The tags read of the units from `a` on, where they are asked for. -/
theorem exists_tag_iff (s : State) (asked : Bool) (a n i : Nat) :
    (if asked then (rangeFrom (a / 16) n).map fun u => s.tags.contains u else [])[i]? = some true ↔
      asked = true ∧ i < n ∧ a / 16 + i ∈ s.tags := by
  cases asked with
  | false => simp
  | true =>
    simp only [rangeFrom, if_true, List.getElem?_map, Option.map_eq_some_iff, List.getElem?_eq_some_iff, List.getElem_range,
      List.length_range, List.contains_iff_mem, true_and]
    exact ⟨fun ⟨_, ⟨_, ⟨hi, rfl⟩, rfl⟩, ht⟩ => ⟨hi, ht⟩, fun ⟨hi, ht⟩ => ⟨_, ⟨_, ⟨hi, rfl⟩, rfl⟩, ht⟩⟩

/-! ### The end of a command (R329) -/

section
variable {s : State} {num : Nat} {ch : Channel} (hch : s.channel num = some ch) (hrun : ch.status = 1)
  (hend : ch.code ≠ 0 ∨ ch.moved ch.cmd = true)
include hch hrun hend

theorem completeChannel_of_none (hk : ch.cmd.ckind = 0) : s.completeChannel num = s.finishChannel num ch := by
  rw [State.completeChannel, hch]
  dsimp only
  rw [if_neg (by simpa [hrun, imp_iff_not_or] using hend)]
  simp only [hk]

theorem completeChannel_of_memory (hk : ch.cmd.ckind = 1) (hhbm : rangeOf (localOf (capCursor ch.cmd.cmpl.bits)) = .hbm)
    (hcheck : s.chanCheck ch.colour (num / 16) ch.cmd.cmpl (localOf (capCursor ch.cmd.cmpl.bits)) 8 = none) :
    s.completeChannel num =
      (s.storeNum (localOf (capCursor ch.cmd.cmpl.bits)) 8 (ch.value ch.cmd 64)).finishChannel num ch := by
  rw [State.completeChannel, hch]
  dsimp only
  rw [if_neg (by simpa [hrun, imp_iff_not_or] using hend)]
  simp only [hk]
  rw [hcheck]
  simp only [State.chanPages, hhbm]
  rfl

section
variable {c n : Nat} {b : Block} (hinv : s.invoker ch = .here c n b)
include hinv

theorem completeChannel_of_word (hk : ch.cmd.ckind = 2) (hw : ch.written = false) (hq : ch.queued = false)
    (hgood : ch.cmd.cvoff / 4 ∉ b.badBits) : s.completeChannel num =
      if b.isFull (ch.cmd.cvoff / 4) then
        (s.setChannel num { ch with queued := true }).setBlock c n { b with fe := b.fe ++ [⟨ch.cmd.cvoff / 4, 2 ^ 64 + num, 0,
          .channel num (BitVec.ofNat 32 (ch.value ch.cmd 32))⟩] }
      else (((s.setBlock c n ((b.padPut (4 * (ch.cmd.cvoff / 4)) 4 (ch.value ch.cmd 32)).setFull (ch.cmd.cvoff / 4) true)).feChanged c n
        (ch.cmd.cvoff / 4))).finishChannel num ch := by
  rw [State.completeChannel, hch]
  dsimp only
  rw [if_neg (by simpa [hrun, imp_iff_not_or] using hend)]
  simp only [hk]
  rw [if_neg (Bool.eq_false_iff.mp hw), hinv]
  dsimp only
  rw [if_neg (Bool.eq_false_iff.mp hq), if_neg (by simpa using hgood)]

theorem completeChannel_of_buffer (hk : ch.cmd.ckind = 3) (hcode : ch.code = 0)
    (hroom : (b.buf ch.cmd.buf).held < (b.buf ch.cmd.buf).nslot) : s.completeChannel num =
      (s.setBlock c n (b.modBuf ch.cmd.buf fun u => u.advHead 1)).finishChannel num ch := by
  rw [State.completeChannel, hch]
  dsimp only
  rw [if_neg (by simpa [hrun, imp_iff_not_or] using hend)]
  simp only [hk]
  rw [if_neg (not_not.mpr hcode), hinv]
  exact if_pos hroom
end
end

/-! ### Stops (R328, R330, R338, R361) -/

theorem stopRecord_channels (s : State) (h : Halt) (r : Region) (top : Nat) (e : EngineId) (colour count d0 d1 : Nat) :
    (s.stopRecord h r top e colour count d0 d1).channels = s.channels :=
  (stored_putRecord ..).channels

theorem member_runs {s : State} {colour gid num : Nat} {ch : Channel} (h : s.member colour gid = some (num, ch)) : ch.status = 1 := by
  have hp := List.find?_some h
  simp only [Bool.and_eq_true, beq_iff_eq] at hp
  exact hp.1.1.1

/-! ### Writes held for a saved block (R383) -/

section
variable {s : State} {num a : Nat} {ch : Channel} {img : Image} (hch : s.channel num = some ch) (hinv : s.invoker ch = .saved a)
  (himg : kget s.images a = some img) (hrun : ch.status = 1) (hnew : ∀ h, kget img.held num = some h → h.inv ≠ ch.inv)
include hch hinv himg hrun hnew

theorem holdWrite_of_new :
    ((ch.code ≠ 0 ∨ ch.moved ch.cmd = true) → (ch.cmd.ckind = 2 ∨ ch.cmd.ckind = 3) → s.holdWrite num =
      { s with images := kset s.images a { img with held := kset img.held num ⟨ch.inv, [], [], true⟩ } }) ∧
    (∀ bs ts bad s1, ch.code = 0 → ch.moved ch.cmd = false → ch.cmd.dkind ≠ 0 → (ch.cmd.dkind = 2 → ch.slot ≠ none) →
      ch.toSend ch.cmd = false → ch.cmd.writes = true → s.nextUnit num ch ch.cmd = .bytes bs ts bad s1 → s.holdWrite num =
      { s1 with images := kset s1.images a { img with held := kset img.held num ⟨ch.inv, bs, bad, false⟩ } }) := by
  have hmine : ¬(ch.status ≠ 1 || match kget img.held num with | some h => h.inv == ch.inv | none => false) = true := by
    rw [hrun]
    split
    next h hh => simpa using hnew h hh
    · simp
  rw [State.holdWrite, hch]
  dsimp only
  rw [hinv]
  dsimp only
  rw [himg]
  refine ⟨fun hend hk => (if_neg hmine).trans ?_,
    fun bs ts bad s1 hcode hmore hpad hslot hsent hwrites hunit => (if_neg hmine).trans ?_⟩
  · rw [if_neg (by simpa [imp_iff_not_or] using hend), if_pos (by simpa using hk)]
  · rw [if_pos (by simp [hcode, hmore]), if_neg (by simpa [hpad, hsent, hwrites] using hslot), hunit]
end

/-- Settles O29: a unit's bytes and tags, and the ends of a command one after another. -/
theorem channelSteps : Obligations.ChannelSteps := by
  unfold Obligations.ChannelSteps
  refine ⟨?unit, ?completion, fun s num ch hch => ⟨_, channel_endChannel hch _ _, rfl, rfl, rfl, rfl⟩, ?cancelled, ?timeout, ?halt,
    ?held⟩
  case unit =>
    intro group chan s ch num k src dst n hch hrun hcode hunit hleft hop hkind hsrc hdst hsrcHbm hdstHbm hsrcOk hdstOk hchan hclean
      haligned hapart
    have hgroup : num / 16 = group := by omega
    have hmove := moveUnit_of_copies (n := n) ⟨rfl, hch, hrun, hcode, hunit, hleft, hop, hkind, hsrc, hdst, hsrcHbm, hdstHbm,
      hgroup.symm ▸ hsrcOk, hgroup.symm ▸ hdstOk, hclean, hapart⟩
    rw [hgroup] at hmove
    have hpos : n ≠ 0 := (unitSize_pos (by omega)).ne'
    refine ⟨_, congrArg Host.Outcome.next (congrArg (State.servedBy · group chan) hmove), ?_, fun a => ?_, fun u => ?_, ?_,
      kget_kset_self ..⟩
    · rw [channel_servedBy, chanStore_channel, channel_setChannel_self]
    · rw [byte_servedBy, chanStore_byte, length_bytesAt, byte_setChannel]
      refine if_ctx_congr .rfl (fun hin => ?_) fun _ => rfl
      obtain ⟨hlo, hhi⟩ : localOf dst ≤ a ∧ a < localOf dst + n := hin
      exact getD_bytesAt s _ (show a - localOf dst < n by omega)
    · rw [tags_servedBy, mem_chanStore_tags hdstHbm (by rw [length_bytesAt]; exact hpos) u, length_bytesAt, tags_setChannel]
      refine or_congr .rfl ?_
      simp only [touchesRevoked_setChannel, exists_tag_iff, and_assoc]
      refine ⟨fun ⟨i, hu, ht, hi, htag, hkeep⟩ => ⟨ht, i, hi, hu, htag, ?_⟩,
        fun ⟨ht, i, hi, hu, htag, hkeep⟩ => ⟨i, hu, ht, hi, htag, ?_⟩⟩
      · rwa [take_drop_bytesAt s _ (by omega)] at hkeep
      · rwa [take_drop_bytesAt s _ (by omega)]
    · rw [cores_servedBy, chanStore_cores, cores_setChannel]
  case completion =>
    intro group chan s ch hch hrun hend
    refine ⟨fun hk => congrArg Host.Outcome.next (completeChannel_of_none hch hrun hend hk), ?_, ?_, ?_, ?_⟩
    · intro a hk hchan hhbm hcheck
      have hgroup : (16 * group + chan) / 16 = group := by omega
      exact congrArg Host.Outcome.next (completeChannel_of_memory hch hrun hend hk hhbm (hgroup.symm ▸ hcheck))
    · intro c n b word hk hw hq hinv hgood hfull
      exact congrArg Host.Outcome.next ((completeChannel_of_word hch hrun hend hinv hk hw hq hgood).trans
        (if_neg (Bool.eq_false_iff.mp hfull)))
    · intro c n b word hk hw hq hinv hgood hfull
      exact ⟨_, _, congrArg Host.Outcome.next ((completeChannel_of_word hch hrun hend hinv hk hw hq hgood).trans (if_pos hfull)),
        channel_setChannel_self .., block_setBlock_self .., rfl, rfl⟩
    · intro c n b u hk hcode hinv hroom
      exact congrArg Host.Outcome.next (completeChannel_of_buffer hch hrun hend hinv hk hcode hroom)
  case cancelled =>
    intro colour gid s num ch hmember hch hcode
    have hgo : s.groupCancelled colour gid = s.failChannel num 13 := by rw [State.groupCancelled, hmember]
    refine ⟨_, congrArg Host.Outcome.next hgo, ?_⟩
    rw [channel_failChannel hch, if_pos (by simp [member_runs hmember, hcode])]
  case timeout =>
    intro group chan s ch num hch hchan hwaits hlate
    have hgroup : num / 16 = group := by omega
    have hgo : s.groupTimeout num = (s.sendControl ch 11).failChannel num 11 := by
      rw [State.groupTimeout, hch]
      exact if_pos (by simp [hwaits, hgroup, hlate])
    refine ⟨_, congrArg Host.Outcome.next hgo, ?_⟩
    have hlive : (ch.status = 1 && ch.code = 0) = true := by
      simp only [State.waitsGroup, Bool.and_eq_true, beq_iff_eq] at hwaits
      obtain ⟨⟨⟨⟨⟨⟨⟨hstatus, hcode⟩, -⟩, -⟩, -⟩, -⟩, -⟩, -⟩ := hwaits
      simp [hstatus, hcode]
    rw [channel_failChannel (((sendControl_onlyPorts s ch 11).channel num).trans hch), if_pos hlive]
  case halt =>
    intro group chan s ch h r num hch hchan hrun hh hr hstopped
    have hgroup : num / 16 = group := by omega
    have hgo : s.stopChannel num = (s.endChannel num 4 14).stopRecord h r ch.context (.copy (num / 16)) ch.colour 1
        (handleWord num ch.inv).toNat ch.done := by
      rw [State.stopChannel, hch]
      dsimp only
      rw [hh, hr]
      exact if_neg (by simp [hrun, hgroup, hstopped])
    refine ⟨_, ch.ended 4 14, congrArg Host.Outcome.next hgo, ?_, rfl, rfl, rfl⟩
    rw [State.channel, stopRecord_channels]
    exact channel_endChannel hch 4 14
  case held =>
    intro group chan s ch a img num k held hch hinv himg hrun hnew
    obtain ⟨hcompletion, hunit⟩ := holdWrite_of_new hch hinv himg hrun hnew
    exact ⟨fun hend hk => congrArg Host.Outcome.next (hcompletion hend hk),
      fun bs ts bad s1 hcode hmore hpad hslot hsent hwrites hu => congrArg Host.Outcome.next
        (hunit bs ts bad s1 hcode hmore hpad hslot hsent hwrites hu)⟩

end Sys2Proof.Machine
end
section
/-!
The save engine: what recording a wave leaves, and the saves of a region (O32).
-/

namespace Sys2Proof.Machine

/-! ### Regions and requests left as they are -/

/-- `t` has the regions of `s` and the order of the requests for the save engines. -/
structure SameRegions (s t : State) : Prop where
  regions : t.regions = s.regions
  saveOrder : t.saveOrder = s.saveOrder

theorem SameRegions.refl (s : State) : SameRegions s s := ⟨rfl, rfl⟩

theorem SameRegions.trans {s t u : State} (h : SameRegions s t) (h' : SameRegions t u) : SameRegions s u :=
  ⟨h'.regions.trans h.regions, h'.saveOrder.trans h.saveOrder⟩

theorem sameRegions_foldl {α : Type} {f : State → α → State} (hf : ∀ s x, SameRegions s (f s x)) (l : List α) (s : State) :
    SameRegions s (l.foldl f s) :=
  List.foldlRecOn l f (motive := SameRegions s) (.refl s) fun t ht x _ => ht.trans (hf t x)

theorem recordWave_sameRegions (s : State) (c slot : Nat) (entry : Option Nat) : SameRegions s (s.recordWave c slot entry) := by
  unfold State.recordWave
  split
  · exact .refl s
  · exact ⟨rfl, rfl⟩

theorem recordWhere_sameRegions (s : State) (n c : Nat) (r : Region) (pick : Wave → Bool) :
    SameRegions s (s.recordWhere n c r pick) := by
  refine sameRegions_foldl (fun s e => ?_) _ s
  obtain ⟨slot, w⟩ := e
  dsimp only
  split
  · exact .refl s
  · split
    · exact recordWave_sameRegions ..
    · exact .refl s

theorem recordReady_sameRegions (s : State) (n : Nat) (r : Region) : SameRegions s (s.recordReady n r) := by
  have hready := sameRegions_foldl (fun s c => recordWhere_sameRegions s n c r fun w =>
    w.atBoundary && (w.waiting.saved || w.level != 0 || w.bkpend)) (kkeys r.signal) s
  unfold State.recordReady
  dsimp only
  split
  · refine hready.trans (sameRegions_foldl (fun s c => sameRegions_foldl (fun s e => ?_) _ s) _ _)
    obtain ⟨slot, w⟩ := e
    dsimp only
    split
    · exact .refl s
    · split
      · refine SameRegions.trans ?_ (recordWave_sameRegions ..)
        exact ⟨rfl, rfl⟩
      · exact .refl s
  · exact hready

theorem mem_askSave (s : State) (n : Nat) : n ∈ (s.askSave n).saveOrder := by
  unfold State.askSave
  split
  next h => simpa using h
  · simp

theorem askSave_regions (s : State) (n : Nat) : (s.askSave n).regions = s.regions := by
  unfold State.askSave
  split <;> rfl

theorem unqueueChannels_sameRegions (s : State) (b : Block) : SameRegions s (s.unqueueChannels b) :=
  sameRegions_foldl (fun s q => by split <;> exact ⟨rfl, rfl⟩) _ s

theorem liftCluster_sameRegions (s : State) (ck : Nat) (k : Cluster) : SameRegions s (s.liftCluster ck k) := by
  have hlift := sameRegions_foldl (f := fun (s : State) (p : Nat × Nat) => match s.block p.1 p.2 with
    | none => s
    | some b => (s.unqueueChannels b).setCore p.1 { s.core p.1 with
        blocks := kdel (s.core p.1).blocks p.2, waves := (s.core p.1).waves.filter fun e => e.2.bslot != p.2 }) (fun s p => by
      split
      · exact .refl s
      · exact (unqueueChannels_sameRegions s _).trans ⟨rfl, rfl⟩) k.members s
  exact hlift.trans ⟨rfl, rfl⟩

theorem stopGuestRestore_sameRegions (s : State) (g : Nat) : SameRegions s (s.stopGuestRestore g) := by
  unfold State.stopGuestRestore
  split
  · exact .refl s
  · split
    · exact .refl s
    · exact sameRegions_foldl (fun s (e : Nat × Cluster) => liftCluster_sameRegions s e.1 e.2) _ s

/-! ### What a save covers -/

theorem withinFrom_congr {s t : State} (h : t.regions = s.regions) (n r a : Nat) : t.withinFrom n r a = s.withinFrom n r a := by
  induction n generalizing r with
  | zero => rfl
  | succ n ih =>
    simp only [State.withinFrom, h]
    congr 1
    split
    · split
      · exact ih _
      · rfl
    · rfl

theorem within_congr {s t : State} (h : t.regions = s.regions) (r a : Nat) : t.within r a = s.within r a := withinFrom_congr h 8 r a

theorem covers_congr {s t : State} (h : t.regions = s.regions) (n : Nat) (r : Region) (x : Nat) : t.covers n r x = s.covers n r x := by
  rw [State.covers, within_congr h, State.covers]

/-! ### A wave recorded (R364) -/

/-- An arrival of a wave stands in a core's write queue (R264). -/
def Core.arrives (k : Core) (uid : Nat) : Bool :=
  k.queue.any fun q => q.uid == uid && match q.part.eff with | .arrive _ _ _ _ _ _ _ => true | _ => false

theorem arriving_eq (s : State) (uid : Nat) : s.arriving uid = s.cores.any fun e => e.2.arrives uid := rfl

theorem arriving_core {s : State} {uid : Nat} (h : s.arriving uid = false) (c : Nat) : (s.core c).arrives uid = false := by
  rw [arriving_eq] at h
  rw [State.core, kgetD]
  cases hk : kget s.cores c with
  | none => rfl
  | some k => exact Bool.eq_false_iff.mpr (List.any_eq_false.mp h _ (mem_of_kget hk))

theorem leaveWords_sameIssue (s : State) (uid : Nat) : SameIssue s (s.leaveWords uid) :=
  .mapCores (fun k => { k with blocks := k.blocks.map fun (n, b) => (n, { b with fe := b.fe.filter fun f => f.uid != uid }) })
    (fun _ => rfl) (fun _ => rfl) rfl rfl

theorem block_leaveWords (s : State) (uid c n : Nat) :
    (s.leaveWords uid).block c n = (s.block c n).map fun b => { b with fe := b.fe.filter fun f => f.uid != uid } := by
  have hcores : (s.leaveWords uid).cores = s.cores.map fun e => (e.1, { e.2 with blocks := e.2.blocks.map fun x =>
    (x.1, { x.2 with fe := x.2.fe.filter fun f => f.uid != uid }) }) := rfl
  simp only [State.block, State.core, kgetD, hcores,
    kget_map s.cores fun k => { k with blocks := k.blocks.map fun x => (x.1, { x.2 with fe := x.2.fe.filter fun f => f.uid != uid }) }]
  cases kget s.cores c with
  | none => rfl
  | some k => exact kget_map k.blocks (fun b => { b with fe := b.fe.filter fun f => f.uid != uid }) n

theorem leaveWords_arriving {s : State} {uid : Nat} (h : s.arriving uid = false) (x : Nat) : (s.leaveWords x).arriving uid = false := by
  rw [arriving_eq] at h ⊢
  refine List.any_eq_false.mpr fun e he => ?_
  obtain ⟨⟨c, k⟩, hk, rfl⟩ := List.mem_map.mp he
  have hcore := List.any_eq_false.mp h _ hk
  exact hcore

theorem setCore_arriving {s : State} {uid : Nat} (h : s.arriving uid = false) {c : Nat} {k : Core}
    (hk : k.queue = (s.core c).queue) : (s.setCore c k).arriving uid = false := by
  have hcore := arriving_core h c
  rw [arriving_eq] at h ⊢
  refine List.any_eq_false.mpr fun e he => ?_
  rcases mem_kset he with rfl | he
  · rw [Core.arrives] at hcore ⊢
    rw [hk, hcore]
    decide
  · exact List.any_eq_false.mp h _ he

/-- `t` is `s` with waves recorded: each wave and each block stands where it stood, and no arrival has left. -/
structure Recorded (s t : State) : Prop where
  regions : t.regions = s.regions
  wave : ∀ c n w, s.wave c n = some w → ∃ w1, t.wave c n = some w1 ∧ w1.bank = w.bank ∧ (w.recorded = true → w1.recorded = true)
  block : ∀ c n b, s.block c n = some b → ∃ b1, t.block c n = some b1 ∧ b1.env = b.env
  arriving : ∀ uid, s.arriving uid = false → t.arriving uid = false

theorem Recorded.refl (s : State) : Recorded s s :=
  ⟨rfl, fun _ _ w h => ⟨w, h, rfl, id⟩, fun _ _ b h => ⟨b, h, rfl⟩, fun _ => id⟩

theorem Recorded.trans {s t u : State} (h : Recorded s t) (h' : Recorded t u) : Recorded s u where
  regions := h'.regions.trans h.regions
  wave c n w hw := by
    obtain ⟨w1, hw1, hb1, hr1⟩ := h.wave c n w hw
    obtain ⟨w2, hw2, hb2, hr2⟩ := h'.wave c n w1 hw1
    exact ⟨w2, hw2, hb2.trans hb1, hr2 ∘ hr1⟩
  block c n b hb := by
    obtain ⟨b1, hb1, he1⟩ := h.block c n b hb
    obtain ⟨b2, hb2, he2⟩ := h'.block c n b1 hb1
    exact ⟨b2, hb2, he2.trans he1⟩
  arriving uid := h'.arriving uid ∘ h.arriving uid

/-- The core of a wave that is recorded, before its lanes leave their words. -/
def Core.recording (k : Core) (slot : Nat) (w : Wave) (entry : Option Nat) : Core :=
  { k with waves := kset k.waves slot { w with recorded := true, liveEntry := entry }, reserve := k.reserve.filter (· != slot) }

theorem recordWave_of {s : State} {c slot : Nat} {w : Wave} (h : s.wave c slot = some w) (entry : Option Nat) :
    s.recordWave c slot entry = (s.setCore c ((s.core c).recording slot w entry)).leaveWords w.uid := by
  rw [State.recordWave, h]
  rfl

theorem wave_recordWave {s : State} {c slot : Nat} {w : Wave} (h : s.wave c slot = some w) (entry : Option Nat) :
    (s.recordWave c slot entry).wave c slot = some { w with recorded := true, liveEntry := entry } := by
  rw [recordWave_of h, (leaveWords_sameIssue ..).wave, State.wave, core_setCore_self]
  exact kget_kset_self ..

theorem wave_recordWave_ne {s : State} {c slot c' slot' : Nat} (entry : Option Nat) (h : (c', slot') ≠ (c, slot)) :
    (s.recordWave c slot entry).wave c' slot' = s.wave c' slot' := by
  unfold State.recordWave
  split
  · rfl
  · rw [(leaveWords_sameIssue ..).wave]
    by_cases hc : c' = c
    · subst hc
      rw [State.wave, core_setCore_self]
      exact kget_kset_ne _ _ fun hs => h (hs ▸ rfl)
    · rw [State.wave, core_setCore_ne _ _ hc, State.wave]

theorem recorded_recordWave (s : State) (c slot : Nat) (entry : Option Nat) : Recorded s (s.recordWave c slot entry) := by
  cases h : s.wave c slot with
  | none =>
    rw [State.recordWave, h]
    exact .refl s
  | some w =>
    refine ⟨(recordWave_sameRegions ..).regions, fun c' n w' hw' => ?_, fun c' n b hb => ?_, fun uid hu => ?_⟩
    · by_cases hp : (c', n) = (c, slot)
      · cases hp
        cases h.symm.trans hw'
        exact ⟨_, wave_recordWave h entry, rfl, fun _ => rfl⟩
      · exact ⟨w', (wave_recordWave_ne entry hp).trans hw', rfl, id⟩
    · rw [recordWave_of h, block_leaveWords]
      have hblock : (s.setCore c ((s.core c).recording slot w entry)).block c' n = some b := by
        rw [← hb]
        by_cases hc : c' = c
        · subst hc
          rw [State.block, core_setCore_self]
          rfl
        · rw [State.block, core_setCore_ne _ _ hc, State.block]
      rw [hblock]
      exact ⟨_, rfl, rfl⟩
    · rw [recordWave_of h]
      exact leaveWords_arriving (setCore_arriving (c := c) (k := (s.core c).recording slot w entry) hu rfl) _

/-- The recording of one wave of a core, where a save takes its block. -/
def State.recordOne (s : State) (n c : Nat) (r : Region) (pick : Wave → Bool) (e : Nat × Wave) : State :=
  match s.block c e.2.bslot with
  | none => s
  | some b => if s.covers n r b.env.region && e.2.alive && !e.2.recorded && pick e.2 && !s.arriving e.2.uid then s.recordWave c e.1 none
    else s

theorem recordWhere_eq (s : State) (n c : Nat) (r : Region) (pick : Wave → Bool) :
    s.recordWhere n c r pick = (s.core c).waves.foldl (fun s e => s.recordOne n c r pick e) s := rfl

theorem recorded_recordOne (s : State) (n c : Nat) (r : Region) (pick : Wave → Bool) (e : Nat × Wave) :
    Recorded s (s.recordOne n c r pick e) := by
  unfold State.recordOne
  split
  · exact .refl s
  · split
    · exact recorded_recordWave ..
    · exact .refl s

theorem recorded_foldl (l : List (Nat × Wave)) (s : State) (n c : Nat) (r : Region) (pick : Wave → Bool) :
    Recorded s (l.foldl (fun s e => s.recordOne n c r pick e) s) :=
  List.foldlRecOn l _ (motive := Recorded s) (.refl s) fun t ht e _ => ht.trans (recorded_recordOne t n c r pick e)

/-- A wave of the save that is taken is recorded at the end, with its bank. -/
theorem recordWhere_records {s : State} {n c slot : Nat} {r : Region} {pick : Wave → Bool} {w : Wave} {b : Block}
    (hw : s.wave c slot = some w) (hb : s.block c w.bslot = some b) (hcovers : s.covers n r b.env.region = true)
    (halive : w.alive = true) (hpick : pick w = true) (harrive : s.arriving w.uid = false) :
    ∃ w1, (s.recordWhere n c r pick).wave c slot = some w1 ∧ w1.recorded = true ∧ w1.bank = w.bank := by
  obtain ⟨l1, l2, hl⟩ := List.append_of_mem (mem_of_kget (show kget (s.core c).waves slot = some w from hw))
  rw [recordWhere_eq, hl, List.foldl_append, List.foldl_cons]
  have h1 := recorded_foldl l1 s n c r pick
  generalize l1.foldl (fun s e => s.recordOne n c r pick e) s = s1 at h1
  obtain ⟨w1, hw1, hbank1, hrec1⟩ := h1.wave c slot w hw
  obtain ⟨b1, hb1, henv1⟩ := h1.block c _ b hb
  have hone : ∃ w2, (s1.recordOne n c r pick (slot, w)).wave c slot = some w2 ∧ w2.recorded = true ∧ w2.bank = w.bank := by
    rw [State.recordOne, hb1]
    dsimp only
    rw [covers_congr h1.regions, henv1, hcovers, halive, hpick, h1.arriving _ harrive]
    cases hrec : w.recorded with
    | true => exact ⟨w1, hw1, hrec1 hrec, hbank1⟩
    | false => exact ⟨_, wave_recordWave hw1 none, rfl, hbank1⟩
  obtain ⟨w2, hw2, hrec2, hbank2⟩ := hone
  obtain ⟨w3, hw3, hbank3, hrec3⟩ := (recorded_foldl l2 (s1.recordOne n c r pick (slot, w)) n c r pick).wave c slot w2 hw2
  exact ⟨w3, hw3, hrec3 hrec2, hbank3.trans hbank2⟩

/-! ### LIVE (R367) -/

section
variable {f : IF} {c : Ctx} {w : Wave} {s : State} {b : Block} (hb : s.block c.core c.bslot = some b)
include hb

theorem liveBody_of_quiet (h : c.handler = true ∨ s.signalledOn c.core b.env.region = false) : liveBody f c w s = .next s := by
  rw [liveBody, hb]
  exact if_pos (by simpa using h)

theorem liveBody_of_signalled (hlevel : c.handler = false) (hs : s.signalledOn c.core b.env.region = true)
    (ha : s.arriving w.uid = false) : liveBody f c w s = .next (s.recordWave c.core c.slot
      (if f.imm.toNat % 65536 < (s.liveTable b.code).2 then some (f.imm.toNat % 65536) else none)) := by
  rw [liveBody, hb]
  dsimp only
  rw [if_neg (by simp [hlevel, hs]), if_neg (Bool.eq_false_iff.mp ha)]
end

/-! ### Signals (R363, R364) -/

theorem kget_foldl_kset (l : List Nat) (f : Nat → Nat) (m : KMap Nat) (c : Nat) :
    kget (l.foldl (fun m c => kset m c (f c)) m) c = if c ∈ l then some (f c) else kget m c := by
  induction l generalizing m with
  | nil => rfl
  | cons x l ih =>
    rw [List.foldl_cons, ih, kget_kset]
    by_cases hx : c = x
    · simp [hx]
    · simp [hx]

/-- A region with the signal of its save sent to every core of its partition now (R363, R364). -/
def Region.signalled (r : Region) (s : State) : Region :=
  { r with signal := r.env.partition.foldl (fun m c => kset m c (s.now (dieOf c))) [] }

theorem signalRegion_of {s : State} {n : Nat} {r : Region} (hr : kget s.regions n = some r) (hwhy : r.why ≠ 0)
    (hhalt : kget s.halts r.env.top = none) (hseal : r.why = 3 ∨ s.sealedAway n = false) (hrestore : s.restoring n = false)
    (hsig : r.signal = []) : s.signalRegion n =
      (({ s with regions := kset s.regions n (r.signalled s) }).askSave n).recordReady n (r.signalled s) := by
  rw [State.signalRegion, hr]
  dsimp only
  have hown : (r.why = 0 && s.resident n && !s.restoring n && s.otherWaits r (some (s.priority n))) = false := by simp [hwhy]
  rw [if_neg (Bool.eq_false_iff.mp hown)]
  have hgo : (r.why = 0 || (kget s.halts r.env.top).isSome || (r.why ≠ 3 && s.sealedAway n) || s.restoring n) = false := by
    rcases hseal with h | h <;> simp [hwhy, hhalt, hrestore, h]
  rw [if_neg (Bool.eq_false_iff.mp hgo), if_pos (by simp [hsig])]
  rfl

/-- A save step that may be taken at a save area that may be used (R363). -/
theorem saveStep_of {s : State} {n : Nat} {r : Region} (hr : kget s.regions n = some r) (hsig : r.signal ≠ [])
    (hhalt : kget s.halts r.env.top = none) (hseal : r.why = 3 ∨ s.sealedAway n = false) (hfree : s.engineFree n r = true)
    (harea : s.areaOk r (s.imageOf n r).2.isSealed 0 256 = true) :
    let a := (s.imageOf n r).1
    let x := (s.imageOf n r).2
    let s1 := { s with regions := kset s.regions n { r with image := some a } }
    (s.clusters.find? (fun e => s.clusterReady n r e.2) = none → r.image ≠ some a → s.saveStep n = s1.putImage a x) ∧
    (∀ ck k, s.clusters.find? (fun e => s.clusterReady n r e.2) = some (ck, k) → s.saveStep n = s1.saveCluster r a x ck k) := by
  intro a x s1
  have hgo : (r.signal.isEmpty || (kget s.halts r.env.top).isSome || (r.why ≠ 3 && s.sealedAway n) || !s.engineFree n r) = false := by
    rcases hseal with h | h <;> simp [hsig, hhalt, hfree, h]
  rw [State.saveStep, hr]
  dsimp only
  rw [if_neg (Bool.eq_false_iff.mp hgo), if_neg (by simp [harea])]
  exact ⟨fun hnone himage => by rw [hnone]; exact if_neg himage, fun ck k hsome => by rw [hsome]⟩

/-! ### The end of a save (R380) -/

theorem changeImage_of {s : State} {a : Nat} {x : Image} (hx : kget s.images a = some x) (f : Image → Image) :
    Stored { s with images := kset s.images a (f x) } (s.changeImage a f) := by
  rw [State.changeImage, hx]
  exact stored_patch ..

/-- A region whose save has come to its end. -/
def Region.saveEnded (r : Region) : Region :=
  { r with signal := [], why := 0, sliceAt := none, restore := r.why == 1, answer := if r.client.isSome then some 0 else none }

theorem saveDone_of {s : State} {n a : Nat} {r : Region} {x : Image} (hr : kget s.regions n = some r) (ha : r.image = some a)
    (hx : kget s.images a = some x) (hstate : x.state = 1) (hsig : r.signal ≠ []) (hhalt : kget s.halts r.env.top = none)
    (hres : s.stillResident n r = false) :
    let s1 := s.changeImage a fun x => { x with state := 2, time := s.dieTime (groupDie r.group) }
    s.saveDone n = { s1 with regions := kset s1.regions n r.saveEnded, saveOrder := s1.saveOrder.filter (· != n) } := by
  intro s1
  rw [State.saveDone, hr]
  dsimp only
  rw [ha]
  dsimp only
  rw [hx]
  dsimp only
  rw [if_neg (by simp [hstate, hsig, hhalt, hres])]
  simp only [Region.saveEnded, ha]
  rfl

/-! ### Sealed saves (R386, R387) -/

/-- The regions below a region, other than itself. -/
def State.below (s : State) (n : Nat) : List Nat := (kkeys s.regions).filter fun g => g != n && s.within g n

/-- A sealed save begun: the saves and restores of the regions below stop where they are, and every core is signalled. -/
def State.evicting (s : State) (n : Nat) (r1 : Region) : State :=
  let s1 := ((s.below n).filter s.restoring).foldl State.stopGuestRestore s
  let others := s1.regions.map fun e => (e.1, if (s.below n).contains e.1 then { e.2 with signal := [] } else e.2)
  { s1 with regions := kset others n r1, saveOrder := s1.saveOrder.filter fun g => !(s.below n).contains g }

theorem sealRegion_of {s : State} {n : Nat} {r : Region} (hr : kget s.regions n = some r) (hev : s.evictable r = true)
    (hhalt : kget s.halts r.env.top = none) (hcol : capColour r.savea.bits = r.env.colour) :
    let r1 := { r with why := 3, sliceAt := none }.signalled s
    s.sealRegion n = ((s.evicting n r1).askSave n).recordReady n r1 := by
  rw [State.sealRegion, hr]
  dsimp only
  rw [if_neg (by simp [hev, hhalt, hcol])]
  rfl

theorem evicting_regions {s : State} {n g : Nat} {x r1 : Region} (hg : g ≠ n) (hx : kget s.regions g = some x) :
    kget (s.evicting n r1).regions g = some (if s.within g n then { x with signal := [] } else x) := by
  have hsame := sameRegions_foldl stopGuestRestore_sameRegions ((s.below n).filter s.restoring) s
  have hbelow : (s.below n).contains g = s.within g n := by
    have hkey : g ∈ kkeys s.regions := List.mem_map.mpr ⟨_, mem_of_kget hx, rfl⟩
    rw [Bool.eq_iff_iff, List.contains_iff_mem, State.below, List.mem_filter]
    simp [hkey, hg]
  rw [State.evicting]
  dsimp only
  rw [kget_kset_ne _ _ hg, hsame.regions,
    kget_mapKey s.regions (fun k x => if (s.below n).contains k then { x with signal := [] } else x), hx, Option.map_some, hbelow]

/-- Settles O32: LIVE, and the steps of a save in the order in which they come. -/
theorem contextSaves : Obligations.ContextSaves := by
  unfold Obligations.ContextSaves
  refine ⟨?quiet, ?live, ?signal, ?windowEnd, ?step, ?complete, ?sealed⟩
  case quiet =>
    intro f s core slot w b h hquiet
    refine completesAt_of_sameIssue (body := liveBody f) rfl h (liveBody_of_quiet h.block ?_) (.refl s)
    exact hquiet.imp_left fun hl => by simpa [ctxFor, ctxOf] using hl
  case live =>
    intro f s core slot w b h hlevel hs ha i entry
    have hbody := liveBody_of_signalled (f := f) (c := ctxFor (.live f) s core slot w) h.block (by simp [ctxFor, ctxOf, hlevel]) hs ha
    have hrec := recordWave_of h.wave entry
    have hwords := leaveWords_sameIssue (s.setCore core ((s.core core).recording slot w entry)) w.uid
    refine completesAt_of (body := liveBody f) rfl h hbody (wave_recordWave h.wave entry) ⟨rfl, rfl, rfl, rfl, rfl, rfl, rfl, rfl⟩ ?_ ?_
    · rw [hrec, hwords.segs, core_setCore_self]
      rfl
    · rw [hrec, hwords.sweeper]
      exact h.sweep
  case signal =>
    intro region s r hr hwhy hhalt hseal hrestore hsig
    have hgo := signalRegion_of hr hwhy hhalt hseal hrestore hsig
    have hsame := recordReady_sameRegions (({ s with regions := kset s.regions region (r.signalled s) }).askSave region) region
      (r.signalled s)
    refine ⟨_, r.signalled s, congrArg Host.Outcome.next hgo, ?_, rfl, fun c hc => ?_, ?_⟩
    · rw [hsame.regions, askSave_regions]
      exact kget_kset_self ..
    · exact (kget_foldl_kset ..).trans (if_pos hc)
    · rw [hsame.saveOrder]
      exact mem_askSave ..
  case windowEnd =>
    intro core region s r since hr hsig hdue
    have hgo : s.endWindow core region = s.recordWhere region core r (·.atBoundary) := by
      rw [State.endWindow, hr]
      dsimp only
      rw [hsig]
      exact if_neg hdue.not_gt
    exact ⟨_, congrArg Host.Outcome.next hgo, fun slot w b hw hb hcovers halive hbound harrive =>
      recordWhere_records hw hb hcovers halive hbound harrive⟩
  case step =>
    intro region s r hr hsig hhalt hseal hfree a x s1 harea
    obtain ⟨hbegin, hnext⟩ := saveStep_of hr hsig hhalt hseal hfree harea
    exact ⟨fun hnone himage => congrArg Host.Outcome.next (hbegin hnone himage),
      fun ck k hsome => congrArg Host.Outcome.next (hnext ck k hsome)⟩
  case complete =>
    intro region s r a x hr ha hx hstate hsig hhalt hres
    have hstored := changeImage_of hx fun x => { x with state := 2, time := s.dieTime (groupDie r.group) }
    have hgo := saveDone_of hr ha hx hstate hsig hhalt hres
    refine ⟨_, r.saveEnded, { x with state := 2, time := s.dieTime (groupDie r.group) }, congrArg Host.Outcome.next hgo,
      kget_kset_self .., ?_, rfl, rfl, rfl, rfl, ha, rfl, by simp⟩
    exact (congrArg (kget · a) hstored.images).trans (kget_kset_self ..)
  case sealed =>
    intro region s r hr hev hhalt hcol
    have hgo := sealRegion_of hr hev hhalt hcol
    have hsame := recordReady_sameRegions ((s.evicting region ({ r with why := 3, sliceAt := none }.signalled s)).askSave region) region
      ({ r with why := 3, sliceAt := none }.signalled s)
    refine ⟨_, { r with why := 3, sliceAt := none }.signalled s, congrArg Host.Outcome.next hgo, ?_, rfl, fun c hc => ?_,
      fun g x hg hx => ?_⟩
    · rw [hsame.regions, askSave_regions]
      exact kget_kset_self ..
    · exact (kget_foldl_kset ..).trans (if_pos hc)
    · rw [hsame.regions, askSave_regions]
      exact evicting_regions hg hx

end Sys2Proof.Machine
end
section
/-!
Restores, halted saves and the discard of a halted partition (O33).
-/

namespace Sys2Proof.Machine

/-! ### A restore asked for (R380) -/

section
variable {s : State} {n : Nat} {r : Region} (hr : kget s.regions n = some r) (hwhy : r.why = 0) (hhalt : kget s.halts r.env.top = none)
  (hseal : s.sealedAway n = false)
include hr hwhy hhalt hseal

/-- A region with no restore under way goes by the reason that one is refused for. -/
theorem restoreRegion_of_idle (hrestore : s.restoring n = false) :
    (∀ code, s.restoreRefusal r = code → code ≠ 0 →
      (r.client.isSome → r.answer = none → s.restoreRegion n = { s with regions := kset s.regions n { r with answer := some code } }) ∧
      (r.client = none → r.restore = true → r.refused = false → s.restoreRegion n = if code = 5 then s
        else ({ s with regions := kset s.regions n { r with refused := true, restore := false } }).engineRecord 8
          (.distributor (homeDie r.env.partition)) r.env.colour n code 0 0 0 0)) ∧
    (∀ x, (r.client.isSome ∧ r.answer = none ∨ r.restore = true ∧ r.refused = false) → s.restoreRefusal r = 0 →
      kget s.images (localOf (capCursor r.savea.bits)) = some x →
      s.restoreRegion n = (s.restoreImage n r (localOf (capCursor r.savea.bits)) x).getD s) := by
  rw [State.restoreRegion, hr]
  dsimp only
  rw [if_neg (by simp [hwhy, hhalt, hseal]), hrestore]
  rw [if_neg Bool.false_ne_true]
  dsimp only
  refine ⟨fun code hcode hne => ?_, fun x hask hzero hx => ?_⟩
  · obtain ⟨k, rfl⟩ := Nat.exists_eq_succ_of_ne_zero hne
    refine ⟨fun hclient hans => ?_, fun hclient hres href => ?_⟩
    · rw [if_neg (by simp [hclient, hans]), hcode]
      exact if_pos (by simp [hclient, hans])
    · rw [if_neg (by simp [hres, href]), hcode]
      exact if_neg (by simp [hclient])
  · rw [if_neg (by rcases hask with h | h <;> simp [h]), hzero]
    simp only [hx]

theorem restoreRegion_of_restoring {a : Nat} {x : Image} (hrestore : s.restoring n = true) (ha : r.image = some a)
    (hx : kget s.images a = some x) (hask : r.client = none ∨ r.answer ≠ none ∨ x.asker ≠ none) (hfree : s.engineFree n r = true) :
    s.restoreRegion n = s.restoreStep n a x := by
  rw [State.restoreRegion, hr]
  dsimp only
  rw [if_neg (by simp [hwhy, hhalt, hseal]), if_pos hrestore, ha]
  dsimp only [Option.getD]
  rw [hx]
  dsimp only
  have hasked : ¬(r.client.isSome && r.answer.isNone && x.asker.isNone) = true := by
    rcases hask with h | h | h <;> simp [h]
  rw [if_neg hasked, if_pos hfree]
end

/-! ### An image restored (R381) -/

theorem byte_storeNum_below (s : State) {a n x a' : Nat} (h : a' < a) : (s.storeNum a n x).byte a' = s.byte a' := by
  rw [State.storeNum, byte_store, if_neg (by omega)]

/-- STATE is the low three bits of byte 1 of an image. -/
theorem markImage_state (s : State) (a st : Nat) (h : st < 8) : ((s.markImage a st).byte (a + 1)).toNat % 8 = st := by
  have hb := (s.byte (a + 1)).isLt
  rw [State.markImage, byte_store, if_pos (by simp)]
  simp only [Nat.sub_self, List.getD_cons_zero, BitVec.toNat_ofNat]
  omega

theorem askSave_images (s : State) (n : Nat) : (s.askSave n).images = s.images := by
  unfold State.askSave
  split <;> rfl

theorem askSave_byte (s : State) (n a : Nat) : (s.askSave n).byte a = s.byte a := by
  unfold State.askSave
  split <;> rfl

theorem restoreImage_begun {s t : State} {n a : Nat} {r : Region} {x : Image} (h : s.restoreImage n r a x = some t)
    (hstop : (s.restoreErrors a (s.imagePieces a x)).2.2 = none) :
    (∃ x1, kget t.images a = some x1 ∧ x1.state = 3 ∧ x1.placed = [] ∧ x1.blocks = x.blocks) ∧
    (t.byte (a + 1)).toNat % 8 = 3 ∧ n ∈ t.saveOrder := by
  unfold State.restoreImage at h
  generalize s.restoreErrors a (s.imagePieces a x) = e at h hstop
  obtain ⟨kills, words, stop⟩ := e
  obtain rfl : stop = none := hstop
  obtain ⟨⟨s1, lost⟩, -, rfl⟩ := Option.map_eq_some_iff.mp h
  refine ⟨?_, ?_, mem_askSave ..⟩
  · rw [askSave_images]
    exact ⟨_, kget_kset_self .., rfl, rfl, rfl⟩
  · rw [askSave_byte]
    refine (congrArg (fun y : Byte => y.toNat % 8) (byte_storeNum_below _ (by omega))).trans (markImage_state _ a 3 (by decide))

/-! ### A restore's end (R381) -/

/-- A wave of a core that issues again where its cluster is of the image. -/
def Core.wake (k : Core) (x : Image) (w : Wave) : Wave :=
  match kget k.blocks w.bslot with
  | some b => if (kget x.clusters b.cluster).isSome then { w with recorded := false } else w
  | none => w

/-- A core whose waves of an image's clusters issue again. -/
def Core.woken (k : Core) (x : Image) : Core := { k with waves := k.waves.map fun e => (e.1, k.wake x e.2) }

theorem endRestore_cores (s : State) (n a : Nat) {x : Image} (h : x.nested = none) :
    (s.endRestore n a x).cores = s.cores.map fun e => (e.1, e.2.woken x) := by
  unfold State.endRestore
  dsimp only
  rw [h, State.markImage, store_cores]
  rfl

theorem endRestore_wave {s : State} {n a c slot : Nat} {x : Image} {w : Wave} {b : Block} (h : x.nested = none)
    (hw : s.wave c slot = some w) (hb : s.block c w.bslot = some b) (hx : (kget x.clusters b.cluster).isSome) :
    (s.endRestore n a x).wave c slot = some { w with recorded := false } := by
  have hw' : kget (s.core c).waves slot = some w := hw
  have hb' : kget (s.core c).blocks w.bslot = some b := hb
  have hcore : (s.endRestore n a x).core c = (s.core c).woken x := by
    simp only [State.core, kgetD, endRestore_cores s n a h, kget_map s.cores (Core.woken · x)]
    cases kget s.cores c <;> rfl
  rw [State.wave, hcore, Core.woken, kget_map, hw', Option.map_some, Core.wake, hb']
  exact congrArg some (if_pos hx)

/-! ### Halted partitions (R384, R385) -/

theorem haltedImage_state (s : State) (n : Nat) (r : Region) (x : Image) :
    (s.haltedImage n r x).2.1.halted = true ∧ (s.haltedImage n r x).2.1.state = 2 := by
  unfold State.haltedImage
  exact ⟨rfl, rfl⟩

theorem saveHalted_of {s : State} {n : Nat} {r : Region} (hr : kget s.regions n = some r)
    (hstop : s.partitionStopped r.env.top = true) (hwhole : s.savedWhole r = false) :
    let a := (s.imageOf n { r with why := 4, image := none }).1
    let x := (s.imageOf n { r with why := 4, image := none }).2
    let y := s.haltedImage n r x
    y.1.areaOk r x.isSealed 0 (y.1.imageBytes a y.2.1).length = true →
    s.saveHalted n = { y.1 with regions := kset y.1.regions n { r with image := some a } }.putImage a y.2.1 := by
  intro a x y harea
  rw [State.saveHalted, hr]
  dsimp only
  rw [if_neg (by simp [hstop, hwhole])]
  exact if_neg (by simp only [y, x, a] at harea; simp [harea])

/-! ### A halted partition discarded (R385) -/

/-- A block of a part whose cores have been changed one by one stands on a changed core. -/
theorem block_of_mapCores {s t : State} {F : Core → Core} (hc : t.cores = s.cores.map fun e => (e.1, F e.2)) {c n : Nat} {b : Block}
    (h : t.block c n = some b) : ∃ k, kget s.cores c = some k ∧ kget (F k).blocks n = some b := by
  simp only [State.block, State.core, kgetD, hc, kget_map s.cores F] at h
  cases hk : kget s.cores c with
  | none =>
    rw [hk] at h
    cases h
  | some k =>
    rw [hk] at h
    exact ⟨k, rfl, h⟩

theorem mem_of_block {s : State} {c n : Nat} {b : Block} (h : s.block c n = some b) : ∃ k, (c, k) ∈ s.cores ∧ (n, b) ∈ k.blocks := by
  rw [State.block, State.core, kgetD] at h
  cases hk : kget s.cores c with
  | none =>
    rw [hk] at h
    cases h
  | some k =>
    rw [hk] at h
    exact ⟨k, mem_of_kget hk, mem_of_kget h⟩

theorem block_of_endChannel {s : State} {num status code c n : Nat} {b : Block} (h : (s.endChannel num status code).block c n = some b) :
    ∃ b0, s.block c n = some b0 ∧ b.env = b0.env := by
  unfold State.endChannel at h
  split at h
  · exact ⟨b, h, rfl⟩
  · obtain ⟨k, hk, hb⟩ := block_of_mapCores (F := fun k => { k with blocks := k.blocks.map fun x => (x.1, { x.2 with
      fe := x.2.fe.filter fun q => match q.op with | .channel y _ => y != num | _ => true }) }) rfl h
    rw [kget_map k.blocks fun b => { b with fe := b.fe.filter fun q => match q.op with | .channel y _ => y != num | _ => true }] at hb
    obtain ⟨b0, hb0, rfl⟩ := Option.map_eq_some_iff.mp hb
    refine ⟨b0, ?_, rfl⟩
    rw [State.block, State.core, kgetD, show kget s.cores c = some k from hk]
    exact hb0

/-- No block of the partition stands, and its halt line is down. -/
structure Discarded (top : Nat) (s : State) : Prop where
  halts : kget s.halts top = none
  blocks : ∀ c n b, s.block c n = some b → b.env.top ≠ top

theorem discarded_endChannel {top : Nat} {s : State} (h : Discarded top s) (num status code : Nat) :
    Discarded top (s.endChannel num status code) where
  halts := by
    unfold State.endChannel
    split
    · exact h.halts
    · exact h.halts
  blocks c n b hb := by
    obtain ⟨b0, hb0, henv⟩ := block_of_endChannel hb
    exact henv ▸ h.blocks c n b0 hb0

theorem discarded_discardPartition (s : State) (top : Nat) : Discarded top (s.discardPartition top) := by
  refine List.foldlRecOn _ _ (motive := Discarded top) ⟨kget_kdel_self .., fun c n b hb => ?_⟩ fun t ht e _ => ?_
  · obtain ⟨k, hk, hbk⟩ := mem_of_block hb
    obtain ⟨⟨c0, k0⟩, -, he⟩ := List.mem_map.mp hk
    cases he
    simpa using (List.mem_filter.mp hbk).2
  · obtain ⟨num, ch⟩ := e
    dsimp only
    split
    · exact discarded_endChannel ht ..
    · exact ht

/-- Settles O33: the restore's reasons and its steps, then what becomes of a halted partition. -/
theorem restores : Obligations.Restores := by
  unfold Obligations.Restores
  refine ⟨?refused, ?begun, ?goesOn, ?ends, ?haltedSave, ?discard⟩
  case refused =>
    intro region s r hr hwhy hhalt hseal hrestore hrefusal
    obtain ⟨hasked, hown⟩ := (restoreRegion_of_idle hr hwhy hhalt hseal hrestore).1 _ rfl hrefusal
    refine ⟨fun hc ha => congrArg Host.Outcome.next (hasked hc ha),
      fun hc hres href => ⟨_, congrArg Host.Outcome.next (hown hc hres href), fun h5 => if_pos h5, fun h5 => ?_⟩⟩
    rw [if_neg h5]
    exact (congrArg (kget · region) (stored_putRecord ..).regions).trans (kget_kset_self ..)
  case begun =>
    intro region s r x a hr hwhy hhalt hseal hrestore hask hzero hx
    exact ⟨congrArg Host.Outcome.next ((restoreRegion_of_idle hr hwhy hhalt hseal hrestore).2 x hask hzero hx),
      fun t ht hstop => restoreImage_begun ht hstop⟩
  case goesOn =>
    intro region s r a x hr hwhy hhalt hseal hrestore ha hx hask hfree
    have hgo := restoreRegion_of_restoring hr hwhy hhalt hseal hrestore ha hx hask hfree
    refine ⟨fun ck k hnext => congrArg Host.Outcome.next (hgo.trans ?_), fun hnone hnested => congrArg Host.Outcome.next (hgo.trans ?_)⟩
    · rw [State.restoreStep, hnext]
    · rw [State.restoreStep, hnone]
      dsimp only
      rw [State.finishRestore, hnested]
  case ends =>
    intro region s a x hnested
    exact ⟨kget_kdel_self .., fun c slot w b hw hb hx => endRestore_wave hnested hw hb hx⟩
  case haltedSave =>
    intro region s r hr hstop hwhole a x y harea
    obtain ⟨hhalted, hstate⟩ := haltedImage_state s region r x
    exact ⟨hhalted, hstate, congrArg Host.Outcome.next (saveHalted_of hr hstop hwhole harea)⟩
  case discard =>
    intro region s r hr hstop
    have hgo : s.discardHalted region = s.discardPartition r.env.top := by
      rw [State.discardHalted, hr]
      exact if_pos hstop
    have hgone := discarded_discardPartition s r.env.top
    exact ⟨_, congrArg Host.Outcome.next hgo, hgone.halts, hgone.blocks⟩

end Sys2Proof.Machine
end
section
/-!
Entering a handler and returning from one (O36).
-/

namespace Sys2Proof.Machine

/-! ### What an instruction that does not complete comes to -/

section
variable {i : Instr} {s : State} {core slot : Nat} {w : Wave} {b : Block} {body : Body}
  (he : exec i s = issue i.view (encode i) body false s) (h : Ready i s core slot w b)
include he h

theorem exec_of_ready : exec i s = .next (issueActive i.view body false (ctxFor i s core slot w) b w s) := by
  rw [he]
  unfold issue
  simp only [h.turn, h.wave, h.block]
  rw [issueWave_ready h]

section
variable (hact : (ctxFor i s core slot w).act ≠ 0)
include hact

theorem exec_of_fail {e : Exc} (hb : body (ctxFor i s core slot w) w s = .fail e) :
    exec i s = .next ((s.enterLine core slot).raise (ctxFor i s core slot w) i.view (tileWindow b w i.view) e) := by
  rw [exec_of_ready he h, issueActive_ready h _ _ (.inl hact), hb]

/-- An instruction that leaves its wave as it stays. -/
theorem exec_of_stays {k : WaitKind} {w2 : Wave} (hb : body (ctxFor i s core slot w) w s = .stay k (s.setWave core slot w2)) :
    exec i s = .next (s.setWave core slot (w2.stayed k)) := by
  rw [exec_of_ready he h, issueActive_ready h _ _ (.inl hact), hb]
  simp only [modWave_of _ _ _ _ (wave_setWave_self _ _ _ _), State.enterLine, setWave_setWave]
  rfl

/-- A return from a handler: the wave goes on at the level below, where no pop is made (R352). -/
theorem exec_of_return {s2 : State} {w2 : Wave} (hb : body (ctxFor i s core slot w) w s = .jumped (s2.setWave core slot w2))
    (hsweep : s2.sweeper = s.sweeper) (hlevel : w2.level ≠ w.level) :
    exec i s = .next (s2.setWave core slot (w2.issued (ctxFor i s core slot w) i.view true w.level)) := by
  rw [exec_of_ready he h, issueActive_ready h _ _ (.inl hact), hb]
  dsimp only
  have hwave : (s2.setWave core slot w2).wave (ctxFor i s core slot w).core (ctxFor i s core slot w).slot = some w2 :=
    wave_setWave_self ..
  have hbefore : s.wave (ctxFor i s core slot w).core (ctxFor i s core slot w).slot = some w := h.wave
  rw [complete, hwave]
  dsimp only
  rw [hbefore, setWave_sweeper, hsweep, h.sweep]
  simp only [Bool.and_false, Bool.false_eq_true, if_false, if_true]
  rw [if_pos hlevel]
  exact congrArg Host.Outcome.next (setWave_setWave ..)
end
end

/-! ### Delivery (R342, R357) -/

theorem enterLine_of {s : State} {core slot : Nat} {w : Wave} (h : s.wave core slot = some w) :
    s.enterLine core slot = s.setWave core slot w.onLine := modWave_of _ _ _ _ h

section
variable {s : State} {c slot : Nat} {w : Wave} {b : Block} {t : TrapInfo} (hw : s.wave c slot = some w)
  (hb : s.block c w.bslot = some b) (hasync : t.async = false) (hcode : 18 < t.code)
include hw hb hasync hcode

/-- A precise trap of the trap handler enters it, or halts the partition: with its own code in the cycle of the halt line, with code 65
at the last level, and with code 64 where no handler is named (R342, R344, R357). -/
theorem deliver_precise :
    (s.haltsNow b.env.top c slot = true → s.deliver c slot t = s.haltWave c slot t.code t.sub) ∧
    (s.haltsNow b.env.top c slot = false → w.level = 2 → s.deliver c slot t = s.haltWave c slot 65 t.code) ∧
    (s.haltsNow b.env.top c slot = false → w.level ≠ 2 → b.env.trapEntry = none →
      s.deliver c slot t = s.haltWave c slot 64 t.code) ∧
    (∀ x, s.haltsNow b.env.top c slot = false → w.level ≠ 2 → b.env.trapEntry = some x →
      s.deliver c slot t = s.setWave c slot (w.enter t x (s.sweptCap b.env.emuArea))) := by
  have hcap : ((t.code = 16 || t.code = 17 || t.code = 18) && !b.env.localCap) = false := by
    have h16 : t.code ≠ 16 := by omega
    have h17 : t.code ≠ 17 := by omega
    simp [h16, h17, hcode.ne']
  have hemu : isEmu t.code = false := by
    simp only [isEmu, decide_eq_false_iff_not]
    omega
  rw [State.deliver, hw]
  dsimp only
  rw [hb, hasync]
  simp only [hcap, hemu, Bool.not_false, Bool.true_and, Bool.false_eq_true, if_false]
  refine ⟨fun h => if_pos h, fun h hl => ?_, fun h hl hx => ?_, fun x h hl hx => ?_⟩
  · rw [if_neg (Bool.eq_false_iff.mp h), if_pos hl]
  · rw [if_neg (Bool.eq_false_iff.mp h), if_neg hl, hx]
  · rw [if_neg (Bool.eq_false_iff.mp h), if_neg hl, hx]
end

section
variable {i : Instr} {s : State} {core slot : Nat} {w : Wave} {b : Block} {body : Body} {code sub : Nat} {info : Dword}
  (he : exec i s = issue i.view (encode i) body false s) (h : Ready i s core slot w b)
  (hact : (ctxFor i s core slot w).act ≠ 0) (hb : body (ctxFor i s core slot w) w s = .fail (.trap code sub info))
include he h hact hb

/-- The trap that an instruction takes. -/
def trapOf (i : Instr) (s : State) (core slot : Nat) (w : Wave) (code sub : Nat) (info : Dword) : TrapInfo :=
  { code, sub, fieldNum := 0, seq := false, async := false, info, inst := encode i, act := (ctxFor i s core slot w).act,
    tpc := w.bank.pc, windows := [(0, 0), (0, 0), (0, 0), (0, 0)], feDone := 0 }

theorem exec_of_trap : exec i s =
    .next ((s.setWave core slot w.onLine).deliver core slot (trapOf i s core slot w code sub info)) := by
  rw [exec_of_fail he h hact hb, State.raise, enterLine_of h.wave]
  rw [show (s.setWave core slot w.onLine).wave (ctxFor i s core slot w).core (ctxFor i s core slot w).slot = some w.onLine from
    wave_setWave_self ..]
  rfl

omit he hact hb in
theorem block_onLine : (s.setWave core slot w.onLine).block core w.onLine.bslot = some b := by
  rw [block_setWave]
  exact h.block

variable (hcode : 18 < code)
include hcode

/-- A trap of the trap handler enters it where there is one and the wave has a level left (R342). -/
theorem enters_of_trap {x : IAddr} (hnow : s.haltsNow b.env.top core slot = false) (hlevel : w.level ≠ 2)
    (hx : b.env.trapEntry = some x) : Enters i s core slot w b code sub info x := by
  obtain ⟨-, -, -, henter⟩ := deliver_precise (t := trapOf i s core slot w code sub info)
    (wave_setWave_self s core slot w.onLine) (block_onLine h) rfl hcode
  rw [Enters, exec_of_trap he h hact hb, henter x hnow hlevel hx, setWave_setWave]
  rfl

/-- Else the partition halts. -/
theorem halts_of_trap (hno : s.haltsNow b.env.top core slot = true ∨ w.level = 2 ∨ b.env.trapEntry = none) :
    exec i s = .next ((s.enterLine core slot).haltWave core slot
      (if s.haltsNow b.env.top core slot then code else if w.level = 2 then 65 else 64)
      (if s.haltsNow b.env.top core slot then sub else code)) := by
  obtain ⟨hnow, hlast, hnone, -⟩ := deliver_precise (t := trapOf i s core slot w code sub info)
    (wave_setWave_self s core slot w.onLine) (block_onLine h) rfl hcode
  rw [exec_of_trap he h hact hb, enterLine_of h.wave]
  cases hh : s.haltsNow b.env.top core slot with
  | true => exact congrArg Host.Outcome.next (hnow hh)
  | false =>
    by_cases hl : w.level = 2
    · rw [if_neg Bool.false_ne_true, if_neg Bool.false_ne_true, if_pos hl]
      exact congrArg Host.Outcome.next (hlast hh hl)
    · rw [if_neg Bool.false_ne_true, if_neg Bool.false_ne_true, if_neg hl]
      exact congrArg Host.Outcome.next (hnone hh hl (by simpa [hh, hl] using hno))
end

/-! ### The levels of a wave (R342, R345, R352) -/

/-- A handler starts with nothing but the capability of its emulation area (R342). -/
theorem handlerBank_fields (w : Wave) (h : IAddr) (live : Mask) (area : Cap) :
    let b := handlerBank h live area
    b.pc = h ∧ b.mask = live ∧ b.v = [] ∧ b.p = [] ∧ b.q = [] ∧ b.ctl = [] ∧ b.loops = [] ∧
    (area.tag = true → b.pairCap 0 = area) := by
  by_cases htag : area.tag = true
  · have hb : handlerBank h live area = { (Bank.start h live).writePair64 0 area.bits with
        gtags := nins ((Bank.start h live).writePair64 0 area.bits).gtags 0 } :=
      (if_pos htag).trans (if_pos htag)
    have hw := (wrotePair_writeCap (w.setBank (Bank.start h live)) (d := 0) area rfl).value
    rw [bank_setBank, bank_setBank] at hw
    rw [Bank.writeCap, if_pos htag] at hw
    rw [hb]
    exact ⟨rfl, rfl, rfl, rfl, rfl, rfl, rfl, fun _ => hw⟩
  · have hb : handlerBank h live area = Bank.start h live := if_neg htag
    rw [hb]
    exact ⟨rfl, rfl, rfl, rfl, rfl, rfl, rfl, fun h => absurd h htag⟩

/-- The registers that an entry writes are those of its own level. -/
theorem levelRegs_enter (w : Wave) (t : TrapInfo) (h : IAddr) (area : Cap) (hlevel : w.level < 2) :
    ∃ kept, (w.enter t h area).levelRegs = trapRegs t (w.level + 1) w.dead kept w.nextSerial := by
  have hup : (w.enter t h area).level = w.level + 1 := rfl
  rw [Wave.levelRegs, hup]
  by_cases hl : w.level + 1 = 2
  · rw [if_pos hl]
    exact ⟨_, if_pos hl⟩
  · rw [if_neg hl]
    exact ⟨_, if_pos (by omega)⟩

theorem enter_fields (w : Wave) (t : TrapInfo) (h : IAddr) (area : Cap) (hlevel : w.level < 2) :
    let w1 := w.enter t h area
    w1.level = w.level + 1 ∧ w1.base = w.base ∧ w1.bank.pc = h ∧ w1.bank.mask = w.live ∧ w1.bank.v = [] ∧ w1.bank.p = [] ∧
    w1.bank.q = [] ∧ w1.bank.ctl = [] ∧ w1.bank.loops = [] ∧ (area.tag = true → w1.bank.pairCap 0 = area) ∧
    w1.levelRegs.tcause = causeWord t (w.level + 1) ∧ w1.levelRegs.tpc = t.tpc.setWidth 64 ∧
    w1.levelRegs.tinst0 = t.inst.setWidth 64 ∧ w1.levelRegs.tinst1 = (t.inst >>> 64).setWidth 64 ∧
    w1.levelRegs.tmask = w.dead ++ t.act ∧ w1.levelRegs.tinfo = t.info ∧ w1.dead = w.dead ∧ w1.exited = w.exited := by
  intro w1
  obtain ⟨hpc, hmask, hv, hp, hq, hctl, hloops, harea⟩ := handlerBank_fields w h w.live area
  obtain ⟨kept, hregs⟩ := levelRegs_enter w t h area hlevel
  rw [show w1.levelRegs = _ from hregs]
  exact ⟨rfl, rfl, hpc, hmask, hv, hp, hq, hctl, hloops, harea, rfl, rfl, rfl, rfl, rfl, rfl, rfl, rfl⟩

/-- Bit 22 of the cause word says that a trap is asynchronous (R345). -/
theorem causeWord_async {t : TrapInfo} (hasync : t.async = true) (hcode : t.code < 256) (hfield : t.fieldNum < 256) :
    (causeWord t 1).getLsbD 22 = true := by
  have hseq : (if t.seq then 2 ^ 23 else 0) = 0 ∨ (if t.seq then 2 ^ 23 else 0) = 2 ^ 23 := by
    cases t.seq <;> simp
  have hemu : (if isEmu t.code then 2 ^ 16 else 0) ≤ 2 ^ 16 := by
    split <;> simp
  rw [causeWord, BitVec.getLsbD_ofNat, hasync, Nat.testBit_eq_decide_div_mod_eq]
  simp only [if_true, Bool.and_eq_true, decide_eq_true_eq]
  omega

/-- A bank is left in three steps: its resume record is taken from its registers, the bank is discarded, and an instruction left not
complete takes up what it has done (R341, R352). -/
theorem leave_of {w : Wave} {x : IAddr} {top : Bank} {rest : List Bank} (h : w.handlers = top :: rest) :
    ∃ w1 : Wave, w.leave x = w1.setBank { w1.bank with pc := x } ∧ w1.handlers = rest ∧ w1.base = w.base ∧ w1.dead = w.dead ∧
      w1.exited = w.exited := by
  have hset : ∀ r, (w.setLevelRegs r).base = w.base ∧ (w.setLevelRegs r).dead = w.dead ∧ (w.setLevelRegs r).exited = w.exited := by
    intro r
    unfold Wave.setLevelRegs
    split <;> exact ⟨rfl, rfl, rfl⟩
  obtain ⟨hbase, hdead, hexited⟩ := hset { w.levelRegs with resume := none }
  unfold Wave.leave
  rw [h]
  dsimp only
  refine ⟨_, rfl, ?_⟩
  split
  · split <;> exact ⟨rfl, hbase, hdead, hexited⟩
  · exact ⟨rfl, hbase, hdead, hexited⟩

theorem leave_fields (w : Wave) (x : IAddr) {top : Bank} {rest : List Bank} (h : w.handlers = top :: rest) :
    (w.leave x).bank.pc = x ∧ (w.leave x).dead = w.dead ∧ (w.leave x).exited = w.exited ∧
    (rest = [] → (w.leave x).handlers = [] ∧ (w.leave x).base = { w.base with pc := x }) ∧
    (∀ b more, rest = b :: more → (w.leave x).handlers = { b with pc := x } :: more ∧ (w.leave x).base = w.base) := by
  obtain ⟨w1, hw1, hrest, hbase, hdead, hexited⟩ := leave_of (x := x) h
  rw [hw1]
  refine ⟨by rw [bank_setBank], by rw [setBank_dead, hdead], by rw [setBank_exited, hexited], fun hnil => ?_, fun b more hcons => ?_⟩
  · have hhandlers : w1.handlers = [] := hrest.trans hnil
    simp only [Wave.setBank, Wave.bank, hhandlers, hbase, and_self]
  · have hhandlers : w1.handlers = b :: more := hrest.trans hcons
    simp only [Wave.setBank, Wave.bank, hhandlers, hbase, and_self]

theorem leave_level (w : Wave) (x : IAddr) {top : Bank} {rest : List Bank} (h : w.handlers = top :: rest) :
    (w.leave x).level ≠ w.level := by
  obtain ⟨w1, hw1, hrest, -⟩ := leave_of (x := x) h
  have hdown : (w.leave x).level = rest.length := by rw [hw1, level_setBank, Wave.level, hrest]
  have hup : w.level = rest.length + 1 := congrArg List.length h
  omega

/-- The registers of a level written: its wave is on the same path. -/
theorem setLevelRegs_path (w : Wave) (r : TrapRegs) : (w.setLevelRegs r).level = w.level ∧ (w.setLevelRegs r).bank = w.bank := by
  unfold Wave.setLevelRegs
  split <;> exact ⟨rfl, rfl⟩

theorem levelRegs_setLevelRegs (w : Wave) (r : TrapRegs) : (w.setLevelRegs r).levelRegs = r := by
  rw [Wave.levelRegs, (setLevelRegs_path w r).1, Wave.setLevelRegs]
  split <;> rfl

theorem levelRegs_one {w : Wave} (h : w.level = 1) : w.levelRegs = w.level1 := by
  rw [Wave.levelRegs, h]
  rfl

/-- Where a return from a handler goes (R352): to the trapped instruction for TRET and where the trap was asynchronous or the sequencer's,
else after it. -/
def returnTo (repeats : Bool) (s : State) (core : Nat) (w : Wave) (b : Block) : IAddr :=
  if repeats || w.levelRegs.tcause.getLsbD 23 || w.levelRegs.tcause.getLsbD 22 then w.levelRegs.tpc.setWidth 32
  else (s.core core).nextValid b.code (w.levelRegs.tpc.setWidth 32)

section
variable {i : Instr} {s : State} {core slot : Nat} {w : Wave} {b : Block} {repeats : Bool} (h : Ready i s core slot w b)
  (hxfer : (s.core core).xfer b.code (returnTo repeats s core w b) ≠ .misaligned)
include h hxfer

/-- A return that finds no stopped sequencer's trap leaves its handler. -/
theorem returnBody_leaves (hseq : w.levelRegs.tcause.getLsbD 23 = false ∨ b.seqr.status ≠ 4) :
    returnBody repeats false (ctxFor i s core slot w) w s = .jumped (s.setWave core slot (w.leave (returnTo repeats s core w b))) := by
  rw [returnBody, show s.block (ctxFor i s core slot w).core (ctxFor i s core slot w).bslot = some b from h.block]
  dsimp only
  rw [if_neg Bool.false_ne_true]
  refine (if_neg hxfer).trans (congrArg (fun s1 => Done.jumped (State.setWave s1 core slot (w.leave (returnTo repeats s core w b)))) ?_)
  obtain hseq | hseq := hseq
  · exact if_neg fun hh => Bool.false_ne_true (hseq ▸ (Bool.and_eq_true_iff.mp hh).1)
  · exact if_neg fun hh => hseq (of_decide_eq_true (Bool.and_eq_true_iff.mp hh).2)

/-- One that finds it lets the sequencer go on. -/
theorem returnBody_leaves_seq (hrep : repeats = true) (hseq : w.levelRegs.tcause.getLsbD 23 = true) (hstatus : b.seqr.status = 4) :
    returnBody repeats false (ctxFor i s core slot w) w s =
      .jumped ((s.setBlock core w.bslot { b with seqr := { b.seqr with status := 2 } }).setWave core slot
        (w.leave (returnTo repeats s core w b))) := by
  rw [returnBody, show s.block (ctxFor i s core slot w).core (ctxFor i s core slot w).bslot = some b from h.block]
  dsimp only
  rw [if_neg Bool.false_ne_true]
  refine (if_neg hxfer).trans (congrArg (fun s1 => Done.jumped (State.setWave s1 core slot (w.leave (returnTo repeats s core w b)))) ?_)
  refine (if_pos (by simp [hseq, hstatus])).trans ((modBlock_of _ _ _ _ h.block).trans ?_)
  rw [hrep]
  rfl
end

/-! ### Held traps (R341) -/

/-- An asynchronous trap enters its handler where it has one, the wave a level left, and a capability fault its local route (R340, R342). -/
theorem deliver_async {s : State} {c slot : Nat} {w : Wave} {b : Block} {t : TrapInfo} {x : IAddr} (hw : s.wave c slot = some w)
    (hb : s.block c w.bslot = some b) (hasync : t.async = true) (hlevel : w.level = 0)
    (hcap : b.env.localCap = true ∨ (t.code ≠ 16 ∧ t.code ≠ 17 ∧ t.code ≠ 18))
    (hx : (if isEmu t.code then b.env.emuEntry else b.env.trapEntry) = some x) :
    s.deliver c slot t = s.setWave c slot (w.enter t x (s.sweptCap b.env.emuArea)) := by
  have hroute : ((t.code = 16 || t.code = 17 || t.code = 18) && !b.env.localCap) = false := by
    obtain hlocal | ⟨h16, h17, h18⟩ := hcap
    · simp [hlocal]
    · simp [h16, h17, h18]
  rw [State.deliver, hw]
  dsimp only
  rw [hb, hasync]
  simp only [hroute, hlevel, hx, Bool.not_true, Bool.false_and, Bool.false_eq_true, if_false, reduceCtorEq]

/-- A trap held for a wave in wave mode is delivered at its boundary where it has a handler. -/
theorem deliverHeld_of {s : State} {core slot : Nat} {w : Wave} {b : Block} {h : HeldTrap} {rest : List HeldTrap} {x : IAddr}
    (hw : s.wave core slot = some w) (hb : s.block core w.bslot = some b) (hheld : w.held = h :: rest) (hlevel : w.level = 0)
    (hbound : w.atBoundary = true) (hstop : s.coreStopped core = false)
    (hcap : b.env.localCap = true ∨ (h.code ≠ 16 ∧ h.code ≠ 17 ∧ h.code ≠ 18))
    (hx : (if isEmu h.code then b.env.emuEntry else b.env.trapEntry) = some x) :
    ∃ (s2 : State) (t : TrapInfo) (area : Cap),
      s.deliverHeld core slot = s2.setWave core slot (Wave.enter { w with held := rest } t x area) ∧
      t.async = true ∧ t.code = h.code ∧ t.fieldNum = h.fieldNum ∧ t.info = h.info ∧ t.tpc = w.bank.pc := by
  have hgo : (decide (w.level ≠ 0) || !w.atBoundary || s.coreStopped core) = false := by
    simp [hlevel, hbound, hstop]
  unfold State.deliverHeld
  rw [hw]
  dsimp only
  rw [hb, hheld]
  dsimp only
  rw [if_neg (Bool.eq_false_iff.mp hgo)]
  refine ⟨_, _, _, deliver_async (b := { b with fe := b.fe.filter fun f => f.uid != w.uid })
    (((leaveWords_sameIssue ..).wave ..).trans (wave_setWave_self ..)) ?_ rfl hlevel hcap hx, rfl, rfl, rfl, rfl, rfl⟩
  rw [block_leaveWords, block_setWave, State.block, core_setCore_self]
  exact congrArg (Option.map fun b : Block => { b with fe := b.fe.filter fun f => f.uid != w.uid }) hb

/-- Settles O36: the trap instructions by what they raise, and the levels of a wave by its handlers' banks. -/
theorem trapEntryAndReturn : Obligations.TrapEntryAndReturn := by
  unfold Obligations.TrapEntryAndReturn
  refine ⟨?trap, ?bkpt, ?debugger, ?sealing, enter_fields, ?async, ?tret, ?tretSeq, ?emret, ?emretFail, fun w x _ _ => leave_fields w x⟩
  case trap =>
    intro f s core slot w b h hact
    exact ⟨fun x => enters_of_trap (body := trapBody f) rfl h hact rfl (by decide),
      halts_of_trap (body := trapBody f) rfl h hact rfl (by decide)⟩
  case bkpt =>
    intro f s core slot w b h hact harmed
    have hb : bkptBody f (ctxFor (.bkpt f) s core slot w) w s = .fail (.trap 25 0 ((f.imm.setWidth 16).setWidth 64)) := by
      rw [bkptBody, show s.block (ctxFor (.bkpt f) s core slot w).core (ctxFor (.bkpt f) s core slot w).bslot = some b from h.block]
      exact if_pos (by simp [harmed])
    exact ⟨fun x => enters_of_trap rfl h hact hb (by decide), halts_of_trap rfl h hact hb (by decide)⟩
  case debugger =>
    intro f s core slot w b h hact harmed hseal
    obtain ⟨hlevel, hbank⟩ := setLevelRegs_path w { w.levelRegs with tpc := w.bank.pc.setWidth 64 }
    have hb : bkptBody f (ctxFor (.bkpt f) s core slot w) w s = .stay .none (s.setWave core slot
        { w.setLevelRegs { w.levelRegs with tpc := w.bank.pc.setWidth 64 } with dbgHalt := true }) := by
      rw [bkptBody, show s.block (ctxFor (.bkpt f) s core slot w).core (ctxFor (.bkpt f) s core slot w).bslot = some b from h.block]
      dsimp only
      rw [harmed, hseal]
      rfl
    refine ⟨_, _, exec_of_stays rfl h hact hb, wave_setWave_self .., rfl, ?_, hbank, hlevel⟩
    exact congrArg TrapRegs.tpc (levelRegs_setLevelRegs w _)
  case sealing =>
    intro f s core slot w b h hact harmed hseal
    have hb : bkptBody f (ctxFor (.bkpt f) s core slot w) w s =
        .stay .none (s.setWave core slot { w with recorded := true, bkpend := true }) := by
      rw [bkptBody, show s.block (ctxFor (.bkpt f) s core slot w).core (ctxFor (.bkpt f) s core slot w).bslot = some b from h.block]
      dsimp only
      rw [harmed, hseal]
      rfl
    exact ⟨_, _, exec_of_stays rfl h hact hb, wave_setWave_self .., rfl, rfl, rfl, rfl⟩
  case async =>
    intro core slot s w b h rest x hw hb hheld hlevel hbound hstop hcode hfield hcap hx
    obtain ⟨s2, t, area, hdeliver, hasync, htcode, htfield, hinfo, hpc⟩ :=
      deliverHeld_of hw hb hheld hlevel hbound hstop hcap hx
    obtain ⟨hup, hbase, henter, -, -, -, -, -, -, -, hcause, htpc, -, -, -, htinfo, -⟩ :=
      enter_fields { w with held := rest } t x area (hlevel ▸ Nat.zero_lt_two)
    have hone : (Wave.enter { w with held := rest } t x area).level = 1 := hup.trans (congrArg (· + 1) hlevel)
    rw [levelRegs_one hone] at hcause htpc htinfo
    refine ⟨_, _, congrArg Host.Outcome.next hdeliver, wave_setWave_self .., hone, rfl, henter, hbase, htpc.trans (by rw [hpc]), ?_,
      htinfo.trans hinfo⟩
    rw [hcause, show ({ w with held := rest } : Wave).level = 0 from hlevel]
    exact causeWord_async hasync (htcode ▸ hcode) (htfield ▸ hfield)
  case tret =>
    intro f s core slot w b top rest h hact hhandlers hseq x hxfer
    exact exec_of_return rfl h hact (returnBody_leaves (repeats := true) h hxfer hseq) rfl (leave_level w _ hhandlers)
  case tretSeq =>
    intro f s core slot w b top rest h hact hhandlers hseq hstatus x hxfer
    exact exec_of_return rfl h hact (returnBody_leaves_seq (repeats := true) h hxfer rfl hseq hstatus) rfl (leave_level w _ hhandlers)
  case emret =>
    intro f s core slot w b top rest h hact hsub hhandlers hseq t x hxfer
    have hto : returnTo false s core w b = x := by
      rw [returnTo, hseq]
      rfl
    have hb : returnBody false (f.sub.getLsbD 0) (ctxFor (.emret f) s core slot w) w s =
        .jumped (s.setWave core slot (w.leave x)) := by
      rw [hsub, ← hto]
      exact returnBody_leaves h (hto.symm ▸ hxfer) (.inl hseq)
    exact exec_of_return rfl h hact hb rfl (leave_level w _ hhandlers)
  case emretFail =>
    intro f s core slot w b h hact hsub
    have hb : returnBody false (f.sub.getLsbD 0) (ctxFor (.emret f) s core slot w) w s = .fail (.halt 66 0) := by
      rw [returnBody, show s.block (ctxFor (.emret f) s core slot w).core (ctxFor (.emret f) s core slot w).bslot = some b from h.block]
      exact if_pos hsub
    rw [exec_of_fail rfl h hact hb, State.raise, enterLine_of h.wave]
    rw [show (s.setWave core slot w.onLine).wave (ctxFor (.emret f) s core slot w).core (ctxFor (.emret f) s core slot w).slot =
      some w.onLine from wave_setWave_self ..]
    rfl

end Sys2Proof.Machine
end
section
/-!
Registers moved between a handler and a wave, and tiles handed to the emulation area and back (O38).
-/

namespace Sys2Proof.Machine

/-! ### A value moved into the handler's bank (R351) -/

/-- A value moved into one register, or into a pair. -/
def Ctx.putMoved (c : Ctx) (w : Wave) (d k : Nat) (lo hi : VVal) (fmt : Nat) : Wave :=
  if k = 2 then w.setBank (w.bank.writePair c.act c.live d lo hi fmt 0) else c.write w d lo fmt

theorem destRegs_le (d : Nat) {k m : Nat} (h : k ≤ m) : ∀ n ∈ destRegs d k, n ∈ destRegs d m := by
  intro n hn
  unfold destRegs at hn ⊢
  split at hn
  · simp at hn
  · rw [if_neg ‹_›]
    rw [mem_rangeFrom] at hn ⊢
    omega

theorem onlyVec_putMoved (c : Ctx) (w : Wave) (d : Nat) {k : Nat} (lo hi : VVal) (fmt : Nat) (hk : 1 ≤ k) :
    OnlyVec w (c.putMoved w d k lo hi fmt) (destRegs d k) := by
  unfold Ctx.putMoved
  split
  next h2 => exact h2 ▸ onlyVec_writePair c w d lo hi fmt 0
  next => exact (onlyVec_write c w d lo fmt).mono (destRegs_le d hk)

theorem lane_putMoved (c : Ctx) (w : Wave) {d : Nat} (k : Nat) (lo hi : VVal) (fmt : Nat) (hd : d ≠ 1023) (hd' : d + 1 ≠ 1023) {l : Nat}
    (hl : l < 32) (ha : c.act.getLsbD l = true) :
    (c.putMoved w d k lo hi fmt).lane d l = lo.lane l ∧ (k = 2 → (c.putMoved w d k lo hi fmt).lane (d + 1) l = hi.lane l) := by
  unfold Ctx.putMoved
  split
  next =>
    obtain ⟨hlo, hhi⟩ := (lane_writePair c w d lo hi fmt 0 hd hd' hl).1 ha
    exact ⟨hlo, fun _ => hhi⟩
  next h2 =>
    refine ⟨?_, fun h => absurd h h2⟩
    simp only [Wave.lane, Ctx.write, bank_setBank]
    exact lane_write_active _ _ _ _ _ hd hl ha

/-! Tags moved with a quad are all that is written beside its registers. -/

section
variable (touch : BitVec 128 → Bool) (sweep : Bool) (act : Mask) (src dst : Bank) (sq dq : Nat)

/-- `b1` is `b` but for the tags of quad `q`. -/
def Bank.SameBut (b b1 : Bank) (q : Nat) : Prop := (∃ m, b1 = { b with vtags := m }) ∧ ∀ q', q' ≠ q → b1.tagsOf q' = b.tagsOf q'

theorem sameBut_setTags (b : Bank) (q : Nat) (m : Mask) : b.SameBut (b.setTags q m) q :=
  ⟨⟨_, rfl⟩, fun _ hq => by rw [tagsOf_setTags, if_neg hq]⟩

theorem sameBut_sweepQuad (b : Bank) (q : Nat) : b.SameBut (b.sweepQuad touch act q) q := by
  unfold Bank.sweepQuad
  dsimp only
  split
  · exact ⟨⟨b.vtags, rfl⟩, fun _ _ => rfl⟩
  · exact sameBut_setTags b q _

theorem sameBut_copyTags : dst.SameBut (copyTags touch sweep act src sq dst dq) dq := by
  have hset := fun m => sameBut_setTags dst dq m
  unfold copyTags
  dsimp only
  split
  · obtain ⟨⟨m, hm⟩, htags⟩ := sameBut_sweepQuad touch act _ dq
    exact ⟨⟨m, hm⟩, fun q hq => (htags q hq).trans ((hset _).2 q hq)⟩
  · exact hset _

theorem reg_copyTags (n : Nat) : (copyTags touch sweep act src sq dst dq).reg n = dst.reg n := by
  obtain ⟨⟨m, hm⟩, -⟩ := sameBut_copyTags touch sweep act src dst sq dq
  rw [hm]
  rfl
end

theorem onlyVec_copyTags (w : Wave) (touch : BitVec 128 → Bool) (sweep : Bool) (act : Mask) (src : Bank) (sq : Nat) {d : Nat}
    {rs : List Nat} (hd : d ∈ rs) : OnlyVec w (w.setBank (copyTags touch sweep act src sq w.bank (d / 4))) rs := by
  obtain ⟨⟨m, hm⟩, htags⟩ := sameBut_copyTags touch sweep act src w.bank sq (d / 4)
  refine ⟨by rw [bank_setBank, hm], fun n _ => ?_, fun q hq => ?_⟩
  · simp only [Wave.lane, bank_setBank, reg_copyTags]
    exact ⟨fun _ _ => trivial, trivial⟩
  · rw [bank_setBank, htags q (hq d hd).symm]

section
variable (c : Ctx) (w : Wave) (t : MovTarget) (s : State) (cap : Bool) {d k : Nat}

/-- Registers moved, with their tags. -/
def movedRegs (n d k : Nat) : Wave :=
  c.writeEach w d k (fun i => (t.wave.readIn t.bank (n + i)).val) fun i => (t.wave.readIn t.bank (n + i)).fmt

theorem movRead_vec {n : Nat} (hn : n ≠ 1023) (hd : d ≠ 1023) : movRead c w t (.vec n) d k cap s =
    if cap then (movedRegs c w t n d k).setBank
      (copyTags s.touchesRevoked s.sweeper.running c.act t.bank (n / 4) (movedRegs c w t n d k).bank (d / 4))
    else movedRegs c w t n d k := by
  simp only [movRead, if_neg hd]
  rfl

theorem onlyVec_movRead (p : MovPlace) (hk : 1 ≤ k) (hd : d = 1023 ∨ d + k ≤ 672) :
    OnlyVec w (movRead c w t p d k cap s) (destRegs d k) := by
  cases p with
  | vec n =>
    by_cases hd1023 : d = 1023
    · have hnone : movRead c w t (.vec n) d k cap s = w := by
        by_cases hn : n = 1023
        · rw [hn, movRead]
          simp only [if_pos hd1023]
          exact List.foldl_fixed ..
        · simp only [movRead, if_pos hd1023]
      rw [hnone]
      exact .refl w _
    · have hd' : d + k ≤ 1023 := by omega
      rw [destRegs, if_neg hd1023]
      by_cases hn : n = 1023
      · have hzero : movRead c w t (.vec n) d k cap s = c.writeEach w d k (fun _ => .u 0) fun _ => 0 := by
          rw [hn, movRead]
          simp only [if_neg hd1023]
          rfl
        rw [hzero]
        exact onlyVec_writeEach c w _ _ hd'
      · have honly : OnlyVec w (movedRegs c w t n d k) (rangeFrom d k) := onlyVec_writeEach c w _ _ hd'
        rw [movRead_vec c w t s cap hn hd1023]
        split
        · exact honly.trans (onlyVec_copyTags _ _ _ _ _ _ (by rw [mem_rangeFrom]; omega))
        · exact honly
  | pred n => exact onlyVec_putMoved c w d _ _ _ hk
  | grp n => exact onlyVec_putMoved c w d _ _ _ hk
  | qp n => exact onlyVec_putMoved c w d _ _ _ hk
  | value x => exact onlyVec_putMoved c w d _ _ _ hk

theorem lane_movRead_vec {n j l : Nat} (hn : n ≠ 1023) (hd : d ≠ 1023) (hd' : d + k ≤ 1023) (hj : j < k) (hl : l < 32)
    (hv : c.live.getLsbD l = true) (ha : c.act.getLsbD l = true) :
    (movRead c w t (.vec n) d k cap s).lane (d + j) l = (t.wave.readIn t.bank (n + j)).val.lane l := by
  have hlane : (movedRegs c w t n d k).lane (d + j) l = (t.wave.readIn t.bank (n + j)).val.lane l := by
    rw [movedRegs, lane_writeEach c w _ _ hd' j hl hv, if_pos ⟨hj, ha⟩]
  rw [movRead_vec c w t s cap hn hd]
  split
  · rw [Wave.lane, bank_setBank, reg_copyTags]
    exact hlane
  · exact hlane
end

/-! ### A value moved out of the handler's bank (R351) -/

/-- `b1` has the path of `b`. -/
structure Bank.OnPath (b b1 : Bank) : Prop where
  pc : b1.pc = b.pc
  mask : b1.mask = b.mask
  rpc : b1.rpc = b.rpc
  ctl : b1.ctl = b.ctl

theorem Bank.OnPath.refl (b : Bank) : b.OnPath b := ⟨rfl, rfl, rfl, rfl⟩

theorem Bank.OnPath.trans {a b c : Bank} (h : a.OnPath b) (h' : b.OnPath c) : a.OnPath c :=
  ⟨h'.pc.trans h.pc, h'.mask.trans h.mask, h'.rpc.trans h.rpc, h'.ctl.trans h.ctl⟩

theorem onPath_write (b : Bank) (act live : Mask) (d : Nat) (x : VVal) (fmt : Nat) : b.OnPath (b.write act live d x fmt) := by
  rw [write_rest]
  exact ⟨rfl, rfl, rfl, rfl⟩

theorem onPath_writePred (b : Bank) (act : Mask) (d : Nat) (m : Mask) : b.OnPath (b.writePred act d m) := by
  unfold Bank.writePred
  split
  · exact .refl b
  · exact ⟨rfl, rfl, rfl, rfl⟩

/-- A bank of a wave written, by one below its own or by its own: the wave stays on its path. -/
theorem samePath_setTarget (t : MovTarget) {b : Bank} (h : t.bank.OnPath b) : SamePath t.wave (t.setBank b) := by
  obtain ⟨slot, w, low⟩ := t
  cases low with
  | false =>
    cases hh : w.handlers with
    | nil =>
      have hbank : ({ w with base := b } : Wave).bank = b ∧ w.bank = w.base := by simp only [Wave.bank, hh, and_self]
      refine ⟨?_, ?_, ?_, ?_, rfl, rfl, rfl, rfl⟩ <;> simp only [MovTarget.setBank, Bool.false_eq_true, if_false, hbank]
      exacts [h.pc, h.mask, h.rpc, h.ctl]
    | cons top rest =>
      refine .of_bank (w1 := { w with base := b }) ?_
      simp only [Wave.bank, hh]
  | true =>
    cases hh : w.handlers with
    | nil =>
      refine .of_bank (w1 := { w with handlers := lmod w.handlers 1 fun _ => b }) ?_ ?_ <;> simp only [Wave.bank, Wave.level, hh, lmod]
    | cons top rest =>
      refine .of_bank (w1 := { w with handlers := lmod w.handlers 1 fun _ => b }) ?_ ?_
      · simp only [Wave.bank, hh, lmod]
      · cases rest <;> simp [Wave.level, hh, lmod]

section
variable (c : Ctx) (w : Wave) (t : MovTarget) (s : State)

/-- What a MOVW writes to a register of its target. -/
def movedOut (a i : Nat) : VReg := if a = 1023 then ⟨.u 0, 0⟩ else c.readV w (a + i)

theorem samePath_movWrite (p : MovPlace) (a k : Nat) (cap : Bool) : SamePath t.wave (movWrite c w t p a k cap s) := by
  cases p with
  | vec n =>
    have hregs : t.bank.OnPath ((List.range k).foldl
        (fun b i => b.write c.act t.wave.live (n + i) (movedOut c w a i).val (movedOut c w a i).fmt) t.bank) :=
      List.foldlRecOn _ _ (motive := t.bank.OnPath) (.refl _) fun b h i _ => h.trans (onPath_write b ..)
    refine samePath_setTarget t ?_
    split
    · obtain ⟨m, hm⟩ := (sameBut_copyTags s.touchesRevoked s.sweeper.running c.act w.bank ((List.range k).foldl
        (fun b i => b.write c.act t.wave.live (n + i) (movedOut c w a i).val (movedOut c w a i).fmt) t.bank) (a / 4) (n / 4)).1
      refine hregs.trans ?_
      show Bank.OnPath _ (copyTags ..)
      exact hm ▸ ⟨rfl, rfl, rfl, rfl⟩
    · exact hregs
  | pred n => exact samePath_setTarget t (onPath_writePred ..)
  | grp n => exact samePath_setTarget t ⟨rfl, rfl, rfl, rfl⟩
  | qp n => exact samePath_setTarget t ⟨rfl, rfl, rfl, rfl⟩
  | value x => exact .refl _

/-- One register of a wave's own level moved. -/
theorem lane_movWrite {n a l : Nat} (hlow : t.low = false) (hn : n < 640) (hl : l < 32) (hact : c.act.getLsbD l = true) (ha : a ≠ 1023) :
    ((movWrite c w t (.vec n) a 1 false s).base.reg n).val.lane l = c.lane w a l := by
  have hw : movWrite c w t (.vec n) a 1 false s =
      { t.wave with base := t.wave.base.write c.act t.wave.live n (c.readV w a).val (c.readV w a).fmt } := by
    simp [movWrite, MovTarget.setBank, MovTarget.bank, hlow, ha]
  rw [hw]
  exact lane_write_active _ _ _ _ _ (by omega) hl hact
end

/-! ### MOVW -/

section
variable {f : VF} {s : State} {core slot : Nat} {w : Wave} {b : Block} {t : MovTarget} {p : MovPlace}

/-- The registers that a MOVW moves. -/
def movCount (x : VArgs) : Nat := if x.sub.testBit 4 then 4 else tyRegs x.ty

theorem movCount_pos (x : VArgs) : 1 ≤ movCount x := by
  unfold movCount
  rw [tyRegs_eq]
  split
  · decide
  · split <;> decide

theorem movErrors_of_none (h : t.wave.errors = []) (act : Mask) (level : Nat) (p : MovPlace) (k : Nat) :
    movErrors act t level p k = (0, none) := by
  cases p <;> simp [movErrors, h]

theorem find?_nothing (l : List Nat) : (l.find? fun _ => false) = none := List.find?_eq_none.mpr fun _ _ => Bool.false_ne_true

/-- A MOVW reads its target where nothing of it is spilled or in error. -/
theorem movwBody_read (x : VArgs) (c : Ctx) (hreach : movwReach x c w s = .ok (t, p)) (hsub : x.sub % 2 = 0)
    (hspill : t.wave.spilled = []) (herr : t.wave.errors = []) :
    movwBody x c w s = .next (s.setWave c.core c.slot (movRead c w t p x.d (movCount x) (x.sub.testBit 4) s)) := by
  have hread : ¬ x.sub % 2 = 1 := by omega
  unfold movwBody
  rw [hreach]
  cases p <;> simp [hspill, hread, movErrors_of_none herr, find?_nothing, movCount]

theorem movwBody_write (x : VArgs) (c : Ctx) (hreach : movwReach x c w s = .ok (t, p)) (hsub : x.sub % 2 = 1)
    (hspill : t.wave.spilled = []) :
    movwBody x c w s = .next (s.setWave c.core t.slot (movWrite c w t p x.a (movCount x) (x.sub.testBit 4) s)) := by
  unfold movwBody
  rw [hreach]
  cases p <;> simp [hspill, hsub, find?_nothing, movCount]

/-- The registers that a reading MOVW names. -/
theorem movw_dst (h : Ready (.movw f) s core slot w b) (hsub : f.sub.toNat % 2 = 0) :
    f.d.toNat = 1023 ∨ (f.d.toNat % movCount (f.args .movw false) = 0 ∧ f.d.toNat + movCount (f.args .movw false) ≤ 672) := by
  refine vec_dst_ok (ready_operands h ⟨.d, .vec (movCount (f.args .movw false)), f.d.toNat, .dst, none⟩ ?_) (by decide)
  show _ ∈ (f.args .movw false).movwOperands
  have hform : (f.args .movw false).sub % 4 = 0 ∨ (f.args .movw false).sub % 4 = 2 := by
    have hs : (f.args .movw false).sub = f.sub.toNat := rfl
    omega
  unfold VArgs.movwOperands
  obtain hform | hform := hform <;> simp only [hform] <;> exact .head _

/-- A MOVW that reads leaves in its destination what its target holds. -/
theorem movw_reads (h : Runs (.movw f) s core slot w b)
    (hreach : movwReach (f.args .movw false) (ctxFor (.movw f) s core slot w) w s = .ok (t, p)) (hsub : f.sub.toNat % 2 = 0)
    (hspill : t.wave.spilled = []) (herr : t.wave.errors = []) :
    Completes (.movw f) s core slot w b (movRead (ctxFor (.movw f) s core slot w) w t p f.d.toNat (movCount (f.args .movw false))
      ((f.args .movw false).sub.testBit 4) s) ∧
    OnlyVec w (movRead (ctxFor (.movw f) s core slot w) w t p f.d.toNat (movCount (f.args .movw false))
      ((f.args .movw false).sub.testBit 4) s) (destRegs f.d.toNat (movCount (f.args .movw false))) := by
  have honly := onlyVec_movRead (ctxFor (.movw f) s core slot w) w t s ((f.args .movw false).sub.testBit 4) p
    (movCount_pos (f.args .movw false)) ((movw_dst h.toReady hsub).imp_right And.right)
  exact ⟨completes_of_setWave rfl h (movwBody_read (f.args .movw false) _ hreach hsub hspill herr) honly.samePath, honly⟩
end

/-! ### ZEMU (R353, R354) -/

section
variable {i : Instr} {s s1 : State} {core slot : Nat} {w : Wave} {b : Block} {body : Body} {d : Nat}
  (he : exec i s = issue i.view (encode i) body false s) (h : Runs i s core slot w b)
include he h

/-- An instruction that changes the part beside the waves and answers with a number completes. -/
theorem completesAt_of_answer {n : Nat}
    (hb : body (ctxFor i s core slot w) w s = .next (s1.setWave core slot ((ctxFor i s core slot w).writeU w d n)))
    (hd : d + 1 ≠ 1023) (hsegs : (s1.core core).segs = (s.core core).segs) (hrun : s1.sweeper.running = s.sweeper.running) :
    ∃ w1, CompletesAt i s core slot w b s1 w1 ∧ Wrote (ctxFor i s core slot w) w w1 d tW32 fun _ => n := by
  have hw : Wrote (ctxFor i s core slot w) w ((ctxFor i s core slot w).writeU w d n) d tW32 fun _ => n :=
    wrote_writeTy _ w d true tW32 _ hd fun _ _ _ => rfl
  refine ⟨_, ?_, hw⟩
  have hc := completesAt_of he h hb (wave_setWave_self _ _ _ _) hw.only.samePath (by rw [core_setWave_segs, hsegs])
    (by rw [setWave_sweeper, hrun, h.sweep])
  have hx : nextPc (s1.setWave core slot ((ctxFor i s core slot w).writeU w d n)) core b w = nextPc s1 core b w :=
    nextValid_congr (core_setWave_segs ..) _ _
  rwa [CompletesAt, hx, setWave_setWave] at hc

/-- One that answers and does nothing else. -/
theorem completes_of_answer {n : Nat}
    (hb : body (ctxFor i s core slot w) w s = .next (s.setWave core slot ((ctxFor i s core slot w).writeU w d n)))
    (hd : d + 1 ≠ 1023) : ∃ w1, Completes i s core slot w b w1 ∧ Wrote (ctxFor i s core slot w) w w1 d tW32 fun _ => n :=
  completesAt_of_answer he h hb hd rfl rfl
end

section
variable {x : VArgs} {c : Ctx} {s : State} {w : Wave} {b : Block} (hb : s.block c.core c.bslot = some b)
  (hw : s.wave c.core c.slot = some w)
include hb hw

theorem zemuBody_absent (hz : b.nTiles ≤ c.low32 w x.a) : zemuBody x c w s = .next (s.setWave c.core c.slot (c.writeU w x.d 3)) := by
  rw [zemuBody, hb]
  simp only [if_pos hz, hw]

theorem zemuBody_qry (hsub : x.sub % 4 = 2) (hz : c.low32 w x.a < b.nTiles) :
    zemuBody x c w s = .next (s.setWave c.core c.slot (c.writeU w x.d ((if (b.tile (c.low32 w x.a)).emulated then 2
      else if b.seqr.flights.any fun f => f.tile == c.low32 w x.a then 1 else 0) + 16 * (b.tile (c.low32 w x.a)).tag))) := by
  rw [zemuBody, hb]
  simp only [if_neg (Nat.not_le.mpr hz), if_pos hsub, hw]

section
variable (hsub : x.sub % 4 = 0) (hz : c.low32 w x.a < b.nTiles)
include hsub hz

theorem zemuBody_mark_emulated (hemu : (b.tile (c.low32 w x.a)).emulated = true) :
    zemuBody x c w s = .next (s.setWave c.core c.slot (c.writeU w x.d 2)) := by
  rw [zemuBody, hb]
  simp [Nat.not_le.mpr hz, hsub, hemu, hw]

theorem zemuBody_mark_flying (hemu : (b.tile (c.low32 w x.a)).emulated = false)
    (hfly : (b.seqr.flights.any fun f => f.tile == c.low32 w x.a) = true) :
    zemuBody x c w s = .next (s.setWave c.core c.slot (c.writeU w x.d 1)) := by
  rw [zemuBody, hb]
  simp only [if_neg (Nat.not_le.mpr hz), hsub, hemu, hfly, hw, Nat.reduceEqDiff, Bool.false_eq_true, if_true, if_false]

/-- The part after a tile's image and its tag are stored in the emulation area. -/
def State.tileStored (s : State) (t : Tile) (a a1 : Nat) : State := (s.store a t.image).store a1 [BitVec.ofNat 8 t.tag]

/-- And its core's lines of them dropped. -/
def State.tileMarked (s : State) (core : Nat) (t : Tile) (a a1 : Nat) : State :=
  ((s.tileStored t a a1).dropLines core a 16384).dropLines core a1 1

omit hb hw hsub hz in
theorem dropLines_sameIssue (s : State) (core a n : Nat) : SameIssue s (s.dropLines core a n) := .setCore s core

omit hb hw hsub hz in
theorem wave_tileMarked (s : State) (core : Nat) (t : Tile) (a a1 c slot : Nat) :
    (s.tileMarked core t a a1).wave c slot = s.wave c slot :=
  (((dropLines_sameIssue ..).trans (dropLines_sameIssue ..)).wave c slot).trans
    (((stored_store ..).wave c slot).trans ((stored_store ..).wave c slot))

omit hb hw hsub hz in
theorem segs_tileMarked (s : State) (core : Nat) (t : Tile) (a a1 c : Nat) :
    ((s.tileMarked core t a a1).core c).segs = (s.core c).segs := by
  have hstored : (s.tileStored t a a1).core c = s.core c := ((stored_store ..).core c).trans ((stored_store ..).core c)
  exact (((dropLines_sameIssue ..).trans (dropLines_sameIssue ..)).segs c).trans (congrArg Core.segs hstored)

omit hb hw hsub hz in
theorem running_tileMarked (s : State) (core : Nat) (t : Tile) (a a1 : Nat) :
    (s.tileMarked core t a a1).sweeper.running = s.sweeper.running := by
  have hstored : (s.tileStored t a a1).sweeper.running = s.sweeper.running := (stored_store ..).running.trans (stored_store ..).running
  exact (congrArg (·.running) ((dropLines_sameIssue ..).trans (dropLines_sameIssue ..)).sweeper).trans hstored

theorem zemuBody_mark {a a1 : Nat} (hemu : (b.tile (c.low32 w x.a)).emulated = false)
    (hfly : (b.seqr.flights.any fun f => f.tile == c.low32 w x.a) = false) (hrel : s.released w 3 255 = true)
    (hbad : b.badTiles.contains (c.low32 w x.a) = false)
    (ha : s.emuAddr c.core b permStore (16384 * c.low32 w x.a) 16384 = some a)
    (ha1 : s.emuAddr c.core b permStore (2097152 + c.low32 w x.a) 1 = some a1) :
    zemuBody x c w s = .next (((s.tileMarked c.core (b.tile (c.low32 w x.a)) a a1).setBlock c.core c.bslot
      (b.setTile (c.low32 w x.a) { b.tile (c.low32 w x.a) with emulated := true })).setWave c.core c.slot (c.writeU w x.d 0)) := by
  have hwave : ((s.tileMarked c.core (b.tile (c.low32 w x.a)) a a1).setBlock c.core c.bslot
      (b.setTile (c.low32 w x.a) { b.tile (c.low32 w x.a) with emulated := true })).wave c.core c.slot = some w := by
    rw [wave_setBlock, wave_tileMarked, hw]
  rw [zemuBody, hb]
  simp only [if_neg (Nat.not_le.mpr hz), hsub, hemu, hfly, hrel, hbad, ha, ha1, Nat.reduceEqDiff, Bool.false_eq_true, Bool.not_true,
    if_true, if_false]
  rw [State.tileMarked, State.tileStored] at hwave ⊢
  rw [hwave]
end

section
variable (hsub : x.sub % 4 = 1) (hz : c.low32 w x.a < b.nTiles)
include hsub hz

theorem zemuBody_rel_own (hemu : (b.tile (c.low32 w x.a)).emulated = false) :
    zemuBody x c w s = .next (s.setWave c.core c.slot (c.writeU w x.d 1)) := by
  rw [zemuBody, hb]
  simp [Nat.not_le.mpr hz, hsub, hemu, hw]

/-- The tile that an image in the emulation area gives. -/
def State.tileAt (s : State) (a a1 : Nat) : Tile :=
  { words := imageWords (s.bytesAt a 16384), tag := imageTag s.tick (s.byte a1).toNat, emulated := false }

/-- The block after a tile is taken back: an image in error leaves it bad. -/
def Block.takenBack (b : Block) (z : Nat) (t : Tile) (bad : Bool) : Block :=
  if bad then { b.setTile z t with badTiles := nins (b.setTile z t).badTiles z } else b.setTile z t

theorem zemuBody_rel {a a1 : Nat} (hemu : (b.tile (c.low32 w x.a)).emulated = true) (hrel : s.released w 3 255 = true)
    (ha : s.emuAddr c.core b permLoad (16384 * c.low32 w x.a) 16384 = some a)
    (ha1 : s.emuAddr c.core b permLoad (2097152 + c.low32 w x.a) 1 = some a1) :
    zemuBody x c w s = .next ((s.setBlock c.core c.bslot (b.takenBack (c.low32 w x.a) (s.tileAt a a1)
      (s.poisoned a 16384 || s.poisoned a1 1))).setWave c.core c.slot (c.writeU w x.d 0)) := by
  rw [zemuBody, hb]
  simp only [if_neg (Nat.not_le.mpr hz), hsub, hemu, hrel, ha, ha1, Nat.reduceEqDiff, Bool.false_eq_true, Bool.not_true,
    if_false, wave_setBlock, hw]
  rfl
end
end

theorem length_image (t : Tile) : t.image.length = 16384 := by
  rw [Tile.image, List.length_flatMap]
  simp only [length_toBytes, List.map_const', List.length_range, List.sum_replicate_nat]

/-- A tile's image and its tag, stored apart, read back. -/
theorem tileStored_reads (s : State) (t : Tile) {a a1 : Nat} (h : a + 16384 ≤ a1 ∨ a1 < a) :
    (s.tileStored t a a1).bytesAt a 16384 = t.image ∧ (s.tileStored t a a1).byte a1 = BitVec.ofNat 8 t.tag := by
  constructor
  · calc (s.tileStored t a a1).bytesAt a 16384 = (s.store a t.image).bytesAt a 16384 :=
          bytesAt_congr fun k hk => by
            rw [State.tileStored, byte_store, if_neg]
            simp only [List.length_singleton]
            omega
      _ = t.image := length_image t ▸ bytesAt_store s a t.image
  · rw [State.tileStored, byte_store, if_pos (by simp), Nat.sub_self]
    rfl

theorem imageTag_of_code {tick n : Nat} (h : n ∈ [0, 1, 3, 11]) : imageTag tick n = n := by
  simp only [List.mem_cons, List.not_mem_nil, or_false] at h
  exact if_pos (by simpa [or_assoc] using h)

/-- Settles O38: a move by the bank that it reaches, and each ZEMU by its answer. -/
theorem windowsAndEmulatedTiles : Obligations.WindowsAndEmulatedTiles := by
  unfold Obligations.WindowsAndEmulatedTiles
  refine ⟨?read, ?write, fun c w t s n a hlow hn l hl hact ha => lane_movWrite c w t s hlow hn hl hact ha, ?mark, ?rel, ?qry⟩
  case read =>
    intro f s core slot w b t p h c x cap k hreach hsub hspill herr
    obtain ⟨hdone, honly⟩ := movw_reads h hreach hsub hspill herr
    refine ⟨_, hdone, honly, fun hd l hl hact => ?_⟩
    have hfit : f.d.toNat % k = 0 ∧ f.d.toNat + k ≤ 672 := (movw_dst h.toReady hsub).resolve_left hd
    have hpos : 1 ≤ k := movCount_pos x
    have hnext : f.d.toNat + 1 ≠ 1023 := by omega
    have hput := fun lo hi fmt => lane_putMoved c w k lo hi fmt hd hnext hl hact
    have hlive : c.live.getLsbD l = true := by
      obtain ⟨-, hpath, hall, -⟩ := activeLanes (.movw f) s core slot w
      exact hall l (hpath l hact)
    refine ⟨fun n hp hn j hj => ?_, fun n hp => ?_, fun n hp => ?_, fun n hp => ?_, fun y hp => ?_⟩
    · subst hp
      exact lane_movRead_vec c w t s cap hn hd (le_trans hfit.2 (by decide)) hj hl hlive hact
    · subst hp
      exact (hput ..).1.trans (Lanes.at_of _ hl)
    · subst hp
      exact hput ..
    · subst hp
      exact (hput ..).1
    · subst hp
      exact hput ..
  case write =>
    intro f s core slot w b t p h c x cap k w1 hreach hsub hspill
    have hb := movwBody_write x c hreach hsub hspill
    refine ⟨fun hslot hwave => ?_, fun hslot => ?_⟩
    · subst hslot hwave
      exact completes_of_setWave rfl h hb (samePath_movWrite ..)
    · exact completesAt_of rfl h hb ((wave_setWave_ne _ _ _ (Ne.symm hslot)).trans h.wave) (.refl w) (by simp) (by simpa using h.sweep)
  case mark =>
    intro f s core slot w b h hsub c z t
    have hd : f.d.toNat + 1 ≠ 1023 := dst_not_1022 (ready_operands h.toReady ⟨.d, .vec 1, f.d.toNat, .dst, none⟩ (.head _))
    refine ⟨fun hz => ?_, fun hz hemu => ?_, fun hz hemu hfly => ?_,
      fun a a1 hz hemu hfly hrel hbad ha ha1 => ⟨?_, tileStored_reads s t⟩⟩
    · exact completes_of_answer rfl h (zemuBody_absent (x := f.args .zemu false) h.block h.wave hz) hd
    · exact completes_of_answer rfl h (zemuBody_mark_emulated (x := f.args .zemu false) h.block h.wave hsub hz hemu) hd
    · have hany : (b.seqr.flights.any fun x => x.tile == z) = true := by simpa using hfly
      exact completes_of_answer rfl h (zemuBody_mark_flying (x := f.args .zemu false) h.block h.wave hsub hz hemu hany) hd
    · have hnone : (b.seqr.flights.any fun x => x.tile == z) = false := by simpa using hfly
      have hgood : b.badTiles.contains z = false := by simpa using hbad
      refine completesAt_of_answer rfl h
        (zemuBody_mark (x := f.args .zemu false) h.block h.wave hsub hz hemu hnone hrel hgood ha ha1) hd ?_ ?_
      · exact (core_setBlock_segs ..).trans (segs_tileMarked s core t a a1 core)
      · rw [setBlock_sweeper]
        exact running_tileMarked s core t a a1
  case rel =>
    intro f s core slot w b h hsub c z t
    have hd : f.d.toNat + 1 ≠ 1023 := dst_not_1022 (ready_operands h.toReady ⟨.d, .vec 1, f.d.toNat, .dst, none⟩ (.head _))
    refine ⟨fun hz => ?_, fun hz hemu => ?_, fun a a1 hz hemu hrel ha ha1 => ?_⟩
    · exact completes_of_answer rfl h (zemuBody_absent (x := f.args .zemu false) h.block h.wave hz) hd
    · exact completes_of_answer rfl h (zemuBody_rel_own (x := f.args .zemu false) h.block h.wave hsub hz hemu) hd
    · intro t1 b1 bad
      have hdone := completesAt_of_answer rfl h
        (zemuBody_rel (x := f.args .zemu false) h.block h.wave hsub hz hemu hrel ha ha1) hd (core_setBlock_segs ..) (by simp)
      have htag := fun hcode => imageTag_of_code (tick := s.tick) (n := (s.byte a1).toNat) hcode
      refine ⟨htag, fun hgood => ?_, fun hbad => ?_⟩
      · have hok : (s.poisoned a 16384 || s.poisoned a1 1) = false := by simpa [bad] using hgood
        rw [hok] at hdone
        exact hdone
      · have hpois : (s.poisoned a 16384 || s.poisoned a1 1) = true := by simpa [bad] using hbad
        rw [hpois] at hdone
        exact hdone
  case qry =>
    intro f s core slot w b h hsub c z t flying
    have hd : f.d.toNat + 1 ≠ 1023 := dst_not_1022 (ready_operands h.toReady ⟨.d, .vec 1, f.d.toNat, .dst, none⟩ (.head _))
    by_cases hz : b.nTiles ≤ z
    · simp only [if_pos hz]
      exact completes_of_answer rfl h (zemuBody_absent (x := f.args .zemu false) h.block h.wave hz) hd
    · simp only [if_neg hz]
      exact completes_of_answer rfl h (zemuBody_qry (x := f.args .zemu false) h.block h.wave hsub (Nat.not_le.mp hz)) hd

end Sys2Proof.Machine
end
section
/-!
The requests of other devices (O39): what the link takes is served, and what serving each of them comes to.
-/

namespace Sys2Proof.Machine

/-! ### Reads and writes (R333) -/

/-- What a port counts of a request that it discards. -/
def State.countDiscard (s : State) (p : Nat) : State :=
  { s with ports := kmod s.ports p fun q => { q with discarded := q.discarded + 1 } }

/-- A read or a write parked while a host page is asked for (R474). -/
def State.park (s : State) (p : Nat) (f : Flit) : State := { s with parked := s.parked ++ [(p, f)] }

section
variable {s : State} {p : Nat} {q : Port} {f : Flit} {kind : Nat}

theorem takeAccess_of_bad (h : Arrives s p q f kind) (hbad : numIn f.payload 8 2 = 0 ∨ 192 < numIn f.payload 8 2 ∨
    f.payload.length ≠ if kind = 3 then 16 + numIn f.payload 8 2 else 16) :
    s.takeAccess p f kind = (s.took p q f).countDiscard p := by
  rw [State.takeAccess, receive_of_arrives h]
  exact if_pos (by simpa [or_assoc] using hbad)

theorem takeAccess_of_sized (h : Arrives s p q f kind) (hpos : 0 < numIn f.payload 8 2) (hfit : numIn f.payload 8 2 ≤ 192)
    (hlen : f.payload.length = if kind = 3 then 16 + numIn f.payload 8 2 else 16) :
    s.takeAccess p f kind = (s.took p q f).serve p f := by
  rw [State.takeAccess, receive_of_arrives h]
  exact if_neg (by simp only [Bool.or_eq_true, decide_eq_true_eq]; omega)

/-- A request served at once is answered. -/
theorem serve_of_answered {t : State} (h : (if f.kind.toNat = 1 then s.serveRead p f else s.serveWrite p f) = .answered t) :
    s.serve p f = t := by
  rw [State.serve, h]

theorem serve_of_waits {t : State} (h : (if f.kind.toNat = 1 then s.serveRead p f else s.serveWrite p f) = .waits t) :
    s.serve p f = t.park p f := by
  rw [State.serve, h]
  rfl
end

/-- The checks that a read and a write have before them: the tenant table, the access's own checks, the host pages (R332, R335, R474). -/
def State.screened (s : State) (f : Flit) (fail : State → Nat → Served) (go : Served) : Served :=
  if !s.accepts f then fail s 2
  else match s.remoteCheck (tenantColour (s.entryOf f)) (numIn f.payload 10 1) (numIn f.payload 0 8) (numIn f.payload 8 2) with
    | some code => fail s code
    | none =>
      match s.flitPages f (numIn f.payload 0 8) (numIn f.payload 8 2) with
      | .waits s1 => .waits s1
      | .failed s1 => fail s1 3
      | .ready => go

/-- Whether an access is one of a capability: its detail says so, and it has the size and alignment of one (R334). -/
def flitOfCap (f : Flit) : Prop := numIn f.payload 11 1 = 1 ∧ numIn f.payload 8 2 = 16 ∧ numIn f.payload 0 8 % 16 = 0

/-- The first unit of the answer to a read that is served. -/
def State.readHead (s : State) (f : Flit) : List Byte :=
  replyHead 0 (s.poisonUnits (numIn f.payload 0 8) (numIn f.payload 8 2)) 0

/-- A read of bytes. -/
def State.readBytes (s : State) (p : Nat) (f : Flit) : State :=
  s.reply p f 2 (s.readHead f ++ s.bytesAt (numIn f.payload 0 8) (numIn f.payload 8 2)) 0 0

/-- A read of a capability, which leaves the part sealed (R334). -/
def State.readCap (s : State) (p : Nat) (f : Flit) : State :=
  s.reply p f 2 (s.readHead f ++ toBytes 16 (fabricSeal (s.capAt (numIn f.payload 0 8)).bits).1.toNat) 2
    (fabricSeal (s.capAt (numIn f.payload 0 8)).bits).2

/-- The units that a write names poisoned, in memory (R325). -/
def State.marked (s : State) (f : Flit) : State :=
  { s with poison := ((List.range ((numIn f.payload 0 8 % 64 + numIn f.payload 8 2 + 63) / 64)).filter fun i =>
      (numIn f.payload 12 1).testBit i).foldl (fun m i => nins m (numIn f.payload 0 8 / 64 + i)) s.poison }

/-- The answers that carry a code alone. -/
def State.ackRead (p : Nat) (f : Flit) (s : State) (code : Nat) : State := s.reply p f 2 (replyHead code 0 0) 0 0

def State.ackWrite (p : Nat) (f : Flit) (s : State) (code : Nat) : State := s.reply p f 4 (replyHead code 0 0) 0 0

section
variable (s : State) (p : Nat) (f : Flit)

theorem serveRead_plain (h : ¬(flitOfCap f ∧ numIn f.payload 0 8 / 16 ∈ s.tags)) :
    s.serveRead p f = s.screened f (fun u code => .answered (u.ackRead p f code)) (.answered (s.readBytes p f)) := by
  have hno : (decide (numIn f.payload 11 1 = 1) && decide (numIn f.payload 8 2 = 16) && decide (numIn f.payload 0 8 % 16 = 0) &&
      s.tags.contains (numIn f.payload 0 8 / 16)) = false := by
    simpa [flitOfCap, and_assoc] using h
  simp only [State.serveRead, hno, Bool.false_eq_true, if_false]
  rfl

theorem serveRead_sealed (h : flitOfCap f ∧ numIn f.payload 0 8 / 16 ∈ s.tags) :
    s.serveRead p f = s.screened f (fun u code => .answered (u.ackRead p f code)) (.answered (s.readCap p f)) := by
  have hyes : (decide (numIn f.payload 11 1 = 1) && decide (numIn f.payload 8 2 = 16) && decide (numIn f.payload 0 8 % 16 = 0) &&
      s.tags.contains (numIn f.payload 0 8 / 16)) = true := by
    simpa [flitOfCap, and_assoc] using h
  simp only [State.serveRead, hyes, if_true]
  rfl

theorem serveWrite_plain (h : ¬(flitOfCap f ∧ rangeOf (numIn f.payload 0 8) = .hbm)) :
    s.serveWrite p f = s.screened f (fun u code => .answered (u.ackWrite p f code))
      (.answered (((s.store (numIn f.payload 0 8) ((f.payload.drop 16).take (numIn f.payload 8 2))).marked f).ackWrite p f 0)) := by
  have hno : (decide (numIn f.payload 11 1 = 1) && decide (numIn f.payload 8 2 = 16) && decide (numIn f.payload 0 8 % 16 = 0) &&
      rangeOf (numIn f.payload 0 8) == .hbm) = false := by
    simpa [flitOfCap, and_assoc] using h
  simp only [State.serveWrite, hno, Bool.false_eq_true, if_false]
  rfl

/-- A capability that comes in is stored with the tag that it keeps (R334). -/
theorem serveWrite_sealed (h : flitOfCap f ∧ rangeOf (numIn f.payload 0 8) = .hbm) :
    s.serveWrite p f = s.screened f (fun u code => .answered (u.ackWrite p f code))
      (.answered (((s.storeCap (numIn f.payload 0 8) (s.unsealed f).1 (s.unsealed f).2).marked f).ackWrite p f 0)) := by
  have hyes : (decide (numIn f.payload 11 1 = 1) && decide (numIn f.payload 8 2 = 16) && decide (numIn f.payload 0 8 % 16 = 0) &&
      rangeOf (numIn f.payload 0 8) == .hbm) = true := by
    simpa [flitOfCap, and_assoc] using h
  simp only [State.serveWrite, hyes, if_true]
  rfl
end

section
variable {s : State} {p : Nat} {f : Flit} {ack : State → Nat → State} {last : State}
  (hserve : (if f.kind.toNat = 1 then s.serveRead p f else s.serveWrite p f) =
    s.screened f (fun u code => .answered (ack u code)) (.answered last))
include hserve

theorem serve_of_refused (h : s.accepts f = false) : s.serve p f = ack s 2 := by
  refine serve_of_answered (hserve.trans ?_)
  rw [State.screened, h]
  rfl

section
variable (h : s.accepts f = true)
include h

theorem serve_of_failed {code : Nat} (hcheck : s.remoteCheck (tenantColour (s.entryOf f)) (numIn f.payload 10 1) (numIn f.payload 0 8)
    (numIn f.payload 8 2) = some code) : s.serve p f = ack s code := by
  refine serve_of_answered (hserve.trans ?_)
  rw [State.screened, h, hcheck]
  rfl

variable (hcheck : s.remoteCheck (tenantColour (s.entryOf f)) (numIn f.payload 10 1) (numIn f.payload 0 8) (numIn f.payload 8 2) = none)
include hcheck

/-- What the host pages leave of a request: it is parked, failed with code 3, or served (R474). -/
theorem serve_of_paged :
    (s.flitPages f (numIn f.payload 0 8) (numIn f.payload 8 2) = .ready → s.serve p f = last) ∧
    (∀ u, s.flitPages f (numIn f.payload 0 8) (numIn f.payload 8 2) = .waits u → s.serve p f = u.park p f) ∧
    (∀ u, s.flitPages f (numIn f.payload 0 8) (numIn f.payload 8 2) = .failed u → s.serve p f = ack u 3) := by
  refine ⟨fun hpages => serve_of_answered (hserve.trans ?_), fun u hpages => serve_of_waits (hserve.trans ?_),
    fun u hpages => serve_of_answered (hserve.trans ?_)⟩ <;> rw [State.screened, h, hcheck, hpages] <;> rfl
end
end

/-! ### Capabilities that come in (R334) -/

theorem unsealed_tag (s : State) (f : Flit) : (s.unsealed f).2 = true ↔
    f.ctag.getLsbD 1 = true ∧ s.accepts f = true ∧ field f.cot.toNat 6 6 ≠ 3 := by
  unfold State.unsealed
  cases f.ctag.getLsbD 1 <;> simp

theorem unsealed_bytes (s : State) {f : Flit} (h : f.ctag.getLsbD 1 = true) : (s.unsealed f).1 =
    toBytes 16 (setField (setField (BitVec.ofNat 128 (ofBytes ((f.payload.drop 16).take 16))) 64 6 (field f.cot.toNat 6 6)) 56 8
      (tenantColour (s.entryOf f))).toNat := by
  rw [State.unsealed, h]
  rfl

/-! ### Atomics (R337) -/

section
variable {s : State} {p : Nat} {q : Port} {f : Flit}

/-- An atomic of a size, an operation and a count that a flit may name. -/
def atomicFits (f : Flit) : Prop :=
  (numIn f.payload 8 2 = 4 ∨ numIn f.payload 8 2 = 8) ∧ numIn f.payload 11 1 % 16 ≤ 8 ∧ numIn f.payload 12 1 ≤ 32

theorem takeAtomic_of_bad (h : Arrives s p q f 5) (hbad : ¬atomicFits f) : s.takeAtomic p f = (s.took p q f).countDiscard p := by
  rw [State.takeAtomic, receive_of_arrives h]
  refine if_pos ?_
  simp only [atomicFits] at hbad
  simp only [Bool.or_eq_true, Bool.and_eq_true, decide_eq_true_eq]
  omega

theorem takeAtomic_of_fits (h : Arrives s p q f 5) (hfit : atomicFits f) : s.takeAtomic p f = (s.took p q f).serveAtomic p f := by
  rw [State.takeAtomic, receive_of_arrives h]
  refine if_neg ?_
  simp only [atomicFits] at hfit
  simp only [Bool.or_eq_true, Bool.and_eq_true, decide_eq_true_eq]
  omega

theorem serveAtomic_of_part {u : State} (h : s.assemble f false (numIn f.payload 13 1) = (none, u)) : s.serveAtomic p f = u := by
  rw [State.serveAtomic, h]

section
variable {bs : List Byte} {u : State} (hparts : s.assemble f false (numIn f.payload 13 1) = (some bs, u))
include hparts

theorem serveAtomic_of_refused (hno : u.accepts f = false) : s.serveAtomic p f = u.reply p f 6 (replyHead 2 0 16) 0 0 := by
  simp only [State.serveAtomic, hparts, hno, Bool.not_false, if_true]

section
variable (hyes : u.accepts f = true)
include hyes

theorem serveAtomic_of_elsewhere (hrange : rangeOf (numIn f.payload 0 8) ≠ .hbm) :
    s.serveAtomic p f = u.reply p f 6 (replyHead 3 0 16) 0 0 := by
  simp only [State.serveAtomic, hparts, hyes, bne_iff_ne.mpr hrange, Bool.not_true, Bool.false_eq_true, if_false, if_true]

variable (hrange : rangeOf (numIn f.payload 0 8) = .hbm)
include hrange

theorem serveAtomic_of_failed {code : Nat} (hcheck : u.remoteCheck (tenantColour (u.entryOf f)) (numIn f.payload 10 1)
    (numIn f.payload 0 8) (numIn f.payload 8 2) = some code) : s.serveAtomic p f = u.reply p f 6 (replyHead code 0 16) 0 0 := by
  simp [State.serveAtomic, hparts, hyes, hrange, hcheck]

variable (hcheck : u.remoteCheck (tenantColour (u.entryOf f)) (numIn f.payload 10 1) (numIn f.payload 0 8) (numIn f.payload 8 2) = none)
include hcheck

/-- The operands of an atomic's flits. -/
def atomicChain (f : Flit) (bs : List Byte) : Chain := chainOf (numIn f.payload 8 2) (numIn f.payload 11 1) (numIn f.payload 12 1) bs

theorem serveAtomic_of_poisoned (hbad : u.poisoned (numIn f.payload 0 8) (numIn f.payload 8 2) = true) : s.serveAtomic p f =
    u.replyOlds p f true (List.replicate (numIn f.payload 8 2 * (atomicChain f bs).lanes.length) 0) := by
  simp [State.serveAtomic, hparts, hyes, hrange, hcheck, hbad, atomicChain]

theorem serveAtomic_of_sound (hgood : u.poisoned (numIn f.payload 0 8) (numIn f.payload 8 2) = false) : s.serveAtomic p f =
    ((u.storeNum (numIn f.payload 0 8) (numIn f.payload 8 2)
        ((atomicChain f bs).run (u.numAt (numIn f.payload 0 8) (numIn f.payload 8 2))).2).heat (numIn f.payload 0 8 / 64)).replyOlds p f
      false (((atomicChain f bs).run (u.numAt (numIn f.payload 0 8) (numIn f.payload 8 2))).1.flatMap fun x =>
        toBytes (numIn f.payload 8 2) x.2) := by
  simp [State.serveAtomic, hparts, hyes, hrange, hcheck, hgood, atomicChain]
end
end
end

/-! ### Collectives and launches (R327, R339) -/

theorem takeCollective_of_arrives {s : State} {p : Nat} {q : Port} {f : Flit} {kind : Nat} (h : Arrives s p q f kind) :
    s.takeCollective p f kind = if (s.took p q f).accepts f
      then (s.took p q f).groupFlit (tenantColour ((s.took p q f).entryOf f)) (kind == 8) f.payload
      else (s.took p q f).refuseGroup p f (kind == 8) := by
  rw [State.takeCollective, receive_of_arrives h]

theorem refuseGroup_control (s : State) (p : Nat) (f : Flit) : s.refuseGroup p f true =
    if numIn f.payload 11 5 = 0 then s.reply p f 8 (f.payload.take 11 ++ toBytes 5 2) 0 0 else s := by
  rw [State.refuseGroup]
  by_cases h : numIn f.payload 11 5 = 0 <;> simp [h]

theorem launchRefused_took (s : State) (p : Nat) (q : Port) (f : Flit) : (s.took p q f).launchRefused = s.launchRefused := by
  unfold State.took State.pump
  dsimp only
  split <;> rfl

theorem launchRefused_stopQueue (s : State) (n cause : Nat) : (s.stopQueue n cause).launchRefused = s.launchRefused := by
  unfold State.stopQueue
  split
  · rfl
  next q _ =>
    refine (congrArg State.launchRefused (stored_putRecord ((s.setQueue n { q with error := true }).unmapQueue n) _).rest :).trans ?_
    unfold State.unmapQueue
    split <;> rfl

/-- A launch packet's refusal: an answer with its outcome, and a count (R339). -/
def State.refuseLaunch (s : State) (p : Nat) (f : Flit) (outcome : Nat) : State :=
  { (s.reply p f 4 (toBytes 8 outcome ++ toBytes 8 0) 0 0) with launchRefused := s.launchRefused + 1 }

section
variable {s : State} {p : Nat} {q : Port} {f : Flit} (h : Arrives s p q f 9)
include h

theorem takeLaunch_of_noTarget (htarget : (s.took p q f).launchTarget f = none) :
    s.takeLaunch p f = (s.took p q f).refuseLaunch p f 1 := by
  simp only [State.takeLaunch, receive_of_arrives h, htarget]
  rfl

section
variable {n : Nat} {r : Queue} (htarget : (s.took p q f).launchTarget f = some (n, r))
include htarget

theorem takeLaunch_of_noIndex (hindex : (s.took p q f).indexBlock r = none) :
    s.takeLaunch p f = ((s.took p q f).stopQueue n 4).refuseLaunch p f 1 := by
  simp only [State.takeLaunch, receive_of_arrives h, htarget, hindex]
  rfl

section
variable {ix : Nat} (hindex : (s.took p q f).indexBlock r = some ix)
include hindex

theorem takeLaunch_of_full (hfull : 2 ^ r.size < (s.took p q f).numAt ix 8 + 1 - (s.took p q f).numAt (ix + 64) 8) :
    s.takeLaunch p f = (s.took p q f).refuseLaunch p f 2 := by
  simp only [State.takeLaunch, receive_of_arrives h, htarget, hindex, if_pos hfull]
  rfl

variable (hroom : ¬2 ^ r.size < (s.took p q f).numAt ix 8 + 1 - (s.took p q f).numAt (ix + 64) 8)
include hroom

theorem takeLaunch_of_noSlot (hslot : (s.took p q f).ringSlot r ((s.took p q f).numAt ix 8) = none) :
    s.takeLaunch p f = ((s.took p q f).stopQueue n 4).refuseLaunch p f 1 := by
  simp only [State.takeLaunch, receive_of_arrives h, htarget, hindex, if_neg hroom, hslot]
  rfl

/-- A launch packet is appended: the write index, then the packet with its first bytes last, then the doorbell (R339, R414). -/
theorem takeLaunch_of_slot {a : Nat} (hslot : (s.took p q f).ringSlot r ((s.took p q f).numAt ix 8) = some a) :
    s.takeLaunch p f = (((((s.took p q f).storeNum ix 8 ((s.took p q f).numAt ix 8 + 1)).store (a + 8) (f.payload.drop 8)).store a
      (f.payload.take 8)).setQueue n { r with doorbell := true }).reply p f 4 (toBytes 16 0) 0 0 := by
  simp only [State.takeLaunch, receive_of_arrives h, htarget, hindex, if_neg hroom, hslot]
end
end
end

/-! ### Replies (R333, R338) -/

section
variable {s : State} {p : Nat} {f : Flit} {kind : Nat} {bs : List Byte} {ctag : BitVec 13} {cot : BitVec 78} {q : Port}

theorem reply_of_colour (hcol : s.replyColour f ≠ 0) :
    s.reply p f kind bs ctag cot = s.sendFlit ((s.route f.sdev.toNat).getD p) (s.response f kind bs ctag cot) := if_neg hcol

theorem sendFlit_of_room {o : Nat} {g : Flit} (hport : kget s.ports o = some q) (hqueued : q.queued = []) (hroom : q.window.length < 64) :
    s.sendFlit o g = { s with ports := kset s.ports o (q.post (s.now (portDie o)) g) } := by
  simp [State.sendFlit, hport, hqueued, hroom]

theorem sendFlit_of_full {o : Nat} {g : Flit} (hport : kget s.ports o = some q) (hfull : q.queued ≠ [] ∨ 64 ≤ q.window.length) :
    s.sendFlit o g = { s with ports := kset s.ports o { q with queued := q.queued ++ [g] } } := by
  have hno : (q.queued.isEmpty && decide (q.window.length < 64)) = false := by
    obtain hqueued | hlong := hfull
    · simp [hqueued]
    · simp [hlong]
  simp only [State.sendFlit, hport, hno, Bool.false_eq_true, if_false]
end

/-- Settles O39: each request by what the link takes and what serving it comes to. -/
theorem loessRequests : Obligations.LoessRequests := by
  unfold Obligations.LoessRequests
  refine ⟨?read, ?write, ?stripped, ?atomic, ?data, ?control, ?launch, ?reply⟩
  case read =>
    intro p f s q h t a n check sealed answer
    have hread : ∀ g : Served, (if f.kind.toNat = 1 then t.serveRead p f else g) = t.serveRead p f := fun _ => if_pos h.type
    have hone : ∃ last, t.serveRead p f = t.screened f (fun u code => .answered (u.ackRead p f code)) (.answered last) ∧
        (¬sealed → last = t.readBytes p f) ∧ (sealed → last = t.readCap p f) := by
      by_cases hsealed : sealed
      · exact ⟨_, serveRead_sealed t p f (by simpa [sealed, flitOfCap, and_assoc] using hsealed), absurd hsealed, fun _ => rfl⟩
      · exact ⟨_, serveRead_plain t p f (by simpa [sealed, flitOfCap, and_assoc] using hsealed), fun _ => rfl,
          fun h => absurd h hsealed⟩
    obtain ⟨last, hlast, hplain, hcap⟩ := hone
    have hserve := (hread (t.serveWrite p f)).trans hlast
    refine ⟨fun hbad => congrArg Host.Outcome.next (takeAccess_of_bad h hbad), fun hlen hpos hfit => ?_⟩
    have htake : exec (.read p f) s = .next (t.serve p f) := congrArg Host.Outcome.next (takeAccess_of_sized h hpos hfit hlen)
    refine ⟨fun hno => ?_, fun hyes code hcheck => ?_, fun hyes hcheck => ?_⟩
    · exact htake.trans (congrArg Host.Outcome.next (serve_of_refused hserve hno))
    · exact htake.trans (congrArg Host.Outcome.next (serve_of_failed hserve hyes hcheck))
    · obtain ⟨hready, hwaits, hfailed⟩ := serve_of_paged hserve hyes hcheck
      cases hpages : t.flitPages f a n with
      | ready =>
        refine ⟨fun hno => ?_, fun hyes => ?_⟩
        · exact htake.trans (congrArg Host.Outcome.next ((hready hpages).trans (hplain hno)))
        · exact htake.trans (congrArg Host.Outcome.next ((hready hpages).trans (hcap hyes)))
      | waits u => exact htake.trans (congrArg Host.Outcome.next (hwaits u hpages))
      | failed u => exact htake.trans (congrArg Host.Outcome.next (hfailed u hpages))
  case write =>
    intro p f s q h t a n check sealed units marked answer
    have hwrite : ∀ g : Served, (if f.kind.toNat = 1 then g else t.serveWrite p f) = t.serveWrite p f :=
      fun _ => if_neg (h.type ▸ by decide)
    have hone : ∃ u, t.serveWrite p f = t.screened f (fun u code => .answered (u.ackWrite p f code))
          (.answered ((u.marked f).ackWrite p f 0)) ∧
        (¬sealed → u = t.store a ((f.payload.drop 16).take n)) ∧ (sealed → u = t.storeCap a (t.unsealed f).1 (t.unsealed f).2) := by
      by_cases hsealed : sealed
      · exact ⟨_, serveWrite_sealed t p f (by simpa [sealed, flitOfCap, and_assoc] using hsealed), absurd hsealed, fun _ => rfl⟩
      · exact ⟨_, serveWrite_plain t p f (by simpa [sealed, flitOfCap, and_assoc] using hsealed), fun _ => rfl,
          fun h => absurd h hsealed⟩
    obtain ⟨u0, hlast, hplain, hcap⟩ := hone
    have hserve := (hwrite (t.serveRead p f)).trans hlast
    refine ⟨fun hbad => congrArg Host.Outcome.next (takeAccess_of_bad h hbad), fun hlen hpos hfit => ?_⟩
    have htake : exec (.write p f) s = .next (t.serve p f) := congrArg Host.Outcome.next (takeAccess_of_sized h hpos hfit hlen)
    refine ⟨fun hno => ?_, fun hyes code hcheck => ?_, fun hyes hcheck => ?_⟩
    · exact htake.trans (congrArg Host.Outcome.next (serve_of_refused hserve hno))
    · exact htake.trans (congrArg Host.Outcome.next (serve_of_failed hserve hyes hcheck))
    · obtain ⟨hready, hwaits, hfailed⟩ := serve_of_paged hserve hyes hcheck
      cases hpages : t.flitPages f a n with
      | ready =>
        have hdone := htake.trans (congrArg Host.Outcome.next (hready hpages))
        exact ⟨fun hno => hplain hno ▸ hdone, fun hyes => hcap hyes ▸ hdone⟩
      | waits u => exact htake.trans (congrArg Host.Outcome.next (hwaits u hpages))
      | failed u => exact htake.trans (congrArg Host.Outcome.next (hfailed u hpages))
  case stripped =>
    intro s f
    exact ⟨unsealed_tag s f, unsealed_bytes s⟩
  case atomic =>
    intro p f s q h t n a fit
    refine ⟨fun hbad => congrArg Host.Outcome.next (takeAtomic_of_bad h hbad), fun hfit u hparts => ?_, fun hfit bs u hparts => ?_⟩
    · exact congrArg Host.Outcome.next ((takeAtomic_of_fits h hfit).trans (serveAtomic_of_part hparts))
    · have htake : ∀ {v}, t.serveAtomic p f = v → exec (.atomic p f) s = .next v :=
        fun hv => congrArg Host.Outcome.next ((takeAtomic_of_fits h hfit).trans hv)
      exact ⟨fun hno => htake (serveAtomic_of_refused hparts hno),
        fun hyes hrange => htake (serveAtomic_of_elsewhere hparts hyes hrange),
        fun hyes hrange code hcheck => htake (serveAtomic_of_failed hparts hyes hrange hcheck),
        fun hyes hrange hcheck hbad => htake (serveAtomic_of_poisoned hparts hyes hrange hcheck hbad),
        fun hyes hrange hcheck hgood => htake (serveAtomic_of_sound hparts hyes hrange hcheck hgood)⟩
  case data =>
    intro p f s q h t
    exact congrArg Host.Outcome.next (takeCollective_of_arrives h)
  case control =>
    intro p f s q h t
    refine (congrArg Host.Outcome.next (takeCollective_of_arrives h)).trans ?_
    rw [← refuseGroup_control]
    rfl
  case launch =>
    intro p f s q h t refused
    have hcount : ∀ u outcome, u.launchRefused = s.launchRefused → s.takeLaunch p f = u.refuseLaunch p f outcome →
        refused u outcome := by
      intro u outcome hu htake
      refine (congrArg Host.Outcome.next htake).trans ?_
      rw [State.refuseLaunch, hu]
    have ht : t.launchRefused = s.launchRefused := launchRefused_took s p q f
    have hstop : ∀ n, (t.stopQueue n 4).launchRefused = s.launchRefused := fun n => (launchRefused_stopQueue t n 4).trans ht
    refine ⟨fun hnone => hcount t 1 ht (takeLaunch_of_noTarget h hnone), fun n r htarget => ⟨fun hindex => ?_, fun ix hindex => ?_⟩⟩
    · exact hcount _ 1 (hstop n) (takeLaunch_of_noIndex h htarget hindex)
    · exact ⟨fun hfull => hcount t 2 ht (takeLaunch_of_full h htarget hindex hfull),
        fun hroom hslot => hcount _ 1 (hstop n) (takeLaunch_of_noSlot h htarget hindex hroom hslot),
        fun a hroom hslot => congrArg Host.Outcome.next (takeLaunch_of_slot h htarget hindex hroom hslot)⟩
  case reply =>
    intro s p f kind bs ctag cot q o g x hport
    refine ⟨fun hzero => if_pos hzero, fun hcol hqueued hroom => (reply_of_colour hcol).trans (sendFlit_of_room hport hqueued hroom),
      fun hcol hfull => (reply_of_colour hcol).trans (sendFlit_of_full hport hfull), rfl, rfl, ?_, ?_, rfl, flitSound_flitSealed _⟩
    · exact BitVec.ofNat_toNat ..
    · exact BitVec.ofNat_toNat ..

end Sys2Proof.Machine
end
